-- ==== Sys2Proof/Word.lean ====
section
/-! DEFINITION. The words of the machine: bytes, 32-bit words, byte strings, and the sparse maps in which the
state keeps its memories and its numbered collections. -/

namespace Sys2Proof

/-- One byte (00 R7). -/
abbrev Byte := BitVec 8

/-- A byte string, lowest address first. -/
abbrev Bytes := List Byte

/-- A 32-bit word of a Carr core (09 R262). -/
abbrev W32 := BitVec 32

/-- A 512-bit vector register of a Carr core (09 R262). -/
abbrev W512 := BitVec 512

/-- A sparse map from natural numbers: pairs with strictly rising keys. -/
abbrev KMap (α : Type) := List (Nat × α)

/-- An addressed memory: cells with strictly rising addresses, none holding the value an unlisted address reads as. -/
abbrev Memory := List Host.Cell

end Sys2Proof
end

