-- ==== Sys2Proof/Syntax.lean ====
section
/-! DEFINITION. The commands of the block, one constructor for each row of the table of operations and events, and the
operand types they carry. -/

namespace Sys2Proof

/-- The path an object message takes (02 R47, R52, R57): mailbox m of a host port, an Afwell session of a side-band
port, a fabric-management frame of a node, or the test port (20 R576, R577). -/
inductive Path where
  | mbox (port m : Nat)
  | side (port session : Nat)
  | fabric (node : Nat)
  | test
deriving DecidableEq, Repr

/-- The fields of an object message without its opcode (02 R43). -/
structure Req where
  tag  : Nat := 0
  idx  : Nat := 0
  sub  : Nat := 0
  ty   : Nat := 0
  off  : Nat := 0
  last : Bool := false
  data : Bytes := []
deriving DecidableEq, Repr

/-- An object message (02 R43). -/
structure Msg where
  op  : Nat
  req : Req
deriving DecidableEq, Repr

/-- The response to an object message (02 R43, R46). -/
structure Reply where
  op     : Nat
  tag    : Nat
  idx    : Nat
  sub    : Nat
  ty     : Nat
  off    : Nat
  status : Nat
  data   : Bytes
deriving DecidableEq, Repr

/-- A received Afwell frame (02 R53). `tagOk` is the verdict of AES-256-GCM on its tag, and the messages are the
decrypted ones. -/
structure AfFrame where
  magic   : Nat
  major   : Nat
  minor   : Nat
  flags   : Nat
  session : Nat
  seq     : Nat
  keyId   : Nat
  msgs    : List Msg
  tagOk   : Bool
deriving DecidableEq, Repr

/-- A routed flit (16 R443). -/
structure Flit where
  type  : Nat
  cls   : Nat
  dst   : Nat
  src   : Nat
  owner : Nat
  hops  : Nat
  tag   : Nat
  last  : Bool
  data  : Bytes
deriving DecidableEq, Repr

/-- What a flit slot of a received frame holds: an idle slot or one with another unsequenced flit is none; a slot with a flit
gives its link sequence and whether its CRC checks (16 R438, R440). -/
structure RxSlot where
  seq  : Nat
  crc  : Bool
  flit : Flit
deriving DecidableEq, Repr

/-- The fields of a CTL flit (16 R447). `freed` are the credits of REQ, RSP and BULK; the last three are its training
fields. -/
structure Ctl where
  seq     : Nat
  nak     : Bool
  ack     : Nat
  freed   : List Nat
  cmd     : Nat
  arg     : Nat
  first   : Nat
  count   : Nat
  key     : Nat
  counter : Nat
  node    : Nat
  range   : Nat
  partner : Nat
deriving DecidableEq, Repr

/-- The commands. The number after each summary is the rule that governs the row. -/
inductive Instr where
  /-- An object message READ returns the value of a non-DOMAIN object after the access, type and ownership checks (R44). -/
  | read (pa : Path) (rq : Req)
  /-- An object message WRITE sets a non-DOMAIN object that has no row of its own, after the type, range, owner, lock and state checks (R44). -/
  | write (pa : Path) (rq : Req)
  /-- A READ_SEG returns bytes of a DOMAIN object from its offset, up to the path's data limit (R45). -/
  | readSeg (pa : Path) (rq : Req)
  /-- A WRITE_SEG stages a DOMAIN segment at the next expected offset, and the whole DOMAIN takes effect on the segment with LAST set (R45). -/
  | writeSeg (pa : Path) (rq : Req)
  /-- A host LOCK enters a lock on an index and subindex in the 64-entry lock table (R59). -/
  | lock (pa : Path) (rq : Req)
  /-- A host UNLOCK clears the matching host lock (R59). -/
  | unlock (pa : Path) (rq : Req)
  /-- STORE writes the lower-generation configuration store copy with the next generation and a CRC (R40). -/
  | store (pa : Path) (tag : Nat) (norOk : Bool)
  /-- RESTORE_DEFAULTS invalidates both configuration store copies, with effect at the next boot (R40). -/
  | restoreDefaults (pa : Path) (tag : Nat) (norOk : Bool)
  /-- A HELLO frame negotiates the Afwell version and opens a side-band session with a new session key (R54). -/
  | hello (port : Nat) (fr : AfFrame)
  /-- A host write of MB_CTRL with go set starts the request in the mailbox's request buffer (R50). -/
  | mailboxGo (port m ctrl : Nat) (buf : Bytes)
  /-- A received Afwell request frame is authenticated, checked for replay, and its messages are executed in order (R55). -/
  | afwellFrame (port : Nat) (fr : AfFrame)
  /-- A session with no accepted frame for 60 s is closed (R56). -/
  | sessionTimeout (port session : Nat)
  /-- Every 5 µs each hub sends a heartbeat with epoch, primacy flag and mirror sequence on both paths (R64). -/
  | heartbeatSend (hub : Nat)
  /-- A heartbeat arriving after the peer was taken as silent marks it present and settles primacy (R625). -/
  | heartbeatReceive (hub path epoch : Nat) (primary deciding : Bool) (mirror : Nat)
  /-- A path with no heartbeat for 25 µs is taken as failed (R64). -/
  | heartbeatPathTimeout (hub path : Nat)
  /-- At 50 µs a non-preferred primary that has stopped deciding is passive (R66). -/
  | passiveDeadline (hub : Nat)
  /-- At 60 µs the preferred hub enters solo mode, or takes primacy in solo mode with epoch + 1 (R66). -/
  | soloDeadline (hub : Nat)
  /-- The passive hub's acknowledgement of a mirror write lets the device-wide decision take effect (R63). -/
  | mirrorAck (sq : Nat)
  /-- An admission whose mirror write is not acknowledged within t_in becomes a PRIMACY refusal (R63). -/
  | mirrorWriteTimeout (part : Nat)
  /-- When the passive hub finishes resynchronising the mirror, the primary leaves solo mode (R625). -/
  | mirrorResyncDone
  /-- A write of the handover instant requests a planned handover and places the HANDOVER entry (R69). -/
  | handoverAtWrite (pa : Path) (tag v : Nat)
  /-- A write of the preferred primary starts a planned handover, or moves primacy through the side-band while the peer is silent (R70). -/
  | preferredPrimaryWrite (pa : Path) (tag v : Nat)
  /-- The HANDOVER entry fires, the handover conditions are judged again, and the primary sends a grant with epoch + 1 (R69). -/
  | handoverFiring
  /-- The passive hub takes primacy when a grant arrives on either path (R69). -/
  | grantReceive (hub path : Nat)
  /-- A side-band write of 1 in RECOVERY clears every host lock (R60). -/
  | clearLocks (pa : Path) (tag v : Nat)
  /-- A driver's version range write negotiates the host-ring version for its port (R71). -/
  | driverRangeWrite (pa : Path) (tag port v : Nat)
  /-- The device command moves STANDBY to BOOTING and starts the main rails (R74). -/
  | powerOnMain (pa : Path) (tag : Nat)
  /-- The device command moves CONFIG to SERVING, given a serving role and an active image (R74). -/
  | startServing (pa : Path) (tag : Nat)
  /-- The device command moves SERVING to DRAINING (R74). -/
  | drain (pa : Path) (tag : Nat)
  /-- The device command moves CONFIG to TEST (R74). -/
  | enterTest (pa : Path) (tag : Nat)
  /-- The device command moves TEST to CONFIG and aborts a running test (R74). -/
  | exitTest (pa : Path) (tag : Nat)
  /-- The device command enters RECOVERY, refuses new queries and releases host locks (R75). -/
  | enterRecovery (pa : Path) (tag : Nat)
  /-- The device command moves RECOVERY to CONFIG (R74). -/
  | exitRecovery (pa : Path) (tag : Nat)
  /-- The device command reboots the main domain from phase M2 (R569). -/
  | resetMain (pa : Path) (tag : Nat)
  /-- The device command disables the main rails in descending groups and enters STANDBY (R584). -/
  | powerOffMain (pa : Path) (tag : Nat)
  /-- A write of the partition enable object enables or disables the partition (R78). -/
  | partitionEnableWrite (pa : Path) (tag part v : Nat)
  /-- The slot command runs the fit check, claims resources and computes t_slot (R99). -/
  | load (pa : Path) (tag part slot : Nat)
  /-- The slot command places an ACTIVATE entry, or activates at once in CONFIG (R106). -/
  | activate (pa : Path) (tag part slot : Nat)
  /-- The slot command stops admission and removes a pending activation (R105). -/
  | retire (pa : Path) (tag part slot : Nat)
  /-- The slot command releases and zeroes the slot's resources and discards the file (R105). -/
  | unload (pa : Path) (tag part slot : Nat)
  /-- The slot command places a SWAP entry at the swap-at instant (R109). -/
  | swap (pa : Path) (tag part slot : Nat)
  /-- The slot command recomputes t_slot under the cap in force (R105). -/
  | revalidate (pa : Path) (tag part slot : Nat)
  /-- An ACTIVATE entry fires and makes the slot ACTIVE, retiring the slot it replaces (R106). -/
  | activateFiring (part slot : Nat)
  /-- A SWAP entry fires and switches every weight reference to the other buffer (R108). -/
  | swapFiring (part slot : Nat)
  /-- At each slot boundary the tile sequencers hand batches on and start the stages' next slot (R86). -/
  | slotBoundary (part slot : Nat) (unfinished : List Nat)
  /-- A port hub fetches a descriptor and its payload from a submission ring and stamps its arrival (R117). -/
  | descriptorFetch (port part sq : Nat) (desc payload : Bytes)
  /-- Levee runs its checks in order and accepts the request with D or C, or refuses it (R119). -/
  | leveeDecision (part : Nat)
  /-- At D − t_out a query with no composed record gets ABORTED_FAULT from the port hub (R126). -/
  | backstopExpiry (query : Nat)
  /-- The partition's update state changes as its slack crosses a threshold (R130). -/
  | updateStateChange (part : Nat)
  /-- A policer COMMIT applies the staged parameters with full buckets (R135). -/
  | policerCommit (pa : Path) (tag part cls v : Nat)
  /-- A shaper COMMIT applies the staged egress rates and bursts (R138). -/
  | shaperCommit (pa : Path) (tag part v : Nat)
  /-- An egress unit leaves its queue once its credit allows (R138). -/
  | egressUnitSend (part port kind : Nat)
  /-- A RESULT unit whose record is due leaves anyway and overdraws its credit (R139). -/
  | egressOverdraw (part port kind : Nat)
  /-- Every 1,024 ns Levee samples the depth and delay of each queue (R140). -/
  | queueSample
  /-- A write of 1 sets the partition's peak sample fields to the current values (R140). -/
  | resetPeaks (pa : Path) (tag part v : Nat)
  /-- A host write of the SQ tail doorbell makes new descriptors available for fetch (R152). -/
  | sqTailDoorbell (port part ring v : Nat)
  /-- A host write of the CQ head doorbell frees consumed completion entries (R152). -/
  | cqHeadDoorbell (port part ring v : Nat)
  /-- A write of SQ_CTRL enables or disables a submission ring (R150). -/
  | sqCtrlWrite (port part ring v : Nat)
  /-- A write of CQ_CTRL enables or disables a completion ring (R150). -/
  | cqCtrlWrite (port part ring v : Nat)
  /-- A write of CQ_BASE sets the CQ address while the CQ is disabled (R150). -/
  | cqBaseWrite (port part ring v : Nat)
  /-- A write of CQ_RSV sets the refusal reserve (R150). -/
  | cqRsvWrite (port part ring v : Nat)
  /-- A port's link going down stops its rings with LINK_DOWN and discards unfetched descriptors (R165). -/
  | linkDown (port : Nat)
  /-- Entry to D3hot disables the port's rings as a link loss does (R141). -/
  | d3hotEntry (port : Nat)
  /-- When retraining ends, held records are written or the rings stop with DEGRADED (R143). -/
  | retrainEnd (port state width rate : Nat)
  /-- A composed completion record and its result are posted to the CQ of its SQ (R158). -/
  | completionRecordWrite (query status degraded : Nat) (result : Bytes)
  /-- A CQ sends its vector when the coalesce time has passed since the first record after the last interrupt (R162). -/
  | coalesceTimeout (port part cq : Nat)
  /-- A host CXL.mem read of the window is served, waiting on PNM windows and returning poison on errors (R146). -/
  | cxlMemRead (port addr len : Nat) (bad : Bool)
  /-- A host CXL.mem write to the window is stored, marking poisoned data (R146). -/
  | cxlMemWrite (port addr : Nat) (data : Bytes) (poison : Bool)
  /-- A write of the window size in CONFIG claims Carr granules for the CXL window (R145). -/
  | cxlWindowSizeWrite (pa : Path) (tag port v : Nat)
  /-- The host's completion for a device read arrives and is sunk (R163). -/
  | hostReadCompletion (port tag : Nat) (ok : Bool) (data : Bytes)
  /-- An unanswered device read ends in a completion timeout, a bus error of its reader (R163). -/
  | completionTimeout (port tag : Nat)
  /-- The index command checks the attributes and claims the index's regions (R176). -/
  | indexCreate (pa : Path) (tag part index : Nat)
  /-- The index command checks the built regions and commits all built items at one FT (R179). -/
  | indexSeal (pa : Path) (tag part index : Nat)
  /-- The index command releases and zeroes the index's regions (R176). -/
  | indexDestroy (pa : Path) (tag part index : Nat)
  /-- The index command starts a rolling re-index with the idle codebook (R199). -/
  | reindex (pa : Path) (tag part index : Nat)
  /-- The applier reserves a slot, writes the item and fixes its commit FT (R180). -/
  | upsertApply (part : Nat)
  /-- The applier logs the death of the key's slot and unlinks its key record (R180). -/
  | deleteApply (part : Nat)
  /-- The applier overwrites a ring entry once the lowest snapshot in flight allows it (R189). -/
  | logRingWaitEnd (part : Nat)
  /-- A HARVEST firing folds open side entries into their cells, or re-encodes cells of a re-index (R197). -/
  | harvestStep (part index : Nat)
  /-- A 64-byte write to an array command window enqueues a pass descriptor (R207). -/
  | passEnqueue (tile array : Nat) (data : Bytes)
  /-- An array runs a pass, streaming activations against its weight tile (R208). -/
  | arrayPass (tile array : Nat) (errs off : List Nat)
  /-- After the set number of chain ends, a shadow moves to the next column (R533). -/
  | shadowAdvance (tile array : Nat)
  /-- A PNM window opens on its pseudo-channels and starts the window's Carr program (R244). -/
  | windowOpen (part slot stage id prog signal workList : Nat)
  /-- A window reaching t_win closes on each pseudo-channel that has not posted DONE (R244). -/
  | windowTimeout (id : Nat)
  /-- When DRAIN has served every waiting normal request, the pseudo-channel returns to PNM or NORMAL (R245). -/
  | drainEnd (pc : Nat)
  /-- A normal Carr request is served, or waits for the window close and DRAIN (R246). -/
  | normalRequest (id owner : Nat) (write : Bool) (addr len : Nat) (data : Bytes) (poison : Bool) (ecc : Nat)
  /-- The patrol scrubber reads and corrects the next data row (R256). -/
  | scrubRow (pc ecc : Nat)
  /-- A stack's base die or interface fails and its addresses return FAILED (R261). -/
  | stackFailure (stack : Nat)
  /-- A spare core takes over a pseudo-channel at its first NORMAL instant with no window open (R258). -/
  | coreMapChange (pc : Nat)
  /-- Tiles write a batch's probe list and the base die expands it into per-core work lists (R270). -/
  | probeListWrite (part slot stage batch : Nat) (header : Bytes) (probes : List Nat)
  /-- The Carr core adds two registers (R275). -/
  | carrAdd (pc mode d a b : Nat)
  /-- The Carr core subtracts two registers (R275). -/
  | carrSub (pc mode d a b : Nat)
  /-- The Carr core ANDs two registers (R275). -/
  | carrAnd (pc mode d a b : Nat)
  /-- The Carr core ORs two registers (R275). -/
  | carrOr (pc mode d a b : Nat)
  /-- The Carr core XORs two registers (R275). -/
  | carrXor (pc mode d a b : Nat)
  /-- The Carr core shifts left by a register (R275). -/
  | carrShl (pc mode d a b : Nat)
  /-- The Carr core shifts right logically by a register (R275). -/
  | carrShr (pc mode d a b : Nat)
  /-- The Carr core shifts right arithmetically by a register (R275). -/
  | carrSra (pc mode d a b : Nat)
  /-- The Carr core multiplies two registers, keeping the low 32 bits (R275). -/
  | carrMul (pc mode d a b : Nat)
  /-- The Carr core sets on a signed less-than (R275). -/
  | carrSlt (pc mode d a b : Nat)
  /-- The Carr core sets on an unsigned less-than (R275). -/
  | carrSltu (pc mode d a b : Nat)
  /-- The Carr core adds a sign-extended immediate (R275). -/
  | carrAddi (pc mode d a imm : Nat)
  /-- The Carr core ANDs a zero-extended immediate (R275). -/
  | carrAndi (pc mode d a imm : Nat)
  /-- The Carr core ORs a zero-extended immediate (R275). -/
  | carrOri (pc mode d a imm : Nat)
  /-- The Carr core XORs a zero-extended immediate (R275). -/
  | carrXori (pc mode d a imm : Nat)
  /-- The Carr core shifts left by an immediate (R275). -/
  | carrShli (pc mode d a imm : Nat)
  /-- The Carr core shifts right logically by an immediate (R275). -/
  | carrShri (pc mode d a imm : Nat)
  /-- The Carr core shifts right arithmetically by an immediate (R275). -/
  | carrSrai (pc mode d a imm : Nat)
  /-- The Carr core loads an upper immediate (R275). -/
  | carrLui (pc mode d imm : Nat)
  /-- The Carr core reads a special value (R279). -/
  | gets (pc mode d sel : Nat)
  /-- The Carr core counts the set bits of a general register (R283). -/
  | popc (pc mode d a : Nat)
  /-- The Carr core counts the set bits of a vector register (R283). -/
  | vpopc (pc mode d a : Nat)
  /-- The Carr core loads a 32-bit word (R277). -/
  | carrLw (pc mode d a imm : Nat)
  /-- The Carr core loads a zero-extended halfword (R277). -/
  | carrLhu (pc mode d a imm : Nat)
  /-- The Carr core loads a zero-extended byte (R277). -/
  | carrLbu (pc mode d a imm : Nat)
  /-- The Carr core stores a 32-bit word (R275). -/
  | carrSw (pc mode v a imm : Nat)
  /-- The Carr core stores a halfword (R275). -/
  | carrSh (pc mode v a imm : Nat)
  /-- The Carr core stores a byte (R275). -/
  | carrSb (pc mode v a imm : Nat)
  /-- The Carr core loads 64 bytes into a vector register (R277). -/
  | carrVld (pc mode d a imm : Nat)
  /-- The Carr core stores a vector register (R275). -/
  | carrVst (pc mode v a imm : Nat)
  /-- VOP with fn 0 ANDs two vector registers (R275). -/
  | carrVand (pc mode d a b : Nat)
  /-- VOP with fn 1 ORs two vector registers (R275). -/
  | carrVor (pc mode d a b : Nat)
  /-- VOP with fn 2 XORs two vector registers (R275). -/
  | carrVxor (pc mode d a b : Nat)
  /-- VOP with fn 3 ANDs one vector register with the complement of another (R275). -/
  | carrVandnot (pc mode d a b : Nat)
  /-- The Carr core extracts a lane of a vector register (R275). -/
  | carrVext (pc mode d a b : Nat)
  /-- The Carr core inserts a register into a vector lane (R275). -/
  | carrVins (pc mode d a b : Nat)
  /-- The Carr core branches if equal (R276). -/
  | carrBeq (pc mode a b off : Nat)
  /-- The Carr core branches if not equal (R276). -/
  | carrBne (pc mode a b off : Nat)
  /-- The Carr core branches if signed less (R276). -/
  | carrBlt (pc mode a b off : Nat)
  /-- The Carr core branches if signed greater or equal (R276). -/
  | carrBge (pc mode a b off : Nat)
  /-- The Carr core branches if unsigned less (R276). -/
  | carrBltu (pc mode a b off : Nat)
  /-- The Carr core branches if unsigned greater or equal (R276). -/
  | carrBgeu (pc mode a b off : Nat)
  /-- The Carr core jumps PC-relative and links (R276). -/
  | carrJal (pc mode d off : Nat)
  /-- The Carr core jumps to a register target and links (R276). -/
  | carrJalr (pc mode d a imm : Nat)
  /-- The Carr core configures the ADC unit from a work-list header (R280). -/
  | adccfg (pc mode a : Nat)
  /-- The Carr core queues a work-list entry with its allowed word to the ADC unit (R281). -/
  | carrScan (pc mode a b : Nat)
  /-- The ADC unit scores the allowed codes of a queued row into the Sedge-8 list (R281). -/
  | adcRow (pc mode : Nat)
  /-- The Carr core empties the Sedge-8 list (R282). -/
  | srst (pc mode : Nat)
  /-- The Carr core inserts a score and item into the Sedge-8 list (R282). -/
  | sins (pc mode a b : Nat)
  /-- Once the ADC unit is idle, the Carr core reads and empties the Sedge-8 list (R282). -/
  | srd (pc mode d vb : Nat)
  /-- The Carr core queues a row-operation AND (R284). -/
  | rowopAnd (pc mode d a b : Nat)
  /-- The Carr core queues a row-operation OR (R284). -/
  | rowopOr (pc mode d a b : Nat)
  /-- The Carr core queues a row-operation XOR (R284). -/
  | rowopXor (pc mode d a b : Nat)
  /-- The Carr core queues a row-operation NOT (R284). -/
  | rowopNot (pc mode d a : Nat)
  /-- The Carr core queues a row-operation COPY (R284). -/
  | rowopCopy (pc mode d a : Nat)
  /-- A queued row operation activates when its limits and tokens allow, and runs for tROP (R241). -/
  | rowOperation (pc mode : Nat)
  /-- The Carr core waits until every queued row operation has ended (R284). -/
  | rfence (pc mode : Nat)
  /-- The Carr core sends a 64-byte message with a header to a Sedge target (R285). -/
  | send (pc mode v a b : Nat)
  /-- A SEND's acknowledgement frees its message slot (R285). -/
  | sendAck (pc mode : Nat)
  /-- The Carr core writes the items field of its ready-flag word (R286). -/
  | postItems (pc mode a : Nat)
  /-- Once its SENDs are acknowledged and its row operations have ended, the program posts DONE and the window closes on the pseudo-channel (R286). -/
  | postDone (pc mode a : Nat)
  /-- The Carr core signals a cell of its image's run (R287). -/
  | carrSig (pc mode a : Nat)
  /-- The Carr core tries to consume one count from a cell (R287). -/
  | tryw (pc mode d a : Nat)
  /-- A SYSTEM program takes the oldest inbound mailbox message (R288). -/
  | mrecv (pc mode d vb : Nat)
  /-- A SYSTEM program sends an outbound mailbox message (R288). -/
  | msend (pc mode v : Nat)
  /-- HALT ends the program, acting as POST DONE in a window (R291). -/
  | carrHalt (pc mode : Nat)
  /-- At t_win − 1 µs a running program is stopped, its list is flushed with the cut flag, and the state is set to cut (R290). -/
  | cutPoint (pc : Nat)
  /-- A 64-byte write to a Sedge command window enqueues a descriptor (R330). -/
  | sedgeEnqueue (tile unit : Nat) (data : Bytes)
  /-- A Sedge OPEN gives each query of the batch its list (R318). -/
  | sedgeOpen (tile unit : Nat)
  /-- A Sedge FINISH closes the lists after merging, and writes the outputs and the signal (R332). -/
  | finish (tile unit : Nat)
  /-- The array port forms entries from an output vector and inserts them (R322). -/
  | arrayPortVector (tile unit : Nat)
  /-- A message arriving in a producer slot is merged and acknowledged (R324). -/
  | collectorMessage (tile unit src slot header : Nat) (data : Bytes) (parity : Bool)
  /-- A key read not returned by the key cutoff leaves the key all-ones (R333). -/
  | keyCutoff (tile unit : Nat)
  /-- A 64-byte write to an engine command window enqueues a job (R298). -/
  | mereJobEnqueue (tile engine : Nat) (data : Bytes)
  /-- A SIDESCAN job scans the side-list copy for each query (R307). -/
  | sidescan (tile engine : Nat)
  /-- A REFINE job re-scores candidates against their refine codes (R310). -/
  | refine (tile engine : Nat)
  /-- A DIST job scores candidates against their full vectors (R304). -/
  | dist (tile engine : Nat)
  /-- A GATHER job reads rows by key from hot copies or records, listing remote keys (R398). -/
  | gather (tile engine : Nat)
  /-- Data returning to a waiting context makes it READY (R296). -/
  | contextDataReturn (tile engine ctx n : Nat) (errs : List Nat)
  /-- At the job's cutoff, waiting and unbegun items are abandoned with their cheaper path (R311). -/
  | jobCutoff (tile engine : Nat)
  /-- A Sluice channel issues the units of a MOVE segment (R366). -/
  | sluiceMove (block chan n : Nat)
  /-- A Sluice channel runs a Peat expand or encode segment on expander lanes (R365). -/
  | sluiceMovex (block chan n : Nat)
  /-- A Sluice LOOP pushes its count (R366). -/
  | sluiceLoop (block chan : Nat)
  /-- A Sluice ENDL decrements the loop count and branches or pops (R366). -/
  | sluiceEndl (block chan : Nat)
  /-- A Sluice WAIT consumes one count of a cell or parks (R366). -/
  | sluiceWait (block chan : Nat)
  /-- A Sluice SIGNAL raises a cell after every earlier write is acknowledged (R369). -/
  | sluiceSignal (block chan : Nat)
  /-- A Sluice JUMP continues at its target (R366). -/
  | sluiceJump (block chan : Nat)
  /-- A Sluice NOP does nothing (R366). -/
  | sluiceNop (block chan : Nat)
  /-- A Sluice HALT ends the program and makes the channel IDLE (R366). -/
  | sluiceHalt (block chan : Nat)
  /-- A unit's read returns and its write issues (R370). -/
  | unitReadReturn (block chan unit : Nat) (err : Bool)
  /-- A unit's write is acknowledged at its destination (R369). -/
  | unitWriteAck (block chan unit : Nat) (err : Bool)
  /-- A WAIT reaching its timeout cancels its park and halts the channel with TIMEOUT (R368). -/
  | waitTimeout (block chan : Nat)
  /-- A grant from the cell's home completes a parked WAIT (R422). -/
  | parkGrant (block chan : Nat)
  /-- A redirect moves a channel to a program word at its next unit boundary (R380). -/
  | redirect (block chan w : Nat)
  /-- Disable drops everything in flight and makes the channel DISABLED (R379). -/
  | channelDisable (block chan : Nat)
  /-- Enable returns a DISABLED channel to IDLE (R379). -/
  | channelEnable (block chan : Nat)
  /-- After a detected error, the lane pair re-sends the logged weight tiles of the chain (R382). -/
  | atUseReplay (block chan : Nat) (ok : Bool)
  /-- A lane parity error re-runs an at-load or encoding MOVEX from unit 0 (R382). -/
  | segmentReplay (block chan : Nat)
  /-- The tier command creates and zeroes a tier object (R387). -/
  | tierCreate (pa : Path) (tag part : Nat)
  /-- The tier command destroys an unlocked, unused tier object (R388). -/
  | tierDestroy (pa : Path) (tag part : Nat)
  /-- The tier command queues a copy of 16 KiB tiles into a tier object (R389). -/
  | tierMove (pa : Path) (tag part : Nat)
  /-- When the last tile of a MOVE is acknowledged, the object returns to READY and its signal is raised (R389). -/
  | moveComplete (part landed : Nat) (data : Bytes)
  /-- The table command checks the table and creates its records (R392). -/
  | tableCreate (pa : Path) (tag part table : Nat)
  /-- The table command locks the records and starts the refresh chain (R392). -/
  | tableSeal (pa : Path) (tag part table : Nat)
  /-- The table command releases the table's records (R392). -/
  | tableDestroy (pa : Path) (tag part table : Nat)
  /-- A write replaces the hot set for the next refresh step (R403). -/
  | hotSetWrite (pa : Path) (tag part table : Nat) (data : Bytes)
  /-- A REFRESH firing updates the HOT areas of a table (R403). -/
  | refreshStep (part table : Nat)
  /-- A hot copy about to reach h_max has its bucket entry cleared (R405). -/
  | hotCopyExpiry (part table area key : Nat)
  /-- A row updater applies an EMBED_UPDATE to its record and commits it (R409). -/
  | embedUpdateApply (part : Nat)
  /-- A received row-update forward is applied when its previous commit FT matches (R406). -/
  | forward
  /-- A received whole record is written to resynchronise a row (R408). -/
  | resyncRecord (key : Nat)
  /-- Every refresh period an owner sends each holder a watermark (R407). -/
  | watermarkSend (part table : Nat)
  /-- A holder takes a watermark and updates its current flag (R407). -/
  | watermarkReceive (part table src mark : Nat)
  /-- A watermark older than r_max clears the current flag (R407). -/
  | replicaStale (part table src : Nat)
  /-- An owner's lookup service answers a received key request with rows (R399). -/
  | lookupReq
  /-- A returned row is written into the gather output (R399). -/
  | lookupRsp
  /-- A SIGNAL n at a cell's home grants parked waits and adds the rest to the count (R422). -/
  | cellSignal (owner cell n : Nat)
  /-- A TRY consumes one count if the count is nonzero (R415). -/
  | cellTry (owner cell : Nat)
  /-- A WAIT consumes one count or parks at the home (R423). -/
  | cellWait (owner cell chan : Nat)
  /-- A CANCEL removes a channel's parked wait (R423). -/
  | cellCancel (cell chan : Nat)
  /-- A host write signals a partition cell with an increment (R425). -/
  | sigRaise (port part v : Nat)
  /-- A host write selects the cell for the following registers (R425). -/
  | sigSelect (port part v : Nat)
  /-- A host read tries to consume one count of the selected cell (R425). -/
  | sigTry (port part : Nat)
  /-- A host write arms the selected cell's interrupt on the port (R426). -/
  | sigArm (port part v : Nat)
  /-- A host write clears the selected cell's overflow flag (R425). -/
  | sigClear (port part v : Nat)
  /-- A DOMAIN write clears the overflow flags of the cells whose bits are set (R414). -/
  | clearOverflows (pa : Path) (tag part : Nat) (data : Bytes)
  /-- The host writes the slot's cut-reset mask while the slot is STAGED or RESIDENT (R424). -/
  | cutResetMaskWrite (pa : Path) (tag part slot : Nat) (data : Bytes)
  /-- A received signal frame is applied as a SIGNAL n when remote signalling is on (R427). -/
  | remoteSignal
  /-- A wake level starts a stopped tile's clock (R433). -/
  | tileWake (tile : Nat)
  /-- An unassigned tile stops CLK_T after its idle time (R433). -/
  | tileClockStop (tile : Nat)
  /-- A Causeway frame is decoded into flit slots (R438). -/
  | frameReceive (port : Nat) (skewOk : Bool) (syncs errs blocks : List Nat) (rx : List (Option RxSlot))
  /-- A received CTL verifies and releases its run and carries acknowledgements and credits (R448). -/
  | ctlReceive (port : Nat) (ctl : Ctl) (good tagOk : Bool)
  /-- An unacknowledged flit 10 µs old makes the transmitter resend from it (R449). -/
  | replayTimeout (port : Nat)
  /-- After 10 µs without the expected sequence the receiver may NAK again (R449). -/
  | nakHoldoffTimeout (port : Nat)
  /-- A transmitter seals a run with a CTL at least once per µs (R448). -/
  | ctlSend (port : Nat)
  /-- A received WRITE is written into the exchange window and answered (R465). -/
  | exchangeWrite
  /-- A WRITE_RSP acknowledges a Sluice exchange write unit (R465). -/
  | writeRsp
  /-- An FM frame from the manager node is executed as an object message (R459). -/
  | fmFrame
  /-- A received FM_RSP is placed in the FM response ring (R459). -/
  | fmRsp
  /-- A host write of an FM frame sends it to the named node (R459). -/
  | fmFrameOut (pa : Path) (tag : Nat) (data : Bytes)
  /-- A MOVE_REQ makes the transmitter send the lane on both the old and spare wavelength (R452). -/
  | moveReq (port : Nat)
  /-- A SWITCHED makes the transmitter stop the old wavelength and send RELEASE (R452). -/
  | switched (port : Nat)
  /-- A RELEASE completes the lane move (R452). -/
  | release (port : Nat)
  /-- A lane whose pre-FEC errors pass the threshold over 1 ms requests a move (R452). -/
  | laneErrorWindow (port : Nat)
  /-- A write of the port enable starts or stops bring-up (R451). -/
  | portEnableWrite (pa : Path) (tag port v : Nat)
  /-- Every 10 ms an enabled DOWN port with light tries bring-up (R451). -/
  | bringUpRetry (port : Nat)
  /-- A port not ALIGNED within 1 ms returns to DOWN with NO_LOCK (R451). -/
  | alignTimeout (port : Nat)
  /-- Loss of an engine's laser light takes its eight ports DOWN (R436). -/
  | lightLoss (engine : Nat)
  /-- The staged routing tables take effect together between two flits (R458). -/
  | tableCommit (pa : Path) (tag v : Nat)
  /-- An exchange round ends at t_xch and missing data takes the cheaper paths (R466). -/
  | exchangeRoundEnd (part slot stage : Nat) (missed : List Nat)
  /-- Every exchange interval a follower sends a TIME request (R474). -/
  | timeExchangeTimer
  /-- A parent answers a received TIME request with a TIME response (R474). -/
  | timeRequest (port sq master steps counter t1 : Nat) (tagOk : Bool)
  /-- A follower computes offset and delay and steps, slews or changes FT state (R477). -/
  | timeResponse (port sq master steps counter t1 t2 t3 : Nat) (tagOk : Bool)
  /-- With no valid response for 16 intervals the FT unit enters HOLDOVER (R478). -/
  | masterLostTimeout
  /-- A write on the master sets FT from UNSET or steps it forward (R473). -/
  | setFt (pa : Path) (tag v : Nat)
  /-- A write of 1 in HOLDOVER returns to TRACKING, slewing out the negative offset (R478). -/
  | relock (pa : Path) (tag v : Nat)
  /-- Every 256 ns the primary refreshes FT to the units as a held value (R484). -/
  | ftDistribute
  /-- Each tick the Almanac fires up to 64 due entries in order, carrying the rest (R492). -/
  | almanacTick
  /-- The target's report ends a firing in flight and advances or ends its entry (R493). -/
  | firingReport (entry : Nat)
  /-- The entry command places the staged SIGNAL entry (R495). -/
  | entryPlace (pa : Path) (tag : Nat)
  /-- The entry command replaces the fields of a placed entry (R496). -/
  | entryRedirect (pa : Path) (tag : Nat)
  /-- The entry command removes a placed entry without arming its link (R496). -/
  | entryCancel (pa : Path) (tag : Nat)
  /-- The entry command sets the late policy of a slot entry (R495). -/
  | setpolicy (pa : Path) (tag : Nat)
  /-- The Mire command erases the targets and fixes the logical capacity and map (R503). -/
  | format (pa : Path) (tag : Nat) (good : List (Nat × Nat × Nat)) (aside : Nat)
  /-- The namespace command claims a run of units for a partition (R506). -/
  | namespaceCreate (pa : Path) (tag ns : Nat)
  /-- The namespace command sets its units UNWRITTEN and frees the run (R506). -/
  | namespaceDestroy (pa : Path) (tag ns : Nat)
  /-- The namespace command marks a range of units DISCARDED (R514). -/
  | discard (pa : Path) (tag ns : Nat)
  /-- A write installs the partition's XTS flash key when no namespace exists (R508). -/
  | flashKeyWrite (pa : Path) (tag part : Nat) (data : Bytes)
  /-- A write of a key object takes effect after the key store is written (R573). -/
  | keyWrite (pa : Path) (tag idx sub : Nat) (data : Bytes)
  /-- A unit write is acknowledged once it and its commit record are buffered (R510). -/
  | flashWrite (id owner ns off phys : Nat) (system : Bool) (data : Bytes)
  /-- A SYSTEM patch is journalled with its bytes and merged later (R509). -/
  | flashPatch (id ns off : Nat) (data : Bytes)
  /-- A finished flash program frees protected buffer space (R510). -/
  | programDone (target : Nat)
  /-- A query read is placed ahead on its target, suspending operations, or ends ROUND (R519). -/
  | queryRead (part slot stage tile chan index ns off len dest : Nat)
  /-- A program or erase ahead of a query read finishes suspending (R520). -/
  | operationSuspended (target : Nat)
  /-- A read attempt ends, delivering data or starting the next retry step (R522). -/
  | readAttemptDone (target : Nat) (ok slow : Bool)
  /-- A flash round ends and each query read's status is written (R523). -/
  | flashRoundEnd (part slot : Nat)
  /-- A background read retries and rebuilds from its stripe (R525). -/
  | backgroundRead (id owner ns off len outcome phys : Nat)
  /-- Low free blocks start relocation of the highest-scoring block (R527). -/
  | garbageCollection (die : Nat) (picks : List Nat)
  /-- A failed target's stripes are rebuilt onto the spare pool (R525). -/
  | targetFail (channel ce : Nat)
  /-- PWRFAIL_N freezes writes, abandons reads and starts the dump sequence (R515). -/
  | pwrfailNAssert
  /-- The dump completes and the device enters STANDBY (R515). -/
  | dumpComplete (keptN foundN keptS foundS : Nat)
  /-- A hub's lockstep failure stops its control complex and sends a resign (R531). -/
  | lockstepMismatch (hub : Nat)
  /-- A received resign makes the peer primary or solo (R531). -/
  | resignReceive (hub path : Nat)
  /-- A die or stack silent for 10 µs is declared dead (R532). -/
  | unitTimeout (kind unit : Nat)
  /-- A lost storage die makes later updates that touch it commit without write-through (R542). -/
  | storageDieLoss (die : Nat)
  /-- A tile visit starts at a slot boundary and saves the spare units' state (R548). -/
  | vigilTileVisit (tile : Nat)
  /-- With the save done, BIST starts on the spare-role units (R548). -/
  | vigilSaveDone (tile : Nat) (data : Bytes)
  /-- BIST ends, failing units are marked, and the restore starts (R548). -/
  | vigilBistDone (tile : Nat) (failed : List (Nat × Nat))
  /-- The restore is checked and the switch-in waits for the next slot boundary (R548). -/
  | vigilRestoreDone (tile : Nat) (data : Bytes)
  /-- A stack visit tests the spare cores and moves two pseudo-channels onto them (R550). -/
  | vigilStackVisit (stack : Nat) (failed : List Nat)
  /-- A pseudo-channel not NORMAL within 100 ms is skipped (R550). -/
  | stackVisitSkip (pc : Nat)
  /-- A port visit makes two lane moves (R551). -/
  | vigilPortVisit (port : Nat)
  /-- A write schedules the node's admission at a step boundary (R554). -/
  | serveAtWrite (pa : Path) (tag v : Nat)
  /-- The firmware command starts the live hub update sequence (R556). -/
  | updateHubs (pa : Path) (tag : Nat)
  /-- The updating hub finishes its boot and rejoins the mirror (R556). -/
  | hubUpdateBooted (ok : Bool)
  /-- The firmware command starts the tile and stack firmware sweep (R557). -/
  | updateTiles (pa : Path) (tag : Nat)
  /-- RESET_N resets the standby island and turns the main domain off (R569). -/
  | resetNAssert
  /-- On RESET_N release the standby island self-tests, chooses and verifies the image, and brings the side-band up (R567). -/
  | bootS0 (straps : Nat) (selfTest : Bool)
  /-- A rail reports power-good, letting the next group be enabled (R584). -/
  | powerGood (rail : Nat)
  /-- A rail without power-good within 10 ms fails M1 and the device goes to FAILED (R584). -/
  | powerGoodTimeout (rail : Nat)
  /-- The hubs are loaded and measured, and the configuration store is applied (R567). -/
  | bootM2 (badHubs : Nat) (measured : Bool)
  /-- Boardwalk trains and the other dies are loaded, measured and tested (R567). -/
  | bootM3 (lost : List Nat) (failed : List (Nat × Nat × Nat)) (measured : Bool)
  /-- Every volatile memory is zeroed with valid check bytes (R567). -/
  | bootM4 (lost : List Nat)
  /-- Flash trains, the Mire map is rebuilt, and indices and tables are restored (R567). -/
  | bootM5 (unused : List (Nat × Nat)) (rates : List Nat)
  /-- Almanac entries are placed and the device enters CONFIG (R567). -/
  | bootM6
  /-- The life-cycle command moves the device to MANUF (R577). -/
  | lcToManuf (pa : Path) (tag : Nat) (tokenOk : Bool) (steps : Nat)
  /-- The life-cycle command moves MANUF to SECURED (R577). -/
  | lcToSecured (pa : Path) (tag : Nat)
  /-- The life-cycle command moves SECURED to DEPLOYED (R577). -/
  | lcToDeployed (pa : Path) (tag : Nat)
  /-- The life-cycle command moves DEPLOYED to RETURN, clearing secrets (R577). -/
  | lcToReturn (pa : Path) (tag : Nat) (tokenOk : Bool) (steps : Nat)
  /-- The life-cycle command moves the device to SCRAPPED (R577). -/
  | lcToScrapped (pa : Path) (tag : Nat) (tokenOk : Bool) (steps : Nat)
  /-- A write stages a 160-byte unlock token (R577). -/
  | unlockTokenWrite (pa : Path) (tag : Nat) (data : Bytes)
  /-- A write of 0x5C arms the scrap transition (R577). -/
  | scrapArm (pa : Path) (tag v : Nat)
  /-- A nonce write requests a signed quote (R571). -/
  | quoteNonceWrite (pa : Path) (tag : Nat) (data : Bytes)
  /-- The quote is formed and signed (R571). -/
  | quoteReady
  /-- A write raises the fused minimum SVN (R563). -/
  | minSvnWrite (pa : Path) (tag v : Nat)
  /-- A write blows revocation bits of vendor keys (R563). -/
  | keyRevocationWrite (pa : Path) (tag v : Nat)
  /-- A write installs a new side-band key for later HELLOs (R575). -/
  | sidebandKeyWrite (pa : Path) (tag : Nat) (data : Bytes)
  /-- The test command starts logic BIST of every unit (R580). -/
  | testLogic (pa : Path) (tag : Nat)
  /-- The test command starts the destructive memory march test (R580). -/
  | testMemory (pa : Path) (tag : Nat)
  /-- The test command starts the destructive Carr row test (R580). -/
  | testCarr (pa : Path) (tag : Nat)
  /-- The test command starts PRBS31 loopback on every wavelength (R580). -/
  | testCauseway (pa : Path) (tag : Nat)
  /-- The test command runs the four tests in order (R580). -/
  | testAll (pa : Path) (tag : Nat)
  /-- A test ends, zeroes what it wrote and reports its result (R580). -/
  | testDone (failed : List (Nat × Nat × Nat))
  /-- A write of the power cap raises it, lowers it, or restricts slots when the side-band lowers it (R590). -/
  | powerCapWrite (pa : Path) (tag v : Nat)
  /-- A write of the planned cap sets the loader's planning cap (R589). -/
  | plannedCapWrite (pa : Path) (tag v : Nat)
  /-- Every 1 ms the island reads each rail's voltage and current (R585). -/
  | pmbusPoll (mv amps words : List Nat)
  /-- A lost power-good or a PMBus fault raises an internal power failure (R586). -/
  | railFault (rail : Nat)
  /-- Every 100 µs the hottest reading sets the thermal state and its actions (R594). -/
  | thermalSample (readings : List Int)
  /-- The thermal reduction rises or falls by 50 W at its interval (R594). -/
  | thermalReductionStep
  /-- Every 10 µs the island checks the reference clock and raises a power failure when it fails (R597). -/
  | refclkCheck (status : Nat)
  /-- Residency and SRAM counters are charged every µs and ms of local time (R599). -/
  | accountingTick
  /-- The Lantern command arms a capture (R608). -/
  | lanternArm (pa : Path) (tag hub : Nat)
  /-- The Lantern command returns it to IDLE and zeroes the buffer (R608). -/
  | lanternDisarm (pa : Path) (tag hub : Nat)
  /-- The Lantern command re-arms a DONE capture (R608). -/
  | lanternRearm (pa : Path) (tag hub : Nat)
  /-- The Lantern command writes a USER record and makes it the trigger (R607). -/
  | lanternTrigger (pa : Path) (tag hub : Nat)
  /-- A marker write produces a USER record (R604). -/
  | lanternMarker (pa : Path) (tag hub v : Nat)
  /-- A trace record enters the Lantern, or is dropped with a GAP (R605). -/
  | lanternRecord (hub : Nat)
  /-- The buffer zeroing ends and the Lantern returns to FILLING (R608). -/
  | rearmDone (hub : Nat)
  /-- A capture export completes and may re-arm (R610). -/
  | lanternExportDone (hub : Nat)
  /-- An event is staged by severity or lost and counted (R614). -/
  | annalsEvent (code severity owner source : Nat) (data : Bytes)
  /-- The writer takes the staging head, assigns a sequence and writes it with its mirror copy (R613). -/
  | annalsRingWrite
  /-- A storage die's acknowledgement persists an Annals record (R613). -/
  | annalsPersist
  /-- A write of 1 clears latched alarm bits (R618). -/
  | alarmClear (pa : Path) (tag v : Nat)
  /-- A host port's PCIe link comes up after being down, and its link state, width and rate objects take their new values (R165). -/
  | linkUp (port state width rate : Nat)
  /-- A row operation ends at tROP, returning its token and releasing RFENCE, staging-row loads and waiting operations (R241). -/
  | rowOperationEnd (pc : Nat) (bad : List Nat)
  /-- A block erase on a flash target ends, freeing the target and ending a write-busy marking it caused (R520). -/
  | eraseDone (target : Nat)
  /-- The lockstepped pair of a tile sequencer disagrees and the tile is lost (R532). -/
  | tileSequencerMismatch (tile : Nat)
  /-- The PRBS31 check of a spare-role wavelength shows errors and the wavelength is marked failed (R453). -/
  | spareWavelengthError (port wave : Nat)
  /-- An engine's laser input power enters or leaves its range, or returns after loss, and the light state object changes (R436). -/
  | lightStateChange (engine state power : Nat)
deriving DecidableEq, Repr

end Sys2Proof
end

