-- ==== Sys2Proof/Decode.lean ====
section
/-! DEFINITION. The commands that the opcode table gives bits. -/

namespace Sys2Proof

/-- The command that a word spells by the bits of spec/opcode_table.json: the table gives no row any bits, so no word spells
one. (log 8, DESIGN CHOICE.) -/
def decodeTableWord (_nbits _w : Nat) : Option Instr := none

end Sys2Proof
end

