-- ==== Sys2Proof/Config.lean ====
section
/-! DEFINITION. What the specification leaves open and what a part fixes: constants without a body, so that no proof
can lean on a value. -/

namespace Sys2Proof

/-- The free values, drawn one after another (00 R4, log 2). -/
opaque Config.freeValue : Nat → Nat

/-- The silicon stepping of the part (02 OD 0x1000.03). -/
opaque Config.stepping : Nat

/-- The serial of the part (02 OD 0x1000.04). (log 109, DESIGN CHOICE.) -/
opaque Config.serial : Bytes

/-- The side-band MAC of SBA (02 OD 0x1040.05). -/
opaque Config.mac : Nat

/-- HKDF-SHA-256 of a key over a string: the Afwell session key (02 R54). -/
opaque Config.hkdf256 : Bytes → Bytes → Bytes

/-- HKDF-SHA-384 of a secret with a salt and a label (20 R572). -/
opaque Config.hkdf384 : Bytes → Bytes → Bytes → Bytes

/-- SHA-384 of a byte string (20 R570). (log 108, DESIGN CHOICE.) -/
opaque Config.sha384 : Bytes → Bytes

/-- Whether an ECDSA P-384 signature verifies: public key, digest, signature (03 R95). -/
opaque Config.ecdsaVerify : Bytes → Bytes → Bytes → Bool

/-- The ECDSA P-384 signature of a digest under the device identity key of an epoch (20 R571, R572). -/
opaque Config.ecdsaSign : Nat → Bytes → Bytes

/-- The public identity key of an epoch (20 R572). -/
opaque Config.identityKey : Nat → Bytes

/-- The SHA-384 hashes of the four vendor firmware keys in the ROM (20 R562). -/
opaque Config.vendorKeyHash : Nat → Bytes

/-- The two life-cycle keys in the ROM (20 R572). -/
opaque Config.lifeCycleKey : Nat → Bytes

/-- The identity of the boot ROM (20 R570). -/
opaque Config.romIdentity : Bytes

/-- The VRM map that a strap value selects (21 OD 0x2030.01, R596; the spec gives no addresses). -/
opaque Config.vrmMap : Nat → Bytes

/-- The bytes of a configuration store copy beside its values: of the copy, and of each value (20 R559; 23 R621 gives no layout). -/
opaque Config.storeHeader : Nat

/-- The bytes that a stored value takes beside its own (23 R621). -/
opaque Config.storeRecord : Nat

/-- The bytes of a configuration store copy that are measured: generation, values, byte strings (20 R570; 23 R621 gives no layout). -/
opaque Config.storeImage : Nat → List (Nat × Nat) → List (Nat × Bytes) → Bytes

/-- The 48-byte record of life-cycle state, epoch, minimum SVN and straps that register 6 measures (20 R570 gives no layout). -/
opaque Config.stateRecord : Nat → Nat → Nat → Nat → Bytes

/-- The room of a die's protected buffer under a media profile other than TLC (18 R510). -/
opaque Config.protectedBuffer : Nat → Nat

/-- The leaves of an assignment tree in the order of their nearness to a vector: distance code, tree, centroids, vector (06
R181; the spec gives the tree no layout, log 22). -/
opaque Config.nearestLeaves : Nat → Bytes → Bytes → Bytes → List Nat

/-- The PQ code of a vector: code format, distance, codebook, centroids, cell, vector (06 R168, R180; log 22). -/
opaque Config.pqCode : Nat → Nat → Bytes → Bytes → Nat → Bytes → Bytes

/-- The refine code of a vector: distance, refine codebook, PQ codebook, centroids, cell, vector (06 R168; log 22). -/
opaque Config.refineCode : Nat → Bytes → Bytes → Bytes → Nat → Bytes → Bytes

/-- The stored norm of a vector as F32: full-vector format, INT8 scale, vector (06 R172; log 22). -/
opaque Config.vectorNorm : Nat → Nat → Bytes → Nat

end Sys2Proof
end

