-- ==== Sys2Proof/Machine/Maps.lean ====
section
/-! DEFINITION. The operations over sparse maps, memories and byte strings, each written once. -/

namespace Sys2Proof

/-- The value a map holds under a key. -/
def KMap.find {α : Type} (m : KMap α) (k : Nat) : Option α :=
  match m with
  | [] => none
  | (j, v) :: r => if k = j then some v else KMap.find r k

/-- The value under a key, or a default. -/
def KMap.getD {α : Type} (m : KMap α) (k : Nat) (d : α) : α := (KMap.find m k).getD d

/-- A map with one key set, in rising order of keys. -/
def KMap.put {α : Type} (m : KMap α) (k : Nat) (v : α) : KMap α :=
  match m with
  | [] => [(k, v)]
  | (j, w) :: r =>
    if k < j then (k, v) :: (j, w) :: r
    else if k = j then (k, v) :: r
    else (j, w) :: KMap.put r k v

/-- A map without one key. -/
def KMap.del {α : Type} (m : KMap α) (k : Nat) : KMap α := m.filter (fun e => e.1 != k)

/-- A map with the value under a key changed, starting from a default where the key is not listed. -/
def KMap.upd {α : Type} (m : KMap α) (k : Nat) (d : α) (f : α → α) : KMap α := KMap.put m k (f (KMap.getD m k d))

/-- A map with the value under a key changed, and nothing done where the key is not listed. -/
def KMap.modify {α : Type} (m : KMap α) (k : Nat) (f : α → α) : KMap α :=
  match KMap.find m k with
  | some v => KMap.put m k (f v)
  | none => m

/-- A map without the keys from lo up to but not including hi. -/
def KMap.delRange {α : Type} (m : KMap α) (lo hi : Nat) : KMap α := m.filter (fun e => !(lo ≤ e.1 && e.1 < hi))

/-- Whether every key of the map is at least lo and the keys rise strictly. -/
def KMap.sortedFrom {α : Type} (lo : Nat) (m : KMap α) : Bool :=
  match m with
  | [] => true
  | (j, _) :: r => decide (lo ≤ j) && KMap.sortedFrom (j + 1) r

/-- The canonical form of a map: strictly rising keys. -/
def KMap.sorted {α : Type} (m : KMap α) : Bool := KMap.sortedFrom 0 m

/-- What a byte of an addressed memory reads as where nothing is listed: zero (20 R568; before phase M4, DESIGN
CHOICE, log 6). -/
def Memory.blank : Byte := 0

/-- The canonical form of an addressed memory: strictly rising addresses and no listed blank byte. -/
def Memory.wf (m : Memory) : Bool := KMap.sorted m && m.all (fun e => e.2 != Memory.blank)

/-- One byte read from a memory. -/
def Memory.read (m : Memory) (a : Nat) : Byte := KMap.getD m a Memory.blank

/-- One byte written to a memory, keeping the canonical form. -/
def Memory.write (m : Memory) (a : Nat) (b : Byte) : Memory :=
  if b = Memory.blank then KMap.del m a else KMap.put m a b

/-- n bytes read from an address upward. -/
def Memory.readN (m : Memory) (a n : Nat) : Bytes := (List.range n).map (fun i => Memory.read m (a + i))

/-- A byte string written from an address upward. -/
def Memory.writeN (m : Memory) (a : Nat) (bs : Bytes) : Memory :=
  match bs with
  | [] => m
  | b :: r => Memory.writeN (Memory.write m a b) (a + 1) r

/-- A range of a memory zeroed (03 R84). -/
def Memory.zero (m : Memory) (a n : Nat) : Memory := KMap.delRange m a (a + n)

/-- The number a little-endian byte string spells (00 R7). -/
def leNat (bs : Bytes) : Nat :=
  match bs with
  | [] => 0
  | b :: r => b.toNat + 256 * leNat r

/-- The n low bytes of a number, little-endian (00 R7). -/
def toLE (n v : Nat) : Bytes :=
  match n with
  | 0 => []
  | k + 1 => BitVec.ofNat 8 v :: toLE k (v / 256)

/-- A little-endian number of n bytes read from a memory. -/
def Memory.readLE (m : Memory) (a n : Nat) : Nat := leNat (Memory.readN m a n)

/-- A number written to a memory as n little-endian bytes. -/
def Memory.writeLE (m : Memory) (a n v : Nat) : Memory := Memory.writeN m a (toLE n v)

/-- n bytes of a byte string from an offset, zero where the string ends. -/
def slice (bs : Bytes) (off n : Nat) : Bytes := ((bs.drop off).take n) ++ List.replicate (n - ((bs.drop off).take n).length) 0

/-- The little-endian number of n bytes at an offset of a byte string. -/
def leAt (bs : Bytes) (off n : Nat) : Nat := leNat (slice bs off n)

/-- Bits hi down to lo of a number (00 R7). -/
def bits (v hi lo : Nat) : Nat := (v / 2 ^ lo) % 2 ^ (hi + 1 - lo)

/-- Bit n of a number. -/
def bit (v n : Nat) : Bool := v.testBit n

/-- A number with one bit set or cleared. -/
def setBit (v n : Nat) (b : Bool) : Nat := if v.testBit n == b then v else if b then v + 2 ^ n else v - 2 ^ n

/-- A Boolean as 0 or 1. -/
def b2n (b : Bool) : Nat := if b then 1 else 0

/-- The least integer not less than a ÷ b (00, Pseudocode). -/
def ceilDiv (a b : Nat) : Nat := if b = 0 then 0 else (a + b - 1) / b

/-- One bit of the CRC-32 register (00 R623). -/
def crcBit (c : Nat) : Nat := if c % 2 = 1 then (c / 2) ^^^ 0xEDB88320 else c / 2

/-- One byte of the CRC-32 (00 R623). -/
def crcByte (c : Nat) (b : Byte) : Nat :=
  crcBit (crcBit (crcBit (crcBit (crcBit (crcBit (crcBit (crcBit (c ^^^ b.toNat))))))))

/-- The CRC-32 of IEEE 802.3 with the parameters of 00 R623. -/
def crc32 (bs : Bytes) : Nat := (bs.foldl crcByte 0xFFFFFFFF) ^^^ 0xFFFFFFFF

/-- A byte string padded with zero bytes to n bytes. -/
def padTo (n : Nat) (bs : Bytes) : Bytes := bs ++ List.replicate (n - bs.length) 0

/-- A list with the element at a place replaced. -/
def setAt {α : Type} (l : List α) (i : Nat) (v : α) : List α := l.set i v

/-- The element at a place, or a default. -/
def nth {α : Type} (l : List α) (i : Nat) (d : α) : α := l.getD i d

/-- The bytes of an ASCII or UTF-8 text. -/
def textBytes (s : String) : Bytes := s.toList.map (fun c => BitVec.ofNat 8 c.toNat)

/-- A number rounded up to a multiple of another. -/
def roundUp (n m : Nat) : Nat := if m = 0 then n else (n + m - 1) / m * m

/-- The lowest place of some size and alignment that meets no used range and stays below a limit. -/
def fitRun (fuel : Nat) (used : List (Nat × Nat)) (a size align limit : Nat) : Option Nat :=
  match fuel with
  | 0 => none
  | k + 1 =>
    if limit < a + size then none
    else match used.find? (fun u => a < u.1 + u.2 && u.1 < a + size) with
      | none => some a
      | some u => fitRun k used (roundUp (u.1 + u.2) align) size align limit

end Sys2Proof
end

