-- ==== Sys2Proof/Machine/StateCarr.lean ====
section
/-! DEFINITION. The state of the Carr stacks and their cores (08, 09). A pseudo-channel Kk.PCp has the number 64·k + p. -/

namespace Sys2Proof.Machine

open Sys2Proof

/-- The mode of a pseudo-channel (08 R245). -/
inductive PcMode where
  | normal | pnm | drain
deriving DecidableEq, Repr

/-- A normal request that waits (08 R246): source 0 is a unit of the device, 1 + port the CXL.mem of a host port, whose own address is
`ref`. The address is that of the Carr address space, within one 4 KiB granule. -/
structure WaitReq where
  id     : Nat
  src    : Nat
  ref    : Nat
  owner  : Nat
  write  : Bool
  addr   : Nat
  len    : Nat
  data   : Bytes
  poison : Bool
  ecc    : Nat
  at_    : Nat
deriving DecidableEq, Repr

/-- A row operation (08 R237, 09 R284): operation code, bank, destination and source rows by row reference, the window it
belongs to (none for SYSTEM) and, once activated, the time of its activation. -/
structure RowOp where
  op     : Nat
  dest   : Nat
  src1   : Nat
  src2   : Nat
  window : Option Nat
  start  : Option Nat
deriving DecidableEq, Repr

/-- A pseudo-channel: its mode, its waiting requests, the activations of the last 32 ns, and its scrub position. -/
structure PcState where
  mode    : PcMode := .normal
  waiting : List WaitReq := []
  acts    : List Nat := []
  active  : List RowOp := []
  scrub   : Nat := 0
  failed  : Bool := false
deriving DecidableEq, Repr

/-- An open PNM window (08 R244): its command, the pseudo-channels it is still open on, and the place of its stage's claim
in the stage store (09 R269), the pseudo-channels stopped at the cut point or by a core fault, and those where the program has started. -/
structure Window where
  id      : Nat
  owner   : Nat
  slot    : Nat
  stage   : Nat
  kind    : Nat
  tokens  : Nat
  prog    : Nat
  signal  : Nat
  work    : Nat
  length  : Nat
  opened  : Nat
  open_   : List Nat
  cuts    : Nat
  batch   : Nat
  stBase  : Nat
  stLen   : Nat
  cutOn   : List Nat
  started : List Nat
deriving DecidableEq, Repr

/-- A ready-flag word without its mode (08 R248). -/
structure Ready where
  id      : Nat
  state   : Nat
  items   : Nat
  elapsed : Nat
deriving DecidableEq, Repr

/-- A row queued in the ADC unit (09 R281). -/
structure AdcRow where
  entry  : Nat
  word   : Nat
  poison : Bool
deriving DecidableEq, Repr

/-- The configuration of the ADC unit (09 R280). -/
structure AdcCfg where
  pq64   : Bool
  tables : Nat
  scales : Nat
  bq     : Nat
deriving DecidableEq, Repr

/-- The register set of one core in one mode (09 R262 to R265), its ADC unit, Sedge-8 list and queues. -/
structure Core where
  g       : List W32 := List.replicate 16 0
  gp      : List Bool := List.replicate 16 false
  v       : List W512 := List.replicate 4 0
  vp      : List Bool := List.replicate 4 false
  pc      : Nat := 0
  running : Bool := false
  base    : Nat := 0
  length  : Nat := 0
  window  : Option Nat := none
  started : Nat := 0
  items   : Nat := 0
  adc     : Option AdcCfg := none
  rows    : List AdcRow := []
  skips   : Nat := 0
  nans    : Nat := 0
  list    : List (Nat × Nat) := []
  listBad : Bool := false
  query   : Option Nat := none
  target  : Nat := 0
  queue   : List RowOp := []
  sends   : Nat := 0
  tryWait : Bool := false
deriving DecidableEq, Repr

/-- A message of a core on its way to a Sedge unit (09 R285). -/
structure CoreMsg where
  pc     : Nat
  target : Nat
  header : Nat
  data   : Bytes
  owner  : Nat
  gen    : Nat
deriving DecidableEq, Repr

/-- The Carr side of the device (08, 09). Cores are keyed by 2 × pseudo-channel + mode, 0 IMAGE and 1 SYSTEM; core maps
and generations by pseudo-channel, `failed` cores by 66 × stack + core, `swap` the core and cause of a map change that waits, `served` the time at which a serving core took over; the poison sets hold bursts of 64 bytes of DRAM and staging rows, and words of
scratch and stage store. -/
structure Carr where
  pcs        : KMap PcState := []
  windows    : List Window := []
  ready      : KMap Ready := []
  cores      : KMap Core := []
  msgs       : List CoreMsg := []
  inbox      : KMap (List Bytes) := []
  outbox     : KMap (List Bytes) := []
  poison     : List Nat := []
  stagingBad : List Nat := []
  scratchBad : List Nat := []
  stageBad   : List Nat := []
  stagingWin : KMap Nat := []
  ringOwner  : KMap Nat := []
  coreMap    : KMap Nat := []
  gens       : KMap Nat := []
  failed     : List Nat := []
  swap       : KMap (Nat × Nat) := []
  served     : KMap Nat := []
  deadStacks : List Nat := []
deriving DecidableEq, Repr

end Sys2Proof.Machine
end

