-- ==== Sys2Proof/Machine/StateCells.lean ====
section
/-! DEFINITION. The state of the signal cells and of the tiles' clocks (15). -/

namespace Sys2Proof.Machine

open Sys2Proof

/-- A signal cell (15 R414, R416): its count, its sticky overflow flag, the channels parked on it, oldest first, and its
interrupt arm as port and vector. -/
structure Cell where
  count : Nat := 0
  ovf   : Bool := false
  parks : List Nat := []
  arm   : Option (Nat × Nat) := none
deriving DecidableEq, Repr

/-- An operation on a cell (15 R415). -/
inductive CellAct where
  | signal (n : Nat)
  | tryHost (port part : Nat)
  | tryCore (core d : Nat)
  | tryUnit
  | wait (chan : Nat)
  | cancel (chan : Nat)
  | clear
  | arm (port vec : Nat)
deriving DecidableEq, Repr

/-- An operation on an unbound cell that waits for a primary hub or for its mirror write (15 R417). -/
structure CellOp where
  cell   : Nat
  act    : CellAct
  mirror : Option Nat
deriving DecidableEq, Repr

/-- The signal cells (15): partition cell c of partition p has the number 2,048·p + c, SYSTEM cell c the number
65,536 + c. `granted` lists the counts granted to parked channels and not yet taken up by them. -/
structure Cells where
  cells   : KMap Cell := []
  held    : List CellOp := []
  granted : List (Nat × Nat) := []
  cancelled : List (Nat × Nat) := []
deriving DecidableEq, Repr

/-- The clocks of the tiles (15 R433): the tiles stopped, those in Vigil test, and the local time at which each tile was
last in use. -/
structure TileClocks where
  stopped   : List Nat := []
  underTest : List Nat := []
  lastUse   : KMap Nat := []
deriving DecidableEq, Repr

end Sys2Proof.Machine
end

