-- ==== Sys2Proof/Machine/StateControl.lean ====
section
/-! DEFINITION. The state of the control side: the dictionary, its paths and stores, the two hubs and primacy
(02), partitions and image slots (03). -/

namespace Sys2Proof.Machine

open Sys2Proof

/-- One host mailbox (02 R47 to R50). -/
structure Mailbox where
  request  : Bytes := []
  response : Bytes := []
  seq      : Nat := 0
  mstat    : Nat := 0
  overrun  : Bool := false
  busy     : Bool := false
  done     : Bool := false
  running  : Nat := 0
deriving DecidableEq, Repr

/-- One open Afwell session (02 R53 to R56). The key is the derived session key. -/
structure Session where
  port     : Nat
  id       : Nat
  major    : Nat
  minor    : Nat
  key      : Bytes
  highest  : Nat
  seen     : List Nat
  kept     : List (Nat × List Reply)
  lastAt   : Nat
  factory  : Bool
deriving DecidableEq, Repr

/-- A DOMAIN transfer in progress on one path instance (02 R45). -/
structure Transfer where
  path : Path
  idx  : Nat
  sub  : Nat
  data : Bytes
deriving DecidableEq, Repr

/-- A host lock (02 R59). -/
structure HostLock where
  idx  : Nat
  sub  : Nat
  port : Nat
deriving DecidableEq, Repr

/-- One copy of the configuration store, with the epoch whose MAC key signed it (02 R40, 20 R574, 23 R621). -/
structure StoreCopy where
  valid : Bool := false
  gen   : Nat := 0
  epoch : Nat := 0
  nums  : KMap Nat := []
  doms  : KMap Bytes := []
deriving DecidableEq, Repr

/-- An object message held while no hub executes it (02 R69). -/
structure HeldMessage where
  path : Path
  msg  : Msg
deriving DecidableEq, Repr

/-- A snapshot of the counters taken for one path instance (22 R602). -/
structure Snapshot where
  path : Path
  data : Bytes
deriving DecidableEq, Repr

/-- The object dictionary (02). Keys of the value maps are 256 × index + subindex. `written` and `domains` are values
written since the main rails came up, `staged` values waiting for a COMMIT (R41), `stored` and `storedDoms` values of the
store applied at boot, `counts` and `blobs` the values the device sets. (log 3, DESIGN CHOICE.) -/
structure Dict where
  written    : KMap Nat := []
  domains    : KMap Bytes := []
  staged     : KMap Nat := []
  stagedDoms : KMap Bytes := []
  stored     : KMap Nat := []
  storedDoms : KMap Bytes := []
  counts     : KMap Nat := []
  blobs      : KMap Bytes := []
  transfers  : List Transfer := []
  locks      : List HostLock := []
  mailboxes  : KMap Mailbox := []
  sessions   : List Session := []
  held       : List HeldMessage := []
  storeA     : StoreCopy := {}
  storeB     : StoreCopy := {}
  storeGen   : Nat := 0
  snapshots  : List Snapshot := []
deriving DecidableEq, Repr

/-- One hub's part in primacy (02 R62 to R66). Times are local; `lastA` and `lastB` are the last heartbeats received on
the two paths, `due` the instant of the hub's action of R66, `fault` its own health fault of R70. -/
structure HubSide where
  present    : Bool := false
  primary    : Bool := false
  deciding   : Bool := false
  failedA    : Bool := false
  failedB    : Bool := false
  silent     : Bool := false
  lastA      : Nat := 0
  lastB      : Nat := 0
  lastSent   : Nat := 0
  epoch      : Nat := 0
  due        : Option Nat := none
  alarm      : Bool := false
  fault      : Bool := false
deriving DecidableEq, Repr

/-- A heartbeat (02 R64). -/
structure Heartbeat where
  epoch    : Nat
  primary  : Bool
  deciding : Bool
  mirror   : Nat
deriving DecidableEq, Repr

/-- A grant of primacy on its way to a hub (02 R69). -/
structure Grant where
  hub   : Nat
  epoch : Nat
  sent  : Nat
deriving DecidableEq, Repr

/-- Hub primacy (02 R62 to R70, R625). -/
structure Hubs where
  hn        : HubSide := {}
  hs        : HubSide := {}
  unitEpoch : Nat := 0
  solo      : Bool := false
  resync    : Bool := false
  issued    : Nat := 0
  acked     : Nat := 0
  grant     : Option Grant := none
deriving DecidableEq, Repr

/-- The device state (02 R73). -/
inductive DevState where
  | standby | booting | config | serving | draining | test | recovery | failed
deriving DecidableEq, Repr

/-- The device state, the cause and instant of its last change (02 R73, R74), and the tick of the admission that OD 0xA030.01
scheduled (19 R554). -/
structure Device where
  state    : DevState := .standby
  cause    : Nat := 0
  changeFt : Nat := 0
  serveAt : Option Nat := none
deriving DecidableEq, Repr

/-- One stage entry of an image (03 R91). -/
structure Stage where
  kind      : Nat := 0
  flags     : Nat := 0
  firstTile : Nat := 0
  tiles     : Nat := 0
  cWork     : Nat := 0
  cRetry    : Nat := 0
  producers : Nat := 0
  index     : Nat := 0
  flash     : Nat := 0
  exchange  : Nat := 0
  firstProg : Nat := 0
  progs     : Nat := 0
  firstW    : Nat := 0
  weights   : Nat := 0
deriving DecidableEq, Repr

/-- One claims entry of an image (03 R92). -/
structure Claim where
  resource : Nat := 0
  tile     : Nat := 0
  amount   : Nat := 0
deriving DecidableEq, Repr

/-- One weight reference of an image (03 R93). -/
structure WeightRef where
  tensor : Nat := 0
  format : Nat := 0
  major  : Nat := 0
  minor  : Nat := 0
  objA   : Nat := 0
  objB   : Nat := 0
  size   : Nat := 0
deriving DecidableEq, Repr

/-- One program-table entry of an image (03 R94). -/
structure Prog where
  target : Nat := 0
  kind   : Nat := 0
  addr   : Nat := 0
  offset : Nat := 0
  length : Nat := 0
deriving DecidableEq, Repr

/-- A parsed pipeline image (03 R90 to R94). -/
structure Image where
  major     : Nat := 1
  minor     : Nat := 0
  flags     : Nat := 0
  id        : Nat := 0
  partition : Nat := 0
  bq        : Nat := 1
  roleMask  : Nat := 3
  total     : Nat := 0
  sigOff    : Nat := 0
  stages    : List Stage := []
  claims    : List Claim := []
  weights   : List WeightRef := []
  progs     : List Prog := []
deriving DecidableEq, Repr

/-- The state of an image slot (03 R104). -/
inductive SlotState where
  | empty | staged | resident | pending | active | retiring
deriving DecidableEq, Repr

/-- Where a batch of queries stands: waiting for stage 1, in a stage, between two stages while a window, flash round
or exchange round runs (03, The spatial pipeline), or past the last stage. -/
inductive BatchAt where
  | waiting | inStage (i : Nat) | after (i : Nat) | out
deriving DecidableEq, Repr

/-- A batch of queries of one image (03 R86), numbered per slot; `extra` once it has used its partner round (16 R468). -/
structure Batch where
  id      : Nat
  queries : List Nat
  closed  : Bool
  at_     : BatchAt
  buffer  : Nat
  extra   : Bool := false
deriving DecidableEq, Repr

/-- An image slot (03 R104, R105). `words` places each Carr program entry at its first instruction word with its length
(09 R292); `stores` and `rings` give, for a stage, the base and length of its claim in the stage store (09 R269) and in the
allowed ring (08 R251). `activeAt`, `retiredAt` and `swapAt` are the local instants of its last activation, replacement and swap;
`capWait` holds the point and slot length still running (21 R591). `locked` lists the queries that still run on the previous weight buffer (R108). -/
structure Slot where
  state     : SlotState := .empty
  file      : Bytes := []
  image     : Option Image := none
  tileMap   : List Nat := []
  buffer    : Nat := 0
  locked    : List Nat := []
  prevLocked : Bool := false
  tSlot     : Nat := 0
  fg        : Nat := 0
  batches   : List Batch := []
  nextBatch : Nat := 0
  service   : Nat := 0
  halted    : Bool := false
  restricted : Bool := false
  activeAt  : Nat := 0
  retiredAt : Nat := 0
  swapAt    : Nat := 0
  cellBase  : Nat := 0
  cellCount : Nat := 0
  capWait   : Option (Nat × Nat) := none
  words     : List (Nat × Nat × Nat) := []
  stores    : List (Nat × Nat × Nat) := []
  rings     : List (Nat × Nat × Nat) := []
deriving DecidableEq, Repr

/-- What a claimed region serves. -/
inductive RegionUse where
  | image (key : Nat) | index (key : Nat) | table (key : Nat) | tier (key : Nat) | window (port : Nat)
deriving DecidableEq, Repr

/-- A run of granules claimed and tagged with an owner (03 R81, R100). Space 0 is the SRAM of tile `unit`, 1 Carr DRAM
in the interleaved view, 2 the image area of hub SRAM. -/
structure Region where
  space : Nat
  unit  : Nat
  base  : Nat
  size  : Nat
  owner : Nat
  use   : RegionUse
deriving DecidableEq, Repr

/-- The claims held on the device beside the slots' own lists (03 R80, R100): the slot that owns each physical tile,
and the regions of memory. An address in no region carries the tag of SYSTEM. -/
structure Claims where
  tileOwner : KMap Nat := []
  regions   : List Region := []
deriving DecidableEq, Repr

end Sys2Proof.Machine
end

