-- ==== Sys2Proof/Machine/StateData.lean ====
section
/-! DEFINITION. The state of the data a device holds: tier objects and moves, embedding tables (14), search indices (06). -/

namespace Sys2Proof.Machine

open Sys2Proof

/-- A tier object (14 R386 to R388). `base` is its first byte in the tier's own memory. -/
structure TierObj where
  tier    : Nat
  size    : Nat
  place   : Nat
  offset  : Nat
  base    : Nat
  role    : Nat
  writing : Bool := false
  last    : Nat := 0
deriving DecidableEq, Repr

/-- A queued MOVE (14 R389): destination and source ids, offsets, port, tiles and signal field. -/
structure Move where
  dst    : Nat
  dstOff : Nat
  src    : Nat
  srcOff : Nat
  port   : Nat
  tiles  : Nat
  signal : Nat
deriving DecidableEq, Repr

/-- The tiers (14): objects by id, queued moves by partition. -/
structure Tiers where
  objs  : KMap TierObj := []
  moves : KMap (List Move) := []
deriving DecidableEq, Repr

/-- An entry of a log ring (06 R187): kind 1 BIRTH, 2 DEATH, 3 FOLD. -/
structure LogEntry where
  item  : Nat
  kind  : Nat
  ft    : Nat
  attrs : Nat
deriving DecidableEq, Repr

/-- The log ring of a pseudo-channel (06 R187): the entries it holds, oldest first, and the number written so far. -/
structure LogRing where
  entries : List LogEntry := []
  total   : Nat := 0
deriving DecidableEq, Repr

/-- A slot of an index that is not free (06 R169, R180): its item, whether the item still stands in the side list, its
commit and, once dead, the commit of its death. -/
structure Item where
  key    : Nat
  attrs  : Nat
  side   : Bool
  birth  : Nat
  death  : Option Nat
  code   : Bytes
  refine : Bytes
deriving DecidableEq, Repr

/-- A side entry (06 R190) and its position in the staging region. -/
structure SideEntry where
  pos   : Nat
  slot  : Nat
  birth : Nat
  stop  : Option Nat
  attrs : Nat
  code  : Bytes
deriving DecidableEq, Repr

/-- The state of an index (06 R176). -/
inductive IndexState where
  | building | ready | reindexing
deriving DecidableEq, Repr

/-- A search index that is not EMPTY (06). The attributes are those fixed at CREATE; `bands` is the first subarray of its
bitmaps, `codes` the local address of its codes, with its log ring after them, and the other bases are interleaved. `top` is
the highest snapshot used (R182), `progress` the cells re-encoded to the book not in force, `stalled` a wait under R189, `saved` the live items
of the persistent copy (R184; 19 R542). -/
structure SearchIndex where
  state    : IndexState
  distance : Nat
  dims     : Nat
  fmt      : Nat
  refine   : Bool
  vfmt     : Nat
  sideMode : Bool
  cells    : Nat
  rows     : Nat
  sideCap  : Nat
  space    : Nat
  bands    : Nat
  codes    : Nat
  ring     : Nat
  refines  : Nat
  keys     : Nat
  cellTab  : Nat
  sideTab  : Nat
  claimed  : Nat
  horizon  : Nat := 0
  last     : Nat := 0
  top      : Nat := 0
  book     : Nat := 0
  progress : Nat := 0
  items    : KMap Item := []
  rings    : KMap LogRing := []
  sides    : List SideEntry := []
  stalled  : Bool := false
  saved    : KMap Item := []
deriving DecidableEq, Repr

/-- A width class of a table (14 R394). -/
structure WidthClass where
  first      : Nat
  log2       : Nat
  replicated : Bool
  records    : Nat
deriving DecidableEq, Repr

/-- What a holder keeps of an owner (14 R407): the last watermark, when it came, and whether every forward up to it is
applied. -/
structure OwnerMark where
  mark    : Nat
  at_     : Nat
  current : Bool
deriving DecidableEq, Repr

/-- A hot slot of a HOT area (14 R397, R403, R404): its key, the commit its copy holds, and the local FT of the record's
first later commit. -/
structure HotCopy where
  key     : Nat
  slot    : Nat
  commit  : Nat
  stale   : Option Nat
deriving DecidableEq, Repr

/-- A HOT area (14 R397): its object, the copies it holds, and the slots retired and not yet free. -/
structure HotArea where
  obj     : Nat
  copies  : List HotCopy := []
  retired : List Nat := []
  current : Bool := false
deriving DecidableEq, Repr

/-- An embedding table that is not EMPTY (14 R392). -/
structure Table where
  ready    : Bool
  classes  : List WidthClass
  shards   : Nat
  firstOwned : Nat
  lastOwned  : Nat
  firstPart  : Nat
  lastPart   : Nat
  rows     : Nat
  optimiser : Nat
  shardMap : Nat
  hot      : Nat
  hotSet   : List Nat := []
  areas    : List HotArea := []
  marks    : KMap OwnerMark := []
  resync   : List Nat := []
  claimed  : Nat := 0
deriving DecidableEq, Repr

/-- The data of a device: tiers, indices by 16 × partition + index, tables by 64 × partition + table, and the remote rows
asked for and not yet returned, as destination tile and address by request number (14 R399). -/
structure Data where
  tiers   : Tiers := {}
  indices : KMap SearchIndex := []
  tables  : KMap Table := []
deriving DecidableEq, Repr

end Sys2Proof.Machine
end

