-- ==== Sys2Proof/Machine/StateFab.lean ====
section
/-! DEFINITION. The state of Causeway (16): ports, the flits delivered to this node, and exchange rounds. -/

namespace Sys2Proof.Machine

open Sys2Proof

/-- The lock machine of a received wavelength (16 R441): phase 0 HUNT, 1 PRESYNC, 2 SYNC, with its count or misses. -/
structure LaneLock where
  phase : Nat := 0
  count : Nat := 0
deriving DecidableEq, Repr

/-- A sequenced flit in a replay buffer (16 R449); none is a CTL. -/
structure Sent where
  seq   : Nat
  flit  : Option Flit
  at_   : Nat
  times : Nat
deriving DecidableEq, Repr

/-- A lane move of the receive side (16 R452): logical lane, old and new wavelength, whether the old one is bad, and the
spare-switch cause of 22 R627. -/
structure LaneMove where
  lane  : Nat
  old   : Nat
  dest  : Nat
  bad   : Bool
  cause : Nat
deriving DecidableEq, Repr

/-- A Causeway port (16). `lanes` is its receive lane map and `txLanes` its transmit map, `since` the local time at which each
wavelength took its lane. Sequence counts are kept whole and sent modulo 4,096. `used` and `credits` count per class the flits
sent and the peer's flits freed, `freed` those freed here. `nak` is the sequence last NAKed with its time, `nakDue` a NAK to
send; `hold` stops data during a move after a loss. `wants` are lane moves asked for, `offered` the one in progress,
`vigil` the moves of a Vigil visit still to begin, plus one while it lasts. -/
structure FabPort where
  state    : Nat := 0
  cause    : Nat := 0
  partner  : Nat := 0xFFFFFFFF
  version  : Nat := 0
  lanes    : List Nat := [0, 1, 2, 3, 4, 5, 6, 7, 8, 8]
  txLanes  : List Nat := [0, 1, 2, 3, 4, 5, 6, 7, 8, 8]
  locks    : List LaneLock := List.replicate 10 {}
  since    : List Nat := List.replicate 10 0
  errs     : List Nat := List.replicate 10 0
  errAt    : Nat := 0
  started  : Nat := 0
  tried    : Option Nat := none
  authBad  : Nat := 0
  sealBad  : List Nat := []
  expected : Nat := 0
  held     : List Flit := []
  freed    : List Nat := [0, 0, 0]
  nak      : Option (Nat × Nat) := none
  nakDue   : Bool := false
  nextSeq  : Nat := 0
  replay   : List Sent := []
  credits  : List Nat := [0, 0, 0]
  used     : List Nat := [0, 0, 0]
  counter  : Nat := 0
  queue    : List Flit := []
  sinceBulk : Nat := 0
  nakked   : Bool := false
  hold     : Bool := false
  offered  : Option LaneMove := none
  wants    : List LaneMove := []
  vigil    : Nat := 0
  cmdOut   : List (Nat × Nat) := []
  cmdIn    : List (Nat × Nat) := []
deriving DecidableEq, Repr

/-- A remote row asked for in an exchange round (14 R399): its key, the item it serves, where its row goes in tile SRAM and how
long it may be, the table and its mode of fallback, the tag of its request and whether it came. -/
structure Ask where
  table : Nat
  key   : Nat
  item  : Nat
  tile  : Nat
  dest  : Nat
  width : Nat
  tag   : Nat
  got   : Nat := 0
  done  : Bool := false
  dead  : Bool := false
deriving DecidableEq, Repr

/-- An exchange round of a batch (16 R466). `extra` marks the round that asks the partner (14 R400), whose
queries are `ids`; `open_` says that its issue slot has ended and `issued` when. -/
structure ExRound where
  slot   : Nat
  stage  : Nat
  batch  : Nat
  issued : Nat
  bytes  : Nat := 0
  asks   : List Ask := []
  writes : List Nat := []
  extra  : Bool := false
  open_  : Bool := false
  ids    : List Nat := []
deriving DecidableEq, Repr

/-- Causeway. `inbox` holds the flits delivered to this node and not yet taken up, oldest first; `lists` the remote lists that
GATHER jobs of a slot have written and no round has yet taken: slot, table, list address key, output key and row bytes;
`ended` counts the batches of a slot whose last round has ended. -/
structure Fabric where
  ports   : KMap FabPort := []
  inbox   : List Flit := []
  nextTag : Nat := 0
  rounds  : List ExRound := []
  lists   : List (Nat × Nat × Nat × Nat × Nat) := []
  ended   : KMap Nat := []
deriving DecidableEq, Repr

end Sys2Proof.Machine
end

