-- ==== Sys2Proof/Machine/StateIsland.lean ====
section
/-! DEFINITION. The state of the standby island: the QSPI NOR, start-up, keys and life cycle (20), power, thermal and clock supervision
(21), and of Vigil and firmware updates (19). -/

namespace Sys2Proof.Machine

open Sys2Proof

/-- A copy of the boot record (20 R560), with the epoch whose MAC key signed it (R574). -/
structure BootRecord where
  valid  : Bool := false
  gen    : Nat := 0
  active : Nat := 0
  trial  : Nat := 0xFF
  count  : Nat := 0
  epoch  : Nat := 0
deriving DecidableEq, Repr

/-- A firmware image in its NOR slot (20 R561): its header fields, its component codes with their digests, and the verdicts on its
structure with its component hashes and on its signature with its key hash (R562, R564). -/
structure FwImage where
  sound   : Bool := false
  signed  : Bool := false
  live    : Bool := false
  svn     : Nat := 0
  mirror  : Nat := 0
  visible : Nat := 0
  key     : Nat := 0
  comps   : List (Nat × Bytes) := []
deriving DecidableEq, Repr

/-- A copy of the key store (20 R573), wrapped under the key-wrap key of an epoch. -/
structure KeyCopy where
  valid : Bool := false
  gen   : Nat := 0
  epoch : Nat := 0
  keys  : KMap Bytes := []
deriving DecidableEq, Repr

/-- A live hub update (19 R556): the hub that updates, whether it is the second one, whether it has booted and resynchronises, and the
handovers refused so far. -/
structure HubUpdate where
  hub    : Nat
  second : Bool
  booted : Bool := false
  tries  : Nat := 0
deriving DecidableEq, Repr

/-- The standby island (20, 21). `alive` says that phase S0 has ended, `phase` is the start-up phase that comes next, 0 none; `groups` rail
groups are enabled, `railAt` holds the time at which each rail was enabled and `good` the rails that report power-good. `running` is the NOR
slot booted, `keys` the keys in force: 0 the side-band key, 1 + 2·n + k link key k of port n, 256 + p the flash key of Pp, `factory` the
factory key. `armed` counts
the scrap writes, `waiting` lists the rails whose STATUS_WORD the next poll reads, `refHold` the time until which the main domain
stays off after a reference-clock failure, `lastStep` the last change of the thermal reduction and `thermTrip` the THERMTRIP_N output. (log 4, DESIGN CHOICE.) -/
structure Island where
  alive    : Bool := true
  straps   : Nat := 0
  recA     : BootRecord := { valid := true, gen := 1 }
  recB     : BootRecord := {}
  slotA    : FwImage := { sound := true, signed := true, comps := (List.range 6).map (fun c => (c + 1, List.replicate 48 0)) }
  slotB    : FwImage := { sound := true, signed := true, comps := (List.range 6).map (fun c => (c + 1, List.replicate 48 0)) }
  keyA     : KeyCopy := { valid := true }
  keyB     : KeyCopy := {}
  running  : Nat := 0
  phase    : Nat := 0
  groups   : Nat := 0
  good     : List Nat := []
  railAt   : KMap Nat := []
  railBase : Nat := 0
  lastFail : Bool := false
  keys     : KMap Bytes := []
  factory  : Bytes := []
  token    : Option Bytes := none
  armed    : Nat := 0
  nonce    : Option Bytes := none
  test     : Option Nat := none
  testAt   : Nat := 0
  staged   : Bool := false
  update   : Option HubUpdate := none
  sweep    : Option (List Nat) := none
  waiting  : List Nat := []
  refHold  : Nat := 0
  lastStep : Nat := 0
  thermTrip : Bool := false
deriving DecidableEq, Repr

/-- A Vigil visit of a tile (19 R548): the Almanac entry of its firing, its step (1 save, 2 BIST, 3 restore, 4 switch-in), the saved bytes,
and the units under test as unit kind of 22 R627 and physical number, with those that passed. -/
structure Visit where
  entry  : Nat
  step   : Nat
  saved  : Bytes := []
  units  : List (Nat × Nat) := []
  passed : List (Nat × Nat) := []
deriving DecidableEq, Repr

/-- Vigil (19 R547 to R552): visits by tile, stack visits by stack as the time of the visit and the pseudo-channels whose moves wait, the
local time at which each unit last passed its test, and the time of the boot, when every unit had passed. -/
structure Vigil where
  visits : KMap Visit := []
  stackAt : KMap (Nat × List Nat) := []
  tested : KMap Nat := []
  bootAt : Nat := 0
deriving DecidableEq, Repr

end Sys2Proof.Machine
end

