-- ==== Sys2Proof/Machine/StateMem.lean ====
section
/-! DEFINITION. The addressed memories of the block. -/

namespace Sys2Proof.Machine

open Sys2Proof

/-- The addressed memories. Tile SRAM is keyed by 2^32 × tile + address (01 R13), hub SRAM by 2^32 × hub + address,
Carr DRAM by 2^30 × pseudo-channel + local address (08 R232), staging rows by 2^24 × pseudo-channel + staging address (09 R266), the stage stores and scratch by core, instruction memory by core
and word, the Sluice program stores by block and word, flash by global unit and byte. -/
structure Mems where
  tile    : Memory := []
  hub     : Memory := []
  carr    : Memory := []
  staging : Memory := []
  stage   : Memory := []
  scratch : Memory := []
  imem    : Memory := []
  sluice  : Memory := []
  flash   : Memory := []
deriving DecidableEq, Repr

end Sys2Proof.Machine
end

