-- ==== Sys2Proof/Machine/StateMire.lean ====
section
/-! DEFINITION. The state of flash and Mire (18). Targets Fc.CEm are numbered 8·c + m; die 0 is FN, 1 FS. -/

namespace Sys2Proof.Machine

open Sys2Proof

/-- A namespace that is READY (18 R506). -/
structure Namespace where
  owner : Nat
  size  : Nat
  first : Nat
deriving DecidableEq, Repr

/-- What an operation on a target is (18 R519). -/
inductive FlashKind where
  | query | background | program | erase
deriving DecidableEq, Repr

/-- An operation queued or in flight on a target (18 R519, R520): the unit it works on, the query read it serves, and how
often it was suspended. -/
structure FlashOp where
  kind      : FlashKind
  unit      : Nat
  read      : Nat
  started   : Bool
  suspended : Bool
  suspends  : Nat
deriving DecidableEq, Repr

/-- A NAND target (18 R500). `ops` are in the order in which they will run. -/
structure Target where
  ops      : List FlashOp := []
  writeBusy : Bool := false
  failed   : Bool := false
  blocks   : Nat := 0
  perBlock : Nat := 0
deriving DecidableEq, Repr

/-- A query read of a flash round (18 R518, R523): the tile channel and unit index it serves, its place in flash and its
destination in tile SRAM. -/
structure QRead where
  id       : Nat
  unit     : Nat
  off      : Nat
  len      : Nat
  target   : Nat
  tile     : Nat
  dest     : Nat
  chan     : Nat
  index    : Nat
  attempts : Nat
  status   : Option Nat
deriving DecidableEq, Repr

/-- A flash round of a slot (18 R523). -/
structure Round where
  slot   : Nat
  stage  : Nat
  issued : Nat
  reads  : List QRead
deriving DecidableEq, Repr

/-- A commit record whose data has not yet been programmed (18 R510, R511): its journal sequence, its unit with the entry
and content the unit had before, whether it is a patch, and the room it takes in the protected buffer. -/
structure JournalRec where
  seq   : Nat
  unit  : Nat
  entry : Option Nat
  old   : Bytes
  patch : Bool
  room  : Nat
deriving DecidableEq, Repr

/-- A write that waits for room in the protected buffer (18 R510). -/
structure FlashWait where
  id     : Nat
  owner  : Nat
  ns     : Nat
  off    : Nat
  phys   : Nat
  system : Bool
  patch  : Bool
  data   : Bytes
deriving DecidableEq, Repr

/-- A storage die (18 R503, R510, R529). `torn` gives the records that the last dump left in flash after a missing page (R516). -/
structure Die where
  journal  : List JournalRec := []
  waiting  : List FlashWait := []
  spare    : Nat := 0
  consumed : Nat := 0
  reserve  : Nat := 0
  reserveUsed : Nat := 0
  blocks   : Nat := 0
  worn     : Bool := false
  lost     : Bool := false
  torn     : Option Nat := none
deriving DecidableEq, Repr

/-- A block that has been written since its last erase (18 R527). -/
structure FlashBlock where
  used    : Nat := 0
  pe      : Nat := 0
  closed  : Option Nat := none
deriving DecidableEq, Repr

/-- Mire (18). `map` holds the entries that are not UNWRITTEN (R501), blocks are keyed by 2^25 × target + block, `retired`
lists retired blocks, `dumping` is the power-failure sequence, `lastDump` how the last one ended (OD 0x8000.13). -/
structure Mire where
  spaces   : KMap Namespace := []
  map      : KMap Nat := []
  targets  : KMap Target := []
  rounds   : List Round := []
  queue    : List (Nat × FlashOp) := []
  dieN     : Die := {}
  dieS     : Die := {}
  blocks   : KMap FlashBlock := []
  retired  : List Nat := []
  nextSeq  : Nat := 1
  nextRead : Nat := 1
  dumping  : Bool := false
  keys     : KMap Bytes := []
  lastDump : Nat := 0
deriving DecidableEq, Repr

end Sys2Proof.Machine
end

