-- ==== Sys2Proof/Machine/StateOut.lean ====
section
/-! DEFINITION. What leaves the block: responses, frames, interrupts and writes to the host. -/

namespace Sys2Proof.Machine

open Sys2Proof

/-- One thing that left the block, newest first in the state's list. -/
inductive Out where
  /-- The response to an object message on the path it came by (02 R43). -/
  | response (path : Path) (reply : Reply)
  /-- An Afwell response frame (02 R55). -/
  | afwell (port session sq : Nat) (replies : List Reply)
  /-- An MSI-X vector sent on a host port (05 R162, 02 R50). -/
  | msix (port vector : Nat)
  /-- A posted write to host memory (05 R159). -/
  | hostWrite (port addr : Nat) (bytes : Bytes)
  /-- A read of host memory (05 R163; 13 R360). -/
  | hostRead (port tag addr len : Nat)
  /-- A heartbeat sent by a hub on a path (02 R64). -/
  | heartbeat (hub path epoch : Nat) (primary deciding : Bool) (mirror : Nat)
  /-- A mirror write sent to the passive hub (02 R63). -/
  | mirror (sq : Nat)
  /-- A grant of primacy sent on both paths (02 R69). -/
  | grant (hub epoch : Nat)
  /-- A resign sent by a hub (19 R531). -/
  | resign (hub : Nat)
  /-- The data of a CXL.mem read, with its poison mark (05 R146). -/
  | cxlData (port addr : Nat) (bytes : Bytes) (poison : Bool)
  /-- The peer-silent alarm raised on a hub's side-band port (02 R66). -/
  | peerSilent (hub : Nat)
  /-- The result of a TRY of a signal cell: whether it consumed, and the count after (15 R415, R425). -/
  | cellTry (cell : Nat) (took : Bool) (count : Nat)
  /-- The answer to a host read of SIG_TRY (15 R425). -/
  | sigTry (port part value : Nat)
  /-- The answer to a normal Carr request: status 0 OK, 1 ADDRESS, 2 FAILED, 3 FIREWALL, with its data and poison mark
  (08 R234, R246, R255, R261; 03 R82). -/
  | carr (id addr status : Nat) (bytes : Bytes) (poison : Bool)
  /-- A message of a Carr core sent to a Sedge unit (09 R285). -/
  | coreSend (pc target header : Nat) (bytes : Bytes)
  /-- The answer to a flash write or background read, with its status of 18 R524. -/
  | flash (id status : Nat) (bytes : Bytes)
  /-- A routed flit sent on a port with its link sequence (16 R443, R449). -/
  | flit (port sq : Nat) (f : Flit)
  /-- A CTL sent on a port (16 R447); its tag is not shown. -/
  | ctl (port : Nat) (c : Ctl)
  /-- A TIME flit sent on a port, its timestamps in units of 2^-16 ns (17 R475); its tag is not shown. -/
  | time (port kind flags sq master steps t1 t2 t3 counter : Nat)
  /-- A watermark sent to a holder of a table's rows (14 R407). -/
  | watermark (node part table mark : Nat)
  /-- A request to an owner for the whole record of a row (14 R408). -/
  | resync (node part table key : Nat)
deriving DecidableEq, Repr

end Sys2Proof.Machine
end

