-- ==== Sys2Proof/Machine/StateTele.lean ====
section
/-! DEFINITION. The state of telemetry: accounting, the two Lanterns, Annals and the alarms (22), and what has left the
block. -/

namespace Sys2Proof.Machine

open Sys2Proof

/-- An Annals event before its sequence is assigned (22 R611). -/
structure Event where
  ft       : Nat
  code     : Nat
  severity : Nat
  owner    : Nat
  source   : Nat
  data     : Bytes
deriving DecidableEq, Repr

/-- An Annals record (22 R611). -/
structure AnnalsRecord where
  seq   : Nat
  event : Event
  boot  : Nat
deriving DecidableEq, Repr

/-- A staging buffer of Annals (22 R614) with the events lost since its last EVENTS_LOST record. -/
structure Staging where
  events    : List Event := []
  lost      : Nat := 0
  firstLost : Nat := 0
  lastLost  : Nat := 0
  lastFt    : Nat := 0
deriving DecidableEq, Repr

/-- Annals (22 R611 to R616). `ring` holds the records written and not yet persisted, `kept` those persisted. -/
structure Annals where
  stageN    : Staging := {}
  stageS    : Staging := {}
  standby   : Staging := {}
  ring      : List AnnalsRecord := []
  kept      : List AnnalsRecord := []
  nextSeq   : Nat := 1
  boot      : Nat := 0
  stopped   : Bool := false
  lostSince : Bool := false
deriving DecidableEq, Repr

/-- The state of a Lantern (22 R608). -/
inductive LanternState where
  | idle | filling | post | done | rearm
deriving DecidableEq, Repr

/-- A Lantern record (22 R603). -/
structure TraceRecord where
  ft     : Nat
  code   : Nat
  owner  : Nat
  source : Nat
  data   : Bytes
deriving DecidableEq, Repr

/-- One Lantern (22 R603 to R610). The configuration in force was taken at ARM. `buffer` holds the records kept with
their sequence, `next` is the next sequence, `matches_` counts the matches since FILLING began, `gap` the records dropped since the last GAP
and `lost` those dropped in the capture, `trigFt` the FT of the trigger, `failed` the export-failed flag. -/
structure Lantern where
  state      : LanternState := .idle
  queue      : List TraceRecord := []
  buffer     : List (Nat × TraceRecord) := []
  preDepth   : Nat := 4096
  postCount  : Nat := 4096
  classes    : Nat := 0xFFFE
  owners     : Nat := 0x1FFFFFFFF
  trigger    : Nat := 0x0E000000FF000001
  watched    : List Nat := []
  autoRearm  : Bool := false
  matches_   : Nat := 0
  pre        : Nat := 0
  postLeft   : Nat := 0
  gap        : Nat := 0
  capture    : Nat := 0
  exporting  : Bool := false
  next       : Nat := 0
  trigFt     : Nat := 0
  lost       : Nat := 0
  failed     : Bool := false
deriving DecidableEq, Repr

/-- Telemetry (22). Accounting counters of partition p and subindex k are kept under 256 × p + k, refusals by reason
under 16 × p + reason. -/
structure Tele where
  counters  : KMap Nat := []
  refusals  : KMap Nat := []
  lastUs    : Nat := 0
  lastMs    : Nat := 0
  annals    : Annals := {}
  lanternN  : Lantern := {}
  lanternS  : Lantern := {}
  active    : Nat := 0
  latched   : Nat := 0
deriving DecidableEq, Repr

end Sys2Proof.Machine
end

