-- ==== Sys2Proof/Machine/StateTile.lean ====
section
/-! DEFINITION. The state of the tiles' units: Sluice channels (13), matrix arrays (07), Sedge units (11), Mere engines (10). -/

namespace Sys2Proof.Machine

open Sys2Proof

/-- The segment of the MOVE or MOVEX that a channel runs (13 R363 to R365): its addresses with bindings resolved, strides, the
steps already summed into the addresses, unit size, count, Peat format and flags; `book` is the codebook of a Peat-W tensor and
`batch` the batch of an exchange write. -/
structure Seg where
  src   : Nat
  dst   : Nat
  sstr  : Nat
  dstr  : Nat
  tile  : Bool
  count : Nat
  movex : Bool
  fmt   : Nat
  flags : Nat
  book  : Bytes
  batch : Nat
deriving DecidableEq, Repr

/-- A unit in flight (13 R362, R370): its issue number, its instruction's serial number and word, its index, the bytes it reads
and the data to write once its read has returned, its reissues, the lines of an exchange write still to be answered and the tag
of its host read or exchange write. -/
structure SUnit where
  id    : Nat
  inst  : Nat
  word  : Nat
  index : Nat
  src   : Nat
  dst   : Nat
  len   : Nat
  fmt   : Nat
  flags : Nat
  book  : Bytes
  batch : Nat
  data  : Option Bytes
  tries : Nat
  acks  : Nat
  tag   : Nat
  flash : Bool
deriving DecidableEq, Repr

/-- A Sluice channel (13 R366, R379 to R381): state 0 IDLE, 1 RUN, 2 WAIT, 3 HALTED, 4 DISABLED; its program's first word and
length in the block's program store; the loop stack, innermost first, as body word, iterations left and iterations done. `issued`
counts the units issued of the instruction `seg`, `done` those completed; `signal` is a SIGNAL that waits for acknowledgements. -/
structure Chan where
  state    : Nat := 0
  base     : Nat := 0
  length   : Nat := 0
  word     : Nat := 0
  error    : Nat := 0
  errAddr  : Nat := 0
  retries  : Nat := 0
  done     : Nat := 0
  loops    : List (Nat × Nat × Nat) := []
  inst     : Nat := 0
  seg      : Option Seg := none
  issued   : Nat := 0
  flight   : List SUnit := []
  nextId   : Nat := 0
  redirect : Option Nat := none
  signal   : Bool := false
  cell     : Nat := 0
  timeout  : Nat := 0
  replay   : Bool := false
deriving DecidableEq, Repr

/-- A shadow column (19 R533, R534): its physical column, the logical column it shadows (128 the checksum column), the chain ends
left, and whether it is the second shadow of a disagreement with the first one's physical column. -/
structure Shadow where
  phys   : Nat
  col    : Nat
  ends   : Nat
  second : Option Nat
deriving DecidableEq, Repr

/-- A shadow search of an array (19 R533): the columns not yet shadowed and the shadows that run; a search that waits for its slot
boundary has not started. -/
structure Search where
  started : Bool := false
  todo    : List Nat := List.range 129
  shadows : List Shadow := []
deriving DecidableEq, Repr

/-- A weight tile that a lane pair delivered (13 R382): channel, source address, codebook. -/
structure Sent8 where
  chan : Nat
  src  : Nat
  book : Bytes
deriving DecidableEq, Repr

/-- A matrix array (07): its queue of pass descriptors, the open chain as its passes, whether its work is lost or it runs again, accumulator entries
under 128 × entry + column, the shadow buffer with the tiles a replay still brings, the tiles delivered and consumed since the slot
began, the log of R382, the column map and failed columns, the shadow search, and a column replacement that waits for a slot
boundary. -/
structure ArrayUnit where
  queue   : List Bytes := []
  chain   : List Bytes := []
  lost    : Bool := false
  retry   : Bool := false
  acc     : KMap Nat := []
  shadow  : List Bytes := []
  sent    : Nat := 0
  fed     : Nat := 0
  start   : Nat := 0
  log     : List Sent8 := []
  replay  : Option Nat := none
  cols    : List Nat := List.range 129
  bad     : List Nat := []
  search  : Option Search := none
  swap    : List (Nat × Nat × Nat) := []
  since   : KMap Nat := []
  broken  : Bool := false
deriving DecidableEq, Repr

/-- A message on its way to a Sedge unit (11 R324, R325) from a Mere engine or a Sedge unit. -/
structure SedgeMsg where
  target : Nat
  header : Nat
  data   : Bytes
  owner  : Nat
deriving DecidableEq, Repr

/-- A list entry (11 R319, R329): score, handle, position, the producer slot that brought it (1,024 the array port), and its
external key where it came with one. -/
structure Ent where
  score : Nat
  hand  : Nat
  pos   : Nat
  slot  : Nat
  key   : Option Nat
deriving DecidableEq, Repr

/-- A running sum (11 R327, R328): the exact total in units of 2^-149, or 2^-1097 in log-sum-exp mode, and the special values met. -/
structure Acc where
  total : Int := 0
  pinf  : Bool := false
  ninf  : Bool := false
  nan   : Bool := false
deriving DecidableEq, Repr

/-- The list of one query (11 R318 to R329): entries best first, the unselected sum, the flags gathered, and the argmax that each
producer slot reported. -/
structure QList where
  ents  : List Ent := []
  un    : Acc := {}
  lse   : Bool := false
  flags : Nat := 0
  args  : KMap Nat := []
deriving DecidableEq, Repr

/-- A Sedge unit's open batch (11 R330 to R332): its OPEN descriptor, the lists, the chains ended and vectors sent by each array,
whether its lists are lost, and when FINISH closed them with its descriptor. -/
structure OpenBatch where
  desc   : Bytes
  lists  : List QList
  chains : List Nat := [0, 0]
  vecs   : List Nat := [0, 0]
  lost   : Bool := false
  closed : Option (Nat × Bytes) := none
deriving DecidableEq, Repr

/-- A Sedge unit of a tile (11): its queue, open batch, and the vectors of the array port: array, chain end, values. -/
structure SedgeUnit where
  queue : List Bytes := []
  batch : Option OpenBatch := none
  port  : List (Nat × Bool × List Nat) := []
deriving DecidableEq, Repr

/-- The item that a context works on (10 R295): its number, the next position of a SIDESCAN chunk, and its local list. -/
structure Ctx where
  item : Nat
  pos  : Nat := 0
  list : List (Nat × Nat) := []
deriving DecidableEq, Repr

/-- A job that runs on a Mere engine (10): its descriptor, its items and how many have begun, the contexts at work, its window and the
local time at which that ends, the records not yet packed into a message, the remote list of a GATHER as key and item, and whether
the header of its HOT area passed its check. -/
structure Job where
  desc   : Bytes
  items  : Nat
  next   : Nat
  ctxs   : KMap Ctx
  window : Nat := 0
  until_ : Nat := 0
  packs  : List Bytes := []
  remote : List (Nat × Nat) := []
  headed : Bool := true
deriving DecidableEq, Repr

/-- A logical Mere engine (10 R294 to R298). `hits` are the local times of its detected errors and `inSlot` their number in the running
slot (19 R532). -/
structure MereEng where
  queue  : List Bytes := []
  job    : Option Job := none
  hits   : List Nat := []
  inSlot : Nat := 0
deriving DecidableEq, Repr

/-- The Mere engines of a tile (10 R294, R316, R317): the map with the spare, the generations, the failed ones, a replacement that
waits, as logical engine and cause, and the time since which each physical engine serves. -/
structure MereTile where
  map  : List Nat := [0, 1, 2, 3, 4]
  gens : List Nat := [0, 0, 0, 0]
  bad  : List Nat := []
  swap : List (Nat × Nat) := []
  since : KMap Nat := []
deriving DecidableEq, Repr

/-- The units of the tiles: channels by 16 × block + channel (block 40 and 41 are the hubs), arrays by 2 × tile + array, Sedge units by 2 ×
tile + unit, engines by 4 × tile + engine. `erred` lists the slot and stage (16 × slot + stage) with a detected error in the running
slot (03 R97), `lost` the lost tiles, `laneAt` and `sedgeAt` the local time of the last error of a Peat expander and of a Sedge unit. -/
structure Units where
  chans   : KMap Chan := []
  arrays  : KMap ArrayUnit := []
  sedges  : KMap SedgeUnit := []
  engines : KMap MereEng := []
  meres   : KMap MereTile := []
  msgs    : List SedgeMsg := []
  erred   : List Nat := []
  lost    : List Nat := []
  laneAt  : KMap Nat := []
  sedgeAt : KMap Nat := []
deriving DecidableEq, Repr

end Sys2Proof.Machine
end

