-- ==== Sys2Proof/Machine/StateTime.lean ====
section
/-! DEFINITION. The state of time: the local time base, Fabric Time and the Almanac (17). -/

namespace Sys2Proof.Machine

open Sys2Proof

/-- The state of the FT unit (17 R478). -/
inductive FtState where
  | unset | tracking | locked | holdover
deriving DecidableEq, Repr

/-- One exchange kept by the follower, in units of 2^-16 ns, net of corrections (17 R477). -/
structure FtSample where
  theta : Int
  delta : Int
deriving DecidableEq, Repr

/-- A TIME request that waits for its response (17 R474, R475). -/
structure TimeAsk where
  port : Nat
  sq   : Nat
  t1   : Nat
deriving DecidableEq, Repr

/-- The local monotonic time base in ns (01 R21) and the FT unit (17 R469 to R485). Samples come newest first. `slew` is
the offset still to be slewed out, in units of 2^-16 ns; `unsetStep` marks the step out of UNSET until the next tick; `master` and
`steps` are what the last valid response named. -/
structure Clock where
  now       : Nat := 0
  ft        : Nat := 0
  frac      : Nat := 0
  state     : FtState := .unset
  samples   : List FtSample := []
  good      : Nat := 0
  slew      : Int := 0
  lastResp  : Nat := 0
  lastAsk   : Nat := 0
  askSeq    : Nat := 0
  ask       : Option TimeAsk := none
  seen      : List (Nat × Nat) := []
  sent      : KMap Nat := []
  held      : Nat := 0
  lastHeld  : Nat := 0
  mirrored  : Nat := 0
  alarms    : Nat := 0
  unsetStep : Bool := false
  master    : Option Nat := none
  steps     : Nat := 0
deriving DecidableEq, Repr

/-- An Almanac entry (17 R489). `deferred` is an entry due in an earlier tick that 64 others filled (17 R492);
`owed` is the missed count of a deferred entry that was late when it was due (17 R494). -/
structure Entry where
  fire    : Nat := 0
  period  : Nat := 0
  count   : Nat := 0
  action  : Nat := 0
  policy  : Nat := 0
  held    : Bool := false
  flight  : Bool := false
  carried : Bool := false
  deferred : Bool := false
  owed    : Option Nat := none
  late    : Bool := false
  owner   : Nat := 0x20
  target  : Nat := 0
  link    : Nat := 0xFFFF
  missed  : Nat := 0
  firings : Nat := 0
deriving DecidableEq, Repr

/-- A firing in flight (17 R493): `acted` once its action has been taken or refused. -/
structure Firing where
  entry   : Nat
  action  : Nat
  owner   : Nat
  target  : Nat
  instant : Nat
  late    : Bool
  acted   : Bool
deriving DecidableEq, Repr

/-- A REDIRECT or CANCEL that waits for the end of a firing (17 R496). -/
inductive EntryCmd where
  | redirect (e : Entry)
  | cancel
deriving DecidableEq, Repr

/-- The Almanac of the primary hub (17 R488 to R498). `policies` holds the policy SETPOLICY last wrote for a slot entry,
`lastTick` the last tick fired. -/
structure Almanac where
  entries  : KMap Entry := []
  flight   : List Firing := []
  waiting  : KMap EntryCmd := []
  policies : KMap Nat := []
  lastTick : Nat := 0
deriving DecidableEq, Repr

end Sys2Proof.Machine
end

