-- ==== Sys2Proof/Machine/StateTraffic.lean ====
section
/-! DEFINITION. The state of the query path: Levee (04), and the host links and rings (05). -/

namespace Sys2Proof.Machine

open Sys2Proof

/-- A decoded descriptor (05 R155, R156). The fields w32 to w56 are the opcode's own words at bytes 32, 34, 36, 38, 40,
48 and 56. -/
structure Desc where
  opcode  : Nat := 0
  flags   : Nat := 0
  service : Nat := 0
  index   : Nat := 0
  cid     : Nat := 0
  budget  : Nat := 0
  payOff  : Nat := 0
  payLen  : Nat := 0
  resAddr : Nat := 0
  w32     : Nat := 0
  w34     : Nat := 0
  w36     : Nat := 0
  w38     : Nat := 0
  w40     : Nat := 0
  w48     : Nat := 0
  w56     : Nat := 0
deriving DecidableEq, Repr

/-- A fetched request that Levee has not settled (04 R117): where it came from, its arrival stamp and its payload.
`mirror` is the mirror sequence that its acceptance waits for (02 R63), with the slot and L_max of the decision. -/
structure Request where
  port    : Nat
  part    : Nat
  sq      : Nat
  cq      : Nat
  stamp   : Nat
  stampFt : Nat
  desc    : Desc
  payload : Bytes
  mirror  : Option Nat := none
  slot    : Nat := 0
  lmax    : Nat := 0
deriving DecidableEq, Repr

/-- An accepted query (04 R121). Deadlines are local times; `dFt` is the FT value its record reports. -/
structure Query where
  id       : Nat
  part     : Nat
  slot     : Nat
  service  : Nat
  port     : Nat
  sq       : Nat
  cq       : Nat
  stamp    : Nat
  deadline : Nat
  dFt      : Nat
  lmax     : Nat
  snapshot : Nat
  buffer   : Nat
  tSlot    : Nat
  desc     : Desc
  payload  : Bytes
  degraded : Nat := 0
  lost     : Bool := false
deriving DecidableEq, Repr

/-- An accepted update waiting for its applier (04 R121, R128). -/
structure Update where
  id       : Nat
  part     : Nat
  port     : Nat
  sq       : Nat
  cq       : Nat
  stamp    : Nat
  bound    : Nat
  desc     : Desc
  payload  : Bytes
deriving DecidableEq, Repr

/-- An update that the applier has taken, with its commit FT and the detail word of its record (06 R182, 05 R158). -/
structure Commit where
  upd    : Update
  at_    : Nat
  detail : Nat
deriving DecidableEq, Repr

/-- The update state of a partition (04 R130). -/
inductive UpdState where
  | normal | warn | hold
deriving DecidableEq, Repr

/-- One policer (04 R134): the parameters in force, the buckets in 1/65,536 token with what is left of the last refill below that, and
the time of the last refill. -/
structure Policer where
  mode : Nat := 0
  cir  : Nat := 0
  cbs  : Nat := 0
  pir  : Nat := 0
  pbs  : Nat := 0
  tc   : Nat := 0
  tp   : Nat := 0
  rc   : Nat := 0
  rp   : Nat := 0
  last : Nat := 0
deriving DecidableEq, Repr

/-- A composed completion record (05 R158). `quiet` is the descriptor's no-interrupt flag. -/
structure Record where
  cid      : Nat
  status   : Nat
  reason   : Nat
  sq       : Nat
  ft       : Nat
  degraded : Nat
  sqHead   : Nat
  bytes    : Nat
  detail   : Nat
  image    : Nat
  quiet    : Bool
deriving DecidableEq, Repr

/-- What an egress unit carries (04 R138): part of a result, or a completion record, for a completion ring of a
partition, or bulk bytes to a host address. -/
inductive UnitLoad where
  | result (part cq addr : Nat) (bytes : Bytes)
  | record (part cq : Nat) (rec : Record)
  | bulk (addr : Nat) (bytes : Bytes)
deriving DecidableEq, Repr

/-- A unit in an egress queue, with the local instant by which a record's unit must leave (04 R139) and the time it was
queued. -/
structure EgressUnit where
  load : UnitLoad
  size : Nat
  due  : Option Nat
  at_  : Nat
deriving DecidableEq, Repr

/-- One egress queue of a partition and port (04 R138). The credit is in thousandths of a byte. -/
structure Egress where
  units  : List EgressUnit := []
  credit : Int := 65536000
  last   : Nat := 0
  rate   : Nat := 0
  burst  : Nat := 65536
deriving DecidableEq, Repr

/-- One queue's sample (04 R140). -/
structure Sample where
  peakDepth : Nat := 0
  depth     : Nat := 0
  peakDelay : Nat := 0
  delay     : Nat := 0
deriving DecidableEq, Repr

/-- Levee (04). Maps are keyed by partition, or by 4 × partition + class, or by 4 × partition + 2 × port + kind with
kind 0 RESULT and 1 BULK, or by 16 × partition + queue. -/
structure Levee where
  requests  : List Request := []
  queries   : List Query := []
  updates   : List Update := []
  committed : List Commit := []
  updState  : KMap UpdState := []
  policers  : KMap Policer := []
  egress    : KMap Egress := []
  samples   : KMap Sample := []
  nextId    : Nat := 1
  lastSample : Nat := 0
deriving DecidableEq, Repr

/-- One submission ring (05 R150). -/
structure SubRing where
  depth   : Nat := 0
  cq      : Nat := 0
  enabled : Bool := false
  head    : Nat := 0
  tail    : Nat := 0
  error   : Nat := 0
deriving DecidableEq, Repr

/-- One completion ring (05 R150, R153, R162). `closing` is a disable written while entries were held. -/
structure CompRing where
  base    : Nat := 0
  vector  : Nat := 0
  depth   : Nat := 0
  coalN   : Nat := 0
  coalT   : Nat := 0
  reserve : Nat := 16
  enabled : Bool := false
  closing : Bool := false
  head    : Nat := 0
  tail    : Nat := 0
  held    : Nat := 0
  phase   : Bool := true
  error   : Nat := 0
  since   : Nat := 0
  firstAt : Option Nat := none
deriving DecidableEq, Repr

/-- The state of a host port's link (05 OD 0x1070 + port .01). -/
inductive LinkState where
  | down | training | upPcie | upCxl
deriving DecidableEq, Repr

/-- A host port (05 R141 to R146). `lost` is a port lost for its rings. -/
structure Link where
  state      : LinkState := .down
  width      : Nat := 0
  rate       : Nat := 0
  d3hot      : Bool := false
  retraining : Bool := false
  winSize    : Nat := 0
  winBase    : Nat := 0
  poison     : List Nat := []
deriving DecidableEq, Repr

/-- A read of host memory that awaits its completion (05 R163): its tag, port, and the Sluice channel and unit it serves. -/
structure HostRead where
  tag  : Nat
  port : Nat
  chan : Nat
  unit : Nat
deriving DecidableEq, Repr

/-- The host side (05). Rings are keyed by 128 × port + 4 × partition + number. `msixTab` holds the MSI-X table of each port by word, 1,024 × port + word,
and `msixPend` the pending vectors (05 R147); no command writes either (log 117, DESIGN CHOICE). -/
structure HostPorts where
  sqs      : KMap SubRing := []
  cqs      : KMap CompRing := []
  links    : KMap Link := []
  sigSel   : KMap Nat := []
  msixTab  : KMap Nat := []
  msixPend : List (Nat × Nat) := []
  reads    : List HostRead := []
  nextTag  : Nat := 0
deriving DecidableEq, Repr

end Sys2Proof.Machine
end

