-- ==== Sys2Proof/Machine/State.lean ====
section
/-! DEFINITION. The whole state of the block, the reasons a command can stop, the state after reset, and one update for each group of fields. -/

namespace Sys2Proof.Machine

open Sys2Proof

/-- Why a command stops with a fault. -/
inductive Fault where
  /-- Raised by no meaning: kept so that the type has a value. Safe. -/
  | none_
deriving DecidableEq, Repr

/-- Why a command is refused. -/
inductive Refusal where
  /-- Raised by the dispatch arm of a command that has no meaning yet. Safe. -/
  | notModelled (mnemonic : String)
  /-- Raised by an object message to range 0xF000 in a life-cycle state that reaches it: its objects are documented with the restricted
  diagnostics and not in the manual (23, Range 0xF000). Safe. -/
  | restrictedDiagnostics
deriving DecidableEq, Repr

/-- The state of the block: every register, buffer, counter and mode the spec gives it, grouped by the unit that holds
it, the queue of waiting commands, what has left the block and the counter of free values (log 2). -/
structure State where
  /-- Local time and Fabric Time. -/
  clock : Clock
  /-- The Almanac. -/
  alm : Almanac
  /-- The object dictionary. -/
  dict : Dict
  /-- Hub primacy. -/
  hubs : Hubs
  /-- The device state. -/
  dev : Device
  /-- The image slots, keyed by 4 × partition + slot. -/
  slots : KMap Slot
  /-- The claims held. -/
  claims : Claims
  /-- Levee. -/
  levee : Levee
  /-- The host ports and rings. -/
  host : HostPorts
  /-- The Carr stacks. -/
  carr : Carr
  /-- The signal cells. -/
  cells : Cells
  /-- The clocks of the tiles. -/
  tiles : TileClocks
  /-- Flash and Mire. -/
  mire : Mire
  /-- The Sluice channels, arrays, Sedge units and Mere engines. -/
  units : Units
  /-- Tier objects, search indices and embedding tables. -/
  data : Data
  /-- The optical fabric. -/
  fab : Fabric
  /-- Telemetry. -/
  tele : Tele
  /-- The standby island. -/
  island : Island
  /-- Vigil. -/
  vigil : Vigil
  /-- The addressed memories. -/
  mem : Mems
  /-- What has left the block, newest first. -/
  outs : List Out
  /-- The number of free values drawn (log 2). -/
  free : Nat
  /-- The commands waiting, first in, first out. -/
  pending : List Instr
deriving DecidableEq, Repr

/-- The machine right after reset: STANDBY with the main rails off (02 R73, 20 R567). -/
def State.reset : State :=
  { clock := {},
    alm := {},
    dict := {},
    hubs := {},
    dev := {},
    slots := [],
    claims := {},
    levee := {},
    host := {},
    carr := {},
    cells := {},
    tiles := {},
    mire := {},
    units := {},
    data := {},
    fab := {},
    tele := {},
    island := {},
    vigil := {},
    mem := {},
    outs := [],
    free := 0,
    pending := [] }

/-- The state with its `clock` changed. -/
def State.modClock (s : State) (f : (Clock) → (Clock)) : State := { s with clock := f s.clock }

/-- The state with its `alm` changed. -/
def State.modAlm (s : State) (f : (Almanac) → (Almanac)) : State := { s with alm := f s.alm }

/-- The state with its `dict` changed. -/
def State.modDict (s : State) (f : (Dict) → (Dict)) : State := { s with dict := f s.dict }

/-- The state with its `hubs` changed. -/
def State.modHubs (s : State) (f : (Hubs) → (Hubs)) : State := { s with hubs := f s.hubs }

/-- The state with its `dev` changed. -/
def State.modDev (s : State) (f : (Device) → (Device)) : State := { s with dev := f s.dev }

/-- The state with its `slots` changed. -/
def State.modSlots (s : State) (f : (KMap Slot) → (KMap Slot)) : State := { s with slots := f s.slots }

/-- The state with its `claims` changed. -/
def State.modClaims (s : State) (f : (Claims) → (Claims)) : State := { s with claims := f s.claims }

/-- The state with its `levee` changed. -/
def State.modLevee (s : State) (f : (Levee) → (Levee)) : State := { s with levee := f s.levee }

/-- The state with its `host` changed. -/
def State.modHost (s : State) (f : (HostPorts) → (HostPorts)) : State := { s with host := f s.host }

/-- The state with its `carr` changed. -/
def State.modCarr (s : State) (f : (Carr) → (Carr)) : State := { s with carr := f s.carr }

/-- The state with its `cells` changed. -/
def State.modCells (s : State) (f : (Cells) → (Cells)) : State := { s with cells := f s.cells }

/-- The state with its `tiles` changed. -/
def State.modTiles (s : State) (f : (TileClocks) → (TileClocks)) : State := { s with tiles := f s.tiles }

/-- The state with its `mire` changed. -/
def State.modMire (s : State) (f : (Mire) → (Mire)) : State := { s with mire := f s.mire }

/-- The state with its `units` changed. -/
def State.modUnits (s : State) (f : (Units) → (Units)) : State := { s with units := f s.units }

/-- The state with its `data` changed. -/
def State.modData (s : State) (f : (Data) → (Data)) : State := { s with data := f s.data }

/-- The state with its `fab` changed. -/
def State.modFab (s : State) (f : (Fabric) → (Fabric)) : State := { s with fab := f s.fab }

/-- The state with its `tele` changed. -/
def State.modTele (s : State) (f : (Tele) → (Tele)) : State := { s with tele := f s.tele }

/-- The state with its `island` changed. -/
def State.modIsland (s : State) (f : (Island) → (Island)) : State := { s with island := f s.island }

/-- The state with its `vigil` changed. -/
def State.modVigil (s : State) (f : (Vigil) → (Vigil)) : State := { s with vigil := f s.vigil }

/-- The state with its `mem` changed. -/
def State.modMem (s : State) (f : (Mems) → (Mems)) : State := { s with mem := f s.mem }

/-- The state with its `outs` changed. -/
def State.modOuts (s : State) (f : (List Out) → (List Out)) : State := { s with outs := f s.outs }

/-- The state with its `free` changed. -/
def State.modFree (s : State) (f : (Nat) → (Nat)) : State := { s with free := f s.free }

end Sys2Proof.Machine
end

