-- ==== Sys2Proof/Machine/Ops.lean ====
section
/-! DEFINITION. The operations every family shares: the value of an object, counters, free values, Annals events and
trace records, interrupts, and the change of device state. -/

namespace Sys2Proof.Machine

open Sys2Proof

/-- The status codes of 02 R46. -/
inductive Status where
  | ok | noObject | noSubindex | typeMismatch | length | readOnly | writeOnly | notOwner | locked | range | state
  | notLockable | lockFull | sequence | partition | restricted | version | storeFail | reserved
deriving DecidableEq, Repr

/-- The number of a status code (02 R46). -/
def statusCode : Status → Nat
  | .ok => 0 | .noObject => 1 | .noSubindex => 2 | .typeMismatch => 3 | .length => 4 | .readOnly => 5 | .writeOnly => 6
  | .notOwner => 7 | .locked => 8 | .range => 9 | .state => 0xA | .notLockable => 0xB | .lockFull => 0xC
  | .sequence => 0xD | .partition => 0xE | .restricted => 0xF | .version => 0x10 | .storeFail => 0x11 | .reserved => 0x12

/-- The key of an object in the value maps. -/
def okey (idx sub : Nat) : Nat := 256 * idx + sub

/-- The value of a writable object: written since the main rails came up, else stored, else the default (02 R39). -/
def rwVal (s : State) (idx sub dflt : Nat) : Nat :=
  match KMap.find s.dict.written (okey idx sub) with
  | some v => v
  | none => KMap.getD s.dict.stored (okey idx sub) dflt

/-- The value of a writable DOMAIN or STR object, in the order of 02 R39. -/
def rwDom (s : State) (idx sub : Nat) (dflt : Bytes) : Bytes :=
  match KMap.find s.dict.domains (okey idx sub) with
  | some v => v
  | none => KMap.getD s.dict.storedDoms (okey idx sub) dflt

/-- A writable object given a value (02 R39). -/
def setRw (idx sub v : Nat) (s : State) : State :=
  s.modDict (fun d => { d with written := KMap.put d.written (okey idx sub) v })

/-- A writable DOMAIN given a value. -/
def setDom (idx sub : Nat) (v : Bytes) (s : State) : State :=
  s.modDict (fun d => { d with domains := KMap.put d.domains (okey idx sub) v })

/-- The value that a COMMIT now would bring into force: staged, else in force (02 R41). -/
def stagedVal (s : State) (idx sub dflt : Nat) : Nat :=
  match KMap.find s.dict.staged (okey idx sub) with
  | some v => v
  | none => rwVal s idx sub dflt

/-- The staged values of an index brought into force together (02 R41). -/
def commitStaged (idx : Nat) (s : State) : State :=
  s.modDict (fun d => { d with
    written := (d.staged.filter (fun e => e.1 / 256 = idx)).foldl (fun m e => KMap.put m e.1 e.2) d.written,
    domains := (d.stagedDoms.filter (fun e => e.1 / 256 = idx)).foldl (fun m e => KMap.put m e.1 e.2) d.domains,
    staged := d.staged.filter (fun e => e.1 / 256 != idx),
    stagedDoms := d.stagedDoms.filter (fun e => e.1 / 256 != idx) })

/-- The value of an object that only the device sets. -/
def countVal (s : State) (idx sub dflt : Nat) : Nat := KMap.getD s.dict.counts (okey idx sub) dflt

/-- An object that only the device sets, given a value. -/
def setCount (idx sub v : Nat) (s : State) : State :=
  s.modDict (fun d => { d with counts := KMap.put d.counts (okey idx sub) v })

/-- A counter raised by n. Counters hold their exact total; a read gives it modulo the object's width (log 7). -/
def bump (idx sub n : Nat) (s : State) : State := setCount idx sub (countVal s idx sub 0 + n) s

/-- A counter that keeps the highest value seen. -/
def raiseTo (idx sub v : Nat) (s : State) : State := setCount idx sub (max v (countVal s idx sub 0)) s

/-- A byte-string object that only the device sets, given a value. -/
def setBlob (idx sub : Nat) (v : Bytes) (s : State) : State :=
  s.modDict (fun d => { d with blobs := KMap.put d.blobs (okey idx sub) v })

/-- Something leaves the block. (log 5, DESIGN CHOICE.) (log 116, DESIGN CHOICE.) -/
def emit (o : Out) (s : State) : State := s.modOuts (fun l => o :: l)

/-- A free value of some bits, drawn and counted (00 R4, log 2). -/
def freeVal (s : State) (width : Nat) : Nat := Config.freeValue s.free % 2 ^ width

/-- The state after a free value was drawn. -/
def drawn (s : State) : State := s.modFree (fun n => n + 1)

/-- Sends an MSI-X vector, unless it is 0xFFFF (02 R50, 05 R162). -/
def sendVector (port vec : Nat) (s : State) : State := if vec = 0xFFFF then s else emit (.msix port vec) s

/-- The side of a hub: 0 HN, 1 HS. -/
def hubSide (s : State) (h : Nat) : HubSide := if h = 0 then s.hubs.hn else s.hubs.hs

/-- The state with one hub's side changed. -/
def modHub (h : Nat) (f : HubSide → HubSide) (s : State) : State :=
  s.modHubs (fun u => if h = 0 then { u with hn := f u.hn } else { u with hs := f u.hs })

/-- The primary hub, if any: 0 HN, 1 HS (02, Hub primacy). -/
def primaryHub (s : State) : Option Nat :=
  if s.hubs.hn.primary then some 0 else if s.hubs.hs.primary then some 1 else none

/-- The hub that takes device-wide decisions now, if any (01 R14, 02 R66). -/
def decidingHub (s : State) : Option Nat :=
  if s.hubs.hn.primary && s.hubs.hn.deciding then some 0
  else if s.hubs.hs.primary && s.hubs.hs.deciding then some 1 else none

/-- Source codes of 22 R598. (log 120, DESIGN CHOICE.) -/
def srcDevice : Nat := 0
/-- The source code of a tile (22 R598). -/
def srcTile (t : Nat) : Nat := 0x100 + t
/-- The source code of a Carr stack (22 R598). -/
def srcStack (k : Nat) : Nat := 0x200 + k
/-- The source code of an optical engine (22 R598). -/
def srcEngine (e : Nat) : Nat := 0x300 + e
/-- The source code of a hub (22 R598). -/
def srcHub (h : Nat) : Nat := 0x400 + h
/-- The source code of a storage die (22 R598). -/
def srcDie (d : Nat) : Nat := 0x500 + d
/-- The source code of the standby island (22 R598). -/
def srcStandby : Nat := 0x600
/-- The source code of a host port (22 R598). -/
def srcPort (p : Nat) : Nat := 0x700 + p

/-- The owner byte of the device as a whole (22 R611). -/
def ownDevice : Nat := 0xFF
/-- The owner tag of SYSTEM (03 R81). -/
def ownSystem : Nat := 0x20

/-- An event offered to a staging buffer of some size (22 R614). -/
def stageEvent (cap : Nat) (e : Event) (g : Staging) : Staging × Bool :=
  let room := cap - g.events.length
  if (e.severity < 3 && 17 ≤ room) || (e.severity = 3 && 2 ≤ room) then
    ({ g with events := g.events ++ [e] }, true)
  else
    ({ g with lost := g.lost + 1, firstLost := if g.lost = 0 then e.code else g.firstLost, lastLost := e.code,
              lastFt := e.ft }, false)

/-- Which staging buffer takes an event (22 R613 to R615): the standby staging for the
standby island, in STANDBY and until a start-up has a primary hub, else
the primary's, else that of the hub that raised it. (log 111, DEDUCED.) -/
def stagingOf (s : State) (source : Nat) : Nat :=
  if s.dev.state = .standby || source = srcStandby || (s.dev.state = .booting && (primaryHub s).isNone) then 2
  else match primaryHub s with
    | some h => h
    | none => if source = srcHub 1 then 1 else 0

/-- The staging buffer of a number: 0 HN, 1 HS, 2 standby. -/
def getStaging (a : Annals) (k : Nat) : Staging := if k = 0 then a.stageN else if k = 1 then a.stageS else a.standby

/-- Annals with one staging buffer replaced. -/
def putStaging (a : Annals) (k : Nat) (g : Staging) : Annals :=
  if k = 0 then { a with stageN := g } else if k = 1 then { a with stageS := g } else { a with standby := g }

/-- The room of a staging buffer (22 R614, R615). -/
def stagingCap (k : Nat) : Nat := if k = 2 then 64 else 256

/-- An event raised in Annals (22 R613, R614): staged by severity, or lost and counted. -/
def annal (code severity owner source : Nat) (data : Bytes) (s : State) : State :=
  if s.tele.annals.stopped || (severity < 3 && severity < rwVal s 0xE010 0x06 0) then s
  else
    let e : Event := { ft := s.clock.ft, code := code, severity := severity, owner := owner, source := source, data := data }
    let k := stagingOf s source
    let r := stageEvent (stagingCap k) e (getStaging s.tele.annals k)
    let s := s.modTele (fun t => { t with annals := putStaging t.annals k r.1 })
    if r.2 then s else bump 0xE010 0x05 1 s

/-- The Lantern of a hub. -/
def getLantern (s : State) (h : Nat) : Lantern := if h = 0 then s.tele.lanternN else s.tele.lanternS

/-- The state with one hub's Lantern changed. -/
def modLantern (h : Nat) (f : Lantern → Lantern) (s : State) : State :=
  s.modTele (fun t => if h = 0 then { t with lanternN := f t.lanternN } else { t with lanternS := f t.lanternS })

/-- A trace record offered to the input queue of one Lantern (22 R605): dropped and counted when the queue is full. A
Lantern that is IDLE takes none in. -/
def traceTo (h : Nat) (r : TraceRecord) (s : State) : State :=
  let l := getLantern s h
  if l.state = .idle then s
  else if 1024 ≤ l.queue.length then
    bump (0xE000 + h) 0x0E 1 (modLantern h (fun l => { l with gap := l.gap + 1, lost := l.lost + 1 }) s)
  else modLantern h (fun l => { l with queue := l.queue ++ [r] }) s

/-- A trace event sent to both Lanterns (22 R604). -/
def trace (code owner source : Nat) (data : Bytes) (s : State) : State :=
  let r : TraceRecord := { ft := s.clock.ft, code := code, owner := owner, source := source, data := data }
  traceTo 1 r (traceTo 0 r s)

/-- An accounting counter of a partition charged (22 R599). The owner SYSTEM is charged nothing. -/
def charge (p sub n : Nat) (s : State) : State :=
  if p < 32 then
    s.modTele (fun t => { t with counters := KMap.upd t.counters (256 * p + sub) 0 (fun v => (v + n) % 2 ^ 64) })
  else s

/-- The code of a device state (02 R73). -/
def DevState.code : DevState → Nat
  | .standby => 0 | .booting => 1 | .config => 2 | .serving => 3 | .draining => 4 | .test => 5 | .recovery => 6 | .failed => 7

/-- The device state changed, with its cause and instant (02 R74) and its Annals record (22 R612). -/
def setDevState (st : DevState) (cause : Nat) (s : State) : State :=
  let old := s.dev.state
  let s := s.modDev (fun d => { d with state := st, cause := cause, changeFt := s.clock.ft })
  annal 0x0003 0 ownDevice srcDevice [BitVec.ofNat 8 old.code, BitVec.ofNat 8 st.code, BitVec.ofNat 8 cause] s

/-- Whether a partition is enabled (03 R78). -/
def partEnabled (s : State) (p : Nat) : Bool := rwVal s (0x3000 + 0x10 * p) 0x01 0 = 1

/-- The slot of a partition. -/
def slotAt (s : State) (p sl : Nat) : Slot := KMap.getD s.slots (4 * p + sl) {}

/-- The state with one slot changed. -/
def modSlot (p sl : Nat) (f : Slot → Slot) (s : State) : State :=
  s.modSlots (fun m => KMap.upd m (4 * p + sl) {} f)

/-- Whether a slot holds resources (03 R104). -/
def SlotState.holds : SlotState → Bool
  | .empty | .staged => false
  | .resident | .pending | .active | .retiring => true

/-- The resident images: key of the slot, the slot and its image. -/
def residents (s : State) : List (Nat × Slot × Image) :=
  s.slots.filterMap (fun e => if e.2.state.holds then e.2.image.map (fun i => (e.1, e.2, i)) else none)

/-- The owner tag of an address of a space (03 R81): the first region that holds it, else SYSTEM. (log 114, DESIGN CHOICE.) -/
def ownerOf (s : State) (space unit addr : Nat) : Nat :=
  match s.claims.regions.find? (fun r => r.space = space && r.unit = unit && r.base ≤ addr && addr < r.base + r.size) with
  | some r => r.owner
  | none => ownSystem

/-- A firewall violation of a partition (03 R82): counted and recorded with the target. -/
def firewallHit (p source target : Nat) (s : State) : State :=
  annal 0x0201 2 p source (toLE 2 source ++ toLE 6 0 ++ toLE 8 target) (bump (0x3000 + 0x10 * p) 0x08 1 s)

end Sys2Proof.Machine
end

