-- ==== Sys2Proof/Machine/Alarms.lean ====
section
/-! DEFINITION. The alarm conditions and the latching of their rises (22 R617, R618). -/

namespace Sys2Proof.Machine

open Sys2Proof

/-- Whether some enabled Causeway port is not UP (22 R617 bit 10). -/
def portDownAlarm (s : State) : Bool :=
  (List.range 64).any (fun n => rwVal s (0x7100 + n) 0x13 1 = 1 && (KMap.getD s.fab.ports n {}).state != 3)

/-- The number of a unit in the record of tests (19 R552): columns, engines, then Carr cores. -/
def testKey (kind unit part : Nat) : Nat :=
  if kind = 3 then 20000 + 5 * unit + part else if kind = 7 then 30000 + 66 * unit + part else 136 * (2 * unit + (kind - 1)) + part

/-- The units of the rotation that have not failed, with the time each last passed its test (19 R552): columns, engines and cores, and the
wavelengths in service, whose pattern test ended when they took their lane. Failed units are no longer in the rotation (log 44). -/
def testTimes (s : State) : List Nat :=
  let at_ (k : Nat) : Nat := KMap.getD s.vigil.tested k s.vigil.bootAt
  let tiles := (List.range 40).filter (fun t => !s.units.lost.contains t)
  tiles.flatMap (fun t => (List.range 2).flatMap (fun a =>
      let bad := (KMap.getD s.units.arrays (2 * t + a) {}).bad
      ((List.range 136).filter (fun c => !bad.contains c)).map (fun c => at_ (testKey (1 + a) t c))))
  ++ tiles.flatMap (fun t =>
      let bad := (KMap.getD s.units.meres t {}).bad
      ((List.range 5).filter (fun m => !bad.contains m)).map (fun m => at_ (testKey 3 t m)))
  ++ (((List.range 528).filter (fun c => !s.carr.failed.contains c && !s.carr.deadStacks.contains (c / 66))).map (fun c =>
      at_ (testKey 7 (c / 66) (c % 66))))
  ++ s.fab.ports.flatMap (fun e => (List.range 10).filterMap (fun w =>
      if 8 ≤ nth e.2.lanes w 8 then none else some (nth e.2.since w 0)))

/-- The rotation period in ns (19 OD 0xA000.02). -/
def rotationNs (s : State) : Nat := 3600000000000 * rwVal s 0xA000 0x02 6

/-- The units whose test age passes twice the rotation period (19 R552): none until that long after the boot. -/
def overdueUnits (s : State) : Nat :=
  if s.clock.now ≤ s.vigil.bootAt + 2 * rotationNs s then 0
  else ((testTimes s).filter (fun t => t + 2 * rotationNs s < s.clock.now)).length

/-- The active alarms (22 R617). -/
def activeAlarms (s : State) : Nat :=
  let h := s.hubs
  b2n (countVal s 0xA002 0x01 0 != 0)
  + 2 * b2n (overdueUnits s != 0)
  + 4 * b2n (s.clock.state = .unset || s.clock.state = .holdover)
  + 8 * b2n (s.clock.alarms != 0)
  + 16 * b2n (countVal s 0x2020 0x02 0 != 0)
  + 32 * b2n (s.slots.any (fun e => e.2.restricted))
  + 64 * b2n (s.island.railBase < countVal s 0x2030 0x03 0 || countVal s 0x2040 0x02 0 != 0)
  + 128 * b2n (h.hn.failedA || h.hn.failedB || h.hs.failedA || h.hs.failedB || h.solo)
  + 256 * b2n (countVal s 0x8000 0x0F 0 = 3 || bits (countVal s 0xA002 0x01 0) 57 56 != 0)
  + 512 * b2n (countVal s 0x8000 0x0B 100 < rwVal s 0xA040 0x05 10)
  + 1024 * b2n (portDownAlarm s)
  + 2048 * b2n (countVal s 0xC002 0x02 0 != 0)
  + 4096 * b2n (countVal s 0xC001 0x02 0 != 0)
  + 8192 * b2n s.tele.annals.lostSince
  + 16384 * b2n (s.tele.lanternN.state = .done || s.tele.lanternS.state = .done)
  + 32768 * b2n (s.levee.updState.any (fun e => e.2 = .hold))

/-- Whether the main domain runs: every device state but STANDBY (02 R73). -/
def mainOn (s : State) : Bool := s.dev.state != .standby

/-- The vector of the alarm object sent on each port whose link is up (22 R618). (log 113, DEDUCED.) -/
def alarmVectors (s : State) : State :=
  let v := rwVal s 0xA040 0x04 0xFFFF
  let up (p : Nat) : Bool := match (KMap.getD s.host.links p {}).state with | .upPcie | .upCxl => true | _ => false
  let s := if up 0 then sendVector 0 v s else s
  if up 1 then sendVector 1 v s else s

/-- The rises of active alarms latched, with the vector and the Lantern event of those that the mask holds (22 R618).
Every command that can change a condition ends with it. (log 102, DEDUCED.) -/
def settle (s : State) : State :=
  if mainOn s then
    let now := activeAlarms s
    let fresh := now &&& (0xFFFF ^^^ (s.tele.latched &&& 0xFFFF))
    let s := s.modTele (fun t => { t with active := now, latched := t.latched ||| now })
    if fresh &&& rwVal s 0xA040 0x03 0xFFFF != 0 then
      alarmVectors (trace 0x0E ownSystem srcDevice (toLE 4 (fresh &&& rwVal s 0xA040 0x03 0xFFFF)) s)
    else s
  else s

end Sys2Proof.Machine
end

