-- ==== Sys2Proof/Machine/AlmanacOps.lean ====
section
/-! DEFINITION. Placing, redirecting and ending Almanac entries (17 R471, R486 to R496, R626). -/

namespace Sys2Proof.Machine

open Sys2Proof

/-- The number of ticks in a step (17 R486). -/
def stepTicks (s : State) : Nat := 2 ^ rwVal s 0x9000 0x10 20

/-- The tick of the first step boundary later than now (17 R487). -/
def nextBoundary (s : State) : Nat := (s.clock.ft / (stepTicks s * 1024) + 1) * stepTicks s

/-- The tick that an instant in ns names; 0 is the next step boundary (17 R471). -/
def instantTick (s : State) (v : Nat) : Nat := if v = 0 then nextBoundary s else ceilDiv v 1024

/-- Whether a fire tick has passed: the next tick to be fired is later (17 R494). -/
def tickPassed (s : State) (t : Nat) : Bool := t < s.alm.lastTick + 1

/-- The entry of a number. -/
def entryAt (s : State) (n : Nat) : Option Entry := KMap.find s.alm.entries n

/-- The entries changed. -/
def putEntry (n : Nat) (e : Entry) (s : State) : State := s.modAlm (fun a => { a with entries := KMap.put a.entries n e })

/-- An entry removed, with any command that waited on it. -/
def dropEntry (n : Nat) (s : State) : State :=
  s.modAlm (fun a => { a with entries := KMap.del a.entries n, waiting := KMap.del a.waiting n })

/-- The Almanac entry of a slot's activation and of its swap (17 R488). -/
def activateNo (p sl : Nat) : Nat := 16 + 8 * p + 2 * sl
/-- The SWAP entry of a slot (17 R488). -/
def swapNo (p sl : Nat) : Nat := 17 + 8 * p + 2 * sl
/-- The Harvest chain of an index (17 R488). -/
def harvestNo (p i : Nat) : Nat := 272 + 16 * p + i
/-- The refresh chain of a table (17 R488). -/
def refreshNo (p t : Nat) : Nat := 784 + 64 * p + t

/-- The late policy of a slot entry (17 R490, R495). -/
def slotPolicy (s : State) (n : Nat) : Nat := KMap.getD s.alm.policies n 0

/-- The first fire tick of a device chain of some period: the first multiple later than the current tick (17 R626). -/
def gridTick (s : State) (period : Nat) : Nat :=
  if period = 0 then s.clock.ft / 1024 + 1 else (s.clock.ft / 1024 / period + 1) * period

/-- A device chain placed on the grid of its period (17 R626). -/
def placeChain (n action target period owner policy : Nat) (s : State) : State :=
  putEntry n { fire := gridTick s period, period := period, action := action, target := target, owner := owner, policy := policy } s

/-- A one-shot device entry placed at a tick (17 R488). -/
def placeShot (n action target tick owner policy : Nat) (s : State) : State :=
  putEntry n { fire := tick, action := action, target := target, owner := owner, policy := policy } s

/-- The fields a REDIRECT replaces, taken from a staged entry (17 R495). -/
def redirected (old new : Entry) : Entry :=
  { old with fire := new.fire, period := new.period, count := new.count, target := new.target, policy := new.policy,
             link := new.link, deferred := false, owed := none }

/-- A REDIRECT of a placed entry: at once, or at the end of a firing in flight (17 R496). -/
def redirectEntry (n : Nat) (new : Entry) (s : State) : State :=
  match entryAt s n with
  | none => s
  | some e =>
    if e.flight then s.modAlm (fun a => { a with waiting := KMap.put a.waiting n (.redirect new) })
    else putEntry n (redirected e new) s

/-- A CANCEL of a placed entry: at once, or at the end of a firing in flight (17 R496). -/
def cancelEntry (n : Nat) (s : State) : State :=
  match entryAt s n with
  | none => s
  | some e =>
    if e.flight then s.modAlm (fun a => { a with waiting := KMap.put a.waiting n .cancel })
    else dropEntry n s

/-- A device chain moved to the grid of a new period when its period object is written (17 R626, R495). -/
def rechain (n period : Nat) (s : State) : State :=
  match entryAt s n with
  | none => s
  | some e => redirectEntry n { e with fire := gridTick s period, period := period } s

/-- The link of an entry armed: the entry it names is no longer held (17 R489, R493). -/
def armLink (n : Nat) (s : State) : State :=
  match entryAt s n with
  | none => s
  | some e => if e.held then putEntry n { e with held := false } s else s

/-- The first tick of a chain's grid later than tick t (17 R494). -/
def nextOnGrid (e : Entry) (t : Nat) : Nat :=
  if e.period = 0 then e.fire else if t < e.fire then e.fire else e.fire + ((t - e.fire) / e.period + 1) * e.period

/-- The grid ticks of a chain from its fire tick up to tick t (17 R487, R494). -/
def gridCount (e : Entry) (t : Nat) : Nat :=
  if t < e.fire then 0 else if e.period = 0 then 1 else (t - e.fire) / e.period + 1

/-- An entry that has ended returns to its pool, and its link is armed (17 R493). -/
def endEntry (n : Nat) (arm : Bool) (s : State) : State :=
  match entryAt s n with
  | none => s
  | some e => if arm && e.link != 0xFFFF then armLink e.link (dropEntry n s) else dropEntry n s

/-- The Almanac code of an action with its flags, for the trace (22 R604, code 0x08). -/
def traceFiring (n : Nat) (e : Entry) (late : Bool) (instant : Nat) (s : State) : State :=
  trace 0x08 e.owner (srcHub ((primaryHub s).getD 0))
    (toLE 2 n ++ toLE 1 e.action ++ toLE 1 ((b2n late) * 4 + (b2n e.carried) * 8 + e.policy) ++ toLE 8 instant) s

/-- A SLOT_ACTION record of Annals (22 R612, R627). -/
def slotAction (p sl action outcome reason : Nat) (s : State) : State :=
  annal 0x0203 1 p (srcHub ((primaryHub s).getD 0)) (toLE 1 sl ++ toLE 1 action ++ toLE 1 outcome ++ toLE 1 reason) s

/-- The Almanac firing in flight of an entry that has not acted. -/
def firingOf (s : State) (n : Nat) : Option Firing := s.alm.flight.find? (fun f => f.entry = n && !f.acted)

/-- A firing marked as taken or refused by its target (17 R493). -/
def actedFiring (n : Nat) (s : State) : State :=
  s.modAlm (fun a => { a with flight := a.flight.map (fun f => if f.entry = n then { f with acted := true } else f) })

end Sys2Proof.Machine
end

