-- ==== Sys2Proof/Machine/Cells.lean ====
section
/-! DEFINITION. The operations on signal cells (15 R413 to R427). -/

namespace Sys2Proof.Machine

open Sys2Proof

/-- The global number of a partition cell (15 R413). -/
def cellNo (p c : Nat) : Nat := 2048 * p + c

/-- The number of a SYSTEM cell (15 R413). -/
def systemCell (c : Nat) : Nat := 65536 + c

/-- A cell. -/
def cellAt (s : State) (n : Nat) : Cell := KMap.getD s.cells.cells n {}

/-- The state with one cell changed. -/
def modCell (n : Nat) (f : Cell → Cell) (s : State) : State :=
  s.modCells (fun c => { c with cells := KMap.upd c.cells n {} f })

/-- Whether a cell is bound: it lies in the run of a slot that holds resources (15 R417). -/
def cellBound (s : State) (n : Nat) : Bool :=
  n < 65536 && s.slots.any (fun e => e.2.state.holds && e.1 / 4 = n / 2048 &&
    e.2.cellBase ≤ n % 2048 && n % 2048 < e.2.cellBase + e.2.cellCount)

/-- The arm of a cell fires when its count is nonzero: the vector goes out on the arm's port, unless that port has lost
its link, and the arm clears (15 R426). -/
def fireArm (n : Nat) (s : State) : State :=
  let c := cellAt s n
  match c.arm with
  | none => s
  | some (port, vec) =>
    let up := match (KMap.getD s.host.links port {}).state with | .upPcie | .upCxl => true | _ => false
    if c.count = 0 then s
    else
      let s := modCell n (fun c => { c with arm := none }) s
      if up then sendVector port vec s else s

/-- Whether a cell is watched by some Lantern (22 R604 code 0x0B). -/
def cellWatched (s : State) (n : Nat) : Bool := s.tele.lanternN.watched.contains n || s.tele.lanternS.watched.contains n

/-- The trace of a SIGNAL on a watched cell (22 R604); the code of its operation field is not stated, so that byte is a
free value (log 2). -/
def traceSignal (n : Nat) (s : State) : State :=
  if cellWatched s n then
    drawn (trace 0x0B (if n < 65536 then n / 2048 else ownSystem) srcDevice
      (toLE 2 n ++ toLE 1 (freeVal s 8) ++ toLE 2 (cellAt s n).count) s)
  else s

/-- A SIGNAL n at a cell's home: parked waits are granted, oldest first, the rest is added to the count, and what passes
0xFFFF is lost and counted (15 R414, R422, R426). -/
def applySignal (n k : Nat) (s : State) : State :=
  let c := cellAt s n
  let g := c.parks.take k
  let sum := c.count + (k - g.length)
  let lost := sum - 0xFFFF
  let s := modCell n (fun c => { c with count := min sum 0xFFFF, ovf := c.ovf || 0 < lost, parks := c.parks.drop k }) s
  let s := s.modCells (fun u => { u with granted := u.granted ++ g.map (fun ch => (ch, n)) })
  let s := if lost = 0 || 65536 ≤ n then s else bump (0x3000 + 0x10 * (n / 2048)) 0x14 lost s
  fireArm n (traceSignal n s)

/-- A TRY: whether the count was nonzero, and the cell with one taken (15 R415). -/
def applyTry (n : Nat) (s : State) : Bool × State :=
  if 0 < (cellAt s n).count then (true, modCell n (fun c => { c with count := c.count - 1 }) s) else (false, s)

/-- A register of a core set, with its poison bit; g0 ignores writes (09 R262). -/
def setCoreG (core d : Nat) (v : W32) (poison : Bool) (s : State) : State :=
  s.modCarr (fun c => { c with cores := KMap.upd c.cores core {} (fun k =>
    if d % 16 = 0 then k else { k with g := setAt k.g (d % 16) v, gp := setAt k.gp (d % 16) poison }) })

/-- The effect of an operation at the cell's home (15 R415). -/
def applyCell (n : Nat) (a : CellAct) (s : State) : State :=
  match a with
  | .signal k => applySignal n k s
  | .tryUnit =>
    let r := applyTry n s
    emit (.cellTry n r.1 (cellAt r.2 n).count) r.2
  | .tryHost port part =>
    let r := applyTry n s
    emit (.sigTry port part (65536 * b2n r.1 + (cellAt r.2 n).count)) r.2
  | .tryCore core d =>
    let r := applyTry n s
    (setCoreG core d (BitVec.ofNat 32 (b2n r.1)) false r.2).modCarr (fun c =>
      { c with cores := KMap.modify c.cores core (fun k => { k with tryWait := false }) })
  | .wait chan =>
    if 0 < (cellAt s n).count then
      (modCell n (fun c => { c with count := c.count - 1 }) s).modCells (fun u => { u with granted := u.granted ++ [(chan, n)] })
    else modCell n (fun c => { c with parks := c.parks ++ [chan] }) s
  | .cancel chan =>
    if (cellAt s n).parks.contains chan then
      (modCell n (fun c => { c with parks := c.parks.filter (· != chan) }) s).modCells
        (fun u => { u with cancelled := u.cancelled ++ [(chan, n)] })
    else s
  | .clear => modCell n (fun c => { c with ovf := false }) s
  | .arm port vec => fireArm n (modCell n (fun c => { c with arm := some (port, vec) }) s)

/-- A mirror write issued by the primary: its sequence (02 R63). -/
def issueMirror (s : State) : State :=
  emit (.mirror (s.hubs.issued + 1)) (s.modHubs (fun u => { u with issued := u.issued + 1 }))

/-- Whether a device-wide decision waits for the passive hub's acknowledgement: not in solo mode (02 R63, R66). (log 62, DEDUCED.) -/
def needsMirror (s : State) : Bool := !s.hubs.solo

/-- The operations on unbound cells that can take effect now do, in order: a primary exists, and it runs solo or the
mirror write is acknowledged (15 R417, Events that meet). -/
def flushCells (fuel : Nat) (s : State) : State :=
  match fuel, s.cells.held with
  | k + 1, o :: r =>
    if (primaryHub s).isNone then s
    else if !needsMirror s then flushCells k (applyCell o.cell o.act (s.modCells (fun c => { c with held := r })))
    else match o.mirror with
      | some m =>
        if m ≤ s.hubs.acked then flushCells k (applyCell o.cell o.act (s.modCells (fun c => { c with held := r }))) else s
      | none => s
  | _, _ => s

/-- The held operations that have no mirror write yet get one, when a primary with a passive hub exists. -/
def mirrorHeld (s : State) : State :=
  if (primaryHub s).isSome && needsMirror s && s.cells.held.any (fun o => o.mirror.isNone) then
    let s := issueMirror s
    s.modCells (fun c => { c with held := c.held.map (fun o =>
      match o.mirror with | some _ => o | none => { o with mirror := some s.hubs.issued }) })
  else s

/-- What waits on unbound cells moves on: after a change of primacy or an acknowledgement. -/
def resumeCells (s : State) : State := let s := mirrorHeld s; flushCells s.cells.held.length s

/-- An operation issued on a cell: at once on a bound cell, else in the primary hub's order (15 R417, R420). -/
def issueCell (n : Nat) (a : CellAct) (s : State) : State :=
  if cellBound s n then applyCell n a s
  else resumeCells (s.modCells (fun c => { c with held := c.held ++ [⟨n, a, none⟩] }))

/-- A completion signal of a unit: SIGNAL 1 on a cell of its partition (15 R415). -/
def signalCell (p c : Nat) (s : State) : State := issueCell (cellNo p c) (.signal 1) s

/-- A SIGNAL n from a unit; a signal of another partition's unit is dropped and counted (15, Events that meet; 03 R82). -/
def execCellSignal (owner cell n : Nat) (s : State) : Host.Outcome State Fault Refusal :=
  if owner = ownSystem || (cell < 65536 && cell / 2048 = owner) then .next (issueCell cell (.signal n) s)
  else .next (firewallHit owner srcDevice cell s)

/-- A TRY from a unit (15 R415). -/
def execCellTry (owner cell : Nat) (s : State) : Host.Outcome State Fault Refusal :=
  if owner = ownSystem || (cell < 65536 && cell / 2048 = owner) then .next (issueCell cell .tryUnit s)
  else .next (emit (.cellTry cell false 0) (firewallHit owner srcDevice cell s))

/-- A WAIT of a Sluice channel consumes or parks (15 R423). -/
def execCellWait (owner cell chan : Nat) (s : State) : Host.Outcome State Fault Refusal :=
  if owner = ownSystem || (cell < 65536 && cell / 2048 = owner) then .next (issueCell cell (.wait chan) s)
  else .next (firewallHit owner srcDevice cell s)

/-- A CANCEL removes a channel's parked wait; a grant made before it stands (15 R423). -/
def execCellCancel (cell chan : Nat) (s : State) : Host.Outcome State Fault Refusal :=
  .next (issueCell cell (.cancel chan) s)

/-- The cell a port has selected on a ring page (15 R425). -/
def selectedCell (s : State) (port part : Nat) : Nat := cellNo part (KMap.getD s.host.sigSel (32 * port + part) 0)

/-- A host write of SIG_RAISE: an increment of 0 is 1 (15 R425). -/
def execSigRaise (_port part v : Nat) (s : State) : Host.Outcome State Fault Refusal :=
  .next (issueCell (cellNo part (bits v 10 0)) (.signal (max 1 (bits v 31 16))) s)

/-- A host write of SIG_SELECT (15 R425). -/
def execSigSelect (port part v : Nat) (s : State) : Host.Outcome State Fault Refusal :=
  .next (s.modHost (fun h => { h with sigSel := KMap.put h.sigSel (32 * port + part) (bits v 10 0) }))

/-- A host read of SIG_TRY: a TRY on the selected cell (15 R425). -/
def execSigTry (port part : Nat) (s : State) : Host.Outcome State Fault Refusal :=
  .next (issueCell (selectedCell s port part) (.tryHost port part) s)

/-- A host write of SIG_ARM arms the selected cell (15 R425, R426). -/
def execSigArm (port part v : Nat) (s : State) : Host.Outcome State Fault Refusal :=
  .next (issueCell (selectedCell s port part) (.arm port (bits v 31 16)) s)

/-- A host write of SIG_CLEAR with bit 0 set clears the selected cell's overflow flag (15 R425). -/
def execSigClear (port part v : Nat) (s : State) : Host.Outcome State Fault Refusal :=
  if bit v 0 then .next (issueCell (selectedCell s port part) .clear s) else .next s

/-- The state word of a cell (15 R416). -/
def cellWord (c : Cell) : Nat :=
  let a := match c.arm with | some (port, vec) => 2 ^ 62 + 2 ^ 61 * port + 2 ^ 16 * vec | none => 0
  2 ^ 63 * b2n c.ovf + a + 2 ^ 32 * c.parks.length + c.count

/-- The overflow flags of the cells whose bits are set in 256 bytes cleared (15 OD 0x3009.02). -/
def clearOverflows (p : Nat) (data : Bytes) (s : State) : State :=
  (List.range 2048).foldl (fun s c =>
    if bit (nth data (c / 8) 0).toNat (c % 8) then issueCell (cellNo p c) .clear s else s) s

/-- A masked cell of a cut stage: its count goes to zero and its parked waits are cancelled (15 R424). -/
def cutCell (n : Nat) (s : State) : State :=
  let ps := (cellAt s n).parks
  (modCell n (fun c => { c with count := 0, parks := [] }) s).modCells
    (fun u => { u with cancelled := u.cancelled ++ ps.map (fun ch => (ch, n)) })

/-- The masked cells of a slot reset when one of its stages is cut (15 R424). -/
def cutReset (p sl : Nat) (s : State) : State :=
  let mask := rwDom s (0x4000 + 4 * p + sl) 0x22 []
  let t := slotAt s p sl
  (List.range t.cellCount).foldl (fun s i =>
    if bit (nth mask (i / 8) 0).toNat (i % 8) then cutCell (cellNo p (t.cellBase + i)) s else s) s

end Sys2Proof.Machine
end

