-- ==== Sys2Proof/Machine/Faults.lean ====
section
/-! DEFINITION. What lost units, lost work and spares leave (19 R532 to R541; 22 R612, R627). -/

namespace Sys2Proof.Machine

open Sys2Proof

/-- The flag of 04 R125 of a stage kind (19 R537), by the stage codes of 03 R87. -/
def lostFlag (kind : Nat) : Nat :=
  if kind = 1 then 8 else if kind = 7 then 1 else if kind = 8 then 32 else if kind = 9 then 16 else 4

/-- Queries flagged as degraded (04 R125). -/
def flagQueries (ids : List Nat) (flag : Nat) (s : State) : State :=
  s.modLevee (fun l => { l with queries := l.queries.map (fun q =>
    if ids.contains q.id then { q with degraded := q.degraded ||| flag } else q) })

/-- The queries of the batches that stand in a stage of a slot, or in the window or round after it. -/
def stageQueries (s : State) (p sl stage : Nat) : List Nat :=
  ((slotAt s p sl).batches.filter (fun b => b.at_ = .inStage stage || b.at_ = .after stage)).flatMap (·.queries)

/-- The kind of a stage of a slot's image. -/
def stageKind (s : State) (p sl stage : Nat) : Nat :=
  match (slotAt s p sl).image with
  | some im => (nth im.stages stage {}).kind
  | none => 0

/-- Work lost (19 R537): recorded, and the queries it served flagged. -/
def lostWork (p sl stage cause source : Nat) (ids : List Nat) (s : State) : State :=
  annal 0x0306 2 p source [BitVec.ofNat 8 sl, BitVec.ofNat 8 stage, BitVec.ofNat 8 cause]
    (flagQueries ids (lostFlag (stageKind s p sl stage)) s)

/-- A unit lost beyond its spares (19 R538): its bit of OD 0xA002.01 where it has one, the count, and the record. (log 94, DEDUCED.) -/
def unitLost (kind unit source : Nat) (at_ : Option Nat) (s : State) : State :=
  let s := match at_ with
    | some b => setCount 0xA002 0x01 (setBit (countVal s 0xA002 0x01 0) b true) s
    | none => s
  annal 0x0302 3 ownDevice source ([BitVec.ofNat 8 kind, BitVec.ofNat 8 unit] ++ toLE 8 (countVal s 0xA002 0x01 0))
    (bump 0xA002 0x02 1 s)

/-- A Vigil visit done: counted, and its firing reported (19 R548 to R551; 17 R493). (log 101, DEDUCED.) -/
def visitDone (entry : Nat) (s : State) : State := bump 0xA000 0x05 1 (actedFiring entry s)

/-- A Vigil visit or move skipped: counted (19 R550 to R552). -/
def visitSkipped (s : State) : State := bump 0xA000 0x06 1 s

/-- A spare switched in (19 R535): the record and the trace event. -/
def spareSwitch (kind logical old new cause gen source : Nat) (s : State) : State :=
  let s := annal 0x0301 1 ownDevice source [BitVec.ofNat 8 kind, BitVec.ofNat 8 logical, BitVec.ofNat 8 old, BitVec.ofNat 8 new,
    BitVec.ofNat 8 cause] s
  trace 0x07 ownSystem source [BitVec.ofNat 8 kind, BitVec.ofNat 8 logical, BitVec.ofNat 8 old, BitVec.ofNat 8 new,
    BitVec.ofNat 8 gen] s

/-- A detected compute error traced (22 R604 code 0x06): block 0 array, 1 Mere, 2 Peat lane, 3 Sedge. -/
def traceCheck (owner source block unit retried : Nat) (s : State) : State :=
  trace 0x06 owner source [BitVec.ofNat 8 block, BitVec.ofNat 8 unit, BitVec.ofNat 8 retried] s

/-- The status object of an index (06, Objects of this chapter). -/
def indexStatus (p i : Nat) : Nat := 0x5001 + 0x20 * p + 2 * i

/-- The object of an index. -/
def indexObj (p i : Nat) : Nat := 0x5000 + 0x20 * p + 2 * i

end Sys2Proof.Machine
end

