-- ==== Sys2Proof/Machine/Carr.lean ====
section
/-! DEFINITION. The Carr stacks: addresses, normal requests, PNM windows, row operations, spare cores (08). -/

namespace Sys2Proof.Machine

open Sys2Proof

/-- The interleaved address of a local address of a pseudo-channel (08 R233). Pseudo-channel Kk.PCp is 64·k + p. -/
def interleaved (pc l : Nat) : Nat := ((l / 4096 * 512 + pc % 64 * 8 + pc / 64) * 4096) + l % 4096

/-- The pseudo-channel and local address of an interleaved address (08 R233). -/
def localOf (a : Nat) : Nat × Nat :=
  let g := a / 4096
  (64 * (g % 8) + g / 8 % 64, g / 512 * 4096 + a % 4096)

/-- The end of the populated local view (08 R232). -/
def localEnd : Nat := 0x3F000000

/-- Where an address of the Carr address space leads (08, Address views). -/
inductive CarrTarget where
  | dram (pc l : Nat)
  | flag (off : Nat)
  | bad
deriving DecidableEq, Repr

/-- The decoding of a Carr address (08 R232 to R234). -/
def carrDecode (a : Nat) : CarrTarget :=
  if a < 0x7E00000000 then .dram (localOf a).1 (localOf a).2
  else if 0x10000000000 ≤ a && a < 0x18000000000 then
    let o := a - 0x10000000000
    if o % 0x40000000 < localEnd then .dram (o / 0x40000000) (o % 0x40000000) else .bad
  else if 0x18000000000 ≤ a && a < 0x18000040000 then .flag (a - 0x18000000000)
  else .bad

/-- The key of a byte of Carr DRAM in the memory. -/
def dramKey (pc l : Nat) : Nat := 0x40000000 * pc + l

/-- A pseudo-channel's state. -/
def pcAt (s : State) (pc : Nat) : PcState := KMap.getD s.carr.pcs pc {}

/-- The state with one pseudo-channel changed. -/
def modPc (pc : Nat) (f : PcState → PcState) (s : State) : State :=
  s.modCarr (fun c => { c with pcs := KMap.upd c.pcs pc {} f })

/-- Whether a pseudo-channel's stack has failed (08 R261). -/
def stackDead (s : State) (pc : Nat) : Bool := s.carr.deadStacks.contains (pc / 64)

/-- A core's register set: mode 0 IMAGE, 1 SYSTEM. -/
def coreAt (s : State) (pc mode : Nat) : Core := KMap.getD s.carr.cores (2 * pc + mode) {}

/-- The state with one core's register set changed. -/
def modCore (pc mode : Nat) (f : Core → Core) (s : State) : State :=
  s.modCarr (fun c => { c with cores := KMap.upd c.cores (2 * pc + mode) {} f })

/-- An open window by its id. -/
def windowAt (s : State) (id : Nat) : Option Window := s.carr.windows.find? (fun w => w.id = id)

/-- The state with one window changed. -/
def modWindow (id : Nat) (f : Window → Window) (s : State) : State :=
  s.modCarr (fun c => { c with windows := c.windows.map (fun w => if w.id = id then f w else w) })

/-- The place of a window's ready-flag word on a pseudo-channel (08 R248). -/
def readyKey (id pc : Nat) : Nat := 512 * (id % 64) + pc

/-- The state with a window's ready-flag word on a pseudo-channel changed. -/
def modReady (id pc : Nat) (f : Ready → Ready) (s : State) : State :=
  s.modCarr (fun c => { c with ready := KMap.upd c.ready (readyKey id pc) ⟨id, 0, 0, 0⟩ f })

/-- The number of a mode in the ready-flag word (08 R248). -/
def PcMode.code : PcMode → Nat
  | .normal => 0 | .pnm => 1 | .drain => 2

/-- A ready-flag word as it reads (08 R248). -/
def readyWord (s : State) (k : Nat) : Nat :=
  let r := KMap.getD s.carr.ready k ⟨0, 0, 0, 0⟩
  2 ^ 48 * r.id + 2 ^ 46 * (pcAt s (k % 512)).mode.code + 2 ^ 44 * r.state + 2 ^ 24 * (r.items % 65536) + min r.elapsed 0xFFFFFF

/-- The bursts of 64 bytes that a range touches (08 R254). -/
def burstsOf (a n : Nat) : List Nat :=
  if n = 0 then [] else (List.range ((a + n - 1) / 64 - a / 64 + 1)).map (fun i => a / 64 + i)

/-- Poison marks after a write of a range: set with poison, else cleared where a whole unit of some size is written. -/
def markPoison (unit : Nat) (marks : List Nat) (a n : Nat) (bad : Bool) : List Nat :=
  if n = 0 then marks
  else
    let us := (List.range ((a + n - 1) / unit - a / unit + 1)).map (fun i => a / unit + i)
    if bad then marks ++ us.filter (fun u => !marks.contains u)
    else marks.filter (fun u => !(a ≤ u * unit && u * unit + unit ≤ a + n))

/-- The owner tag of a byte of Carr DRAM (03 R81). -/
def dramOwner (s : State) (pc l : Nat) : Nat := ownerOf s 1 0 (interleaved pc l)

/-- A corrected or uncorrectable burst counted and recorded (08 R254, R255): 1 one symbol, 2 a lane pair, 3
uncorrectable. -/
def countEcc (pc l ecc : Nat) (s : State) : State :=
  if ecc = 1 then bump (0xA200 + pc / 64) 0x04 1 s
  else if ecc = 2 then bump (0xA200 + pc / 64) 0x05 1 s
  else if ecc = 3 then
    annal 0x0304 2 (dramOwner s pc l) (srcStack (pc / 64)) (toLE 1 (pc % 64) ++ toLE 7 0 ++ toLE 8 l)
      (bump (0xA200 + pc / 64) 0x06 1 s)
  else s

/-- The answer to a normal request (08 R234, R246, R255, R261; 05 R146). -/
def answerCarr (w : WaitReq) (status : Nat) (bytes : Bytes) (poison : Bool) (s : State) : State :=
  if w.src = 0 then emit (.carr w.id w.ref status bytes poison) s
  else if w.write then s
  else
    let s := if poison then bump (0x1070 + (w.src - 1)) 0x0B 1 s else s
    emit (.cxlData (w.src - 1) w.ref bytes poison) s

/-- A normal request served at its DRAM (08 R246, R255; 03 R82). A CXL.mem write with poison marks its 4 KiB granule (05
R146). -/
def serveCarr (w : WaitReq) (pc l : Nat) (s : State) : State :=
  if stackDead s pc then answerCarr w 2 (if w.write then [] else List.replicate w.len 0) false s
  else if w.owner != ownSystem && dramOwner s pc l != w.owner then
    answerCarr w 3 (if w.write then [] else List.replicate w.len 0) false (firewallHit w.owner srcDevice w.addr s)
  else if w.write then
    let k := dramKey pc l
    let s := s.modMem (fun m => { m with carr := Memory.writeN m.carr k w.data })
    let marks (p : List Nat) : List Nat :=
      if w.src != 0 && w.poison then markPoison 64 p (k / 4096 * 4096) 4096 true else markPoison 64 p k w.data.length w.poison
    answerCarr w 0 [] false (s.modCarr (fun c => { c with poison := marks c.poison }))
  else
    let k := dramKey pc l
    let bad := w.ecc = 3 || (burstsOf k w.len).any (fun b => s.carr.poison.contains b)
    answerCarr w 0 (Memory.readN s.mem.carr k w.len) bad (countEcc pc l w.ecc s)

/-- One part of a normal request within a 4 KiB granule: answered at once with ADDRESS or a ready-flag word, held by a
window or DRAIN, or served (08 R234, R245, R246, R248). -/
def takeCarr (w : WaitReq) (s : State) : State :=
  match carrDecode w.addr with
  | .bad => answerCarr w 1 (if w.write then [] else List.replicate w.len 0) false (bump 0x6100 0x09 1 s)
  | .flag off =>
    if w.write then answerCarr w 0 [] false s
    else
      let words := (List.range ((w.len + 7) / 8 + 1)).flatMap (fun i => toLE 8 (readyWord s (off / 8 + i)))
      answerCarr w 0 (slice words (off % 8) w.len) false s
  | .dram pc l =>
    if stackDead s pc then serveCarr w pc l s
    else
      match (pcAt s pc).mode with
      | .normal => serveCarr w pc l s
      | .pnm => bump 0x6100 0x07 1 (modPc pc (fun p => { p with waiting := p.waiting ++ [{ w with at_ := s.clock.now }] }) s)
      | .drain => modPc pc (fun p => { p with waiting := p.waiting ++ [{ w with at_ := s.clock.now }] }) s

/-- An access split at 4 KiB boundaries, each part decoded on its own (08 R234). -/
def takeParts (fuel : Nat) (w : WaitReq) (s : State) : State :=
  match fuel with
  | 0 => s
  | k + 1 =>
    let n := min w.len (4096 - w.addr % 4096)
    let s := takeCarr { w with len := n, data := w.data.take n } s
    if w.len ≤ n then s
    else takeParts k { w with addr := w.addr + n, ref := w.ref + n, len := w.len - n, data := w.data.drop n } s

/-- A normal access of Carr memory (08 R234, R246). -/
def normalAccess (w : WaitReq) (s : State) : State := takeParts (w.len / 4096 + 2) w s

/-- A normal Carr request of a tile, hub or Sluice arrives, with the outcome of its ECC: 0 clean, 1 one symbol, 2 a lane
pair, 3 uncorrectable (08 R246, R254). -/
def execNormalRequest (id owner : Nat) (write : Bool) (addr len : Nat) (data : Bytes) (poison : Bool) (ecc : Nat)
    (s : State) : Host.Outcome State Fault Refusal :=
  if mainOn s then
    .next (normalAccess ⟨id, 0, addr, owner, write, addr, if write then data.length else len, data, poison, ecc, s.clock.now⟩ s)
  else .next s

/-- The next window whose program a core runs: the first opened of those open on the pseudo-channel (08 R247). -/
def nextWindow (s : State) (pc : Nat) : Option Window := s.carr.windows.find? (fun w => w.open_.contains pc)

/-- The program start registers of a window (09 R264). -/
def startRegs (w : Window) (pc : Nat) : List W32 :=
  [0, BitVec.ofNat 32 w.work, BitVec.ofNat 32 w.id, BitVec.ofNat 32 (4 * w.owner + w.kind), BitVec.ofNat 32 w.signal,
   BitVec.ofNat 32 pc, BitVec.ofNat 32 w.tokens, 0, 0, 0, 0, 0, 0, 0, 0, 0]

/-- The place of a program entry of a slot in instruction memory (09 R293). -/
def progWords (s : State) (slot entry : Nat) : Nat × Nat :=
  match (KMap.getD s.slots slot {}).words.find? (fun w => w.1 = entry) with
  | some w => w.2
  | none => (0, 0)

/-- A core starts the program of the next window open on its pseudo-channel (08 R247, 09 R264). A pseudo-channel with no
core runs none (08 R260). -/
def startProgram (pc : Nat) (s : State) : State :=
  match nextWindow s pc with
  | none => s
  | some w =>
    if w.started.contains pc || (pcAt s pc).failed || w.kind = 2 then s
    else
      let m := progWords s w.slot w.prog
      modWindow w.id (fun w => { w with started := w.started ++ [pc] })
        (modCore pc 0 (fun k =>
          { sends := k.sends, g := startRegs w pc, base := m.1, length := m.2, running := true, window := some w.id,
            started := s.clock.now }) s)

/-- A pseudo-channel's staging rows of a window lose their content (08 R239). -/
def dropStaging (pc id : Nat) (s : State) : State :=
  s.modCarr (fun c => { c with stagingWin := c.stagingWin.filter (fun e => !(e.1 / 16384 = pc && e.2 = id)) })

/-- The number of entries in a window's work list on a pseudo-channel (09 R271). -/
def workEntries (s : State) (w : Window) (pc : Nat) : Nat :=
  Memory.readLE s.mem.stage (0x100000 * pc + w.work % 0x100000) 4

/-- The search index that a window's stage names. -/
def windowIndex (s : State) (w : Window) : Nat :=
  match (KMap.getD s.slots w.slot {}).image with
  | some im => (nth im.stages w.stage {}).index
  | none => 0xFFFF

/-- The work a program had not done counts as probes skipped (08 R247). -/
def skipUndone (w : Window) (pc : Nat) (s : State) : State :=
  let undone := workEntries s w pc - (KMap.getD s.carr.ready (readyKey w.id pc) ⟨0, 0, 0, 0⟩).items
  let i := windowIndex s w
  if undone = 0 || 16 ≤ i || 32 ≤ w.owner then s else bump (indexStatus w.owner i) 0x09 undone s

/-- The end of a window once it has closed on every pseudo-channel: its cell is signalled once and its trace event is
sent (08 R248, 22 R604). -/
def windowEnd (w : Window) (s : State) : State :=
  let s := s.modCarr (fun c => { c with windows := c.windows.filter (fun v => v.id != w.id) })
  let t := KMap.getD s.slots w.slot {}
  let c := w.signal % 2048
  let s := if bit w.signal 15 && t.cellBase ≤ c && c < t.cellBase + t.cellCount then signalCell w.owner c s else s
  trace 0x04 w.owner srcDevice (toLE 2 w.id ++ toLE 1 w.kind ++ toLE 2 w.cuts ++ toLE 4 (s.clock.now - w.opened)) s

/-- A window closes on one pseudo-channel with a ready-flag state: 1 DONE, 2 cut, 3 core fault (08 R244 to R248, R260).
The image work area is zeroed and the window's staging rows lose their content (09 R267, 08 R239). -/
def closeOn (id pc st : Nat) (s : State) : State :=
  match windowAt s id with
  | none => s
  | some w =>
    let s := modReady id pc (fun r => { r with state := st, elapsed := s.clock.now - w.opened }) s
    let s := if st = 1 then s else skipUndone w pc (bump 0x6100 0x06 1 s)
    let s := modWindow id (fun w => { w with open_ := w.open_.filter (· != pc), cuts := if st = 1 then w.cuts else w.cuts + 1 }) s
    let s := if (coreAt s pc 0).window = some id then
        (modCore pc 0 (fun k => { k with running := false, window := none, queue := [], rows := [], list := [] }) s).modMem
          (fun m => { m with scratch := Memory.zero m.scratch (0x10000 * pc + 0x8000) 0x4000 })
      else s
    let s := s.modCarr (fun c => { c with scratchBad := c.scratchBad.filter (fun k =>
      !((0x10000 * pc + 0x8000) / 4 ≤ k && k < (0x10000 * pc + 0xC000) / 4)) })
    let s := modPc pc (fun p => { p with mode := .drain }) (dropStaging pc id s)
    let s := startProgram pc s
    match windowAt s id with
    | some w => if w.open_.isEmpty then windowEnd w s else s
    | none => s

/-- The tokens an image claims (08 R242). -/
def imageTokens (im : Image) : Nat := (im.claims.filter (fun c => c.resource = 5)).foldl (fun a c => a + c.amount) 0

/-- The length of a window in ns (08 R250). -/
def windowNs (s : State) : Nat := 1000 * rwVal s 0x6100 0x01 40

/-- The pseudo-channels that a window names: all those of stacks in service (08 R244, R261). -/
def windowPcs (s : State) : List Nat := (List.range 512).filter (fun pc => !stackDead s pc)

/-- The key of a slot, or of SYSTEM. -/
def windowKind (kind : Nat) : Option Nat := if kind = 4 then some 0 else if kind = 5 then some 1 else none

/-- A window opened on its pseudo-channels (08 R244, R245). -/
def openWindow (w : Window) (s : State) : State :=
  let s := s.modCarr (fun c => { c with windows := c.windows ++ [w] })
  let s := bump 0x6100 0x05 1 s
  w.open_.foldl (fun s pc =>
    startProgram pc (modPc pc (fun p => { p with mode := if p.mode = .drain then .drain else .pnm })
      (modReady w.id pc (fun _ => ⟨w.id, 0, 0, 0⟩) s))) s

/-- A PNM window opens for the batch that has just left a FILTER or SCAN stage, or for SYSTEM (partition 32); ids of open
windows differ modulo 64 (08 R244, R249). -/
def execWindowOpen (part slot stage id prog signal workList : Nat) (s : State) : Host.Outcome State Fault Refusal :=
  let sl := slotAt s part slot
  if s.carr.windows.any (fun w => w.id % 64 = id % 64) || !mainOn s then .next s
  else if part = 32 then
    .next (openWindow ⟨id, ownSystem, 4096, 0, 2, 0, prog, signal, workList, windowNs s, s.clock.now, windowPcs s, 0, 0, 0, 0, [], []⟩ s)
  else match sl.image with
    | none => .next s
    | some im =>
      match windowKind (nth im.stages stage {}).kind with
      | none => .next s
      | some k =>
        if sl.state.holds && !sl.halted then
          let st := (sl.stores.find? (fun e => e.1 = stage)).getD (stage, 0, 0)
          let b := ((sl.batches.find? (fun b => b.at_ = .after stage)).map (·.id)).getD 0
          .next (openWindow ⟨id, part, 4 * part + slot, stage, k, imageTokens im, prog, signal, workList, windowNs s, s.clock.now,
            windowPcs s, 0, b, st.2.1, st.2.2, [], []⟩ s)
        else .next s

/-- Every waiting normal request of a pseudo-channel served in arrival order, with the longest wait kept (08 R245,
R246). -/
def serveWaiting (pc : Nat) (s : State) : State :=
  let ws := (pcAt s pc).waiting
  let s := modPc pc (fun p => { p with waiting := [] }) s
  ws.foldl (fun s w =>
    let s := raiseTo 0x6100 0x08 (s.clock.now - w.at_) s
    match carrDecode w.addr with
    | .dram k l => serveCarr w k l s
    | _ => s) s

/-- DRAIN has served every waiting normal request of a pseudo-channel (08 R245). -/
def execDrainEnd (pc : Nat) (s : State) : Host.Outcome State Fault Refusal :=
  if (pcAt s pc).mode = .drain then
    let s := serveWaiting pc s
    .next (modPc pc (fun p => { p with mode := if (nextWindow s pc).isSome then .pnm else .normal }) s)
  else .next s

/-- The patrol scrubber reads and corrects the next data row of a pseudo-channel, in NORMAL mode or in the gaps that
DRAIN leaves (08 R256). -/
def execScrubRow (pc ecc : Nat) (s : State) : Host.Outcome State Fault Refusal :=
  let p := pcAt s pc
  if pc < 512 && mainOn s && !stackDead s pc && p.mode != .pnm then
    let row := p.scrub % 1032192
    .next (countEcc pc (row / 16 * 16384 + row % 16 * 1024) ecc (modPc pc (fun p => { p with scrub := p.scrub + 1 }) s))
  else .next s

/-- The completed patrol passes of a stack: those of its slowest pseudo-channel (08 OD 0xA200.0A). -/
def scrubPasses (s : State) (k : Nat) : Nat :=
  (List.range 64).foldl (fun a p => min a ((pcAt s (64 * k + p)).scrub / 1032192)) (2 ^ 32)

/-- A stack visit of Vigil has one move less to wait for; after the last it is done (19 R550). -/
def stackMoved (pc : Nat) (s : State) : State :=
  match KMap.find s.vigil.stackAt (pc / 64) with
  | none => s
  | some (at_, pcs) =>
    if pcs.contains pc then
      let r := pcs.filter (· != pc)
      if r.isEmpty then visitDone 4 (s.modVigil (fun g => { g with stackAt := KMap.del g.stackAt (pc / 64) }))
      else s.modVigil (fun g => { g with stackAt := KMap.put g.stackAt (pc / 64) (at_, r) })
    else s

/-- A stack's base die or interface fails: its addresses answer FAILED, its cores stop, and the loss is recorded (08
R261; 19 R538). Waiting requests are answered, and a Vigil visit ends with its moves skipped (19 R558). (log 80, DEDUCED.) -/
def failStack (stack : Nat) (s : State) : State :=
  if stack < 8 && !s.carr.deadStacks.contains stack then
    let s := match KMap.find s.vigil.stackAt stack with
      | some (_, pcs) => actedFiring 4 (pcs.foldl (fun s pc => (visitSkipped s).modCarr (fun c => { c with swap := KMap.del c.swap pc }))
          (s.modVigil (fun g => { g with stackAt := KMap.del g.stackAt stack })))
      | none => s
    let s := s.modCarr (fun c => { c with deadStacks := c.deadStacks ++ [stack] })
    let s := (List.range 64).foldl (fun s p =>
      if (KMap.find s.carr.pcs (64 * stack + p)).isSome then serveWaiting (64 * stack + p) s else s) s
    let s := (List.range 64).foldl (fun s p =>
      if (KMap.find s.carr.cores (2 * (64 * stack + p))).isSome then
        modCore (64 * stack + p) 0 (fun k => { k with running := false }) s else s) s
    unitLost 0x11 0 (srcStack stack) (some (40 + stack)) s
  else s

/-- A stack fails (08 R261; 19 R538). -/
def execStackFailure (stack : Nat) (s : State) : Host.Outcome State Fault Refusal :=
  if mainOn s then .next (settle (failStack stack s)) else .next s

/-- The physical core that serves a pseudo-channel (08 OD 0xA200.01). -/
def coreOf (s : State) (pc : Nat) : Nat := KMap.getD s.carr.coreMap pc (pc % 64)

/-- The cores of a stack in the spare role that are healthy and not already bound for a pseudo-channel (08 R258). -/
def spareCores (s : State) (k : Nat) : List Nat :=
  (List.range 66).filter (fun c => !s.carr.failed.contains (66 * k + c) &&
    (List.range 64).all (fun p => coreOf s (64 * k + p) != c || (pcAt s (64 * k + p)).failed) &&
    s.carr.swap.all (fun e => !(e.1 / 64 = k && e.2.1 = c)))

/-- A Carr core declared dead: a healthy spare takes its pseudo-channel at the first NORMAL instant, or the
pseudo-channel is failed (08 R260, 19 R532, R538). -/
def killCore (pc cause : Nat) (s : State) : State :=
  let k := pc / 64
  let s := s.modCarr (fun c => { c with failed := c.failed ++ [66 * k + coreOf s pc] })
  match spareCores s k with
  | n :: _ => s.modCarr (fun c => { c with swap := KMap.put c.swap pc (n, cause) })
  | [] => settle (unitLost 0x08 (pc % 64) (srcStack k) none (modPc pc (fun p => { p with failed := true }) s))

/-- A core-map change that waits takes effect: its pseudo-channel is in NORMAL mode with no window open (08 R258, 19
R535, R536). Scratch and instruction memory are kept by pseudo-channel, so they move with it. -/
def execCoreMapChange (pc : Nat) (s : State) : Host.Outcome State Fault Refusal :=
  match KMap.find s.carr.swap pc with
  | none => .next s
  | some (n, cause) =>
    if (pcAt s pc).mode = .normal && (nextWindow s pc).isNone && !stackDead s pc then
      let g := (KMap.getD s.carr.gens pc 0 + 1) % 256
      let old := coreOf s pc
      .next (stackMoved pc (spareSwitch 0x07 (pc % 64) old n cause g (srcStack (pc / 64))
        (s.modCarr (fun c =>
          { c with coreMap := KMap.put c.coreMap pc n, gens := KMap.put c.gens pc g,
                   swap := KMap.del c.swap pc, served := KMap.put c.served pc s.clock.now }))))
    else .next s

/-- The queries of a window's batch. -/
def windowQueries (s : State) (w : Window) : List Nat :=
  ((KMap.getD s.slots w.slot {}).batches.filter (fun b => b.id = w.batch)).flatMap (·.queries)

/-- A window reaches t_win on a pseudo-channel: it closes as cut; a core that has posted a core fault, or a program that
neither posted DONE nor reported its cut, has lost its work (08 R244, R260; 19 R532, R537). -/
def timeoutOn (w : Window) (pc : Nat) (s : State) : State :=
  let r := KMap.getD s.carr.ready (readyKey w.id pc) ⟨0, 0, 0, 0⟩
  let running := (coreAt s pc 0).window = some w.id && (coreAt s pc 0).running
  let dead := r.state = 3 || running
  let s := if dead && w.owner < 32 then lostWork w.owner (w.slot % 4) w.stage 7 (srcStack (pc / 64)) (windowQueries s w) s else s
  let s := if running then killCore pc 1 s else s
  closeOn w.id pc (if r.state = 3 then 3 else 2) s

/-- A window that reaches t_win closes on each pseudo-channel that has not posted DONE (08 R244). (log 11, DESIGN CHOICE.) -/
def windowTimeout (id : Nat) (s : State) : State :=
  match windowAt s id with
  | none => s
  | some w => if w.opened + w.length ≤ s.clock.now then w.open_.foldl (fun s pc => timeoutOn w pc s) s else s

/-- The bytes of a data row or staging row: the local address of a data row (08 R231, R232). -/
def dataRow (bank sub row : Nat) : Nat := (sub * 504 + row) * 16384 + bank * 1024

/-- The staging address of a staging row (09 R266), without its top byte. -/
def stagingRow (bank sub n : Nat) : Nat := bank * 0x100000 + sub * 8192 + n * 1024

/-- The fields of a row reference (09 R284): bank, subarray, row. -/
def rowRef (v : Nat) : Nat × Nat × Nat := (bits v 19 16, bits v 15 9, bits v 8 0)

/-- Whom a staging row belongs to: a window id, or 65,536 for SYSTEM. (log 77, DEDUCED.) -/
def stagingTag (w : Option Nat) : Nat := w.getD 65536

/-- The key of a staging row in the ownership map. -/
def stagingKey (pc v : Nat) : Nat := 16384 * pc + stagingRow (rowRef v).1 (rowRef v).2.1 ((rowRef v).2.2 - 504) / 1024

/-- The content of a row that a row operation of a window reads, with its poisoned bursts; a staging row that the window
has not written reads as zeros (08 R239, R240). -/
def readRow (pc v : Nat) (w : Option Nat) (s : State) : Bytes × List Nat :=
  let r := rowRef v
  if r.2.2 < 504 then
    let k := dramKey pc (dataRow r.1 r.2.1 r.2.2)
    (Memory.readN s.mem.carr k 1024, (List.range 16).filter (fun i => s.carr.poison.contains (k / 64 + i)))
  else if KMap.find s.carr.stagingWin (stagingKey pc v) = some (stagingTag w) then
    let k := 0x1000000 * pc + stagingRow r.1 r.2.1 (r.2.2 - 504)
    (Memory.readN s.mem.staging k 1024, (List.range 16).filter (fun i => s.carr.stagingBad.contains (k / 64 + i)))
  else (List.replicate 1024 0, [])

/-- Marks of the 16 bursts of a row replaced. -/
def setRowBad (marks : List Nat) (k : Nat) (bad : List Nat) : List Nat :=
  marks.filter (fun u => !(k / 64 ≤ u && u < k / 64 + 16)) ++ bad.map (fun i => k / 64 + i)

/-- The result of a row operation written to its destination row (08 R237, R240). -/
def writeRow (pc v : Nat) (w : Option Nat) (bytes : Bytes) (bad : List Nat) (s : State) : State :=
  let r := rowRef v
  if r.2.2 < 504 then
    let k := dramKey pc (dataRow r.1 r.2.1 r.2.2)
    (s.modMem (fun m => { m with carr := Memory.writeN m.carr k bytes })).modCarr
      (fun c => { c with poison := setRowBad c.poison k bad })
  else
    let k := 0x1000000 * pc + stagingRow r.1 r.2.1 (r.2.2 - 504)
    (s.modMem (fun m => { m with staging := Memory.writeN m.staging k bytes })).modCarr
      (fun c => { c with stagingBad := setRowBad c.stagingBad k bad,
                         stagingWin := KMap.put c.stagingWin (stagingKey pc v) (stagingTag w) })

/-- One byte of a row operation's result (08 R237): 1 AND, 2 OR, 3 XOR, 4 NOT, 5 COPY. -/
def rowByte (op : Nat) (a b : Byte) : Byte :=
  if op = 1 then a &&& b else if op = 2 then a ||| b else if op = 3 then a ^^^ b else if op = 4 then ~~~a else a

/-- The effect of a row operation at its end (08 R237, R240). `bad` are the burst positions found uncorrectable in its
source data rows. An operation of a window that has closed leaves nothing (08 R239). -/
def endRowOp (pc : Nat) (o : RowOp) (bad : List Nat) (s : State) : State :=
  let live : Bool := match o.window with
    | some id => (windowAt s id).any (fun w => w.open_.contains pc)
    | none => true
  let a := readRow pc o.src1 o.window s
  let b := if o.op ≤ 3 then readRow pc o.src2 o.window s else (a.1, [])
  let s := bad.foldl (fun s i => countEcc pc (dataRow (rowRef o.src1).1 (rowRef o.src1).2.1 (rowRef o.src1).2.2 + 64 * i) 3 s) s
  let poison := (List.range 16).filter (fun i => a.2.contains i || b.2.contains i || bad.contains i)
  if live then writeRow pc o.dest o.window (List.zipWith (rowByte o.op) a.1 b.1) poison s else s

/-- The row operations of a stack that are active, with the pseudo-channel of each. -/
def stackActive (s : State) (k : Nat) : List (Nat × RowOp) :=
  (s.carr.pcs.filter (fun e => e.1 / 64 = k)).flatMap (fun e => e.2.active.map (fun o => (e.1, o)))

/-- Whether the limits of a pseudo-channel and its stack let a row operation activate (08 R241, R242). -/
def rowAllowed (s : State) (pc : Nat) (o : RowOp) : Bool :=
  let p := pcAt s pc
  let bank := (rowRef o.dest).1
  let st := stackActive s (pc / 64)
  (p.acts.filter (fun t => s.clock.now < t + 32)).length < 4
  && p.active.length < 4
  && p.active.all (fun a => (rowRef a.dest).1 / 4 != bank / 4)
  && st.length < 128
  && (match o.window.bind (windowAt s) with
      | none => true
      | some w => (st.filter (fun e => match e.2.window.bind (windowAt s) with
          | some v => v.slot = w.slot
          | none => false)).length < w.tokens)

/-- The first queued row operation of a core activates when its limits and tokens allow; in DRAIN the core work of a
window pauses (08 R241, R245). -/
def execRowOperation (pc mode : Nat) (s : State) : Host.Outcome State Fault Refusal :=
  match (coreAt s pc mode).queue with
  | [] => .next s
  | o :: r =>
    if rowAllowed s pc o && !stackDead s pc && (mode != 0 || (pcAt s pc).mode = .pnm) then
      let s := modCore pc mode (fun k => { k with queue := r }) s
      let s := modPc pc (fun p =>
        { p with active := p.active ++ [{ o with start := some s.clock.now }],
                 acts := (p.acts.filter (fun t => s.clock.now < t + 32)) ++ [s.clock.now] }) s
      .next (raiseTo (0xA200 + pc / 64) 0x07 (stackActive s (pc / 64)).length s)
    else .next s

/-- The oldest active row operation of a pseudo-channel ends tROP after its activation (08 R237, R241). -/
def execRowOperationEnd (pc : Nat) (bad : List Nat) (s : State) : Host.Outcome State Fault Refusal :=
  match (pcAt s pc).active with
  | [] => .next s
  | o :: r =>
    if o.start.getD 0 + 60 ≤ s.clock.now then
      .next (endRowOp pc o bad (modPc pc (fun p => { p with active := r }) s))
    else .next s

end Sys2Proof.Machine
end

