-- ==== Sys2Proof/Machine/Nor.lean ====
section
/-! DEFINITION. The QSPI NOR: boot records, firmware images, the key store, and measurement (20 R559 to R575). -/

namespace Sys2Proof.Machine

open Sys2Proof

/-- The life-cycle state (20 OD 0xC000.01): 0 BLANK, 1 MANUF, 2 SECURED, 3 DEPLOYED, 4 RETURN, 5 SCRAPPED. -/
def lifeCycle (s : State) : Nat := countVal s 0xC000 0x01 0

/-- The epoch in fuses (20 OD 0xC000.07 [3:0]). -/
def fuseEpoch (s : State) : Nat := countVal s 0xC000 0x07 0 % 16

/-- Whether the epoch has advanced for a transition that has not been completed (20 R579). -/
def clearPending (s : State) : Bool := 128 ≤ countVal s 0xC000 0x07 0

/-- Whether a copy is the newer of two that check: valid under the epoch in force (20 R560, R573, R574; 02 R40). -/
def copyUsable (s : State) (valid : Bool) (epoch : Nat) : Bool := valid && epoch = fuseEpoch s

/-- The boot record in force (20 R560, R574). -/
def bootRecord (s : State) : Option BootRecord :=
  let i := s.island
  match copyUsable s i.recA.valid i.recA.epoch, copyUsable s i.recB.valid i.recB.epoch with
  | true, true => some (if i.recA.gen < i.recB.gen then i.recB else i.recA)
  | true, false => some i.recA
  | false, true => some i.recB
  | false, false => none

/-- A boot record written: the copy with the lower generation takes the next one (20 R560; 02 R40). -/
def writeBoot (r : BootRecord) (s : State) : State :=
  let i := s.island
  let ga := if copyUsable s i.recA.valid i.recA.epoch then i.recA.gen else 0
  let gb := if copyUsable s i.recB.valid i.recB.epoch then i.recB.gen else 0
  let r := { r with valid := true, gen := max ga gb + 1, epoch := fuseEpoch s }
  s.modIsland (fun i => if ga ≤ gb then { i with recA := r } else { i with recB := r })

/-- The slot that the boot record names active, slot A without a record (20 R565). -/
def activeSlot (s : State) : Nat := match bootRecord s with | some r => r.active | none => s.island.running

/-- A firmware image slot: 0 A, 1 B. -/
def fwSlot (s : State) (n : Nat) : FwImage := if n = 0 then s.island.slotA else s.island.slotB

/-- Whether a component entry of a firmware image keeps its form, and its component has the length and hash it states (20 R561, R564). -/
def compOk (f : Bytes) (o : Nat) : Bool :=
  let a := leAt f (o + 8) 4
  let n := leAt f (o + 12) 4
  1 ≤ leAt f o 1 && leAt f o 1 ≤ 6 && leAt f (o + 1) 7 = 0 && a + n + 193 ≤ f.length
  && decide (Config.sha384 (slice f a n) = slice f (o + 16) 48)

/-- The end of the last component of a firmware image. -/
def compEnd (f : Bytes) (n : Nat) : Nat :=
  (List.range n).foldl (fun a i => max a (leAt f (64 + 64 * i + 8) 4 + leAt f (64 + 64 * i + 12) 4)) (64 + 64 * n)

/-- Whether the structure of a firmware image is correct: magic, version, lengths, reserved fields and component hashes (20 R561, R562,
R564). -/
def fwSound (f : Bytes) : Bool :=
  let n := leAt f 16 4
  leAt f 0 4 = 0x4B474657 && leAt f 4 1 = 1 && leAt f 5 1 = 0 && leAt f 6 2 < 2 && 1 ≤ n && n ≤ 16 && leAt f 20 4 = f.length
  && f.length ≤ 28 * 1048576 && leAt f 24 1 ≤ 3 && leAt f 25 39 = 0 && (List.range n).all (fun i => compOk f (64 + 64 * i))
  && compEnd f n + 193 = f.length

/-- Whether the key field of a firmware image matches the ROM hash of its key and the signature verifies (20 R561, R562). -/
def fwSigned (f : Bytes) : Bool :=
  let key := slice f (f.length - 193) 97
  decide (Config.sha384 key = Config.vendorKeyHash (leAt f 24 1))
  && Config.ecdsaVerify key (Config.sha384 (f.take (f.length - 96))) (slice f (f.length - 96) 96)

/-- A firmware file as an image in its slot (20 R561). -/
def parseFw (f : Bytes) : FwImage :=
  { sound := fwSound f, signed := fwSigned f, live := bit (leAt f 6 2) 0, svn := leAt f 8 4, mirror := leAt f 12 2, visible := leAt f 14 2,
    key := leAt f 24 1, comps := (List.range (min 16 (leAt f 16 4))).map (fun i => (leAt f (64 + 64 * i) 1, slice f (64 + 64 * i + 16) 48)) }

/-- Whether an image passes verification now: its structure, an unrevoked key and its signature where the life-cycle state asks for one, and
its SVN outside BLANK and MANUF (20 R562, R576). (log 106, DEDUCED.) -/
def fwOk (s : State) (w : FwImage) : Bool :=
  let l := lifeCycle s
  w.sound && l != 5 && (l = 0 || l = 1 || l = 4 || (w.signed && !bit (countVal s 0xC003 0x03 0) w.key))
  && (l = 0 || l = 1 || countVal s 0xC003 0x02 0 ≤ w.svn)

/-- The digest of a component of an image, zeros where it has none. -/
def compDigest (w : FwImage) (code : Nat) : Bytes := ((w.comps.find? (fun c => c.1 = code)).map (·.2)).getD (List.replicate 48 0)

/-- A measurement register (20 OD 0xC010.01 to .08). (log 9, DEDUCED.) -/
def measureReg (s : State) (r : Nat) : Bytes := KMap.getD s.dict.blobs (okey 0xC010 (r + 1)) (List.replicate 48 0)

/-- A measurement register extended by a 48-byte digest, and the log (20 R570). -/
def measure (r : Nat) (digest : Bytes) (s : State) : State :=
  let log := KMap.getD s.dict.blobs (okey 0xC010 0x09) []
  setBlob 0xC010 0x09 (log ++ toLE 4 r ++ digest) (setBlob 0xC010 (r + 1) (Config.sha384 (measureReg s r ++ digest)) s)

/-- The key store in force: the valid copy of the highest generation that unwraps under the epoch in force (20 R573). -/
def keyStore (s : State) : Option KeyCopy :=
  let i := s.island
  match copyUsable s i.keyA.valid i.keyA.epoch, copyUsable s i.keyB.valid i.keyB.epoch with
  | true, true => some (if i.keyA.gen < i.keyB.gen then i.keyB else i.keyA)
  | true, false => some i.keyA
  | false, true => some i.keyB
  | false, false => none

/-- A key installed: the key store is written first, then the key is in force (20 R573). -/
def installKeyAt (id : Nat) (key : Bytes) (s : State) : State :=
  let i := s.island
  let ga := if copyUsable s i.keyA.valid i.keyA.epoch then i.keyA.gen else 0
  let gb := if copyUsable s i.keyB.valid i.keyB.epoch then i.keyB.gen else 0
  let c : KeyCopy := { valid := true, gen := max ga gb + 1, epoch := fuseEpoch s, keys := KMap.put i.keys id key }
  setCount 0xC002 0x01 c.gen
    (s.modIsland (fun i => if ga ≤ gb then { i with keyA := c, keys := KMap.put i.keys id key }
      else { i with keyB := c, keys := KMap.put i.keys id key }))

end Sys2Proof.Machine
end

