-- ==== Sys2Proof/Machine/Num.lean ====
section
/-! DEFINITION. Binary floating point with one rounding, to nearest even, over exact dyadic values (00, Pseudocode; 07). -/

namespace Sys2Proof.Machine

open Sys2Proof

/-- A floating-point value: not a number, an infinity, or sign, significand and exponent of 2. -/
inductive Fl where
  | nan
  | inf (neg : Bool)
  | fin (neg : Bool) (m : Nat) (e : Int)
deriving DecidableEq, Repr

/-- A binary format: precision in bits, the exponent of the last place of its subnormals, the bits of infinity, the sign
bit's place, and whether it has infinities. -/
structure Fmt where
  p    : Nat
  low  : Int
  inf  : Nat
  sign : Nat
  hasInf : Bool
deriving DecidableEq, Repr

/-- IEEE 754 binary32. -/
def fmt32 : Fmt := ⟨24, -149, 0x7F800000, 31, true⟩
/-- bfloat16. -/
def fmtBf16 : Fmt := ⟨8, -133, 0x7F80, 15, true⟩
/-- IEEE 754 binary16. -/
def fmt16 : Fmt := ⟨11, -24, 0x7C00, 15, true⟩
/-- OCP E5M2. -/
def fmtE5M2 : Fmt := ⟨3, -16, 0x7C, 7, true⟩
/-- OCP E4M3: no infinity, the top code is not a number. -/
def fmtE4M3 : Fmt := ⟨4, -9, 0x7F, 7, false⟩

/-- The value of a code of a format. -/
def Fmt.decode (f : Fmt) (v : Nat) : Fl :=
  let neg := v.testBit f.sign
  let a := v % 2 ^ f.sign
  if f.hasInf && a = f.inf then .inf neg
  else if f.inf ≤ a then .nan
  else
    let ex := a / 2 ^ (f.p - 1)
    let fr := a % 2 ^ (f.p - 1)
    if ex = 0 then .fin neg fr f.low else .fin neg (2 ^ (f.p - 1) + fr) (f.low + (ex : Int) - 1)

/-- The quiet not-a-number of a format. -/
def Fmt.nanBits (f : Fmt) : Nat := if f.hasInf then f.inf + 2 ^ (f.p - 2) else f.inf

/-- An integer division by a power of two, rounded to nearest even. -/
def rneShift (m k : Nat) : Nat :=
  if k = 0 then m
  else
    let q := m / 2 ^ k
    let r := m % 2 ^ k
    let h := 2 ^ (k - 1)
    if h < r || (r = h && q % 2 = 1) then q + 1 else q

/-- The magnitude code of m·2^e in a format, rounded to nearest even; at or above `inf` where it overflows. -/
def Fmt.roundMag (f : Fmt) (m : Nat) (e : Int) : Nat :=
  if m = 0 then 0
  else
    let bitsN : Int := (Nat.log2 m : Int) + 1
    let q := max (e + bitsN - f.p) f.low
    let r := if e < q then rneShift m (q - e).toNat else m * 2 ^ (e - q).toNat
    (q - f.low).toNat * 2 ^ (f.p - 1) + r

/-- A value in a format, rounded to nearest even; an overflow gives infinity where there is one, else the top finite
code. -/
def Fmt.encode (f : Fmt) (x : Fl) : Nat :=
  match x with
  | .nan => f.nanBits
  | .inf neg => (if f.hasInf then f.inf else f.inf - 1) + (if neg then 2 ^ f.sign else 0)
  | .fin neg m e =>
    let r := f.roundMag m e
    (if f.hasInf then min r f.inf else min r (f.inf - 1)) + (if neg then 2 ^ f.sign else 0)

/-- Whether rounding a value in a format overflows. -/
def Fmt.overflows (f : Fmt) (x : Fl) : Bool :=
  match x with
  | .fin _ m e => f.inf ≤ f.roundMag m e
  | .inf _ => true
  | .nan => false

/-- The signed integer m·2^e as a multiple of 2^k, for k not above e. -/
def scaled (neg : Bool) (m : Nat) (e k : Int) : Int :=
  let v : Int := (m * 2 ^ (e - k).toNat : Nat)
  if neg then -v else v

/-- The value n·2^e of a signed integer; zero is positive. -/
def ofScaled (n : Int) (e : Int) : Fl := .fin (n < 0) n.natAbs e

/-- The exact sum of two values. -/
def Fl.add (x y : Fl) : Fl :=
  match x, y with
  | .nan, _ => .nan
  | _, .nan => .nan
  | .inf a, .inf b => if a = b then .inf a else .nan
  | .inf a, _ => .inf a
  | _, .inf b => .inf b
  | .fin a m e, .fin b n d =>
    if m = 0 && n = 0 then .fin (a && b) 0 0
    else
      let k := min e d
      ofScaled (scaled a m e k + scaled b n d k) k

/-- A value with its sign changed. -/
def Fl.neg (x : Fl) : Fl :=
  match x with
  | .nan => .nan
  | .inf a => .inf (!a)
  | .fin a m e => .fin (!a) m e

/-- The exact product of two values. -/
def Fl.mul (x y : Fl) : Fl :=
  match x, y with
  | .nan, _ => .nan
  | _, .nan => .nan
  | .inf a, .inf b => .inf (a != b)
  | .inf a, .fin b n _ => if n = 0 then .nan else .inf (a != b)
  | .fin a m _, .inf b => if m = 0 then .nan else .inf (a != b)
  | .fin a m e, .fin b n d => .fin (a != b) (m * n) (e + d)

/-- The quotient of two values, with 80 bits and a sticky bit: enough to round once. -/
def Fl.div (x y : Fl) : Fl :=
  match x, y with
  | .nan, _ => .nan
  | _, .nan => .nan
  | .inf _, .inf _ => .nan
  | .inf a, .fin b _ _ => .inf (a != b)
  | .fin a _ _, .inf b => .fin (a != b) 0 0
  | .fin a m e, .fin b n d =>
    if n = 0 then (if m = 0 then .nan else .inf (a != b))
    else
      let k := 80 + Nat.log2 n
      let num := m * 2 ^ k
      .fin (a != b) (2 * (num / n) + (if num % n = 0 then 0 else 1)) (e - d - k - 1)

/-- Newton's integer square root, by fuel. -/
def isqrtFuel (fuel n x : Nat) : Nat :=
  match fuel with
  | 0 => x
  | k + 1 =>
    let y := (x + n / x) / 2
    if y < x then isqrtFuel k n y else x

/-- The integer square root. -/
def isqrt (n : Nat) : Nat := if n = 0 then 0 else isqrtFuel (Nat.log2 n + 8) n (2 ^ (Nat.log2 n / 2 + 1))

/-- The square root of a value, with a sticky bit: enough to round once. -/
def Fl.sqrt (x : Fl) : Fl :=
  match x with
  | .nan => .nan
  | .inf neg => if neg then .nan else .inf false
  | .fin neg m e =>
    if m = 0 then .fin neg 0 0
    else if neg then .nan
    else
      let k : Nat := 120 + (if (e - 120) % 2 = 0 then 0 else 1)
      let n := m * 2 ^ k
      let r := isqrt n
      .fin false (2 * r + (if r * r = n then 0 else 1)) ((e - k) / 2 - 1)

/-- A binary32 value. -/
def f32 (v : Nat) : Fl := fmt32.decode v

/-- The binary32 code of a value, rounded once. -/
def toF32 (x : Fl) : Nat := fmt32.encode x

/-- A binary32 addition. -/
def addF32 (a b : Nat) : Nat := toF32 ((f32 a).add (f32 b))
/-- A binary32 subtraction. -/
def subF32 (a b : Nat) : Nat := toF32 ((f32 a).add (f32 b).neg)
/-- A binary32 multiplication. -/
def mulF32 (a b : Nat) : Nat := toF32 ((f32 a).mul (f32 b))
/-- A binary32 fused multiply-add. -/
def fmaF32 (a b c : Nat) : Nat := toF32 (((f32 a).mul (f32 b)).add (f32 c))
/-- A binary32 division. -/
def divF32 (a b : Nat) : Nat := toF32 ((f32 a).div (f32 b))
/-- A binary32 square root. -/
def sqrtF32 (a : Nat) : Nat := toF32 (f32 a).sqrt
/-- The binary32 code of an integer. -/
def intF32 (n : Int) : Nat := toF32 (ofScaled n 0)

/-- A binary32 value raised to an integer, rounded once (14 R410). -/
def powF32 (a n : Nat) : Nat :=
  match f32 a with
  | .fin neg m e => toF32 (.fin (neg && n % 2 = 1) (m ^ n) (e * n))
  | _ => if n = 0 then 0x3F800000 else toF32 (f32 a)

/-- Whether a binary32 code is a finite number. -/
def finite32 (v : Nat) : Bool := bits v 30 23 != 0xFF

/-- Whether a binary32 code is not a number. -/
def isNan32 (v : Nat) : Bool := match f32 v with | .nan => true | _ => false

/-- Whether a value is less than another; false where one is not a number. -/
def Fl.lt (x y : Fl) : Bool :=
  match x, y with
  | .nan, _ => false
  | _, .nan => false
  | .inf a, .inf b => a && !b
  | .inf a, .fin _ _ _ => a
  | .fin _ _ _, .inf b => !b
  | .fin a m e, .fin b n d => scaled a m e (min e d) < scaled b n d (min e d)

/-- Whether a binary32 code is less than another; zeros of both signs are equal (09 R282). -/
def ltF32 (a b : Nat) : Bool := (f32 a).lt (f32 b)

/-- Whether two binary32 codes are equal as values. -/
def eqF32 (a b : Nat) : Bool := !isNan32 a && !isNan32 b && !ltF32 a b && !ltF32 b a

/-- A signed number of n bits from its bit pattern. -/
def signedOf (n v : Nat) : Int := if v % 2 ^ n < 2 ^ (n - 1) then (v % 2 ^ n : Nat) else ((v % 2 ^ n : Nat) : Int) - (2 ^ n : Nat)

/-- The bit pattern of n bits of an integer. -/
def patternOf (n : Nat) (v : Int) : Nat := (v % (2 ^ n : Nat)).toNat

end Sys2Proof.Machine
end

