-- ==== Sys2Proof/Machine/Mire.lean ====
section
/-! DEFINITION. Flash channels and Mire: units, writes, query reads, rounds, garbage collection and power failure (18). -/

namespace Sys2Proof.Machine

open Sys2Proof

/-- The map value of a discarded unit (18 R501). -/
def discardedEntry : Nat := 0xFFFFFFFE

/-- The map mark of a unit that has only been patched: its entry is still UNWRITTEN and its pending patches are merged when it
is read (18 R509). -/
def patchedEntry : Nat := 0x100000000

/-- The map mark of a unit that the device has written whole on its own account: its physical unit, which Mire chooses, is not told. (log 20, DESIGN
CHOICE.) -/
def writtenEntry : Nat := 0x100000001

/-- A storage die. -/
def dieAt (s : State) (d : Nat) : Die := if d = 0 then s.mire.dieN else s.mire.dieS

/-- The state with one storage die changed. -/
def modDie (d : Nat) (f : Die → Die) (s : State) : State :=
  s.modMire (fun m => if d = 0 then { m with dieN := f m.dieN } else { m with dieS := f m.dieS })

/-- A target. -/
def targetAt (s : State) (t : Nat) : Target := KMap.getD s.mire.targets t {}

/-- The state with one target changed. -/
def modTarget (t : Nat) (f : Target → Target) (s : State) : State :=
  s.modMire (fun m => { m with targets := KMap.upd m.targets t {} f })

/-- The target that a map entry of a unit names (18 R501). -/
def targetOf (unit entry : Nat) : Nat := 8 * (16 * (unit % 2) + bits entry 31 28) + bits entry 27 25

/-- The Mire state of OD 0x8000.0F (18). -/
def mireState (s : State) : Nat := countVal s 0x8000 0x0F 0

/-- The depth of operations per target (18 R519). -/
def flashDepth (s : State) : Nat := rwVal s 0x8000 0x06 2

/-- The bound of one read attempt in µs of a media profile (18 R521). -/
def tAtt (s : State) : Nat :=
  let p := rwVal s 0x8000 0x01 2
  if p = 1 then 12 else if p = 2 then 30 else if p = 3 then 45 else rwVal s 0x8000 0x02 30

/-- The bound of a suspend in µs of a media profile (18 R521). -/
def tSusp (s : State) : Nat :=
  let p := rwVal s 0x8000 0x01 2
  if p = 1 then 15 else if p = 2 then 30 else if p = 3 then 60 else rwVal s 0x8000 0x03 30

/-- t_fsus in µs (18 R521). -/
def tFsus (s : State) : Nat := max (tAtt s) (tSusp s)

/-- t_fread in µs (18 R521). -/
def tFread (s : State) : Nat := 2 * tAtt s + 10

/-- The length of a flash round in ns (18 R523). -/
def roundNs (s : State) : Nat := 1000 * (tFread s + (flashDepth s - 1) * tFsus s)

/-- The room of the protected buffer of a die: 32 MiB at the TLC profile; for another profile the spec states no value,
so it is a constant of the part (18 R510, log 2). -/
def bufferRoom (s : State) : Nat :=
  if rwVal s 0x8000 0x01 2 = 2 then 33554432 else Config.protectedBuffer (rwVal s 0x8000 0x01 2)

/-- The statuses of 18 R524 for an access: ADDRESS for a namespace that is absent or an offset past its size, FIREWALL for
one of another partition (18 R507). -/
def flashCheck (s : State) (owner ns off len : Nat) : Nat :=
  match KMap.find s.mire.spaces ns with
  | none => 4
  | some n =>
    if mireState s = 0 || mireState s = 2 || n.size * 16384 < off + len then 4
    else if owner != ownSystem && owner != n.owner then 5 else 0

/-- The global unit of an offset in a namespace (18 R506). -/
def unitOf (s : State) (ns off : Nat) : Nat :=
  match KMap.find s.mire.spaces ns with
  | some n => n.first + off / 16384
  | none => 0

/-- The bytes of a range of one unit and their status: zeros with UNWRITTEN, or an undefined value where the unit is
discarded (18 R512, R514); the flag says that a free value was drawn. -/
def unitBytes (s : State) (unit off len : Nat) : Bytes × Nat × Bool :=
  match KMap.find s.mire.map unit with
  | none => (List.replicate len 0, 1, false)
  | some e =>
    if e = discardedEntry then (toLE len (freeVal s (8 * len)), 0, true)
    else (Memory.readN s.mem.flash (16384 * unit + off) len, 0, false)

/-- The state after a read of a unit. -/
def afterRead (drew : Bool) (s : State) : State := if drew then drawn s else s

/-- The bytes of a range of a namespace that may cross units, by SYSTEM (18 R523: a read that crosses a unit boundary is two
reads). -/
def spaceBytes (fuel : Nat) (s : State) (ns off len : Nat) : Bytes × State :=
  match fuel with
  | 0 => ([], s)
  | k + 1 =>
    if len = 0 then ([], s)
    else
      let n := min len (16384 - off % 16384)
      let r := unitBytes s (unitOf s ns off) (off % 16384) n
      let t := spaceBytes k (afterRead r.2.2 s) ns (off + n) (len - n)
      (r.1 ++ t.1, t.2)

/-- Which unit of a target comes next when it is free: a pending query read first, then what was suspended, then what
waits in order (18 R519, R520). -/
def startNext (t : Target) : Target :=
  if t.ops.any (fun o => o.started && !o.suspended) then t
  else match t.ops.findIdx? (fun o => o.kind = .query) with
    | some i => { t with ops := t.ops.modify i (fun o => { o with started := true }) }
    | none => match t.ops.findIdx? (fun o => o.suspended) with
      | some i => { t with ops := t.ops.modify i (fun o => { o with suspended := false }) }
      | none => match t.ops with
        | o :: r => { t with ops := { o with started := true } :: r }
        | [] => t

/-- A target takes operations from Mire's queue while it has room, and starts the next one (18 R519). -/
def refill (fuel t : Nat) (s : State) : State :=
  match fuel with
  | 0 => modTarget t startNext s
  | k + 1 =>
    if (targetAt s t).ops.length < flashDepth s && !(targetAt s t).failed then
      match s.mire.queue.find? (fun e => e.1 = t) with
      | some e =>
        refill k t (modTarget t (fun g => { g with ops := g.ops ++ [e.2] })
          (s.modMire (fun m => { m with queue := m.queue.erase e })))
      | none => modTarget t startNext s
    else modTarget t startNext s

/-- A background operation offered to a target: it waits in Mire's queue for room (18 R519). -/
def offerBackground (t : Nat) (o : FlashOp) (s : State) : State :=
  refill 8 t (s.modMire (fun m => { m with queue := m.queue ++ [(t, o)] }))

/-- The life percentage recomputed, with the mean of the P/E counts (18 R528). -/
def lifeUpdate (s : State) : State :=
  let n := s.mire.dieN.blocks + s.mire.dieS.blocks
  let pe := s.mire.blocks.foldl (fun a e => a + e.2.pe) 0
  let rated := rwVal s 0x8000 0x07 3000
  let spare := s.mire.dieN.spare + s.mire.dieS.spare
  let used := s.mire.dieN.consumed + s.mire.dieS.consumed
  let a := if n = 0 || rated = 0 then 0 else 100 * pe * spare
  let b := if spare = 0 then 0 else 100 * used * (n * rated)
  let den := n * rated * spare
  let life := if den = 0 then 100 else 100 - min 100 (ceilDiv (max a b) den)
  setCount 0x8000 0x0B life (setCount 0x8000 0x0A (if n = 0 then 0 else pe / n) s)

/-- A block counted as written; a block whose every unit is written closes (18 R527). -/
def useBlock (unit entry : Nat) (s : State) : State :=
  let t := targetOf unit entry
  let per := (targetAt s t).perBlock
  if per = 0 then s
  else
    let k := 33554432 * t + bits entry 24 0 / per
    let full := (KMap.getD s.mire.blocks k {}).used + 1 = per
    let s := s.modMire (fun m => { m with blocks := KMap.upd m.blocks k {} (fun b =>
      { b with used := b.used + 1, closed := if b.used + 1 = per then some s.clock.ft else b.closed }) })
    if full then lifeUpdate s else s

/-- A commit of new bytes in one unit: the record joins the die's journal, the map entry and content change (18 R510,
R511). -/
def commitUnit (unit phys off : Nat) (data : Bytes) (patch : Bool) (s : State) : State :=
  let e := KMap.find s.mire.map unit
  let r : JournalRec := ⟨s.mire.nextSeq, unit, e, Memory.readN s.mem.flash (16384 * unit) 16384, patch, data.length⟩
  let s := modDie (unit % 2) (fun d => { d with journal := d.journal ++ [r] }) s
  let s := s.modMire (fun m => { m with nextSeq := m.nextSeq + 1 })
  let put (e : Nat) (s : State) : State :=
    (s.modMire (fun m => { m with map := KMap.put m.map unit e })).modMem
      (fun m => { m with flash := Memory.writeN m.flash (16384 * unit + off) data })
  if !patch then put phys s
  else match e with
    | none => put patchedEntry (s.modMem (fun m => { m with flash := Memory.zero m.flash (16384 * unit) 16384 }))
    | some x =>
      if x = discardedEntry then
        put patchedEntry (drawn (s.modMem (fun m =>
          { m with flash := Memory.writeN m.flash (16384 * unit) (toLE 16384 (freeVal s 131072)) })))
      else put x s

/-- A whole-unit write or patch taken in (18 R509 to R511; 22 R599). -/
def takeWrite (w : FlashWait) (s : State) : State :=
  let g := unitOf s w.ns w.off
  let p := match KMap.find s.mire.spaces w.ns with | some n => n.owner | none => 32
  let s := commitUnit g w.phys (w.off % 16384) w.data w.patch s
  let s := charge p 0x12 w.data.length s
  let s := if w.patch then s
    else offerBackground (targetOf g w.phys) ⟨.program, g, 0, false, false, 0⟩ (useBlock g w.phys s)
  emit (.flash w.id 0 []) s

/-- The status that refuses a write, 0 for none (18 R513, R515, R524, R529; 19 R542). A physical unit is one that the map
can name on a usable target, not the parity unit of its stripe (18 R501, R502). -/
def writeStatus (s : State) (w : FlashWait) : Nat :=
  let g := unitOf s w.ns w.off
  let d := dieAt s (g % 2)
  if s.mire.dumping then 7
  else if flashCheck s w.owner w.ns w.off w.data.length != 0 then flashCheck s w.owner w.ns w.off w.data.length
  else if d.lost then 6
  else if d.worn && !w.system then 8
  else if d.worn && d.reserve ≤ d.reserveUsed then 6
  else 0

/-- Whether a physical unit may hold a data unit (18 R501, R502). -/
def physOk (s : State) (unit phys : Nat) : Bool :=
  phys < discardedEntry && bits phys 31 28 != bits phys 24 0 % 16 && !(targetAt s (targetOf unit phys)).failed

/-- The bytes that a die's protected buffer holds. -/
def bufferUsed (d : Die) : Nat := d.journal.foldl (fun a r => a + r.room) 0

/-- A write offered to Mire: refused, taken, or waiting for room (18 R510, R513). -/
def offerWrite (w : FlashWait) (s : State) : State :=
  let st := writeStatus s w
  let g := unitOf s w.ns w.off
  if st = 5 then emit (.flash w.id 5 []) (firewallHit w.owner (srcDie (g % 2)) w.off s)
  else if st != 0 then emit (.flash w.id st []) s
  else if bufferUsed (dieAt s (g % 2)) + w.data.length ≤ bufferRoom s && (dieAt s (g % 2)).waiting.isEmpty then takeWrite w s
  else modDie (g % 2) (fun d => { d with waiting := d.waiting ++ [w] }) s

/-- A whole-unit write: 16 KiB at a unit boundary, at the physical unit that Mire picks (18 R509). -/
def execFlashWrite (id owner ns off phys : Nat) (system : Bool) (data : Bytes) (s : State) : Host.Outcome State Fault Refusal :=
  if !mainOn s then .next s
  else if off % 16384 != 0 || data.length != 16384 then .next (emit (.flash id 4 []) s)
  else if physOk s (unitOf s ns off) phys || flashCheck s owner ns off 16384 != 0 then
    .next (settle (offerWrite ⟨id, owner, ns, off, phys, system, false, data⟩ s))
  else .next s

/-- A SYSTEM patch: 64 bytes to 4 KiB, 64-byte aligned, within one unit (18 R509). -/
def execFlashPatch (id ns off : Nat) (data : Bytes) (s : State) : Host.Outcome State Fault Refusal :=
  if !mainOn s then .next s
  else if off % 64 != 0 || data.length % 64 != 0 || data.length < 64 || 4096 < data.length || 16384 < off % 16384 + data.length then
    .next (emit (.flash id 4 []) s)
  else .next (offerWrite ⟨id, ownSystem, ns, off, 0, true, true, data⟩ s)

/-- The writes of a die that now have room are taken, in order (18 R510). -/
def drainWaiting (fuel d : Nat) (s : State) : State :=
  match fuel, (dieAt s d).waiting with
  | k + 1, w :: r =>
    if bufferUsed (dieAt s d) + w.data.length ≤ bufferRoom s then
      drainWaiting k d (takeWrite w (modDie d (fun e => { e with waiting := r }) s))
    else s
  | _, _ => s

/-- An operation of a target removed. -/
def dropOp (t : Nat) (o : FlashOp) (s : State) : State := modTarget t (fun g => { g with ops := g.ops.erase o }) s

/-- The started operation of a target that is not suspended, of a kind. -/
def runningOp (s : State) (t : Nat) (k : FlashKind) : Option FlashOp :=
  (targetAt s t).ops.find? (fun o => o.kind = k && o.started && !o.suspended)

/-- A program of a target ends: the records it and the patches before it hold leave the protected buffer (18 R510), and a
write-busy marking it caused ends (R520). -/
def execProgramDone (target : Nat) (s : State) : Host.Outcome State Fault Refusal :=
  match runningOp s target .program with
  | none => .next s
  | some o =>
    let d := o.unit % 2
    let seq := match (dieAt s d).journal.find? (fun r => r.unit = o.unit && !r.patch) with | some r => r.seq | none => 0
    let s := modTarget target (fun g => { g with writeBusy := false }) (dropOp target o s)
    let s := modDie d (fun e => { e with journal := e.journal.filter (fun r => !(r.seq = seq || (r.patch && r.seq < seq))) }) s
    .next (refill 8 target (drainWaiting (dieAt s d).waiting.length d s))

/-- An erase of a target ends: its block is empty, its P/E count rises (18 R520, R527). -/
def execEraseDone (target : Nat) (s : State) : Host.Outcome State Fault Refusal :=
  match runningOp s target .erase with
  | none => .next s
  | some o =>
    let s := modTarget target (fun g => { g with writeBusy := false }) (dropOp target o s)
    .next (refill 8 target (s.modMire (fun m => { m with blocks := KMap.upd m.blocks o.unit {} (fun b =>
      { used := 0, pe := b.pe + 1, closed := none }) })))

/-- The round of a slot. -/
def roundAt (s : State) (slot : Nat) : Option Round := s.mire.rounds.find? (fun r => r.slot = slot)

/-- The rounds with one changed. -/
def modRound (slot : Nat) (f : Round → Round) (s : State) : State :=
  s.modMire (fun m => { m with rounds := m.rounds.map (fun r => if r.slot = slot then f r else r) })

/-- A query read of a round changed. -/
def modRead (id : Nat) (f : QRead → QRead) (s : State) : State :=
  s.modMire (fun m => { m with rounds := m.rounds.map (fun r =>
    { r with reads := r.reads.map (fun q => if q.id = id then f q else q) }) })

/-- Lines written to tile SRAM. -/
def writeTile (tile addr : Nat) (bs : Bytes) (s : State) : State :=
  s.modMem (fun m => { m with tile := Memory.writeN m.tile (0x100000000 * tile + addr) bs })

/-- A query read that ends with a status, and its lines: data with OK, else zeros (18 R523). -/
def endRead (q : QRead) (st : Nat) (data : Bytes) (s : State) : State :=
  writeTile q.tile q.dest (if st = 0 then data else List.replicate q.len 0)
    (modRead q.id (fun r => { r with status := some st }) s)

/-- A query read delivered (18 R523). -/
def deliver (q : QRead) (s : State) : State :=
  let r := unitBytes s q.unit q.off q.len
  endRead q r.2.1 r.1 (afterRead r.2.2 s)

/-- Whether a unit's last write is still in the protected buffer (18 R511). -/
def inBuffer (s : State) (unit : Nat) : Bool := (dieAt s (unit % 2)).journal.any (fun r => r.unit = unit && !r.patch)

/-- A query read placed on its target, ended at once, or turned away with ROUND (18 R511, R519, R520, R525). -/
def placeRead (q : QRead) (s : State) : State :=
  match KMap.find s.mire.map q.unit with
  | none => deliver q s
  | some e =>
    if discardedEntry ≤ e || inBuffer s q.unit then deliver q s
    else
      let g := targetAt s q.target
      let cap := rwVal s 0x8000 0x16 64
      let stuck := g.ops.find? (fun o => o.started && !o.suspended && (o.kind = .program || o.kind = .erase) && cap ≤ o.suspends)
      if g.failed || (dieAt s (q.unit % 2)).lost then endRead q 6 [] s
      else if g.writeBusy || stuck.isSome then
        let s := if g.writeBusy then s else bump 0x8000 0x17 1 (modTarget q.target (fun t => { t with writeBusy := true }) s)
        endRead q 3 [] (bump 0x8000 0x10 1 s)
      else
        let held := g.ops.filter (fun o => o.started || o.kind = .query)
        let back := g.ops.filter (fun o => !(o.started || o.kind = .query))
        if flashDepth s ≤ held.length then endRead q 3 [] (bump 0x8000 0x10 1 s)
        else
          let room := flashDepth s - held.length - 1
          let isAhead (o : FlashOp) : Bool := o.started || o.kind = .query
          let ops := held.filter isAhead ++ [⟨.query, q.unit, q.id, false, false, 0⟩] ++ back.take room
          modTarget q.target (fun t => startNext { t with ops := ops })
            (s.modMire (fun m => { m with queue := (back.drop room).map (fun o => (q.target, o)) ++ m.queue }))

/-- A query read of a tile channel in an EXACT stage's flash round (18 R507, R518, R519, R523). A read that crosses a unit
boundary is two reads. -/
def queryRead (fuel part slot stage tile chan index ns off len dest : Nat) (s : State) : State :=
  match fuel with
  | 0 => s
  | k + 1 =>
    let sl := 4 * part + slot
    let s := match roundAt s sl with
      | some _ => s
      | none => s.modMire (fun m => { m with rounds := m.rounds ++ [⟨sl, stage, s.clock.now, []⟩] })
    let n := min len (16384 - off % 16384)
    let g := unitOf s ns off
    let c := flashCheck s part ns off n
    let t := targetOf g (KMap.getD s.mire.map g 0)
    let q : QRead := ⟨s.mire.nextRead, g, off % 16384, n, t, tile, dest, chan, index, 0, none⟩
    let s := modRound sl (fun r => { r with reads := r.reads ++ [q] }) (s.modMire (fun m => { m with nextRead := m.nextRead + 1 }))
    let s := charge part 0x10 1 (bump (0x8010 + t / 8) 0x08 1 s)
    let s := if c = 5 then endRead q 5 [] (firewallHit part (srcTile tile) off s)
      else if c != 0 then endRead q c [] s
      else placeRead q s
    if len ≤ n then s else queryRead k part slot stage tile chan index ns (off + n) (len - n) (dest + n) s

/-- A query read (18 R519). -/
def execQueryRead (part slot stage tile chan index ns off len dest : Nat) (s : State) : Host.Outcome State Fault Refusal :=
  if mainOn s && !s.mire.dumping && (slotAt s part slot).state.holds then
    .next (queryRead (len / 16384 + 2) part slot stage tile chan index ns off len dest s)
  else .next s

/-- A program or erase ahead of a query read finishes suspending: the read starts (18 R520). -/
def execOperationSuspended (target : Nat) (s : State) : Host.Outcome State Fault Refusal :=
  let g := targetAt s target
  match g.ops.find? (fun o => o.started && !o.suspended && (o.kind = .program || o.kind = .erase)) with
  | none => .next s
  | some o =>
    if g.ops.any (fun q => q.kind = .query) && o.suspends < rwVal s 0x8000 0x16 64 then
      .next (bump (0x8010 + target / 8) 0x0A 1 (modTarget target (fun g =>
        startNext { g with ops := g.ops.map (fun x => if x = o then { o with suspended := true, suspends := o.suspends + 1 } else x) }) s))
    else .next s

/-- The query read of a number, with its round. -/
def readAt (s : State) (id : Nat) : Option (Round × QRead) :=
  (s.mire.rounds.findSome? (fun r => (r.reads.find? (fun q => q.id = id)).map (fun q => (r, q))))

/-- The number of read-retry steps of a channel (18 R526). -/
def retrySteps (s : State) (ch : Nat) : Nat := (rwDom s (0x8010 + ch) 0x07 []).length / 8

/-- A read attempt of a target ends: data is delivered, or the next retry step starts if it can finish before the round
ends, or the read ends MEDIA (18 R521, R522, R526). A background read on the target only frees it. -/
def execReadAttemptDone (target : Nat) (ok slow : Bool) (s : State) : Host.Outcome State Fault Refusal :=
  let s := if slow then bump 0x8000 0x12 1 s else s
  match runningOp s target .query with
  | none =>
    match runningOp s target .background with
    | some o => .next (refill 8 target (dropOp target o s))
    | none => .next s
  | some o =>
    match readAt s o.read with
    | none => .next (refill 8 target (dropOp target o s))
    | some (r, q) =>
      if ok then .next (refill 8 target (dropOp target o (deliver q s)))
      else if q.attempts < retrySteps s (target / 8) && s.clock.now + 1000 * tAtt s ≤ r.issued + roundNs s then
        .next (modRead q.id (fun x => { x with attempts := x.attempts + 1 }) s)
      else .next (refill 8 target (dropOp target o (bump (0x8010 + target / 8) 0x09 1 (endRead q 2 [] s))))

/-- The status bytes of a round written into the slot's read-status area (18 R523). -/
def writeStatuses (slot : Nat) (qs : List QRead) (s : State) : State :=
  let base := rwVal s (0x4000 + slot) 0x23 0
  qs.foldl (fun s q => writeTile q.tile (base + 64 * q.chan + q.index) (toLE 1 (q.status.getD 3)) s) s

/-- A flash round ends: a read that has not completed ends with ROUND and zeros (18 R523; 22 R604). -/
def execFlashRoundEnd (part slot : Nat) (s : State) : Host.Outcome State Fault Refusal :=
  let sl := 4 * part + slot
  match roundAt s sl with
  | none => .next s
  | some r =>
    if r.issued + roundNs s ≤ s.clock.now then
      let late := r.reads.filter (fun q => q.status.isNone)
      let s := late.foldl (fun s q =>
        let s := bump 0x8000 0x11 1 (endRead q 3 [] s)
        refill 8 q.target (modTarget q.target (fun g => { g with ops := g.ops.filter (fun o => o.read != q.id || o.kind != .query) }) s)) s
      let ok := (r.reads.filter (fun q => q.status = some 0)).length
      let s := writeStatuses sl r.reads s
      let s := s.modMire (fun m => { m with rounds := m.rounds.filter (fun x => x.slot != sl) })
      .next (trace 0x0A part (srcDevice) (toLE 1 slot ++ toLE 2 ok ++ toLE 2 (r.reads.length - ok)) s)
    else .next s

/-- A background read: 0 decodes at some step, 1 is rebuilt from its stripe and rewritten at the physical unit Mire picks, 2
cannot be rebuilt (18 R518, R525, R526; 22 R599). -/
def execBackgroundRead (id owner ns off len outcome phys : Nat) (s : State) : Host.Outcome State Fault Refusal :=
  let c := flashCheck s owner ns off len
  if !mainOn s || s.mire.dumping then .next s
  else if c = 5 then .next (emit (.flash id 5 (List.replicate len 0)) (firewallHit owner srcDevice off s))
  else if c != 0 then .next (emit (.flash id c (List.replicate len 0)) s)
  else
    let g := unitOf s ns off
    let e := KMap.find s.mire.map g
    let t := targetOf g (e.getD 0)
    let p := match KMap.find s.mire.spaces ns with | some n => n.owner | none => 32
    if outcome = 2 && (e.getD discardedEntry) < discardedEntry then
      .next (emit (.flash id (if (targetAt s t).failed then 6 else 2) (List.replicate len 0)) (bump (0x8010 + t / 8) 0x09 1 s))
    else
      let s := if outcome = 1 && (e.getD discardedEntry) < discardedEntry && physOk s g phys then
          bump (0x8010 + t / 8) 0x09 1 (useBlock g phys (s.modMire (fun m => { m with map := KMap.put m.map g phys })))
        else s
      let r := spaceBytes (len / 16384 + 2) s ns off len
      let st := if e.isNone then 1 else 0
      .next (emit (.flash id st r.1) (charge p 0x11 len r.2))

/-- The value of an F32 weight as a multiple of 2^-149; not a number and infinities count as zero. -/
def weightInt (v : Nat) : Int :=
  match f32 v with
  | .fin neg m e => scaled neg m e (-149)
  | _ => 0

/-- The blocks that a die has free, as a count (18 R527). -/
def freeBlocks (s : State) (d : Nat) : Nat :=
  (dieAt s d).blocks - (s.mire.blocks.filter (fun e => e.1 / 33554432 / 128 = d && 0 < e.2.used)).length

/-- The valid units of a block. -/
def validUnits (s : State) (k : Nat) : List Nat :=
  let t := k / 33554432
  let per := (targetAt s t).perBlock
  (s.mire.map.filter (fun e => e.2 < discardedEntry && targetOf e.1 e.2 = t && per != 0 && bits e.2 24 0 / per = k % 33554432)).map (·.1)

/-- The score of a block as a numerator over its total units (18 R527). The weights are multiples of 2^-149, so scores of
two blocks compare by cross multiplication. -/
def gcScore (s : State) (urgent : Bool) (k : Nat) (b : FlashBlock) : Int × Nat :=
  let w (i d : Nat) : Int := weightInt (rwVal s 0x8001 (if urgent then i + 3 else i) d)
  let total := max 1 (targetAt s (k / 33554432)).perBlock
  let span := max 1 (rwVal s 0x8000 0x19 86400) * 1000000000
  let rated := max 1 (rwVal s 0x8000 0x07 3000)
  let age := min span (s.clock.ft - b.closed.getD 0)
  let va := w 1 0x3F800000 * ((total - (validUnits s k).length : Nat) : Int) * (span * rated : Nat)
  let aa := (if urgent then w 2 0 else w 2 0x3E800000) * (age * total * rated : Nat)
  let wa := (if urgent then w 3 0 else w 3 0x3F000000) * (b.pe * total * span : Nat)
  (va + aa - wa, total)

/-- The victim of garbage collection: the closed block of the die with the highest score, the lowest place first (18
R527). -/
def gcVictim (s : State) (d : Nat) (urgent : Bool) : Option Nat :=
  (s.mire.blocks.filter (fun e => e.1 / 33554432 / 128 = d && e.2.closed.isSome)).foldl (fun best e =>
    match best with
    | none => some e.1
    | some k =>
      let a := gcScore s urgent e.1 e.2
      let b := gcScore s urgent k (KMap.getD s.mire.blocks k {})
      if b.1 * (a.2 : Int) < a.1 * (b.2 : Int) then some e.1 else best) none

/-- Garbage collection of a die: when its free blocks are below the threshold, the valid units of the victim move to the
physical units that Mire picks, and the block's erase is queued (18 R527). -/
def execGarbageCollection (die : Nat) (picks : List Nat) (s : State) : Host.Outcome State Fault Refusal :=
  let d := dieAt s die
  let free := freeBlocks s die
  let thr := rwVal s 0x8000 0x1B 2
  if mainOn s && !s.mire.dumping && !d.lost && 100 * free < thr * d.blocks then
    match gcVictim s die (200 * free < thr * d.blocks) with
    | none => .next s
    | some k =>
      let us := validUnits s k
      if us.length ≤ picks.length && (us.zip picks).all (fun e => physOk s e.1 e.2) then
        let s := (us.zip picks).foldl (fun s e => useBlock e.1 e.2 (s.modMire (fun m => { m with map := KMap.put m.map e.1 e.2 }))) s
        .next (settle (offerBackground (k / 33554432) ⟨.erase, k, 0, false, false, 0⟩ s))
      else .next s
  else .next s

/-- Blocks of a die taken from its spare pool; with the pool empty the die is worn (18 R528, R529). -/
def takeSpares (d n : Nat) (s : State) : State :=
  let e := dieAt s d
  if e.spare < e.consumed + n then
    let s := setCount 0x8000 0x0F 3 (modDie d (fun e => { e with consumed := e.spare, worn := true }) s)
    let s := setCount 0x8000 0x09 (s.mire.dieN.consumed + s.mire.dieS.consumed) s
    if e.worn then s else annal 0x0501 2 ownDevice (srcDie d) (toLE 1 d ++ toLE 1 1 ++ toLE 4 0) s
  else
    let s := modDie d (fun e => { e with consumed := e.consumed + n }) s
    setCount 0x8000 0x09 (s.mire.dieN.consumed + s.mire.dieS.consumed) s

/-- The blocks of a target that hold data. -/
def usedBlocks (s : State) (t : Nat) : Nat := (s.mire.blocks.filter (fun e => e.1 / 33554432 = t && 0 < e.2.used)).length

/-- A target fails: its query reads end FAILED, its other work returns to the queue, and a channel with no usable target
reports FAILED (18 R500, R525). -/
def execTargetFail (channel ce : Nat) (s : State) : Host.Outcome State Fault Refusal :=
  let t := 8 * channel + ce
  if channel < 32 && ce < 8 && mainOn s && !(targetAt s t).failed then
    let ops := (targetAt s t).ops
    let s := modTarget t (fun g => { g with failed := true, ops := [], writeBusy := false }) s
    let s := ops.foldl (fun s o => match readAt s o.read with
      | some (_, q) => if o.kind = .query then endRead q 6 [] s else s
      | none => s) s
    let s := setCount (0x8010 + channel) 0x05 (setBit (countVal s (0x8010 + channel) 0x05 0) ce true) s
    let s := if (List.range 8).all (fun m => (targetAt s (8 * channel + m)).failed || !bit (rwVal s (0x8010 + channel) 0x04 0xFF) m) then
        setCount (0x8010 + channel) 0x06 3 s else s
    .next (settle (unitLost 0x0A (8 * (channel % 16) + ce) (srcDie (channel / 16)) none (takeSpares (channel / 16) (usedBlocks s t) s)))
  else .next s

/-- A storage die is lost: its query reads end FAILED (19 R538, R542). -/
def loseDie (die : Nat) (s : State) : State :=
  if die < 2 && !(dieAt s die).lost then
    let s := modDie die (fun d => { d with lost := true }) s
    let s := s.mire.rounds.foldl (fun s r => r.reads.foldl (fun s q =>
      if q.unit % 2 = die && q.status.isNone then endRead q 6 [] s else s) s) s
    unitLost 0x13 0 (srcDie die) (some (56 + die)) s
  else s

/-- A storage die is lost (19 R538, R542). -/
def execStorageDieLoss (die : Nat) (s : State) : Host.Outcome State Fault Refusal :=
  if mainOn s then .next (settle (loseDie die s)) else .next s

/-- PWRFAIL_N is asserted: new writes are refused, reads are abandoned, and the dump begins (18 R515). -/
def powerFail (s : State) : State :=
  s.modMire (fun m =>
    { m with dumping := true, rounds := [], queue := [],
             targets := m.targets.map (fun e => (e.1, { e.2 with ops := [], writeBusy := false })),
             dieN := { m.dieN with waiting := [] }, dieS := { m.dieS with waiting := [] } })

/-- The records of a die beyond the first n are undone: their units keep their old contents (18 R516). (log 99, DEDUCED.) -/
def undoRecords (rs : List JournalRec) (s : State) : State :=
  rs.reverse.foldl (fun s r =>
    (s.modMire (fun m => { m with map := match r.entry with | some e => KMap.put m.map r.unit e | none => KMap.del m.map r.unit })).modMem
      (fun m => { m with flash := Memory.writeN m.flash (16384 * r.unit) r.old })) s

/-- The dump of a die ends after n of its journal records; `found` were in flash after the first missing page and are
discarded and counted at the replay of the next boot (18 R515 to R517). -/
def endDump (d n found : Nat) (s : State) : State :=
  let rs := (dieAt s d).journal
  modDie d (fun e => { e with journal := [], torn := if n < rs.length then some (min found (rs.length - n)) else none }) (undoRecords (rs.drop n) s)

/-- The least power of two not below n, and at least 2^28 (18 R503). -/
def mapSize (n : Nat) : Nat := max (2 ^ 28) (if n ≤ 1 then 1 else 2 ^ (Nat.log2 (n - 1) + 1))

/-- The spare pool of 2 % and the reserve of 0.5 % of a die's good blocks; a die with too few for both is worn (18 R503,
R529). -/
def formatDie (blocks : Nat) (d : Die) : Die :=
  { d with blocks := blocks, spare := blocks * 2 / 100, consumed := 0, reserve := blocks / 200, reserveUsed := 0,
           worn := blocks * 2 / 100 = 0 || blocks / 200 = 0, journal := [], waiting := [] }

/-- FORMAT (18 R503): `good` gives for each usable target its blocks that are not retired and its units per block, `aside`
the blocks that each die sets aside for dump and journal. -/
def formatFlash (good : List (Nat × Nat × Nat)) (aside : Nat) (s : State) : Status × State :=
  if s.dev.state != .config || !s.mire.spaces.isEmpty then (.state, s)
  else
    let side (d : Nat) := good.filter (fun g => g.1 / 128 = d)
    let count (d : Nat) : Nat := (side d).foldl (fun a g => a + g.2.1) 0
    let units (d : Nat) : Nat := (side d).foldl (fun a g => a + g.2.1 * g.2.2) 0
    let per (d : Nat) : Nat := ((side d).map (fun g => g.2.2)).foldl max 0
    let left (d : Nat) : Nat := units d - (aside + count d * 2 / 100) * per d
    let u := left 0 + left 1
    let l := min 7812500000 (u * 15 * (100 - rwVal s 0x8000 0x18 7) / 1600)
    let s := s.modMire (fun m =>
      { m with map := [], queue := [], rounds := [], dieN := formatDie (count 0) m.dieN, dieS := formatDie (count 1) m.dieS,
               blocks := m.blocks.map (fun e => (e.1, { e.2 with used := 0, closed := none })),
               targets := good.foldl (fun t g => KMap.upd t g.1 {} (fun x => { x with blocks := g.2.1, perBlock := g.2.2, ops := [] })) m.targets })
    let s := s.modMem (fun m => { m with flash := [] })
    let s := setCount 0x8000 0x0C l (setCount 0x8000 0x0D (mapSize l) s)
    let s := setCount 0x8000 0x08 (s.mire.dieN.spare + s.mire.dieS.spare) (setCount 0x8000 0x09 0 s)
    (.ok, setCount 0x8000 0x0F (if s.mire.dieN.worn || s.mire.dieS.worn then 3 else 1) s)

/-- The number of units of a namespace that are written (18 OD 0x8040.06). -/
def unitsWritten (s : State) (n : Nat) : Nat :=
  match KMap.find s.mire.spaces n with
  | none => 0
  | some x => (s.mire.map.filter (fun e => x.first ≤ e.1 && e.1 < x.first + x.size && (e.2 < discardedEntry || e.2 = writtenEntry))).length

/-- The result code of a namespace command set (18 R506). -/
def nsResult (n code : Nat) (s : State) : State := setCount (0x8040 + n) 0x09 code s

/-- CREATE of a namespace (18 R506): conditions in the order STATE, NO_KEY, SPACE. Mire chooses the run: here the lowest that
fits (log 20). -/
def createSpace (n : Nat) (s : State) : State :=
  let owner := rwVal s (0x8040 + n) 0x03 0
  let size := rwVal s (0x8040 + n) 0x04 0
  if (KMap.find s.mire.spaces n).isSome || (mireState s != 1 && mireState s != 3) then nsResult n 1 s
  else if (KMap.find s.mire.keys owner).isNone then nsResult n 3 s
  else match (if size = 0 then none else fitRun 300 (s.mire.spaces.map (fun e => (e.2.first, e.2.size))) 0 size 1 (countVal s 0x8000 0x0C 0)) with
    | none => nsResult n 2 s
    | some a => nsResult n 0 (s.modMire (fun m => { m with spaces := KMap.put m.spaces n ⟨owner, size, a⟩ }))

/-- The units from a to b of the map set UNWRITTEN. -/
def clearUnits (a b : Nat) (s : State) : State :=
  (s.modMire (fun m => { m with map := KMap.delRange m.map a b })).modMem (fun m => { m with flash := Memory.zero m.flash (16384 * a) (16384 * (b - a)) })

/-- DESTROY of a namespace (18 R506); `used` says that an index, a table or a FLASH tier object names it. -/
def destroySpace (n : Nat) (used : Bool) (s : State) : State :=
  match KMap.find s.mire.spaces n with
  | none => nsResult n 1 s
  | some x =>
    if mireState s != 1 && mireState s != 3 then nsResult n 1 s
    else if used then nsResult n 4 s
    else nsResult n 0 ((clearUnits x.first (x.first + x.size) s).modMire (fun m => { m with spaces := KMap.del m.spaces n }))

/-- DISCARD of a range of a namespace (18 R506, R514): a hint that sets the units' entries to DISCARDED. -/
def discardUnits (n : Nat) (s : State) : State :=
  match KMap.find s.mire.spaces n with
  | none => nsResult n 1 s
  | some x =>
    let a := rwVal s (0x8040 + n) 0x07 0
    let c := rwVal s (0x8040 + n) 0x08 0
    if mireState s != 1 && mireState s != 3 then nsResult n 1 s
    else if x.size < a + c then nsResult n 5 s
    else nsResult n 0 (s.modMire (fun m => { m with map := m.map.map (fun e =>
      if x.first + a ≤ e.1 && e.1 < x.first + a + c then (e.1, discardedEntry) else e) }))

/-- A partition's flash key installed, refused with STATE while a namespace of the partition exists (18 R508). -/
def writeFlashKey (p : Nat) (key : Bytes) (s : State) : Status × State :=
  if s.mire.spaces.any (fun e => e.2.owner = p) then (.state, s)
  else (.ok, installKeyAt (256 + p) key (s.modMire (fun m => { m with keys := KMap.put m.keys p key })))

end Sys2Proof.Machine
end

