-- ==== Sys2Proof/Machine/Tiers.lean ====
section
/-! DEFINITION. Claimed memory and tier objects (14 R383 to R391; 01 R19; 03 R80, R84). -/

namespace Sys2Proof.Machine

open Sys2Proof

/-- The usable Carr capacity in bytes (08 R231). -/
def carrCapacity : Nat := 541165879296

/-- The size of the SYSTEM region (14 R385). -/
def systemRegion : Nat := 0x80000000

/-- The size of the Mire map region: 4 bytes for each map entry (18 R501, R503; 14 R385). -/
def mapRegion (s : State) : Nat := 4 * countVal s 0x8000 0x0D 0

/-- The allocatable Carr DRAM (14 R385). -/
def carrAllocatable (s : State) : Nat := carrCapacity - mapRegion s - systemRegion

/-- The claims of one resource of an image. -/
def claimSum (im : Image) (res : Nat) : Nat := (im.claims.filter (fun c => c.resource = res)).foldl (fun a c => a + c.amount) 0

/-- The Carr DRAM that a partition has committed: tier objects, indices, tables, images and its CXL windows (14 R385). -/
def partCarr (s : State) (p : Nat) : Nat :=
  (s.data.tiers.objs.filter (fun e => e.1 / 65536 = p && e.2.tier = 3 && e.2.role < 2)).foldl (fun a e => a + e.2.size) 0
  + (s.data.indices.filter (fun e => e.1 / 16 = p)).foldl (fun a e => a + e.2.claimed) 0
  + (s.data.tables.filter (fun e => e.1 / 64 = p)).foldl (fun a e => a + e.2.claimed) 0
  + ((residents s).filter (fun r => r.1 / 4 = p)).foldl (fun a r => a + claimSum r.2.2 4) 0
  + (List.range 2).foldl (fun a q =>
      a + if rwVal s (0x1070 + q) 0x05 32 = p then 1048576 * rwVal s (0x1070 + q) 0x04 0 else 0) 0

/-- The Carr DRAM committed on the device (14 OD 0x6000.05). -/
def carrCommitted (s : State) : Nat := (List.range 33).foldl (fun a p => a + partCarr s p) 0

/-- The ranges of Carr DRAM in use, in the interleaved view. -/
def carrUsedRuns (s : State) : List (Nat × Nat) :=
  (s.claims.regions.filter (fun r => r.space = 1)).map (fun r => (r.base, r.size))

/-- The lowest free place of Carr DRAM of a size and alignment below the regions the device keeps. The device chooses the
granules (14 R387): the lowest that fit (log 21). -/
def carrPlace (s : State) (size align : Nat) : Option Nat :=
  fitRun (s.claims.regions.length + 2) (carrUsedRuns s) 0 size align (carrAllocatable s)

/-- A region claimed and tagged with its owner (03 R81, R100). -/
def addRegion (r : Region) (s : State) : State := s.modClaims (fun c => { c with regions := c.regions ++ [r] })

/-- A range of Carr DRAM zeroed, in the interleaved view, with its poison marks (03 R84). -/
def zeroCarr (base size : Nat) (s : State) : State :=
  let inside (k : Nat) : Bool :=
    let a := interleaved (k / 0x40000000) (k % 0x40000000)
    base ≤ a && a < base + size
  (s.modMem (fun m => { m with carr := m.carr.filter (fun e => !inside e.1) })).modCarr
    (fun c => { c with poison := c.poison.filter (fun b => !inside (64 * b)) })

/-- A range of a region zeroed, whatever its space. -/
def zeroRegion (r : Region) (s : State) : State :=
  if r.space = 1 then zeroCarr r.base r.size s
  else if r.space = 0 then s.modMem (fun m => { m with tile := Memory.zero m.tile (0x100000000 * r.unit + r.base) r.size })
  else s.modMem (fun m => { m with hub := Memory.zero (Memory.zero m.hub r.base r.size) (0x100000000 + r.base) r.size })

/-- The regions of a use zeroed and released (03 R84). -/
def releaseRegions (use : RegionUse) (s : State) : State :=
  let s := (s.claims.regions.filter (fun r => r.use = use)).foldl (fun s r => zeroRegion r s) s
  s.modClaims (fun c => { c with regions := c.regions.filter (fun r => r.use != use) })

/-- A byte of Carr DRAM in the interleaved view. -/
def carrKeyI (a : Nat) : Nat := dramKey (localOf a).1 (localOf a).2

/-- Bytes written to one pseudo-channel by SYSTEM; a whole burst written is clean again (03 R83, 08 R255). -/
def writePc (pc l : Nat) (bs : Bytes) (s : State) : State :=
  (s.modMem (fun m => { m with carr := Memory.writeN m.carr (dramKey pc l) bs })).modCarr
    (fun c => { c with poison := markPoison 64 c.poison (dramKey pc l) bs.length false })

/-- Bytes written in the interleaved view, granule by granule. -/
def writeParts (fuel a : Nat) (bs : Bytes) (s : State) : State :=
  match fuel with
  | 0 => s
  | k + 1 =>
    if bs.isEmpty then s
    else
      let n := 4096 - a % 4096
      writeParts k (a + n) (bs.drop n) (writePc (localOf a).1 (localOf a).2 (bs.take n) s)

/-- Bytes written to Carr DRAM in the interleaved view by SYSTEM (03 R83). -/
def writeI (a : Nat) (bs : Bytes) (s : State) : State := writeParts (bs.length / 4096 + 2) a bs s

/-- Bytes read from Carr DRAM in the interleaved view. -/
def readI (s : State) (a n : Nat) : Bytes := (List.range n).map (fun i => Memory.read s.mem.carr (carrKeyI (a + i)))

/-- The id of a tier object (14 R386). -/
def tierId (p n : Nat) : Nat := 65536 * p + n

/-- A tier object that a partition may name (14 R386). -/
def tierOf (s : State) (p id : Nat) : Option TierObj :=
  if id / 65536 = p && id % 65536 != 0 then KMap.find s.data.tiers.objs id else none

/-- The state with the tiers changed. -/
def modTiers (f : Tiers → Tiers) (s : State) : State := s.modData (fun d => { d with tiers := f d.tiers })

/-- The Sluice address of byte 0 of an object (13 R360, 14 OD 0x6010.0F). -/
def tierSluice (o : TierObj) : Nat :=
  if o.tier = 1 then 0x1000000000000000 + o.base
  else if o.tier = 2 then 0x3000000000000000 + o.base
  else if o.tier = 4 then 0x7000000000000000 + 2 ^ 48 * (o.place % 256) + o.offset
  else 0x2000000000000000 + o.base

/-- Bytes of an object (14 R389). -/
def readObj (o : TierObj) (off n : Nat) (s : State) : Bytes × State :=
  if o.tier = 1 then (Memory.readN s.mem.tile (o.base + off) n, s)
  else if o.tier = 2 then (Memory.readN s.mem.hub (o.base + off) n, s)
  else if o.tier = 4 then spaceBytes (n / 16384 + 2) s (o.place % 256) (o.offset + off) n
  else (readI s (o.base + off) n, s)

/-- Whole units written to flash without a physical unit of their own yet (18 R509, log 20). -/
def writeSpace (fuel ns off : Nat) (bs : Bytes) (s : State) : State :=
  match fuel with
  | 0 => s
  | k + 1 =>
    if bs.isEmpty then s
    else
      let n := min bs.length (16384 - off % 16384)
      writeSpace k ns (off + n) (bs.drop n) (commitUnit (unitOf s ns off) writtenEntry (off % 16384) (bs.take n) (n < 16384) s)

/-- Bytes written to an object. -/
def writeObj (o : TierObj) (off : Nat) (bs : Bytes) (s : State) : State :=
  if o.tier = 1 then s.modMem (fun m => { m with tile := Memory.writeN m.tile (o.base + off) bs })
  else if o.tier = 2 then s.modMem (fun m => { m with hub := Memory.writeN m.hub (o.base + off) bs })
  else if o.tier = 4 then writeSpace (bs.length / 16384 + 2) (o.place % 256) (o.offset + off) bs s
  else writeI (o.base + off) bs s

/-- An object's content zeroed (03 R84, 14 R387). -/
def zeroObj (o : TierObj) (s : State) : State :=
  if o.tier = 1 then s.modMem (fun m => { m with tile := Memory.zero m.tile o.base o.size })
  else if o.tier = 2 then s.modMem (fun m => { m with hub := Memory.zero m.hub o.base o.size })
  else if o.tier = 4 then
    let u := unitOf s (o.place % 256) o.offset
    clearUnits u (u + o.size / 16384) s
  else zeroCarr o.base o.size s

/-- The tier objects of a weight reference in force, by buffer 0 A or 1 B. -/
def weightObj (w : WeightRef) (buffer : Nat) : Nat := if buffer = 0 then w.objA else w.objB

/-- The object of an index's tier field. -/
def indexTier (s : State) (k sub : Nat) : Nat := rwVal s (indexObj (k / 16) (k % 16)) sub 0

/-- The codebook object subindex of a kind in force: PQ 0x10, 0x11; refine 0x12, 0x13 (06). -/
def bookSub (base book : Nat) : Nat := base + book

/-- The locks on an object (14 R388). -/
def lockCount (s : State) (id : Nat) : Nat :=
  (residents s).foldl (fun a r => a + (r.2.2.weights.filter (fun w =>
      weightObj w r.2.1.buffer = id || (r.2.1.prevLocked && weightObj w (1 - r.2.1.buffer) = id))).length) 0
  + s.data.indices.foldl (fun a e => a + ([indexTier s e.1 0x0E, indexTier s e.1 0x0F, indexTier s e.1 (bookSub 0x10 e.2.book),
      indexTier s e.1 (bookSub 0x12 e.2.book)].filter (· = id)).length) 0
  + s.data.indices.foldl (fun a e => a + if e.2.state = .building then 0 else
      match KMap.find s.data.tiers.objs id with
      | some o => b2n (o.role = 3 && id / 65536 = e.1 / 16 && o.place = e.1 % 16)
      | none => 0) 0
  + s.data.tables.foldl (fun a e => a + if e.2.ready then
      b2n (e.2.shardMap = id) + (e.2.classes.filter (fun c => c.records = id)).length else 0) 0

/-- Whether an object is named by a slot that holds resources, an index or a table that is not EMPTY (14 R388). -/
def tierInUse (s : State) (id : Nat) : Bool :=
  (residents s).any (fun r => r.2.2.weights.any (fun w => w.objA = id || w.objB = id))
  || s.data.indices.any (fun e => [0x0E, 0x0F, 0x10, 0x11, 0x12, 0x13].any (fun k => indexTier s e.1 k = id)
      || (match KMap.find s.data.tiers.objs id with
          | some o => o.role = 3 && id / 65536 = e.1 / 16 && o.place = e.1 % 16
          | none => false))
  || s.data.tables.any (fun e => e.2.shardMap = id || e.2.classes.any (fun c => c.records = id))

/-- The lowest free object number of a partition, from 1 (14 R386). -/
def freeNumber (s : State) (p : Nat) : Option Nat :=
  ((List.range 1024).map (· + 1)).find? (fun n => (KMap.find s.data.tiers.objs (tierId p n)).isNone)

/-- The tile SRAM claim of a logical tile of an image (03 R92). -/
def tileClaim (im : Image) (t : Nat) : Nat :=
  (im.claims.filter (fun c => c.resource = 1 && c.tile = t)).foldl (fun a c => a + c.amount) 0

/-- The buckets of a HOT area for H rows: the smallest power of two not below H ÷ 2 (14 R397). -/
def bucketCount (h : Nat) : Nat := let half := ceilDiv h 2; if half ≤ 1 then 1 else 2 ^ (Nat.log2 (half - 1) + 1)

/-- The bytes that a HOT area needs (14 R397): header, buckets, default rows and slots. -/
def hotBytes (h slot : Nat) : Nat :=
  512 + 64 * bucketCount h + 8 * slot + (h + ceilDiv h 8) * slot

/-- The widest row of a table in bytes. -/
def widestRow (t : Table) : Nat := t.classes.foldl (fun a c => max a (2 ^ c.log2)) 0

/-- Where a CREATE would place an object, or the code of 14 R390 that refuses it. -/
def tierPlan (s : State) (p : Nat) : Except Nat TierObj :=
  let o := 0x6010 + p
  let tier := rwVal s o 0x03 3
  let size := rwVal s o 0x04 0
  let place := rwVal s o 0x05 0
  let off := rwVal s o 0x06 0
  let mk (base role : Nat) : TierObj := { tier := tier, size := size, place := place, offset := off, base := base, role := role }
  if tier = 0 || 5 < tier then .error 1
  else if size = 0 || size % 16384 != 0 then .error 2
  else if tier = 1 then
    let role := bits place 31 24
    let sl := slotAt s p (bits place 15 8)
    let lt := bits place 7 0
    match sl.image with
    | none => .error 0xB
    | some im =>
      if 1 < role || 4 ≤ bits place 15 8 then .error 1
      else if !sl.state.holds then .error 0xB
      else
        let tab := KMap.find s.data.tables (64 * p + bits place 23 16)
        if role = 1 && tab.isNone then .error 1
        else if role = 1 && size < hotBytes ((tab.map (·.hot)).getD 0) ((tab.map widestRow).getD 0) then .error 2
        else
          let key := 0x100000000 * nth sl.tileMap lt 0
          let clash := s.data.tiers.objs.any (fun e => e.2.tier = 1 && e.2.base < key + off + size && key + off < e.2.base + e.2.size)
          if off % 4096 != 0 || sl.tileMap.length ≤ lt || tileClaim im lt < off + size || clash then .error 8
          else .ok (mk (key + off) role)
  else if tier = 2 then
    if 1 < place then .error 1
    else if off != 0 then .error 8
    else
      let used := (s.data.tiers.objs.filter (fun e => e.2.tier = 2 && e.2.place = place)).map (fun e => (e.2.base % 0x100000000, e.2.size))
      match fitRun (used.length + 2) used 0x2000000 size 4096 0x3000000 with
      | none => .error 2
      | some b => .ok (mk (0x100000000 * place + b) 0)
  else if tier = 3 then
    if place != 0 then .error 1
    else if 1048576 * rwVal s (0x3000 + 0x10 * p) 0x04 0 < partCarr s p + size then .error 3
    else if carrAllocatable s < carrCommitted s + size then .error 4
    else match carrPlace s size 4096 with
      | none => .error 4
      | some b => .ok (mk b 0)
  else if tier = 4 then
    if 256 ≤ place then .error 1
    else match KMap.find s.mire.spaces place with
      | none => .error 8
      | some n => if n.owner != p then .error 9
        else if off % 16384 != 0 || n.size * 16384 < off + size then .error 8 else .ok (mk 0 0)
  else
    if 1 < place then .error 1
    else if rwVal s (0x1070 + place) 0x05 32 != p then .error 9
    else if off % 4096 != 0 || 1048576 * rwVal s (0x1070 + place) 0x04 0 < off + size then .error 8
    else .ok (mk (((KMap.getD s.host.links place {}).winBase) + off) 0)

/-- The status of a code of 14 R390: STATE for LOCKED, IN_USE and BUSY, RANGE for the others. -/
def tierStatus (code : Nat) : Status :=
  if code = 0 then .ok else if code = 6 || code = 7 || code = 0xA then .state else .range

/-- The result of a tier command recorded (14 R390). -/
def tierResult (p code : Nat) (s : State) : Status × State := (tierStatus code, setCount (0x6010 + p) 0x0D code s)

/-- An object put under a number, zeroed, its Carr granules claimed (14 R387). -/
def putObject (p n : Nat) (o : TierObj) (s : State) : State :=
  let id := tierId p n
  let s := if o.tier = 3 && o.role = 0 then addRegion ⟨1, 0, o.base, o.size, p, .tier id⟩ s else s
  zeroObj o (modTiers (fun t => { t with objs := KMap.put t.objs id o }) s)

/-- The stride of a record of a class: the least power of two that holds header, row and Adam moments (14 R395). -/
def recordStride (t : Table) (c : WidthClass) : Nat :=
  let n := 64 + 2 ^ c.log2 * (if t.optimiser = 2 then 3 else 1)
  2 ^ (Nat.log2 (n - 1) + 1)

/-- The HOT area of a table written at its creation: header and empty buckets (14 R397). -/
def hotHeader (s : State) (_p tab : Nat) (t : Table) (current : Bool) (ft : Nat) : Bytes :=
  let nb := bucketCount t.hot
  let cls (c : WidthClass) : Bytes :=
    let base := match KMap.find s.data.tiers.objs c.records with | some o => o.base | none => 0
    toLE 4 c.first ++ toLE 1 c.log2 ++ toLE 1 (Nat.log2 (recordStride t c)) ++ toLE 1 (b2n c.replicated) ++ toLE 1 0 ++ toLE 8 base ++ toLE 16 0
  padTo 512 (toLE 4 0x52484F54 ++ toLE 1 tab ++ toLE 1 t.classes.length ++ toLE 1 (b2n current) ++ toLE 1 0 ++ toLE 4 nb
    ++ toLE 4 (t.hot + ceilDiv t.hot 8) ++ toLE 4 (widestRow t) ++ toLE 2 t.firstOwned ++ toLE 2 t.lastOwned ++ toLE 4 t.rows
    ++ toLE 4 0 ++ toLE 8 ft ++ toLE 24 0 ++ t.classes.flatMap cls)

/-- The number of buckets of a table's HOT areas (14 R397). -/
def hotBuckets (t : Table) : Nat := bucketCount t.hot

/-- An empty bucket entry (14 R397). -/
def emptyBucket : Bytes := toLE 8 0 ++ toLE 4 0xFFFFFFFF ++ toLE 4 0

/-- A new HOT area joins its table (14 R397). -/
def startHotArea (p id : Nat) (o : TierObj) (s : State) : State :=
  let tab := bits o.place 23 16
  match KMap.find s.data.tables (64 * p + tab) with
  | none => s
  | some t =>
    let s := writeObj o 0 (hotHeader s p tab t false 0 ++ (List.replicate (4 * hotBuckets t) emptyBucket).flatten) s
    s.modData (fun d => { d with tables := KMap.put d.tables (64 * p + tab) { t with areas := t.areas ++ [{ obj := id }] } })

/-- A tier CREATE (14 R387, R390). -/
def tierCreate (p : Nat) (s : State) : Status × State :=
  match tierPlan s p with
  | .error c => tierResult p c s
  | .ok o =>
    let want := rwVal s (0x6010 + p) 0x02 0
    let n := if want = 0 then freeNumber s p
      else if want ≤ 1024 && (KMap.find s.data.tiers.objs (tierId p want)).isNone then some want else none
    match n with
    | none => tierResult p 5 s
    | some n =>
      let s := putObject p n o s
      let s := if o.role = 1 then startHotArea p (tierId p n) o s else s
      tierResult p 0 (setCount (0x6010 + p) 0x0E (tierId p n) s)

/-- An object removed, zeroed, its granules released (03 R84). -/
def dropObject (id : Nat) (s : State) : State :=
  match KMap.find s.data.tiers.objs id with
  | none => s
  | some o =>
    let s := releaseRegions (.tier id) (zeroObj o s)
    let s := modTiers (fun t => { t with objs := KMap.del t.objs id }) s
    if o.role = 1 then
      let k := 64 * (id / 65536) + bits o.place 23 16
      s.modData (fun d => { d with tables := KMap.modify d.tables k (fun t => { t with areas := t.areas.filter (fun a => a.obj != id) }) })
    else s

/-- A tier DESTROY: absent, locked, or in use (14 R388, R390). RECORDS and INDEX objects belong to their table or index. -/
def tierDestroy (p : Nat) (s : State) : Status × State :=
  let id := tierId p (rwVal s (0x6010 + p) 0x02 0)
  match tierOf s p id with
  | none => tierResult p 5 s
  | some o =>
    if lockCount s id != 0 then tierResult p 7 s
    else if tierInUse s id || 2 ≤ o.role then tierResult p 6 s
    else if o.writing then tierResult p 0xA s
    else tierResult p 0 (dropObject id s)

/-- The code that refuses a MOVE, 0 for none (14 R389, R390). (log 100, DEDUCED.) -/
def moveCode (s : State) (p : Nat) (m : Move) : Nat :=
  match tierOf s p m.dst with
  | none => 5
  | some d =>
    if lockCount s m.dst != 0 then 7
    else if m.tiles = 0 || 65536 < m.tiles || m.dstOff % 16384 != 0 || d.size < m.dstOff + 16384 * m.tiles || m.srcOff % 16384 != 0 then 8
    else if m.src != 0 && m.src / 65536 != p then 9
    else match (if m.src = 0 then none else some (tierOf s p m.src)) with
      | some none => 5
      | some (some o) =>
        if o.size < m.srcOff + 16384 * m.tiles then 8
        else if o.writing || d.writing || 16 ≤ (KMap.getD s.data.tiers.moves p []).length then 0xA else 0
      | none => if 1 < m.port then 8 else if d.writing || 16 ≤ (KMap.getD s.data.tiers.moves p []).length then 0xA else 0

/-- A tier MOVE queued (14 R389). -/
def tierMove (p : Nat) (s : State) : Status × State :=
  let v (k d : Nat) : Nat := rwVal s (0x6010 + p) k d
  let m : Move := ⟨tierId p (v 2 0), v 0xA 0, v 7 0, v 8 0, v 9 0, v 0xB 1, v 0xC 0⟩
  let c := moveCode s p m
  if c = 0 then
    tierResult p 0 (modTiers (fun t =>
      { t with objs := KMap.modify t.objs m.dst (fun o => { o with writing := true }), moves := KMap.upd t.moves p [] (· ++ [m]) }) s)
  else tierResult p c s

/-- The first MOVE of a partition ends after `landed` tiles: the object is READY again; short of its count the status is BUS
and the rest of the range is undefined within the partition. The bytes of a host source come with the command (14 R389). -/
def execMoveComplete (part landed : Nat) (data : Bytes) (s : State) : Host.Outcome State Fault Refusal :=
  match KMap.getD s.data.tiers.moves part [] with
  | [] => .next s
  | m :: r =>
    match KMap.find s.data.tiers.objs m.dst with
    | none => .next (modTiers (fun t => { t with moves := KMap.put t.moves part r }) s)
    | some d =>
      let n := min landed m.tiles
      let src := if m.src = 0 then (padTo (16384 * n) data, s) else match KMap.find s.data.tiers.objs m.src with
        | some o => readObj o m.srcOff (16384 * n) s
        | none => (List.replicate (16384 * n) 0, s)
      let s := writeObj d m.dstOff (src.1.take (16384 * n)) src.2
      let rest := 16384 * (m.tiles - n)
      let s := if rest = 0 then s else drawn (writeObj d (m.dstOff + 16384 * n) (toLE rest (freeVal s (8 * rest))) s)
      let s := modTiers (fun t =>
        { t with objs := KMap.modify t.objs m.dst (fun o => { o with writing := false, last := if rest = 0 then 0 else 3 }),
                 moves := KMap.put t.moves part r }) s
      .next (if rest = 0 && bit m.signal 15 then signalCell part (m.signal % 2048) s else s)

/-- The tier table of a partition (14 OD 0x6010.0F). -/
def tierTable (s : State) (p : Nat) : Bytes :=
  (s.data.tiers.objs.filter (fun e => e.1 / 65536 = p)).flatMap (fun e =>
    let l := lockCount s e.1
    toLE 4 e.1 ++ toLE 1 e.2.tier ++ toLE 1 (b2n e.2.writing + 128 * b2n (l != 0)) ++ toLE 2 l ++ toLE 8 e.2.size
    ++ toLE 8 (tierSluice e.2) ++ toLE 4 e.2.place ++ toLE 1 e.2.role ++ toLE 1 e.2.last ++ toLE 2 0)

end Sys2Proof.Machine
end

