-- ==== Sys2Proof/Machine/Index.lean ====
section
/-! DEFINITION. Search indices: their regions, commands, updates, log rings and Harvest (06; 08 R236; 09 R269 to R272). -/

namespace Sys2Proof.Machine

open Sys2Proof

/-- An index by its key, 16 × partition + index. -/
def indexAt (s : State) (k : Nat) : Option SearchIndex := KMap.find s.data.indices k

/-- The state with one index replaced. -/
def putIndex (k : Nat) (x : SearchIndex) (s : State) : State := s.modData (fun d => { d with indices := KMap.put d.indices k x })

/-- Codes per row, and bytes per code (06 R169). -/
def SearchIndex.perRow (x : SearchIndex) : Nat := if x.fmt = 1 then 32 else 16
/-- The bytes of a code (06 R167). -/
def SearchIndex.codeSize (x : SearchIndex) : Nat := if x.fmt = 1 then 32 else 64
/-- Slots per cell (06 R169). -/
def SearchIndex.perCell (x : SearchIndex) : Nat := x.rows * x.perRow
/-- Slots of an index (06 R169). -/
def SearchIndex.slots (x : SearchIndex) : Nat := x.cells * x.perCell
/-- Local code rows of a pseudo-channel (06 R170). -/
def SearchIndex.localRows (x : SearchIndex) : Nat := ceilDiv (x.cells * x.rows) 512
/-- Code rows that one bitmap row covers (06 R171). -/
def SearchIndex.perGroup (x : SearchIndex) : Nat := if x.fmt = 1 then 256 else 512
/-- Bitmap groups of a pseudo-channel (06 R171, 08 R236). -/
def SearchIndex.groups (x : SearchIndex) : Nat := ceilDiv x.localRows x.perGroup
/-- Bytes of an element of the full vectors, 0 for none (06 R167, R172). -/
def elementSize (vfmt : Nat) : Nat := if vfmt = 0 then 0 else if vfmt = 3 then 1 else 2
/-- The stride of full vectors in flash (06 R172). -/
def SearchIndex.stride (x : SearchIndex) : Nat :=
  roundUp (x.dims * elementSize x.vfmt + if x.vfmt != 0 && (x.distance = 1 || x.vfmt = 3) then 8 else 0) 64

/-- The pseudo-channel of a global row (06 R170). -/
def rowPc (g : Nat) : Nat := 64 * (g % 8) + g / 8 % 64
/-- The pseudo-channel of a slot. -/
def SearchIndex.slotPc (x : SearchIndex) (h : Nat) : Nat := rowPc (h / x.perRow)
/-- The local address of a slot's code (06 R170). -/
def SearchIndex.codeAt (x : SearchIndex) (h : Nat) : Nat := x.codes + 1024 * (h / x.perRow / 512) + x.codeSize * (h % x.perRow)
/-- The bank, subarray and first row of a bitmap group: groups rotate over the bank groups, then the banks; a subarray of a
bank holds seven (08 R236). -/
def SearchIndex.groupAt (x : SearchIndex) (g : Nat) : Nat × Nat × Nat :=
  (4 * (g % 4) + g / 4 % 4, x.bands + g / 112, 65 * (g % 112 / 16))
/-- The local address of a slot's bit in bitmap b, and its place in the byte (06 R171). -/
def SearchIndex.bitAt (x : SearchIndex) (h b : Nat) : Nat × Nat :=
  let j := h / x.perRow / 512
  let g := x.groupAt (j / x.perGroup)
  let n := j % x.perGroup * x.perRow + h % x.perRow
  (dataRow g.1 g.2.1 (g.2.2 + b) + n / 8, n % 8)

/-- The handle of a slot (06 R174). -/
def handleOf (s : State) (k h : Nat) : Nat :=
  2 ^ 47 * (rwVal s 0x7000 0x01 0xFFFFFFFF % 2 ^ 17) + 2 ^ 42 * (k / 16) + 2 ^ 38 * (k % 16) + h

/-- The bucket of a key (06 R175). -/
def keyBucket (key slots : Nat) : Nat :=
  let a := key ^^^ (key / 2 ^ 33)
  let b := a * 0xFF51AFD7ED558CCD % 2 ^ 64
  (b ^^^ (b / 2 ^ 33)) * slots / 2 ^ 64

/-- The interleaved address of a key record and of a bucket head (06 R175). -/
def SearchIndex.keyRec (x : SearchIndex) (h : Nat) : Nat := x.keys + 12 * h
/-- The interleaved address of a bucket head. -/
def SearchIndex.keyHead (x : SearchIndex) (b : Nat) : Nat := x.keys + 12 * x.slots + 8 * b

/-- The empty bucket head and the end of a chain (06 R175). -/
def noHandle : Nat := 2 ^ 64 - 1
/-- The local item that ends a probe chain (06 R175). -/
def noItem : Nat := 2 ^ 32 - 1

/-- The item whose chain link is h, walked from an item. -/
def chainBefore (fuel : Nat) (s : State) (x : SearchIndex) (a h : Nat) : Option Nat :=
  match fuel with
  | 0 => none
  | k + 1 =>
    if a = noItem then none
    else
      let l := leNat (readI s (x.keyRec a + 8) 4)
      if l = h then some a else chainBefore k s x l h

/-- The item that holds a key, found along its chain (06 R175). -/
def chainFind (fuel : Nat) (s : State) (x : SearchIndex) (a key : Nat) : Option Nat :=
  match fuel with
  | 0 => none
  | k + 1 =>
    if a = noItem then none
    else if leNat (readI s (x.keyRec a) 8) = key then some a
    else chainFind k s x (leNat (readI s (x.keyRec a + 8) 4)) key

/-- The first item of a bucket. -/
def bucketFirst (s : State) (x : SearchIndex) (b : Nat) : Nat :=
  let v := leNat (readI s (x.keyHead b) 8)
  if v = noHandle then noItem else v % 2 ^ 32

/-- A key record linked at the head of its bucket (06 R175). -/
def linkKey (k : Nat) (x : SearchIndex) (h key : Nat) (s : State) : State :=
  let b := keyBucket key x.slots
  writeI (x.keyHead b) (toLE 8 (handleOf s k h)) (writeI (x.keyRec h) (toLE 8 key ++ toLE 4 (bucketFirst s x b)) s)

/-- A key record taken out of its chain (06 R180). -/
def unlinkKey (k : Nat) (x : SearchIndex) (h key : Nat) (s : State) : State :=
  let b := keyBucket key x.slots
  let link := leNat (readI s (x.keyRec h + 8) 4)
  if bucketFirst s x b = h then
    writeI (x.keyHead b) (toLE 8 (if link = noItem then noHandle else handleOf s k link)) s
  else match chainBefore (x.items.length + 1) s x (bucketFirst s x b) h with
    | some a => writeI (x.keyRec a + 8) (toLE 4 link) s
    | none => s

/-- One bit of a bitmap written. -/
def writeBit (pc : Nat) (at_ : Nat × Nat) (v : Bool) (s : State) : State :=
  let b := (Memory.read s.mem.carr (dramKey pc at_.1)).toNat
  if bit b at_.2 = v then s else writePc pc at_.1 (toLE 1 (setBit b at_.2 v)) s

/-- The tombstone bit of a slot written (06 R171). -/
def writeTomb (x : SearchIndex) (h : Nat) (dead : Bool) (s : State) : State := writeBit (x.slotPc h) (x.bitAt h 64) dead s

/-- The attribute bits of a slot written (06 R171). -/
def writeAttrs (x : SearchIndex) (h attrs : Nat) (s : State) : State :=
  (List.range 64).foldl (fun s b => writeBit (x.slotPc h) (x.bitAt h b) (bit attrs b) s) s

/-- The attribute bits of a slot as the bitmaps hold them. -/
def readAttrs (s : State) (x : SearchIndex) (h : Nat) : Nat :=
  (List.range 64).foldl (fun a b =>
    let p := x.bitAt h b
    a + 2 ^ b * b2n (bit (Memory.read s.mem.carr (dramKey (x.slotPc h) p.1)).toNat p.2)) 0

/-- The codebook generation of a cell: the cells a re-index has reached have the other book (06 R173, R199). -/
def SearchIndex.gen (x : SearchIndex) (c : Nat) : Nat :=
  if x.state = .reindexing && c < x.progress then 1 - x.book else x.book

/-- The items of a cell. -/
def SearchIndex.cellItems (x : SearchIndex) (c : Nat) : List (Nat × Item) := x.items.filter (fun e => e.1 / x.perCell = c)

/-- The cell-table entry of a cell (06 R173). -/
def writeCell (x : SearchIndex) (c : Nat) (s : State) : State :=
  let l := x.cellItems c
  let live := (l.filter (fun e => e.2.death.isNone)).length
  writeI (x.cellTab + 16 * c)
    (toLE 4 (2 * live + x.gen c) ++ toLE 4 (x.perCell - l.length) ++ toLE 4 (l.length - live) ++ toLE 4 0) s

/-- The bytes of a side entry (06 R190). -/
def sideBytes (s : State) (k : Nat) (x : SearchIndex) (e : SideEntry) : Bytes :=
  padTo 128 (toLE 8 (handleOf s k e.slot) ++ toLE 8 e.birth ++ toLE 8 (e.stop.getD (2 ^ 64 - 1)) ++ toLE 8 e.attrs ++ padTo x.codeSize e.code)

/-- An empty side position: never visible (10 R307). -/
def emptySide : Bytes := toLE 8 0 ++ toLE 8 (2 ^ 64 - 1) ++ toLE 112 0

/-- The side-list copies in tile SRAM: for each SCAN stage that names the index, the tile with the addresses of its copy and of
its generation map, by the SIDESCAN jobs of the stage's descriptor blocks (06 R190; 10 R299, R307; 03 R94). -/
def sideCopies (s : State) (k : Nat) : List (Nat × Nat × Nat) :=
  ((residents s).filter (fun r => r.1 / 4 = k / 16)).flatMap (fun r =>
    (r.2.2.stages.filter (fun t => t.kind = 5 && t.index = k % 16)).flatMap (fun t =>
      let jobs := ((r.2.2.progs.drop t.firstProg).take t.progs).filter (fun g => g.target = 3 && g.kind = 3)
      let pairs := jobs.flatMap (fun g => (List.range (g.length / 64)).filterMap (fun i =>
        let o := g.offset + 64 * i
        if leAt r.2.1.file o 1 = 1 then some (leAt r.2.1.file (o + 12) 4, leAt r.2.1.file (o + 16) 8) else none))
      (List.range t.tiles).flatMap (fun j => pairs.eraseDups.map (fun a => (nth r.2.1.tileMap (t.firstTile + j) 0, a)))))

/-- A side position written to the staging region and to every copy, with its bit of the generation map (06 R190, 10 R307). -/
def writeSide (k : Nat) (x : SearchIndex) (pos : Nat) (bytes : Bytes) (gen : Nat) (s : State) : State :=
  let s := writeI (x.sideTab + 128 * pos) bytes s
  (sideCopies s k).foldl (fun s c =>
    let g := 0x100000000 * c.1 + c.2.2 + pos / 8
    let v (m : Mems) : Byte := BitVec.ofNat 8 (setBit (Memory.read m.tile g).toNat (pos % 8) (gen = 1))
    let a := 0x100000000 * c.1 + c.2.1 + 128 * pos
    s.modMem (fun m => { m with tile := Memory.write (Memory.writeN m.tile a bytes) g (v m) })) s

/-- The whole side list written to the copies, at the load of an image (06 R190). -/
def copySides (k : Nat) (s : State) : State :=
  match indexAt s k with
  | none => s
  | some x =>
    if x.sideMode then
      (List.range x.sideCap).foldl (fun s i => match x.sides.find? (fun e => e.pos = i) with
        | some e => writeSide k x i (sideBytes s k x e) (x.gen (e.slot / x.perCell)) s
        | none => writeSide k x i emptySide 0 s) s
    else s

/-- The bytes of a log entry (06 R187). -/
def logBytes (e : LogEntry) : Bytes := toLE 4 e.item ++ toLE 1 e.kind ++ toLE 3 0 ++ toLE 8 e.ft ++ toLE 8 e.attrs ++ toLE 8 0

/-- A log ring of an index. -/
def SearchIndex.ringOf (x : SearchIndex) (pc : Nat) : LogRing := KMap.getD x.rings pc {}

/-- An entry put in a log ring; the oldest of 32 is overwritten and raises the horizon (06 R187, R189). -/
def pushLog (pc : Nat) (e : LogEntry) (x : SearchIndex) : SearchIndex :=
  let r := x.ringOf pc
  match r.entries with
  | o :: rest =>
    if 32 ≤ r.entries.length then
      { x with rings := KMap.put x.rings pc ⟨rest ++ [e], r.total + 1⟩, horizon := max x.horizon o.ft }
    else { x with rings := KMap.put x.rings pc ⟨r.entries ++ [e], r.total + 1⟩ }
  | [] => { x with rings := KMap.put x.rings pc ⟨[e], r.total + 1⟩ }

/-- A log entry put in the ring and in its row (06 R187). -/
def writeLog (k pc : Nat) (e : LogEntry) (s : State) : State :=
  match indexAt s k with
  | none => s
  | some x => putIndex k (pushLog pc e x) (writePc pc (x.ring + 32 * ((x.ringOf pc).total % 32)) (logBytes e) s)

/-- Whether the rings take an entry on each pseudo-channel of a list, for the lowest snapshot in flight (06 R189). -/
def ringsTake (x : SearchIndex) (low : Nat) (pcs : List Nat) : Bool :=
  pcs.all (fun pc =>
    let r := x.ringOf pc
    (r.entries.take (r.entries.length + (pcs.filter (· = pc)).length - 32)).all (fun e => e.ft ≤ low))

/-- The accepted queries of a partition whose image names an index. -/
def indexQueries (s : State) (k : Nat) : List Query :=
  s.levee.queries.filter (fun q => q.part = k / 16 && (match (slotAt s q.part q.slot).image with
    | some im => im.stages.any (fun t => t.index = k % 16)
    | none => false))

/-- The lowest snapshot of an index's accepted and uncompleted queries. -/
def lowestSnapshot (s : State) (k : Nat) : Nat := (indexQueries s k).foldl (fun a q => min a q.snapshot) (2 ^ 64)

/-- t_land in ns (06 R182). -/
def landNs (s : State) (p : Nat) : Nat :=
  if s.levee.queries.any (fun q => q.part = p) then 1000 * (rwVal s 0x6100 0x01 40 + 4) else 2000

/-- The commit FT of an update or step of an index (06 R182). -/
def commitFt (s : State) (k : Nat) (x : SearchIndex) : Nat := max (s.clock.ft + landNs s (k / 16)) (max (x.top + 1) (x.last + 1))

/-- Slots whose death the horizon has passed are free, and side entries whose end it has passed are freed (06 R189, R190). -/
def sweepIndex (k : Nat) (s : State) : State :=
  match indexAt s k with
  | none => s
  | some x =>
    let past (t : Option Nat) : Bool := match t with | some d => d ≤ x.horizon | none => false
    let gone := x.items.filter (fun e => past e.2.death)
    let ended := x.sides.filter (fun e => past e.stop)
    let y := { x with items := x.items.filter (fun e => !past e.2.death), sides := x.sides.filter (fun e => !past e.stop) }
    let s := ended.foldl (fun s e => writeSide k x e.pos emptySide 0 s) (putIndex k y s)
    ((gone.map (fun e => e.1 / x.perCell)).eraseDups).foldl (fun s c => writeCell y c s) s

/-- The lowest number from n that is no key of a map from n. -/
def firstGap {α : Type} (m : KMap α) (n : Nat) : Nat :=
  match m with
  | [] => n
  | (j, _) :: r => if j = n then firstGap r (n + 1) else if j < n then firstGap r n else n

/-- A free slot of a cell, the lowest (log 23). -/
def SearchIndex.freeIn (x : SearchIndex) (c : Nat) : Option Nat :=
  let h := firstGap x.items (c * x.perCell)
  if c < x.cells && h < (c + 1) * x.perCell then some h else none

/-- The slot an UPSERT takes, and whether it is misplaced (06 R181). -/
def SearchIndex.reserve (x : SearchIndex) (leaves : List Nat) : Option (Nat × Bool) :=
  match (leaves.take 8).findSome? (fun c => x.freeIn c) with
  | some h => some (h, false)
  | none => let h := firstGap x.items 0; if h < x.slots then some (h, true) else none

/-- The content of a tier object that an index names. -/
def indexTierBytes (s : State) (k sub : Nat) : Bytes :=
  match tierOf s (k / 16) (indexTier s k sub) with
  | some o => (readObj o 0 o.size s).1
  | none => []

/-- The code and refine code of a vector in a cell under a book (06 R168, R180). -/
def encodeItem (s : State) (k : Nat) (x : SearchIndex) (book c : Nat) (v : Bytes) : Bytes × Bytes :=
  let cs := indexTierBytes s k 0x0E
  let pq := indexTierBytes s k (0x10 + book)
  (padTo x.codeSize (Config.pqCode x.fmt x.distance pq cs c v),
   if x.refine then padTo 128 (Config.refineCode x.distance (indexTierBytes s k (0x12 + book)) pq cs c v) else [])

/-- The stored full vector with its norm and scale (06 R172). -/
def vectorBytes (s : State) (k : Nat) (x : SearchIndex) (v : Bytes) : Bytes :=
  let n := x.dims * elementSize x.vfmt
  let sc := rwVal s (indexObj (k / 16) (k % 16)) 0x0D 0x3F800000
  padTo x.stride (padTo n (v.take n) ++
    (if x.distance = 1 || x.vfmt = 3 then toLE 4 (Config.vectorNorm x.vfmt sc v) ++ toLE 4 (if x.vfmt = 3 then sc else 0) else []))

/-- Whether a write-through can be made: no storage die is lost or out of its reserve (19 R542, log 24). -/
def throughOk (s : State) : Bool :=
  (List.range 2).all (fun d => !(dieAt s d).lost && !((dieAt s d).worn && (dieAt s d).reserve ≤ (dieAt s d).reserveUsed))

/-- A commit without write-through counted, the first one recorded (19 R542; 22 R612). -/
def countThrough (s : State) : State :=
  if throughOk s then s
  else
    let s := if countVal s 0xA002 0x04 0 = 0 then
        let d := if (dieAt s 0).lost || (dieAt s 0).worn then 0 else 1
        annal 0x0501 2 ownDevice (srcDie d) (toLE 1 d ++ toLE 1 2 ++ toLE 4 0) s
      else s
    bump 0xA002 0x04 1 s

/-- A range of a namespace patched by SYSTEM, unit by unit (18 R509; 22 R599). -/
def patchSpace (fuel ns off : Nat) (bs : Bytes) (s : State) : State :=
  match fuel with
  | 0 => s
  | f + 1 =>
    if bs.isEmpty then s
    else
      let n := min bs.length (16384 - off % 16384)
      let p := match KMap.find s.mire.spaces ns with | some x => x.owner | none => 32
      patchSpace f ns (off + n) (bs.drop n) (charge p 0x12 n (commitUnit (unitOf s ns off) patchedEntry (off % 16384) (bs.take n) true s))

/-- The oldest update of a partition that waits for its applier (04 R128). -/
def oldestUpdate (s : State) (p : Nat) : Option Update := s.levee.updates.find? (fun u => u.part = p)

/-- An update taken by the applier: it commits at c (06 R182). -/
def takeUpdate (u : Update) (c detail : Nat) (s : State) : State :=
  s.modLevee (fun l => { l with updates := l.updates.filter (fun v => v.id != u.id), committed := l.committed ++ [⟨u, c, detail⟩] })

/-- The item that holds a key now. -/
def SearchIndex.holder (x : SearchIndex) (key : Nat) : Option (Nat × Item) :=
  x.items.find? (fun e => e.2.key = key && e.2.death.isNone)

/-- The pseudo-channels of an interleaved range. -/
def pcsOf (a n : Nat) : List Nat := [(localOf a).1, (localOf (a + n - 1)).1]

/-- The pseudo-channels that writes about a slot touch: its row, refine code, key record, bucket and cell entry. -/
def SearchIndex.touched (x : SearchIndex) (h key : Nat) : List Nat :=
  [x.slotPc h] ++ (if x.refine then pcsOf (x.refines + 128 * h) 128 else []) ++ pcsOf (x.keyRec h) 12
  ++ pcsOf (x.keyHead (keyBucket key x.slots)) 8 ++ pcsOf (x.cellTab + 16 * (h / x.perCell)) 16

/-- The death of an item, or the end of its side entry, at c (06 R180). -/
def endItem (k h : Nat) (it : Item) (c : Nat) (s : State) : State :=
  match indexAt s k with
  | none => s
  | some x =>
    let y := { x with items := KMap.put x.items h { it with death := some c },
                      sides := x.sides.map (fun e => if e.slot = h && e.stop.isNone then { e with stop := some c } else e) }
    let s := putIndex k y s
    if it.side then
      match y.sides.find? (fun e => e.slot = h && e.stop = some c) with
      | some e => writeSide k y e.pos (sideBytes s k y e) (y.gen (h / y.perCell)) s
      | none => s
    else writeLog k (x.slotPc h) ⟨h, 2, c, it.attrs⟩ (writeTomb x h true s)

/-- The slots of a commit in the persistent copy, while a write-through can be made (06 R184, 19 R542). -/
def saveItems (s : State) (hs : List Nat) (x : SearchIndex) : SearchIndex :=
  if throughOk s then
    { x with saved := hs.foldl (fun m h => match KMap.find x.items h with
        | some i => if i.death.isNone then KMap.put m h i else KMap.del m h
        | none => KMap.del m h) x.saved }
  else x

/-- The counts after a commit: the persistent copy, the cell entries of the slots, the last commit, and what the horizon frees (06 R184,
R189). -/
def settleIndex (k : Nat) (hs : List Nat) (c : Nat) (s : State) : State :=
  match indexAt s k with
  | none => s
  | some x =>
    let x := saveItems s hs { x with last := c, stalled := false }
    sweepIndex k (((hs.map (· / x.perCell)).eraseDups).foldl (fun s d => writeCell x d s) (putIndex k x s))

/-- A wait for a log ring: counted once (06 R189). -/
def stallIndex (k : Nat) (x : SearchIndex) (s : State) : State :=
  if x.stalled then s else bump (indexStatus (k / 16) (k % 16)) 0x0F 1 (putIndex k { x with stalled := true } s)

/-- Whether the index state is one that queries and updates see (06 R179). -/
def SearchIndex.usable (x : SearchIndex) : Bool := x.state != .building

/-- An upsert dropped, with its cause: 0 no slot, 1 failed stack (06 R181, 19 R543; 22 R612). -/
def dropRecord (p i cause key : Nat) (s : State) : State :=
  annal 0x0204 2 p srcDevice (toLE 1 i ++ toLE 1 cause ++ toLE 6 0 ++ toLE 8 key) s

/-- A new item in its slot (06 R180). -/
def placeItem (k : Nat) (x : SearchIndex) (h : Nat) (u : Update) (c : Nat) (s : State) : State :=
  let book := x.gen (h / x.perCell)
  let codes := encodeItem s k x book (h / x.perCell) u.payload
  let kept := throughOk s
  let it : Item := ⟨u.desc.w48, u.desc.w40, x.sideMode, c, none, codes.1, codes.2⟩
  let s := if x.refine then writeI (x.refines + 128 * h) codes.2 s else s
  let s := linkKey k x h u.desc.w48 (writeAttrs x h u.desc.w40 s)
  let s := if kept && x.vfmt != 0 then
      patchSpace (x.stride / 16384 + 2) x.space (h * x.stride) (vectorBytes s k x u.payload) s else s
  if x.sideMode then
    let e : SideEntry := ⟨(List.range x.sideCap).find? (fun i => x.sides.all (fun e => e.pos != i)) |>.getD 0, h, c, none, u.desc.w40, codes.1⟩
    let y := { x with items := KMap.put x.items h it, sides := x.sides ++ [e] }
    writeSide k y e.pos (sideBytes s k y e) book (putIndex k y s)
  else
    let s := writeTomb x h false (writePc (x.slotPc h) (x.codeAt h) codes.1 s)
    writeLog k (x.slotPc h) ⟨h, 1, c, u.desc.w40⟩ (putIndex k { x with items := KMap.put x.items h it } s)

/-- Whether a window is open on one of the pseudo-channels: the applier waits (06, Updates). -/
def inWindow (s : State) (pcs : List Nat) : Bool := pcs.any (fun pc => (pcAt s pc).mode = .pnm)

/-- An UPSERT taken by the applier, or waiting (06 R180 to R182, R189, R198; 19 R543). -/
def upsertIndex (u : Update) (s : State) : State :=
  let k := 16 * u.part + u.desc.index
  match (indexAt s k).filter (·.usable) with
  | none => takeUpdate u (s.clock.ft + landNs s u.part) 0 s
  | some x =>
    let c := commitFt s k x
    let old := x.holder u.desc.w48
    if x.sideMode && x.sideCap ≤ x.sides.length then s
    else match x.reserve (Config.nearestLeaves x.distance (indexTierBytes s k 0x0F) (indexTierBytes s k 0x0E) u.payload) with
      | none =>
        if old.isSome || x.items.any (fun e => e.2.death.isSome) then s
        else takeUpdate u c 0 (dropRecord u.part u.desc.index 0 u.desc.w48
          (bump (indexStatus u.part u.desc.index) 0x0B 1 (putIndex k { x with last := c } s)))
      | some (h, misplaced) =>
        let cell (e : Nat × Item) : Bool := !e.2.side
        let logs := (if x.sideMode then [] else [x.slotPc h]) ++ ((old.filter cell).map (fun e => x.slotPc e.1)).toList
        let pcs := x.touched h u.desc.w48 ++ (match old with | some e => x.touched e.1 u.desc.w48 | none => [])
          ++ (if x.sideMode then pcsOf x.sideTab (128 * x.sideCap) else [])
        if pcs.any (fun pc => stackDead s pc) then
          takeUpdate u c 0 (dropRecord u.part u.desc.index 1 u.desc.w48 (bump 0xA002 0x05 1 (putIndex k { x with last := c } s)))
        else if inWindow s pcs then s
        else if !ringsTake x (lowestSnapshot s k) logs then stallIndex k x s
        else
          let s := match old with | some e => unlinkKey k x e.1 u.desc.w48 s | none => s
          let s := placeItem k x h u c s
          let s := match old with | some e => endItem k e.1 e.2 c s | none => s
          let s := if misplaced then bump (indexStatus u.part u.desc.index) 0x0A 1 s else s
          takeUpdate u c 0 (settleIndex k ([h] ++ (old.map (·.1)).toList) c (countThrough s))

/-- A DELETE taken by the applier, or waiting (06 R180, R182, R189). -/
def deleteIndex (u : Update) (s : State) : State :=
  let k := 16 * u.part + u.desc.index
  match (indexAt s k).filter (·.usable) with
  | none => takeUpdate u (s.clock.ft + landNs s u.part) 0 s
  | some x =>
    let c := commitFt s k x
    match x.holder u.desc.w48 with
    | none => takeUpdate u c 1 (putIndex k { x with last := c } s)
    | some e =>
      let pcs := x.touched e.1 u.desc.w48
      if pcs.any (fun pc => stackDead s pc) then
        takeUpdate u c 0 (dropRecord u.part u.desc.index 1 u.desc.w48 (bump 0xA002 0x05 1 (putIndex k { x with last := c } s)))
      else if inWindow s pcs then s
      else if !e.2.side && !ringsTake x (lowestSnapshot s k) [x.slotPc e.1] then stallIndex k x s
      else takeUpdate u c 0 (settleIndex k [e.1] c (countThrough (endItem k e.1 e.2 c (unlinkKey k x e.1 u.desc.w48 s))))

/-- The oldest update of a partition applied when it is an UPSERT (06 R180). -/
def execUpsertApply (part : Nat) (s : State) : Host.Outcome State Fault Refusal :=
  match oldestUpdate s part with
  | some u => if u.desc.opcode = 0x10 && mainOn s then .next (settle (upsertIndex u s)) else .next s
  | none => .next s

/-- The oldest update of a partition applied when it is a DELETE (06 R180). -/
def execDeleteApply (part : Nat) (s : State) : Host.Outcome State Fault Refusal :=
  match oldestUpdate s part with
  | some u => if u.desc.opcode = 0x11 && mainOn s then .next (settle (deleteIndex u s)) else .next s
  | none => .next s

/-- An update that waited for a log ring goes on once the lowest snapshot in flight allows the overwrite (06 R189). -/
def execLogRingWaitEnd (part : Nat) (s : State) : Host.Outcome State Fault Refusal :=
  match oldestUpdate s part with
  | some u =>
    if mainOn s && (indexAt s (16 * part + u.desc.index)).any (·.stalled) then
      if u.desc.opcode = 0x10 then .next (settle (upsertIndex u s))
      else if u.desc.opcode = 0x11 then .next (settle (deleteIndex u s)) else .next s
    else .next s
  | none => .next s

/-- One side entry folded into its slot (06 R197). -/
def foldEntry (k c : Nat) (e : SideEntry) (s : State) : State :=
  match indexAt s k with
  | none => s
  | some x =>
    let pc := x.slotPc e.slot
    let done := { e with stop := some c }
    let y := { x with sides := x.sides.map (fun f => if f.pos = e.pos then done else f),
                      items := KMap.modify x.items e.slot (fun i => { i with side := false }) }
    let s := writeTomb x e.slot false (writePc pc (x.codeAt e.slot) e.code s)
    let s := writeSide k y e.pos (sideBytes s k y done) (y.gen (e.slot / y.perCell)) (putIndex k y s)
    writeLog k pc ⟨e.slot, 3, c, e.attrs⟩ s

/-- An entry put in birth order. -/
def insertBirth (e : SideEntry) (l : List SideEntry) : List SideEntry :=
  match l with
  | [] => [e]
  | f :: r => if e.birth < f.birth then e :: l else f :: insertBirth e r

/-- The open side entries in birth order (06 R197). -/
def SearchIndex.openSides (x : SearchIndex) : List SideEntry :=
  (x.sides.filter (fun e => e.stop.isNone)).foldl (fun a e => insertBirth e a) []

/-- The entries a step folds: at most 16 on a pseudo-channel, none on a failed one (06 R197). -/
def foldPicks (s : State) (x : SearchIndex) : List SideEntry :=
  (x.openSides.foldl (fun (a : List SideEntry × List Nat) e =>
    let pc := x.slotPc e.slot
    if stackDead s pc || (pcAt s pc).failed || 16 ≤ (a.2.filter (· = pc)).length then a else (a.1 ++ [e], a.2 ++ [pc])) ([], [])).1

/-- One item of a cell re-encoded in place from its full vector (06 R199). -/
def reencode (k book : Nat) (e : Nat × Item) (s : State) : State :=
  match indexAt s k with
  | none => s
  | some x =>
    let r := spaceBytes (x.stride / 16384 + 2) s x.space (e.1 * x.stride) x.stride
    let codes := encodeItem s k x book (e.1 / x.perCell) (r.1.take (x.dims * elementSize x.vfmt))
    let s := r.2
    let y := { x with items := KMap.put x.items e.1 { e.2 with code := codes.1, refine := codes.2 },
                      sides := x.sides.map (fun f => if f.slot = e.1 then { f with code := codes.1 } else f) }
    let s := putIndex k y (if x.refine then writeI (x.refines + 128 * e.1) codes.2 s else s)
    if e.2.side then
      match y.sides.find? (fun f => f.slot = e.1) with
      | some f => writeSide k y f.pos (sideBytes s k y f) book s
      | none => s
    else writePc (x.slotPc e.1) (x.codeAt e.1) codes.1 s

/-- The next cells of a re-index re-encoded and flipped; after the last the other book is in force (06 R199). -/
def reindexStep (k : Nat) (s : State) : State :=
  match indexAt s k with
  | none => s
  | some x =>
    if x.state = .reindexing then
      let n := min x.cells (x.progress + rwVal s (indexObj (k / 16) (k % 16)) 0x16 1024)
      let cs := (List.range (n - x.progress)).map (· + x.progress)
      let s := cs.foldl (fun s c => (x.cellItems c).foldl (fun s e => reencode k (1 - x.book) e s) s) s
      match indexAt s k with
      | none => s
      | some y =>
        let y := saveItems s (cs.flatMap (fun c => (y.cellItems c).map (·.1))) y
        let done := x.cells ≤ n
        let z := if done then { y with state := .ready, book := 1 - x.book, progress := n } else { y with progress := n }
        let s := cs.foldl (fun s c => writeCell z c s) (putIndex k z s)
        if done && !x.sideMode then cancelEntry (harvestNo (k / 16) (k % 16)) s else s
    else s

/-- A HARVEST firing runs one step: open side entries fold, and a re-index goes on, at one commit FT. A step waits for open
windows and for the log rings like an update (06 R196 to R199). -/
def execHarvestStep (part index : Nat) (s : State) : Host.Outcome State Fault Refusal :=
  let k := 16 * part + index
  let n := harvestNo part index
  match firingOf s n with
  | none => .next s
  | some _ =>
    match (indexAt s k).filter (·.usable) with
    | none => .next (actedFiring n s)
    | some x =>
      let picks := foldPicks s x
      let pcs := picks.map (fun e => x.slotPc e.slot)
      if inWindow s (pcs ++ (if x.state = .reindexing then List.range 512 else [])) then .next s
      else if !ringsTake x (lowestSnapshot s k) pcs then .next (stallIndex k x s)
      else
        let c := commitFt s k x
        let s := picks.foldl (fun s e => foldEntry k c e s) s
        let s := settleIndex k (picks.map (·.slot)) c (reindexStep k s)
        .next (settle (bump (indexStatus part index) 0x11 1 (actedFiring n s)))

/-- The regions of an index in bytes, in the order of R177, each rounded to granules (06 R177). -/
def SearchIndex.regions (x : SearchIndex) : List Nat :=
  [x.cells * x.rows * 1024, if x.refine then x.slots * 128 else 0, 65 * 512 * x.groups * 1024, x.slots * 20, x.cells * 16,
   512 * 1024, if x.sideMode then x.sideCap * 128 else 0].map (fun n => roundUp n 4096)

/-- The index of the attributes in force (06 R167). -/
def indexDraft (s : State) (k : Nat) : SearchIndex :=
  let v (sub d : Nat) : Nat := rwVal s (indexObj (k / 16) (k % 16)) sub d
  { state := .building, distance := v 3 0, dims := v 4 256, fmt := v 5 1, refine := v 6 1 = 1, vfmt := v 7 1, sideMode := v 8 0 = 1,
    cells := v 9 1, rows := v 0xA 1, sideCap := v 0xB 2048, space := v 0x14 0, bands := 0, codes := 0, ring := 0, refines := 0,
    keys := 0, cellTab := 0, sideTab := 0, claimed := 0 }

/-- Whether the attributes keep R167 and the slot total R169. -/
def geometryOk (s : State) (k : Nat) (x : SearchIndex) : Bool :=
  let np := rwVal s (indexObj (k / 16) (k % 16)) 0x0C 128
  x.distance ≤ 2 && 128 ≤ x.dims && x.dims ≤ 1024 && x.dims % 128 = 0 && (x.fmt = 1 || x.fmt = 2) && x.vfmt ≤ 3
  && 1 ≤ x.cells && x.cells ≤ 2 ^ 20 && 1 ≤ x.rows && x.rows ≤ 512 && (!x.sideMode || (64 ≤ x.sideCap && x.sideCap ≤ 16384))
  && 1 ≤ np && np ≤ 1024 && np ≤ x.cells && x.slots < 2 ^ 32

/-- Whether a tier object named by an index exists (06 R178 TIER; its stated size is in no rule, log 22). -/
def indexTierOk (s : State) (k sub : Nat) : Bool := (tierOf s (k / 16) (indexTier s k sub)).isSome

/-- A region of an index claimed at the lowest place that fits (06 R177, 08 R236, log 21). -/
def claimRun (k size align : Nat) (r : Option (List Nat × State)) : Option (List Nat × State) :=
  match r with
  | none => none
  | some (l, s) =>
    if size = 0 then some (l ++ [0], s)
    else match carrPlace s size align with
      | none => none
      | some a => some (l ++ [a], addRegion ⟨1, 0, a, size, k / 16, .index k⟩ s)

/-- The bytes of 504 data rows of 1,024 bytes in each of 16 banks: what one granule of a bitmap band takes of a pseudo-channel. -/
def indexBand : Nat := 504 * 16384

/-- The regions of an index placed: codes with the log ring, refine codes, bitmaps, keys, cell table, side list. -/
def placeIndex (k : Nat) (x : SearchIndex) (s : State) : Option (SearchIndex × State) :=
  let cs := roundUp ((x.localRows + 1) * 1024) 16384
  let g (n : Nat) : Nat := nth x.regions n 0
  (claimRun k (g 6) 4096 (claimRun k (g 4) 4096 (claimRun k (g 3) 4096 (claimRun k (512 * indexBand * ceilDiv x.groups 112) (512 * indexBand)
      (claimRun k (g 1) 4096 (claimRun k (512 * cs) (512 * 16384) (some ([], s)))))))).map (fun r =>
    let l := r.1
    let c := nth l 0 0 / 512
    ({ x with codes := c, ring := c + 1024 * x.localRows, refines := nth l 1 0, bands := nth l 2 0 / 512 / indexBand, keys := nth l 3 0,
              cellTab := nth l 4 0, sideTab := nth l 5 0, claimed := x.regions.foldl (· + ·) 0 }, r.2))

/-- The objects that stand for an index's regions (14 R387, role 0x03). -/
def indexObjects (k : Nat) (s : State) : State :=
  (s.claims.regions.filter (fun r => r.use = .index k)).foldl (fun s r =>
    match freeNumber s (k / 16) with
    | none => s
    | some n =>
      let o : TierObj := { tier := 3, size := r.size, place := k % 16, offset := 0, base := r.base, role := 3 }
      modTiers (fun t => { t with objs := KMap.put t.objs (tierId (k / 16) n) o }) s) s

/-- Every slot tombstoned, every bucket empty, every side position empty (06 R175, R176). -/
def blankIndex (k : Nat) (x : SearchIndex) (s : State) : State :=
  let s := (List.range (x.cells * x.rows)).foldl (fun s g =>
    writePc (rowPc g) (x.bitAt (g * x.perRow) 64).1 (List.replicate (x.perRow / 8) 0xFF) s) s
  let s := writeI (x.keyHead 0) (List.replicate (8 * x.slots) 0xFF) s
  let s := (List.range x.cells).foldl (fun s c => writeCell x c s) s
  if x.sideMode then (List.range x.sideCap).foldl (fun s i => writeSide k x i emptySide 0 s) s else s

/-- The refusal code of an index command, with its status: STATE for IN_USE, RANGE for the others (06 R178, 02 R624). -/
def indexResult (k code : Nat) (s : State) : Status × State :=
  (if code = 0 then .ok else if code = 6 then .state else .range, setCount (indexObj (k / 16) (k % 16)) 0x17 code s)

/-- The device states in which CREATE, SEAL and REINDEX are accepted (06 R176). -/
def buildState (s : State) : Bool := s.dev.state = .config || s.dev.state = .serving

/-- CREATE of an index (06 R176 to R178). -/
def indexCreate (k : Nat) (s : State) : Status × State :=
  let p := k / 16
  let x := indexDraft s k
  let need := x.regions.foldl (· + ·) 0
  if (indexAt s k).isSome || !buildState s then (.state, s)
  else if !geometryOk s k x then indexResult k 1 s
  else if !indexTierOk s k 0x0E || !indexTierOk s k 0x0F || !indexTierOk s k 0x10 || (x.refine && !indexTierOk s k 0x12) then
    indexResult k 2 s
  else if 1048576 * rwVal s (0x3000 + 0x10 * p) 0x04 0 < partCarr s p + need then indexResult k 3 s
  else if carrAllocatable s < carrCommitted s + need then indexResult k 4 s
  else if !(match KMap.find s.mire.spaces x.space with
      | some n => n.owner = p && x.slots * x.stride + need ≤ 16384 * n.size
      | none => false) then indexResult k 5 s
  else match placeIndex k x s with
    | none => indexResult k 4 s
    | some (y, t) =>
      let t := [0x09, 0x0A, 0x0B, 0x0F, 0x10, 0x11].foldl (fun t n => setCount (indexStatus p (k % 16)) n 0 t) t
      indexResult k 0 (indexObjects k (blankIndex k y (putIndex k y t)))

/-- A live slot of a built index as an item, when a lookup of its key finds it (06 R178 BUILD, R179). -/
def builtItem (s : State) (x : SearchIndex) (ft h : Nat) : Option (Option (Nat × Item)) :=
  let b := x.bitAt h 64
  if bit (Memory.read s.mem.carr (dramKey (x.slotPc h) b.1)).toNat b.2 then some none
  else
    let key := leNat (readI s (x.keyRec h) 8)
    if chainFind (x.slots + 1) s x (bucketFirst s x (keyBucket key x.slots)) key = some h then
      some (some (h, ⟨key, readAttrs s x h, false, ft, none, Memory.readN s.mem.carr (dramKey (x.slotPc h) (x.codeAt h)) x.codeSize,
        if x.refine then readI s (x.refines + 128 * h) 128 else []⟩))
    else none

/-- The built items of an index, none where some live slot has no proper key record. -/
def builtItems (fuel : Nat) (s : State) (x : SearchIndex) (ft h : Nat) : Option (KMap Item) :=
  match fuel with
  | 0 => some []
  | f + 1 =>
    match builtItem s x ft h, builtItems f s x ft (h + 1) with
    | some (some e), some r => some (e :: r)
    | some none, some r => some r
    | _, _ => none

/-- SEAL of an index (06 R176, R178, R179, R196). -/
def indexSeal (k : Nat) (s : State) : Status × State :=
  match indexAt s k with
  | none => (.state, s)
  | some x =>
    if x.state != .building || !buildState s then (.state, s)
    else match builtItems x.slots s x s.clock.ft 0 with
      | none => indexResult k 8 s
      | some l =>
        let y := { x with state := .ready, items := l, saved := l, horizon := s.clock.ft, last := s.clock.ft }
        let s := (List.range x.cells).foldl (fun s c => writeCell y c s) (putIndex k y s)
        let s := if x.sideMode then
            placeChain (harvestNo (k / 16) (k % 16)) 0x04 (256 * (k / 16) + k % 16)
              (rwVal s (indexObj (k / 16) (k % 16)) 0x15 16384) (k / 16) 0 s
          else s
        indexResult k 0 s

/-- Whether a stage of a slot that holds resources names an index (06 R178). -/
def indexUsed (s : State) (k : Nat) : Bool :=
  (residents s).any (fun r => r.1 / 4 = k / 16 && r.2.2.stages.any (fun t => t.index = k % 16))

/-- DESTROY of an index (06 R176, R178; 03 R84). -/
def indexDestroy (k : Nat) (s : State) : Status × State :=
  if (indexAt s k).isNone || !(buildState s || s.dev.state = .recovery) then (.state, s)
  else if indexUsed s k then indexResult k 6 s
  else
    let s := releaseRegions (.index k) (cancelEntry (harvestNo (k / 16) (k % 16)) s)
    let s := modTiers (fun t => { t with objs := t.objs.filter (fun e => !(e.2.role = 3 && e.1 / 65536 = k / 16 && e.2.place = k % 16)) }) s
    indexResult k 0 (s.modData (fun d => { d with indices := KMap.del d.indices k }))

/-- REINDEX of an index (06 R176, R178, R199). -/
def indexReindex (k : Nat) (s : State) : Status × State :=
  match indexAt s k with
  | none => (.state, s)
  | some x =>
    if x.state != .ready || !buildState s then (.state, s)
    else if !indexTierOk s k (0x10 + (1 - x.book)) || (x.refine && !indexTierOk s k (0x12 + (1 - x.book))) then indexResult k 2 s
    else if x.vfmt = 0 then indexResult k 7 s
    else
      let s := putIndex k { x with state := .reindexing, progress := 0 } s
      let n := harvestNo (k / 16) (k % 16)
      let s := if (entryAt s n).isSome then s else
        placeChain n 0x04 (256 * (k / 16) + k % 16) (rwVal s (indexObj (k / 16) (k % 16)) 0x15 16384) (k / 16) 0 s
      indexResult k 0 s

/-- b_rows of a code format (06 R193). -/
def rowBudget (s : State) (fmt : Nat) : Nat := (1000 * rwVal s 0x6100 0x01 40 - 5120) / (if fmt = 2 then 16 else 32)

/-- The bitmap group map of an index: for each pseudo-channel, 4 bytes a local bitmap row (08 OD 0x6110). -/
def groupMap (x : SearchIndex) : Bytes :=
  let one := (List.range x.groups).flatMap (fun g =>
    let a := x.groupAt g
    toLE 4 (65536 * (504 * a.2.1 + a.2.2) + 4096 * a.1))
  (List.replicate 512 one).flatten

/-- A work-list entry before its allowed index: pseudo-channel, query, local address of the code row, its first 14 bytes. -/
def probeEntries (x : SearchIndex) (kind probe : Nat) : List (Nat × Nat × Nat × Bytes) :=
  let c := bits probe 19 0
  let q := bits probe 31 24
  if x.cells ≤ c then []
  else (List.range x.rows).map (fun i =>
    let g := c * x.rows + i
    let j := g / 512
    let a := x.groupAt (j / x.perGroup)
    let b := if kind = 1 then toLE 4 (x.codes + 1024 * j) ++ toLE 4 (g * x.perRow) ++ toLE 4 (bits probe 63 32)
      else toLE 4 (65536 * a.1 + 512 * a.2.1 + a.2.2) ++ toLE 4 (g * x.perRow) ++ toLE 4 (j % x.perGroup * x.perRow / 16)
    (rowPc g, q, x.codes + 1024 * j, b ++ [BitVec.ofNat 8 q, BitVec.ofNat 8 (b2n (bit probe 23))]))

/-- An entry put in the order of query, then local address (09 R270). -/
def insertProbe (e : Nat × Nat × Nat × Bytes) (l : List (Nat × Nat × Nat × Bytes)) : List (Nat × Nat × Nat × Bytes) :=
  match l with
  | [] => [e]
  | f :: r => if e.2.1 < f.2.1 || (e.2.1 = f.2.1 && e.2.2.1 < f.2.2.1) then e :: l else f :: insertProbe e r

/-- The size of one batch's area in the stage store and the number of areas of a FILTER or SCAN stage (09 R269). -/
def storeArea (s : State) (scan : Bool) (fmt bq tSlot : Nat) : Nat × Nat :=
  let st := if fmt = 2 then 16384 else 1024
  (64 + 16 * rowBudget s fmt + 8 * bq + (if scan then 2 * bq * (st + 4) else 64 * bq), ceilDiv (rwVal s 0x6100 0x01 40) tSlot + 1)

/-- The size of a FILTER stage's allowed area and the number of areas (08 R251). -/
def ringArea (s : State) (im : Image) (stage fmt tSlot : Nat) : Nat × Nat :=
  let scan := ((List.range im.stages.length).find? (fun j => stage < j && (nth im.stages j {}).kind = 5
    && (nth im.stages j {}).index = (nth im.stages stage {}).index)).getD stage
  (ceilDiv (rowBudget s fmt * (if fmt = 2 then 2 else 4)) 64 * 64, ceilDiv (2 * rwVal s 0x6100 0x01 40) tSlot + (scan - stage) + 1)

/-- The FILTER stage whose allowed areas a stage uses: itself, or the FILTER before a SCAN on the same index. -/
def filterStage (im : Image) (stage : Nat) : Option Nat :=
  let t := nth im.stages stage {}
  if t.kind = 4 then some stage
  else (List.range stage).reverse.find? (fun j => (nth im.stages j {}).kind = 4 && (nth im.stages j {}).index = t.index)

/-- The scratch address of a batch's allowed area, 0 for a SCAN without a FILTER. -/
def allowedArea (s : State) (sl : Slot) (im : Image) (stage fmt batch : Nat) : Nat :=
  match filterStage im stage with
  | none => 0
  | some f =>
    let a := ringArea s im f fmt sl.tSlot
    let base := match sl.rings.find? (fun e => e.1 = f) with | some e => e.2.1 | none => 0
    0x80000000 + base + batch % a.2 * a.1

/-- A stage's probe list reaches the base dies: the expander writes one work list per core into the batch's area, with the
header the tiles sent; entries past b_rows are dropped and counted (09 R270 to R272). -/
def execProbeListWrite (part slot stage batch : Nat) (header : Bytes) (probes : List Nat) (s : State) : Host.Outcome State Fault Refusal :=
  let sl := slotAt s part slot
  match sl.image with
  | none => .next s
  | some im =>
    let t := nth im.stages stage {}
    match (indexAt s (16 * part + t.index)).filter (·.usable), windowKind t.kind with
    | some x, some kind =>
      if !sl.state.holds || 16 ≤ t.index then .next s
      else
        let a := storeArea s (kind = 1) x.fmt im.bq sl.tSlot
        let base := (match sl.stores.find? (fun e => e.1 = stage) with | some e => e.2.1 | none => 0) + batch % a.2 * a.1
        let es := probes.flatMap (probeEntries x kind)
        .next ((windowPcs s).foldl (fun s pc =>
          let l := (es.filter (fun e => e.1 = pc)).foldl (fun l e => insertProbe e l) []
          let n := min l.length (rowBudget s x.fmt)
          let h := toLE 4 n ++ slice header 4 12 ++ toLE 4 (allowedArea s sl im stage x.fmt batch) ++ toLE 4 x.ring ++ slice header 24 40
          let body := ((l.take n).zip (List.range n)).flatMap (fun e => e.1.2.2.2 ++ toLE 2 e.2)
          let key := 0x100000 * pc + base
          let s := (s.modMem (fun m => { m with stage := Memory.writeN m.stage key (h ++ body) })).modCarr
            (fun c => { c with stageBad := markPoison 4 c.stageBad key (h ++ body).length false })
          if n < l.length then bump 0x6100 0x0D (l.length - n) s else s) s)
    | _, _ => .next s

end Sys2Proof.Machine
end

