-- ==== Sys2Proof/Machine/Causeway.lean ====
section
/-! DEFINITION. Causeway: ports, lane lock, link retry, credits, routing and lane moves (16 R434 to R462). -/

namespace Sys2Proof.Machine

open Sys2Proof

/-- A Causeway port. -/
def portAt (s : State) (n : Nat) : FabPort := KMap.getD s.fab.ports n {}

/-- The state with one port changed. -/
def modPort (n : Nat) (f : FabPort → FabPort) (s : State) : State :=
  s.modFab (fun c => { c with ports := KMap.upd c.ports n {} f })

/-- The node identifier (16 OD 0x7000.01). -/
def nodeId (s : State) : Nat := rwVal s 0x7000 0x01 0xFFFFFFFF

/-- Whether a port is enabled (16 OD 0x7100 + n .13). -/
def portEnabled (s : State) (n : Nat) : Bool := rwVal s (0x7100 + n) 0x13 1 = 1

/-- Whether an engine has light (16 R436). -/
def engineLit (s : State) (e : Nat) : Bool := countVal s (0x7180 + e) 0x02 0 != 0

/-- A port event traced (22 R604 code 0x09). -/
def tracePort (n arg : Nat) (s : State) : State :=
  let p := portAt s n
  trace 0x09 ownSystem (srcEngine (n / 8)) (toLE 1 n ++ toLE 1 p.state ++ toLE 1 p.cause ++ toLE 1 arg) s

/-- A port given a state with no cause to record. -/
def setPort (n st : Nat) (s : State) : State := tracePort n 0 (modPort n (fun p => { p with state := st }) s)

/-- A port that goes DOWN or FAILED with a cause: from UP its replay and receive buffers are lost and counted (16 R451). -/
def dropPort (n st cause : Nat) (s : State) : State :=
  let p := portAt s n
  let lost := if p.state = 3 then (p.replay.filter (fun e => e.flit.isSome)).length + p.held.length else 0
  let s := modPort n (fun p => { p with
    state := st, cause := cause, replay := [], held := [], locks := List.replicate 10 {}, nak := none, nakDue := false,
    authBad := 0, sealBad := [], hold := false, nakked := false, offered := none, wants := [], cmdOut := [], cmdIn := [], vigil := 0 }) s
  let s := if 0 < p.vigil then actedFiring 5 (visitSkipped s) else s
  let s := bump (0x7100 + n) 0x0E lost s
  tracePort n 0 (if p.state = st then s else annal 0x0701 2 ownDevice (srcEngine (n / 8)) (toLE 1 n ++ toLE 1 cause) s)

/-- The hash of R175 before it is scaled to a bucket (16 R457). -/
def keyHash (key : Nat) : Nat :=
  let a := key % 2 ^ 64 ^^^ (key % 2 ^ 64 / 2 ^ 33)
  let b := a * 0xFF51AFD7ED558CCD % 2 ^ 64
  b ^^^ (b / 2 ^ 33)

/-- Where a flit goes (16 R457). -/
inductive Route where
  | deliver
  | port (n : Nat)
  | drop
deriving DecidableEq, Repr

/-- The table entry that a destination names (16 R457). -/
def routeEntry (s : State) (dst : Nat) : Nat × Bool :=
  let own := nodeId s % 2 ^ 17 / 256 = dst / 256
  (leAt (if own then rwDom s 0x7001 0x02 [] else rwDom s 0x7001 0x01 []) (4 * (if own then dst % 256 else dst / 256)) 4, own)

/-- The port of a flit, by the hash, then the next listed port that is UP (16 R457). -/
def routeOfFlit (s : State) (f : Flit) : Route :=
  let r := routeEntry s f.dst
  let e := r.1
  if !bit e 31 then .drop
  else if r.2 && bit e 30 then .deliver
  else
    let n := bits e 29 28 + 1
    let h := keyHash (f.src * 2 ^ 19 + f.dst * 4 + f.cls)
    match ((List.range n).map (fun i => bits e (6 * ((h + i) % n) + 5) (6 * ((h + i) % n)))).find? (fun p => (portAt s p).state = 3) with
    | some p => .port p
    | none => .drop

/-- A flit delivered to this node (16 R460; 22 R599). -/
def deliverFlit (f : Flit) (s : State) : State :=
  charge f.owner 0x14 256 (s.modFab (fun c => { c with inbox := c.inbox ++ [f] }))

/-- A flit routed: delivered, queued at a port, or dropped and counted (16 R457). `hops` counts the links it has crossed. -/
def routeFlit (f : Flit) (s : State) : State :=
  match routeOfFlit s f with
  | .drop => bump 0x7000 0x0D 1 s
  | .deliver => deliverFlit f s
  | .port p =>
    if rwVal s 0x7000 0x05 4 < f.hops + 1 then bump 0x7000 0x0E 1 s
    else modPort p (fun q => { q with queue := q.queue ++ [f] }) s

/-- A flit originated here: the device stamps source and owner (16 R445; 22 R599). -/
def sendFlit (type cls dst owner tag : Nat) (last : Bool) (data : Bytes) (s : State) : State :=
  routeFlit { type := type, cls := cls, dst := dst, src := nodeId s % 2 ^ 17, owner := owner, hops := 0, tag := tag, last := last, data := data } s

/-- Bytes cut into pieces with their offsets. -/
def pieces (fuel n off : Nat) (bs : Bytes) : List (Nat × Bytes × Bool) :=
  match fuel with
  | 0 => []
  | k + 1 => if bs.length ≤ n then [(off, bs, true)] else (off, bs.take n, false) :: pieces k n (off + n) (bs.drop n)

/-- A fresh request tag. -/
def freshTag (s : State) : Nat × State := (s.fab.nextTag, s.modFab (fun c => { c with nextTag := (c.nextTag + 1) % 65536 }))

/-- A message of 224-byte pieces, each with the transaction header of R462; `hdr` gives bytes 0 to 7 and 15. -/
def sendMessage (type cls dst owner tag : Nat) (low : Bytes) (base status tab : Nat) (data : Bytes) (s : State) : State :=
  (pieces (data.length / 224 + 1) 224 base data).foldl (fun s p =>
    sendFlit type cls dst owner tag p.2.2
      (padTo 8 low ++ toLE 4 p.1 ++ toLE 2 p.2.1.length ++ toLE 1 status ++ toLE 1 tab ++ p.2.1) s) s

/-- A flit released from a port's receive buffers: its class's credit returns, and it is routed or dropped (16 R445, R454). -/
def releaseFlit (n : Nat) (f : Flit) (s : State) : State :=
  let s := modPort n (fun p => { p with freed := p.freed.modify f.cls (· + 1) }) s
  if f.src = nodeId s % 2 ^ 17 then bump 0x7000 0x0E 1 s else routeFlit { f with hops := f.hops + 1 } s

/-- The lock machine after one frame: 1 a correct sync at the expected position, 2 one found elsewhere, 0 none (16 R441). -/
def LaneLock.next (k : LaneLock) (sync : Nat) : LaneLock :=
  if k.phase = 0 then (if sync = 0 then k else ⟨1, 1⟩)
  else if k.phase = 1 then (if sync != 1 then ⟨0, 0⟩ else if k.count < 3 then ⟨1, k.count + 1⟩ else ⟨2, 0⟩)
  else if sync = 1 then ⟨2, 0⟩ else if k.count < 2 then ⟨2, k.count + 1⟩ else ⟨0, 0⟩

/-- The wavelength that carries a logical lane. -/
def waveOf (lanes : List Nat) (l : Nat) : Option Nat := (List.range 10).find? (fun w => nth lanes w 15 = l)

/-- Whether all eight active lanes of a port are in SYNC. -/
def lanesLocked (p : FabPort) : Bool :=
  (List.range 8).all (fun l => match waveOf p.lanes l with | some w => (nth p.locks w {}).phase = 2 | none => false)

/-- The lowest healthy spare-role wavelength of a port. (log 96, DEDUCED.) -/
def spareWave (p : FabPort) : Option Nat := (List.range 10).find? (fun w => nth p.lanes w 15 = 8)

/-- A lane move asked for, one at a time; without a healthy spare the port goes DOWN (16 R452, R453). -/
def askMove (n lane old : Nat) (bad : Bool) (cause : Nat) (s : State) : State :=
  let p := portAt s n
  if p.state != 3 || p.offered.any (fun m => m.lane = lane) || p.wants.any (fun m => m.lane = lane) then s
  else match spareWave p with
    | none => if bad then dropPort n 0 5 s else s
    | some w =>
      if p.offered.isSome then modPort n (fun p => { p with wants := p.wants ++ [⟨lane, old, 0, bad, cause⟩] }) s
      else tracePort n (16 * lane + w) (modPort n (fun p =>
        { p with offered := some ⟨lane, old, w, bad, cause⟩, cmdOut := p.cmdOut ++ [(1, 16 * lane + w)] }) s)

/-- The next lane move that waits is asked for. -/
def nextMove (n : Nat) (s : State) : State :=
  match (portAt s n).wants with
  | [] => s
  | m :: r => askMove n m.lane m.old m.bad m.cause (modPort n (fun p => { p with wants := r }) s)

/-- The receiver switches a lane to its spare once the spare is locked: SWITCHED is sent, the old wavelength is spare or failed,
and the move is counted and recorded (16 R452, 19 R535). -/
def switchLane (n : Nat) (s : State) : State :=
  let p := portAt s n
  match p.offered with
  | none => s
  | some m =>
    if nth p.lanes m.dest 15 = 8 && (nth p.locks m.dest {}).phase = 2 then
      let s := modPort n (fun p => { p with
        lanes := setAt (setAt p.lanes m.old (if m.bad then 15 else 8)) m.dest m.lane, since := setAt p.since m.dest s.clock.now,
        cmdOut := p.cmdOut ++ [(2, 16 * m.lane + m.dest)] }) s
      let u := 10 * (n % 8)
      let s := spareSwitch 9 m.lane (u + m.old) (u + m.dest) m.cause 0 (srcEngine (n / 8)) s
      tracePort n (16 * m.lane + m.dest) (bump (0x7100 + n) 0x0D 1 s)
    else s

/-- The blocks that hold the bits of a flit slot (16 R438). -/
def slotBlocks (k : Nat) : List Nat :=
  let a := (16 + 208 * k) / 264
  (List.range ((16 + 208 * k + 207) / 264 - a + 1)).map (· + a)

/-- Whether a flit slot is good (16 R440); a block with more than four symbol errors is uncorrectable (R438). -/
def slotGood (blocks : List Nat) (k : Nat) (r : RxSlot) : Bool := r.crc && (slotBlocks k).all (fun b => nth blocks b 0 ≤ 4)

/-- The receiver asks again from the sequence it expects: one NAK until that sequence arrives or 10 µs pass (16 R449). -/
def raiseNak (n : Nat) (s : State) : State :=
  modPort n (fun p =>
    if p.nak.any (fun k => k.1 = p.expected) then p else { p with nak := some (p.expected, s.clock.now), nakDue := true }) s

/-- One flit slot received: a reserved type is dropped and counted; a good flit in sequence is held for its seal; any other is
discarded with a NAK (16 R444, R448, R449). -/
def takeSlot (n : Nat) (blocks : List Nat) (k : Nat) (r : RxSlot) (s : State) : State :=
  let p := portAt s n
  let decoded := (slotBlocks k).all (fun b => nth blocks b 0 ≤ 4)
  let s := if decoded && !r.crc then bump (0x7100 + n) 0x09 1 s else s
  if !slotGood blocks k r then raiseNak n s
  else if 0xC ≤ r.flit.type then bump (0x7100 + n) 0x0F 1 s
  else if r.flit.type < 2 || r.flit.type = 0xB then s
  else if r.seq = p.expected % 4096 then
    modPort n (fun p => { p with expected := p.expected + 1, held := p.held ++ [r.flit],
                                 nak := if p.nak.any (fun k => k.1 = p.expected) then none else p.nak }) s
  else raiseNak n s

/-- A frame arrives: its wavelengths' syncs (1 at the expected position, 2 elsewhere), the symbol errors of each wavelength and
block, and its five flit slots. It is decoded only with all eight active lanes in SYNC and within the skew; a lane that leaves
SYNC asks for a move (16 R437 to R442, R449, R452). -/
def execFrameReceive (port : Nat) (skewOk : Bool) (syncs errs blocks : List Nat) (rx : List (Option RxSlot)) (s : State) :
    Host.Outcome State Fault Refusal :=
  let p := portAt s port
  if p.state = 0 || p.state = 4 || 64 ≤ port then .next s
  else
    let locks := (List.range 10).map (fun w => (nth p.locks w {}).next (nth syncs w 0))
    let s := modPort port (fun p => { p with
      locks := locks, errs := (List.range 10).map (fun w => nth p.errs w 0 + nth errs w 0) }) s
    let left := (List.range 8).filterMap (fun l => match waveOf p.lanes l with
      | some w => if (nth p.locks w {}).phase = 2 && (nth locks w {}).phase != 2 then some (l, w) else none
      | none => none)
    let s := left.foldl (fun s e => askMove port e.1 e.2 true 4 s) s
    let s := switchLane port s
    let q := portAt s port
    if !(lanesLocked q && skewOk) then .next (settle s)
    else
      let s := bump (0x7100 + port) 0x06 (errs.foldl (· + ·) 0) s
      let s := bump (0x7100 + port) 0x07 ((blocks.take 4).filter (fun b => 0 < b && b ≤ 4)).length s
      let s := bump (0x7100 + port) 0x08 ((blocks.take 4).filter (fun b => 4 < b)).length s
      if q.state = 1 then .next (settle (setPort port 2 s))
      else if q.state = 3 then
        .next (settle ((List.range 5).foldl (fun s k => match nth rx k none with
          | some r => takeSlot port blocks k r s
          | none => s) s))
      else .next s

/-- The highest version that two ranges share, as major × 256 + minor; 0 for none (02 R71). -/
def commonVersion (a b : Nat) : Nat :=
  let hi := if bits a 31 16 < bits b 31 16 then bits a 31 16 else bits b 31 16
  let lo := max (bits a 15 0) (bits b 15 0)
  if bits a 31 24 = bits b 31 24 then
    (if lo ≤ 256 * bits a 31 24 + min (bits a 23 16) (bits b 23 16) then 256 * bits a 31 24 + min (bits a 23 16) (bits b 23 16) else 0)
  else if lo / 256 = hi / 256 && lo ≤ hi then hi else 0

/-- A port that comes UP: both directions start from sequence zero with full credits (16 R449, R451, R454). -/
def bringUp (n partner version : Nat) (s : State) : State :=
  setPort n 3 (modPort n (fun p => { p with
    partner := partner, version := version, expected := 0, held := [], freed := [0, 0, 0], nak := none, nakDue := false,
    nextSeq := 0, replay := [], credits := [0, 0, 0], used := [0, 0, 0], sinceBulk := 0, nakked := false, hold := false,
    errs := List.replicate 10 0, errAt := s.clock.now }) s)

/-- A training CTL in ALIGNED (16 R451). -/
def trainPort (n : Nat) (c : Ctl) (ok : Bool) (s : State) : State :=
  let want := rwVal s (0x7100 + n) 0x02 0xFFFFFFFF
  let v := commonVersion 0x01000100 c.range
  if !ok then
    let b := (portAt s n).authBad + 1
    if 8 ≤ b then dropPort n 0 2 s else modPort n (fun p => { p with authBad := b }) s
  else if want != 0xFFFFFFFF && want != c.node then dropPort n 4 4 s
  else if v = 0 then dropPort n 4 3 s
  else bringUp n c.node v s

/-- The whole count that a 16-bit or 12-bit running count stands for, not below a known one. -/
def unwrap (known v m : Nat) : Nat := known + (v + m - known % m) % m

/-- A run sealed again by a CTL of the same sequence and the next seal counter (16 R446, R449). -/
def sealAgain (n seq count : Nat) (s : State) : State :=
  let p := portAt s n
  emit (.ctl n { seq := seq % 4096, nak := false, ack := (p.expected + 4095) % 4096, freed := p.freed.map (· % 65536), cmd := 0,
                 arg := 0, first := (seq - count) % 4096, count := count, key := rwVal s (0x7100 + n) 0x14 0 % 2,
                 counter := p.counter, node := 0, range := 0, partner := 0 })
    (modPort n (fun p => { p with counter := p.counter + 1 }) s)

/-- Every unacknowledged flit sent again (16 R449). -/
def resend (n : Nat) (s : State) : State :=
  let p := portAt s n
  if p.replay.any (fun e => 16 ≤ e.times) then dropPort n 0 6 s
  else
    let s := (p.replay.foldl (fun (a : State × Nat) e => match e.flit with
      | some f => (emit (.flit n (e.seq % 4096) f) a.1, a.2 + 1)
      | none => (sealAgain n e.seq a.2 a.1, 0)) (s, 0)).1
    bump (0x7100 + n) 0x0B (p.replay.filter (fun e => e.flit.isSome)).length
      (modPort n (fun p => { p with replay := p.replay.map (fun e => { e with at_ := s.clock.now, times := e.times + 1 }) }) s)

/-- Acknowledged flits leave the replay buffer; a NAK has the transmitter resend in order from its sequence, and a flit resent 16
times takes the port DOWN (16 R449, R450). -/
def takeAck (n : Nat) (c : Ctl) (s : State) : State :=
  let p := portAt s n
  let base := match p.replay with | e :: _ => e.seq | [] => p.nextSeq
  let upTo := if c.nak then unwrap base c.ack 4096 else unwrap base ((c.ack + 1) % 4096) 4096
  if p.nextSeq < upTo then s
  else
    let rest := p.replay.filter (fun e => upTo ≤ e.seq)
    let s := modPort n (fun p => { p with replay := rest, nakked := c.nak && !rest.isEmpty }) s
    if c.nak then resend n s else s

/-- A seal that fails: its run is discarded and asked for again, and eight failures in 1 ms take the port DOWN (16 R448,
R451). -/
def sealFailed (n : Nat) (s : State) : State :=
  let p := portAt s n
  let recent := (p.sealBad.filter (fun t => s.clock.now < t + 1000000)) ++ [s.clock.now]
  let s := bump (0x7100 + n) 0x0C 1 s
  if 8 ≤ recent.length then dropPort n 0 2 s
  else raiseNak n (modPort n (fun p => { p with sealBad := recent, expected := p.expected - p.held.length, held := [] }) s)

/-- Whether a link key is present (16 R446). -/
def linkKeyed (s : State) (n k : Nat) : Bool := !(rwDom s (0x7100 + n) (0x11 + k % 2) []).isEmpty

/-- A CTL arrives, in a good slot or not, with the verdict on its tag. In ALIGNED it is a training CTL. In UP, in sequence and
verified over the run that the receiver holds, it releases the run, returns credits and acknowledges (16 R447 to R449,
R451). -/
def execCtlReceive (port : Nat) (ctl : Ctl) (good tagOk : Bool) (s : State) : Host.Outcome State Fault Refusal :=
  let p := portAt s port
  let ok := tagOk && linkKeyed s port ctl.key
  if 64 ≤ port then .next s
  else if p.state = 2 then (if good then .next (settle (trainPort port ctl ok s)) else .next s)
  else if p.state != 3 then .next s
  else if !good || ctl.seq != p.expected % 4096 then .next (raiseNak port s)
  else if !ok || ctl.count != p.held.length || (ctl.count != 0 && ctl.first != (p.expected - p.held.length) % 4096) then
    .next (settle (sealFailed port s))
  else
    let run := p.held
    let s := modPort port (fun p => { p with
      expected := p.expected + 1, held := [], nak := none,
      credits := (List.range 3).map (fun c => unwrap (nth p.credits c 0) (nth ctl.freed c 0) 65536),
      cmdIn := if ctl.cmd = 0 then p.cmdIn else p.cmdIn ++ [(ctl.cmd, ctl.arg)] }) s
    .next (settle (run.foldl (fun s f => releaseFlit port f s) (takeAck port ctl s)))

/-- The oldest unacknowledged flit is 10 µs old: the transmitter resends from it (16 R449). -/
def execReplayTimeout (port : Nat) (s : State) : Host.Outcome State Fault Refusal :=
  match (portAt s port).state, (portAt s port).replay with
  | 3, e :: _ => if e.at_ + 10000 ≤ s.clock.now then .next (settle (resend port s)) else .next s
  | _, _ => .next s

/-- After 10 µs without the expected sequence the receiver may send its NAK again (16 R449). -/
def execNakHoldoffTimeout (port : Nat) (s : State) : Host.Outcome State Fault Refusal :=
  match (portAt s port).nak with
  | some (q, t) =>
    if q = (portAt s port).expected && t + 10000 ≤ s.clock.now then
      .next (modPort port (fun p => { p with nak := some (q, s.clock.now), nakDue := true }) s)
    else .next s
  | none => .next s

/-- Whether a class has a credit: 512 flits of receive buffer each (16 R454). -/
def classReady (p : FabPort) (c : Nat) : Bool := nth p.used c 0 < nth p.credits c 0 + 512

/-- The flit that the next slot takes: RSP, then REQ, then BULK, which takes one slot in eight (16 R455). -/
def nextFlit (p : FabPort) : Option Flit :=
  let pick (c : Nat) : Option Flit := if classReady p c then p.queue.find? (fun f => f.cls = c) else none
  let bulk := pick 2
  if 7 ≤ p.sinceBulk && bulk.isSome then bulk
  else match pick 1 with
    | some f => some f
    | none => match pick 0 with
      | some f => some f
      | none => bulk

/-- Up to a number of queued flits sent in a run (16 R448, R449, R454; 22 R599). -/
def sendRun (fuel n : Nat) (s : State) : State :=
  match fuel with
  | 0 => s
  | k + 1 =>
    let p := portAt s n
    if p.hold || 1024 ≤ (p.replay.filter (fun e => e.flit.isSome)).length then s
    else match nextFlit p with
      | none => s
      | some f =>
        let s := emit (.flit n (p.nextSeq % 4096) f) (modPort n (fun p => { p with
          queue := p.queue.erase f, nextSeq := p.nextSeq + 1, replay := p.replay ++ [⟨p.nextSeq, some f, s.clock.now, 0⟩],
          used := p.used.modify f.cls (· + 1), sinceBulk := if f.cls = 2 then 0 else p.sinceBulk + 1 }) s)
        sendRun k n (if f.src = nodeId s % 2 ^ 17 then charge f.owner 0x13 256 s else s)

/-- The transmitter sends a run of queued flits and seals it with a CTL, which also acknowledges or NAKs, returns credits and
carries a lane command; in ALIGNED it sends a training CTL (16 R447 to R449, R451, R455). -/
def execCtlSend (port : Nat) (s : State) : Host.Outcome State Fault Refusal :=
  let p := portAt s port
  if (p.state != 3 && p.state != 2) || 64 ≤ port then .next s
  else
    let s := if p.state = 3 then sendRun 31 port s else s
    let q := portAt s port
    let cmd := match q.cmdOut with | c :: _ => c | [] => (0, 0)
    let train := q.state = 2
    let c : Ctl := { seq := q.nextSeq % 4096, nak := q.nakDue, ack := (if q.nakDue then q.expected else q.expected + 4095) % 4096,
                     freed := q.freed.map (· % 65536), cmd := cmd.1, arg := cmd.2, first := p.nextSeq % 4096,
                     count := q.nextSeq - p.nextSeq, key := rwVal s (0x7100 + port) 0x14 0 % 2, counter := q.counter,
                     node := if train then nodeId s else 0, range := if train then 0x01000100 else 0,
                     partner := if train then rwVal s (0x7100 + port) 0x02 0xFFFFFFFF else 0 }
    let s := if q.nakDue then bump (0x7100 + port) 0x0A 1 s else s
    .next (emit (.ctl port c) (modPort port (fun p => { p with
      counter := p.counter + 1, nakDue := false, cmdOut := p.cmdOut.drop 1, nextSeq := if train then p.nextSeq else p.nextSeq + 1,
      replay := if train then p.replay else p.replay ++ [⟨p.nextSeq, none, s.clock.now, 0⟩] }) s))

/-- The oldest lane command received, when it has a code. -/
def laneCmd (p : FabPort) (code : Nat) : Option Nat :=
  match p.cmdIn with
  | (c, a) :: _ => if c = code then some a else none
  | [] => none

/-- A MOVE_REQ: the transmitter sends the lane on the spare as well; after a loss it sends only CTL and IDLE until SWITCHED (16
R452). -/
def execMoveReq (port : Nat) (s : State) : Host.Outcome State Fault Refusal :=
  match laneCmd (portAt s port) 1 with
  | some _ => .next (modPort port (fun p => { p with cmdIn := p.cmdIn.drop 1, hold := p.nakked }) s)
  | none => .next s

/-- A SWITCHED: the transmitter stops the old wavelength and sends RELEASE (16 R452). -/
def execSwitched (port : Nat) (s : State) : Host.Outcome State Fault Refusal :=
  match laneCmd (portAt s port) 2 with
  | some a =>
    .next (modPort port (fun p =>
      let old := match waveOf p.txLanes (a / 16) with | some w => setAt p.txLanes w 8 | none => p.txLanes
      { p with cmdIn := p.cmdIn.drop 1, hold := false, txLanes := setAt old (a % 16) (a / 16), cmdOut := p.cmdOut ++ [(3, a)] }) s)
  | none => .next s

/-- The longest-active wavelength of a port, for a Vigil rotation (19 R551). -/
def oldestWave (p : FabPort) : Option (Nat × Nat) :=
  (List.range 8).foldl (fun best l => match waveOf p.lanes l, best with
    | some w, some (m, v) => if nth p.since w 0 < nth p.since v 0 || (nth p.since w 0 = nth p.since v 0 && w < v) then some (l, w) else some (m, v)
    | some w, none => some (l, w)
    | none, b => b) none

/-- A Vigil rotation asked for (19 R551). -/
def rotateLane (n : Nat) (s : State) : State :=
  match oldestWave (portAt s n) with
  | some (l, w) => askMove n l w false 0 s
  | none => s

/-- The Vigil visit of a port goes on: once the move under way is complete the next one begins, and after the last the visit is done (19
R551). A move that finds no spare is over at once. -/
def goOnRotating (n : Nat) (s : State) : State :=
  let p := portAt s n
  if p.vigil = 0 || p.offered.isSome then s
  else if p.vigil = 1 then visitDone 5 (modPort n (fun p => { p with vigil := 0 }) s)
  else
    let s := rotateLane n (modPort n (fun p => { p with vigil := p.vigil - 1 }) s)
    if (portAt s n).offered.isSome then s else visitDone 5 (modPort n (fun p => { p with vigil := 0 }) s)

/-- A port visit of Vigil begins: two lane moves, one after the other; a port that is not UP is skipped (19 R551). -/
def rotatePort (n : Nat) (s : State) : State :=
  if (portAt s n).state = 3 then goOnRotating n (modPort n (fun p => { p with vigil := 3 }) s)
  else actedFiring 5 (visitSkipped s)

/-- A RELEASE: the lane move is complete, and the next one that waits begins (16 R452). -/
def execRelease (port : Nat) (s : State) : Host.Outcome State Fault Refusal :=
  match laneCmd (portAt s port) 3 with
  | some _ =>
    let s := nextMove port (modPort port (fun p => { p with cmdIn := p.cmdIn.drop 1, offered := none }) s)
    .next (settle (goOnRotating port s))
  | none => .next s

/-- The end of a 1 ms window of symbol errors: a lane past the threshold asks for a move (16 R452). -/
def execLaneErrorWindow (port : Nat) (s : State) : Host.Outcome State Fault Refusal :=
  let p := portAt s port
  if p.state = 3 && p.errAt + 1000000 ≤ s.clock.now then
    let bad := (List.range 8).filterMap (fun l => match waveOf p.lanes l with
      | some w => if rwVal s (0x7100 + port) 0x10 100000 < nth p.errs w 0 then some (l, w) else none
      | none => none)
    let s := modPort port (fun p => { p with errs := List.replicate 10 0, errAt := s.clock.now }) s
    .next (settle (bad.foldl (fun s e => askMove port e.1 e.2 true 4 s) s))
  else .next s

/-- A spare-role wavelength that shows errors is marked failed (16 R453). -/
def execSpareWavelengthError (port wave : Nat) (s : State) : Host.Outcome State Fault Refusal :=
  if port < 64 && nth (portAt s port).lanes wave 15 = 8 then
    let was := (portAt s port).offered.any (fun m => m.dest = wave)
    let s := modPort port (fun p => { p with lanes := setAt p.lanes wave 15, offered := if was then none else p.offered }) s
    .next (settle (if was then goOnRotating port (nextMove port s) else s))
  else .next s

/-- An enabled DOWN port with light tries bring-up, at once and every 10 ms (16 R451). -/
def execBringUpRetry (port : Nat) (s : State) : Host.Outcome State Fault Refusal :=
  let p := portAt s port
  let due := match p.tried with | some t => t + 10000000 ≤ s.clock.now | none => true
  if port < 64 && mainOn s && p.state = 0 && portEnabled s port && engineLit s (port / 8) && due then
    .next (settle (setPort port 1 (modPort port (fun p =>
      { p with tried := some s.clock.now, started := s.clock.now, locks := List.replicate 10 {}, authBad := 0 }) s)))
  else .next s

/-- A port not ALIGNED within 1 ms goes DOWN (16 R451). -/
def execAlignTimeout (port : Nat) (s : State) : Host.Outcome State Fault Refusal :=
  let p := portAt s port
  if p.state = 1 && p.started + 1000000 ≤ s.clock.now then .next (settle (dropPort port 0 1 s)) else .next s

/-- The ports of an engine go DOWN for want of light (16 R436, R451). -/
def loseLight (e : Nat) (s : State) : State :=
  (List.range 8).foldl (fun s j => if (portAt s (8 * e + j)).state = 0 then s else dropPort (8 * e + j) 0 8 s) s

/-- An engine's laser light is lost (16 R436). -/
def execLightLoss (engine : Nat) (s : State) : Host.Outcome State Fault Refusal :=
  if engine < 8 && mainOn s then .next (settle (loseLight engine (setCount (0x7180 + engine) 0x02 0 s))) else .next s

/-- An engine's input power changes: 0 absent, 1 in range, 2 out of range, with the lowest power in 0.01 dBm (16 R436). -/
def execLightStateChange (engine state power : Nat) (s : State) : Host.Outcome State Fault Refusal :=
  if engine < 8 && mainOn s && state ≤ 2 then
    let s := setCount (0x7180 + engine) 0x02 state (setCount (0x7180 + engine) 0x03 (power % 2 ^ 32) s)
    .next (settle (if state = 0 then loseLight engine s else s))
  else .next s

/-- A write of a port's enable starts or stops bring-up (16 R451). -/
def writePortEnable (n v : Nat) (s : State) : State :=
  let p := portAt s n
  let s := setRw (0x7100 + n) 0x13 v s
  if v = 0 then (if p.state = 4 || p.state = 0 then s else dropPort n 0 7 s)
  else if p.state = 4 then setPort n 0 (modPort n (fun p => { p with tried := none }) s)
  else if p.state = 0 then modPort n (fun p => { p with tried := none }) s
  else s

/-- The staged routing tables take effect together (16 R458). -/
def commitTables (s : State) : State :=
  let take (sub : Nat) (s : State) : State :=
    match KMap.find s.dict.stagedDoms (okey 0x7001 sub) with
    | some d => setDom 0x7001 sub d (s.modDict (fun t => { t with stagedDoms := KMap.del t.stagedDoms (okey 0x7001 sub) }))
    | none => s
  bump 0x7001 0x04 1 (take 2 (take 1 s))

/-- The first delivered flit of a type, taken from the inbox. (log 97, DEDUCED.) -/
def takeInbox (type : Nat) (s : State) : Option (Flit × State) :=
  match s.fab.inbox.find? (fun f => f.type = type) with
  | none => none
  | some f => some (f, s.modFab (fun c => { c with inbox := c.inbox.erase f }))

/-- The first delivered message of a type whose every flit has come, with its data in offset order (16 R461, R462). -/
def takeWhole (type : Nat) (s : State) : Option (Flit × Bytes × State) :=
  let same (f g : Flit) : Bool := g.type = type && g.src = f.src && g.owner = f.owner && g.tag = f.tag
  let off (f : Flit) : Nat := leAt f.data 8 4
  let len (f : Flit) : Nat := leAt f.data 12 2
  let parts (f : Flit) : List Flit := s.fab.inbox.filter (same f)
  let first (f : Flit) : Nat := (parts f).foldl (fun a g => min a (off g)) (off f)
  let done (f : Flit) : Bool := match (parts f).find? (·.last) with
    | some l => (parts f).foldl (fun a g => a + len g) 0 = off l + len l - first f
    | none => false
  match s.fab.inbox.find? (fun f => f.type = type && done f) with
  | none => none
  | some f =>
    let n := (parts f).foldl (fun a g => max a (off g + len g)) 0 - first f
    let body := (parts f).foldl (fun (b : Memory) g => Memory.writeN b (off g - first f) (slice g.data 16 (len g))) []
    some ({ f with data := (toLE 4 (leAt f.data 0 4) ++ slice f.data 4 4 ++ toLE 4 (first f) ++ slice f.data 12 4) }, Memory.readN body 0 n,
      s.modFab (fun c => { c with inbox := c.inbox.filter (fun g => !same f g) }))

/-- A received SIGNAL is applied while the partition accepts remote signals, else dropped and counted; an increment of 0 is 1 (15
R427, 16 R462). -/
def execRemoteSignal (s : State) : Host.Outcome State Fault Refusal :=
  match takeInbox 6 s with
  | none => .next s
  | some (f, s) =>
    if 32 ≤ f.owner then .next s
    else if rwVal s (0x3000 + 0x10 * f.owner) 0x15 0 = 1 then
      .next (issueCell (cellNo f.owner (leAt f.data 0 2 % 2048)) (.signal (max 1 (leAt f.data 2 2))) s)
    else .next (bump (0x3000 + 0x10 * f.owner) 0x17 1 s)

/-- The areas of a slot's exchange window (16 R463). -/
def exchangeAreas (s : State) (sl : Nat) : Nat := ceilDiv (rwVal s 0x7000 0x0A 90) (max 1 (KMap.getD s.slots sl {}).tSlot) + 1

/-- A received WRITE is written into the exchange window, and answered (16 R462, R463, R465). -/
def execExchangeWrite (s : State) : Host.Outcome State Fault Refusal :=
  match takeInbox 2 s with
  | none => .next s
  | some (f, s) =>
    let id := leAt f.data 0 4
    let batch := leAt f.data 4 4
    let off := leAt f.data 8 4
    let n := leAt f.data 12 2
    let answer (st : Nat) (s : State) : State :=
      sendFlit 3 1 f.src f.owner f.tag true (f.data.take 12 ++ toLE 2 0 ++ toLE 1 st ++ toLE 1 0) s
    match s.slots.find? (fun e => e.1 / 4 = f.owner && e.2.state.holds && rwVal s (0x7200 + e.1) 0x01 0 = id) with
    | none => .next (answer 2 s)
    | some (k, sl) =>
      let area := rwVal s (0x7200 + k) 0x03 0
      let w := rwVal s (0x7200 + k) 0x02 0
      let tile := nth sl.tileMap (bits w 31 26) 0
      let a := bits w 25 0 + batch % exchangeAreas s k * area + off
      if area < off + n then .next (answer 3 (bump (0x7200 + k) 0x06 1 s))
      else if batch < KMap.getD s.fab.ended k 0 then .next (answer 1 (bump (0x7200 + k) 0x05 1 s))
      else if ownerOf s 0 tile a != f.owner || ownerOf s 0 tile (a + n - 1) != f.owner then
        .next (answer 4 (bump (0x7200 + k) 0x06 1 (firewallHit f.owner (srcTile tile) a s)))
      else .next (answer 0 (writeTile tile a (slice f.data 16 n) s))

/-- A received FM_RSP joins the ring of the last 16, with its source node (16 OD 0x7002.02). -/
def execFmRsp (s : State) : Host.Outcome State Fault Refusal :=
  match takeInbox 0xA s with
  | none => .next s
  | some (f, s) =>
    let old := KMap.getD s.dict.blobs (okey 0x7002 0x02) []
    let keep := if 16 * 244 ≤ old.length then old.drop 244 else old
    .next (setBlob 0x7002 0x02 (keep ++ toLE 4 f.src ++ padTo 240 f.data) s)

end Sys2Proof.Machine
end

