-- ==== Sys2Proof/Machine/Rings.lean ====
section
/-! DEFINITION. Host rings, records, egress queues and the loss of a port (05; 04 R138 to R140). -/

namespace Sys2Proof.Machine

open Sys2Proof

/-- The key of a ring: port, partition, number. -/
def ringKey (port p n : Nat) : Nat := 128 * port + 4 * p + n

/-- A submission ring. -/
def sqAt (s : State) (port p n : Nat) : SubRing := KMap.getD s.host.sqs (ringKey port p n) {}

/-- A completion ring. -/
def cqAt (s : State) (port p n : Nat) : CompRing := KMap.getD s.host.cqs (ringKey port p n) {}

/-- The state with one submission ring changed. -/
def modSq (port p n : Nat) (f : SubRing → SubRing) (s : State) : State :=
  s.modHost (fun h => { h with sqs := KMap.upd h.sqs (ringKey port p n) {} f })

/-- The state with one completion ring changed. -/
def modCq (port p n : Nat) (f : CompRing → CompRing) (s : State) : State :=
  s.modHost (fun h => { h with cqs := KMap.upd h.cqs (ringKey port p n) {} f })

/-- The link of a port. -/
def linkAt (s : State) (port : Nat) : Link := KMap.getD s.host.links port {}

/-- The state with one link changed. -/
def modLink (port : Nat) (f : Link → Link) (s : State) : State :=
  s.modHost (fun h => { h with links := KMap.upd h.links port {} f })

/-- Whether a link is up (05 OD 0x1070 + port .01). -/
def linkUp (l : Link) : Bool := l.state = .upPcie || l.state = .upCxl

/-- Whether the rings of a port work: 64 GT/s at x8 or x4, in D0 (05 R141, R142). A port that retrains keeps them
(R143). -/
def ringsOk (l : Link) : Bool :=
  !l.d3hot && ((linkUp l && l.rate = 6 && (l.width = 8 || l.width = 4)) || l.retraining)

/-- The entries of a completion ring in use, and those free (05 R153). -/
def cqUsed (c : CompRing) : Nat := (c.tail + c.depth - c.head) % c.depth + c.held

/-- The free entries of a completion ring (05 R153). -/
def cqFree (c : CompRing) : Nat := c.depth - 1 - cqUsed c

/-- A ring error: the ring stops, the code stays, the error is counted and recorded (05 R151). (log 34, DEDUCED.) -/
def ringError (port p n kind code : Nat) (s : State) : State :=
  let s := if kind = 0 then modSq port p n (fun q => { q with enabled := false, error := code }) s
    else modCq port p n (fun c => { c with enabled := false, closing := false, error := code }) s
  annal 0x0202 2 p (srcPort port) (toLE 1 port ++ toLE 1 kind ++ toLE 1 n ++ toLE 1 code) (bump (0x1070 + port) 0x0C 1 s)

/-- A power of two from lo to hi. -/
def pow2In (v lo hi : Nat) : Bool := lo ≤ v && v ≤ hi && 2 ^ Nat.log2 v = v

/-- The bytes of a completion record with its phase and redirected bits (05 R158). -/
def recordBytes (r : Record) (phase redirected : Bool) : Bytes :=
  toLE 4 r.cid ++ toLE 1 r.status ++ toLE 1 r.reason
  ++ toLE 2 (r.sq + 0x8000 * b2n phase + 0x4000 * b2n redirected)
  ++ toLE 8 r.ft ++ toLE 2 r.degraded ++ toLE 2 r.sqHead ++ toLE 4 r.bytes ++ toLE 4 r.detail ++ toLE 4 r.image

/-- A completion ring after one record was written at its tail: the phase inverts at each wrap (05 R152), a held entry
is used up unless the record was redirected here, and a ring being disabled ends with its last held record (05, Events
that meet). -/
def cqAfterWrite (quiet redirected : Bool) (now : Nat) (c : CompRing) : CompRing :=
  let tail := if c.tail + 1 = c.depth then 0 else c.tail + 1
  let held := if redirected then c.held else c.held - 1
  { c with tail := tail, phase := if tail = 0 then !c.phase else c.phase, held := held,
           since := if quiet then c.since else c.since + 1,
           firstAt := if quiet then c.firstAt else (match c.firstAt with | some t => some t | none => some now),
           enabled := c.enabled && !(c.closing && held = 0), closing := c.closing && held != 0 }

/-- The interrupt of a completion ring when its coalesce count is reached (05 R162). -/
def countInterrupt (port p n : Nat) (s : State) : State :=
  let c := cqAt s port p n
  if c.since != 0 && max 1 c.coalN ≤ c.since && linkUp (linkAt s port) then
    sendVector port c.vector (modCq port p n (fun c => { c with since := 0, firstAt := none }) s)
  else s

/-- A record written into a completion ring; a ring out of service drops it and it counts as lost (05 R151, R158). -/
def writeRecord (port p n : Nat) (r : Record) (redirected : Bool) (due : Option Nat) (s : State) : State :=
  let c := cqAt s port p n
  if c.enabled then
    let s := emit (.hostWrite port (c.base + 32 * c.tail) (recordBytes r c.phase redirected)) s
    let s := modCq port p n (cqAfterWrite r.quiet redirected s.clock.now) s
    let s := bump (0x1070 + port) 0x08 1 s
    let s := match due with
      | some d => if d < s.clock.now then bump (0x1070 + port) 0x0E 1 s else s
      | none => s
    countInterrupt port p n s
  else bump (0x1070 + port) 0x0A 1 s

/-- Where a record or result bound for a port goes: the port itself, the other port when this one is lost and failover
finds an enabled completion ring with a free entry, or nowhere (05 R166). -/
def routeOf (s : State) (port p n : Nat) : Option (Nat × Bool) :=
  if ringsOk (linkAt s port) then some (port, false)
  else
    let o := 1 - port
    let c := cqAt s o p n
    if rwVal s (0x3008 + 0x10 * p) 0x01 1 = 1 && ringsOk (linkAt s o) && c.enabled && 1 ≤ cqFree c then some (o, true)
    else none

/-- An egress unit leaves the device (05 R159, R166; 04 R138). -/
def leaveUnit (port : Nat) (u : EgressUnit) (s : State) : State :=
  match u.load with
  | .bulk addr bytes => if linkUp (linkAt s port) then emit (.hostWrite port addr bytes) s else s
  | .result p n addr bytes =>
    match routeOf s port p n with
    | some (q, _) => emit (.hostWrite q addr bytes) s
    | none => s
  | .record p n r =>
    match routeOf s port p n with
    | some (q, false) => writeRecord q p n r false u.due s
    | some (q, true) => bump (0x1070 + q) 0x09 1 (writeRecord q p n r true u.due s)
    | none => bump (0x1070 + port) 0x0A 1 s

/-- The key of an egress queue: kind 0 RESULT, 1 BULK (04 R138). -/
def egressKey (p port kind : Nat) : Nat := 4 * p + 2 * port + kind

/-- An egress queue. -/
def egressAt (s : State) (p port kind : Nat) : Egress := KMap.getD s.levee.egress (egressKey p port kind) {}

/-- The state with one egress queue changed. -/
def modEgress (p port kind : Nat) (f : Egress → Egress) (s : State) : State :=
  s.modLevee (fun l => { l with egress := KMap.upd l.egress (egressKey p port kind) {} f })

/-- A queue's credit brought up to a local time: it grows at the rate while below the burst and stops there (04 R138).
MB/s times ns are thousandths of a byte. (log 54, DEDUCED.) -/
def refillEgress (now : Nat) (e : Egress) : Egress :=
  let top : Int := 1000 * e.burst
  { e with credit := if e.credit < top then min top (e.credit + (e.rate * (now - e.last) : Nat)) else e.credit, last := now }

/-- Whether a queue's port holds its units: it retrains in use, or the power fails (05 R143; 19 R558). -/
def portHeld (s : State) (port : Nat) : Bool := (linkAt s port).retraining || s.mire.dumping

/-- The first unit of a queue leaves, and the credit falls by its size where the queue is shaped (04 R138, R139). -/
def sendHead (p port kind : Nat) (s : State) : State :=
  let e := refillEgress s.clock.now (egressAt s p port kind)
  match e.units with
  | [] => s
  | u :: r =>
    leaveUnit port u (modEgress p port kind (fun _ =>
      { e with units := r, credit := if e.rate = 0 then e.credit else e.credit - (1000 * u.size : Nat) }) s)

/-- Every unit of an unshaped queue leaves, one after another (04 R138: a rate of 0 is not shaped). -/
def flushUnshaped (fuel : Nat) (p port kind : Nat) (s : State) : State :=
  match fuel with
  | 0 => s
  | k + 1 =>
    let e := egressAt s p port kind
    if e.rate = 0 && !portHeld s port && !e.units.isEmpty then flushUnshaped k p port kind (sendHead p port kind s) else s

/-- Units put into an egress queue; those of an unshaped queue leave at once. -/
def enqueueUnits (p port kind : Nat) (us : List EgressUnit) (s : State) : State :=
  let s := modEgress p port kind (fun e => { e with units := e.units ++ us }) s
  flushUnshaped (egressAt s p port kind).units.length p port kind s

/-- Bytes cut into units of at most 4 KiB (04 R138). -/
def chunk4k (fuel : Nat) (off : Nat) (bs : Bytes) : List (Nat × Bytes) :=
  match fuel with
  | 0 => []
  | k + 1 => if bs.isEmpty then [] else (off, bs.take 4096) :: chunk4k k (off + 4096) (bs.drop 4096)

/-- A result and its record put into the RESULT queue: the whole result before the record (05 R159). -/
def postRecord (port p n addr : Nat) (result : Bytes) (r : Record) (due : Option Nat) (s : State) : State :=
  let us := (chunk4k (result.length + 1) 0 result).map (fun c =>
    ({ load := .result p n (addr + c.1) c.2, size := c.2.length, due := due, at_ := s.clock.now } : EgressUnit))
  enqueueUnits p port 0 (us ++ [{ load := .record p n r, size := 32, due := due, at_ := s.clock.now }]) s

/-- Bulk bytes for a host address, in units of at most 4 KiB (05 R164). -/
def postBulk (port p addr : Nat) (bs : Bytes) (s : State) : State :=
  enqueueUnits p port 1 ((chunk4k (bs.length + 1) 0 bs).map (fun c =>
    ({ load := .bulk (addr + c.1) c.2, size := c.2.length, due := none, at_ := s.clock.now } : EgressUnit))) s

/-- An egress unit leaves once its credit allows, RESULT before BULK (04 R138). -/
def execEgressUnitSend (part port kind : Nat) (s : State) : Host.Outcome State Fault Refusal :=
  let e := refillEgress s.clock.now (egressAt s part port kind)
  match e.units with
  | [] => .next s
  | u :: _ =>
    if portHeld s port || (kind = 1 && !(egressAt s part port 0).units.isEmpty) then .next s
    else if e.rate = 0 || (1000 * u.size : Nat) ≤ e.credit then .next (sendHead part port kind s)
    else .next (modEgress part port kind (fun _ => e) s)

/-- A RESULT unit whose record is due leaves anyway: the overdraw is counted (04 R139). -/
def execEgressOverdraw (part port _kind : Nat) (s : State) : Host.Outcome State Fault Refusal :=
  let e := refillEgress s.clock.now (egressAt s part port 0)
  match e.units with
  | [] => .next s
  | u :: _ =>
    match u.due with
    | none => .next s
    | some d =>
      if d ≤ s.clock.now && e.rate != 0 && e.credit < (1000 * u.size : Nat) && !portHeld s port then
        .next (bump (0x3003 + 0x10 * part) 0x06 1 (sendHead part port 0 s))
      else .next s

/-- A host write of a submission ring's tail doorbell (05 R151, R152). -/
def execSqTailDoorbell (port part ring v : Nat) (s : State) : Host.Outcome State Fault Refusal :=
  let q := sqAt s port part ring
  if !q.enabled then .next s
  else if q.depth ≤ v % 2 ^ 32 then .next (ringError port part ring 0 1 s)
  else .next (modSq port part ring (fun q => { q with tail := v % 2 ^ 32 }) s)

/-- A host write of a completion ring's head doorbell: a head past the tail stops the ring (05 R151, R152). -/
def execCqHeadDoorbell (port part ring v : Nat) (s : State) : Host.Outcome State Fault Refusal :=
  let c := cqAt s port part ring
  let w := v % 2 ^ 32
  if !c.enabled then .next s
  else if c.depth ≤ w || (c.tail + c.depth - c.head) % c.depth < (w + c.depth - c.head) % c.depth then
    .next (ringError port part ring 1 1 s)
  else .next (modCq port part ring (fun c => { c with head := w }) s)

/-- The agreed host-ring version of a port (02 OD 0x1011.03, .04). -/
def ringVersion (s : State) (port : Nat) : Nat := countVal s 0x1011 (0x03 + port) 0

/-- A write of SQ_CTRL (05 R150): enabling applies every field after the checks of R151 and starts from empty; while
enabled only the enable field changes. Below R142 the ring stays disabled and reports VERSION (05 R142, R151). -/
def execSqCtrlWrite (port part ring v : Nat) (s : State) : Host.Outcome State Fault Refusal :=
  let q := sqAt s port part ring
  let depth := bits v 31 16
  if bit v 0 then
    if q.enabled then .next s
    else if !ringsOk (linkAt s port) || ringVersion s port = 0 then .next (ringError port part ring 0 3 s)
    else if !pow2In depth 16 1024 then .next (ringError port part ring 0 2 s)
    else .next (modSq port part ring (fun _ =>
      { depth := depth, cq := bits v 3 2, enabled := true, head := 0, tail := 0, error := 0 }) s)
  else if q.enabled then .next (modSq port part ring (fun q => { q with enabled := false, tail := q.head }) s)
  else .next (modSq port part ring (fun q => { q with depth := depth, cq := bits v 3 2 }) s)

/-- A write of CQ_CTRL (05 R150): enabling applies every field after the checks of R151; a disable with entries held
ends when the last is written. -/
def execCqCtrlWrite (port part ring v : Nat) (s : State) : Host.Outcome State Fault Refusal :=
  let c := cqAt s port part ring
  let depth := bits v 47 32
  let set (c : CompRing) : CompRing :=
    { c with vector := bits v 63 48, depth := depth, coalN := bits v 31 24, coalT := bits v 23 8 }
  if bit v 0 then
    if c.enabled then .next (modCq port part ring (fun c => { c with closing := false }) s)
    else if !ringsOk (linkAt s port) || ringVersion s port = 0 then .next (ringError port part ring 1 3 s)
    else if !pow2In depth 16 4096 then .next (ringError port part ring 1 2 s)
    else if depth - 1 ≤ c.reserve then .next (ringError port part ring 1 5 s)
    else .next (modCq port part ring (fun c => { set c with
      enabled := true, closing := false, head := 0, tail := 0, held := 0, phase := true, error := 0, since := 0, firstAt := none }) s)
  else if c.enabled then
    .next (modCq port part ring (fun c => if c.held = 0 then { c with enabled := false } else { c with closing := true }) s)
  else .next (modCq port part ring set s)

/-- A write of CQ_BASE, ignored while the ring is enabled (05 R150). -/
def execCqBaseWrite (port part ring v : Nat) (s : State) : Host.Outcome State Fault Refusal :=
  if (cqAt s port part ring).enabled then .next s
  else .next (modCq port part ring (fun c => { c with base := bits v 63 12 * 4096 }) s)

/-- A write of CQ_RSV, ignored while the ring is enabled; 0 is taken as 1 (05 R150). -/
def execCqRsvWrite (port part ring v : Nat) (s : State) : Host.Outcome State Fault Refusal :=
  if (cqAt s port part ring).enabled then .next s
  else .next (modCq port part ring (fun c => { c with reserve := max 1 (bits v 7 0) }) s)

/-- Every ring of a port that is in service stops with a code (05 R143, R165). -/
def stopRings (port code : Nat) (s : State) : State :=
  let keys (l : List Nat) : List Nat := l.filter (fun k => k / 128 = port)
  let s := (keys (s.host.sqs.map (·.1))).foldl (fun s k =>
    if (KMap.getD s.host.sqs k {}).enabled then ringError port (k % 128 / 4) (k % 4) 0 code s else s) s
  (keys (s.host.cqs.map (·.1))).foldl (fun s k =>
    if (KMap.getD s.host.cqs k {}).enabled then ringError port (k % 128 / 4) (k % 4) 1 code s else s) s

/-- The units that every queue of a port holds leave or are dropped, as R166 states. -/
def releasePort (port : Nat) (s : State) : State :=
  (List.range 32).foldl (fun s p =>
    flushUnshaped (egressAt s p port 0).units.length p port 0 s) s

/-- A port's rings are lost: they stop with a code, unfetched descriptors go, held records are redirected or dropped, and the event is
counted (05 R143, R165, R166). -/
def loseRings (port code : Nat) (s : State) : State := releasePort port (bump (0x1070 + port) 0x0D 1 (stopRings port code s))

/-- A port's link goes down: its rings are lost with LINK_DOWN (05 R165). -/
def loseLink (port : Nat) (s : State) : State := loseRings port 4 s

/-- The link of a port goes down (05 R165). -/
def execLinkDown (port : Nat) (s : State) : Host.Outcome State Fault Refusal :=
  if (linkAt s port).state = .down then .next s
  else .next (loseLink port (modLink port (fun l =>
    { l with state := .down, width := 0, rate := 0, retraining := false }) s))

/-- Entry to D3hot disables the port's rings as a link loss does (05 R141, R162). -/
def execD3hotEntry (port : Nat) (s : State) : Host.Outcome State Fault Refusal :=
  if linkUp (linkAt s port) && !(linkAt s port).d3hot then
    .next (loseLink port (modLink port (fun l => { l with d3hot := true }) s))
  else .next s

/-- The link state of a code of OD 0x1070 + port .01. -/
def linkOfCode (c : Nat) : LinkState := if c = 1 then .training else if c = 2 then .upPcie else if c = 3 then .upCxl else .down

/-- A port's link comes up, or a link in use starts retraining (state code 1): its state, width and rate take their
values; where a link that was up comes up below R142, its rings are lost with DEGRADED (05 R141 to R143, R165). (log 121, DEDUCED.) -/
def execLinkUp (port state width rate : Nat) (s : State) : Host.Outcome State Fault Refusal :=
  if !mainOn s then .next s
  else if state = 1 && linkUp (linkAt s port) then
    .next (modLink port (fun l => { l with state := .training, retraining := true }) s)
  else
    let t := modLink port (fun l =>
      { l with state := linkOfCode state, width := width, rate := rate, d3hot := false, retraining := false }) s
    if !linkUp (linkAt s port) then .next t
    else if state != 2 && state != 3 then .next s
    else if ringsOk (linkAt s port) && !ringsOk (linkAt t port) then .next (loseRings port 6 t)
    else .next t

/-- Retraining ends: at x4 or x8 and 64 GT/s the held records are written; below that the rings of the port are lost with DEGRADED (05 R143,
R165). -/
def execRetrainEnd (port state width rate : Nat) (s : State) : Host.Outcome State Fault Refusal :=
  if (linkAt s port).retraining then
    let s := modLink port (fun l =>
      { l with state := linkOfCode state, width := width, rate := rate, retraining := false }) s
    if ringsOk (linkAt s port) then .next (releasePort port s)
    else .next (loseRings port 6 s)
  else .next s

/-- A completion ring's vector when the coalesce time has passed since the first record after its last interrupt
(05 R162). -/
def execCoalesceTimeout (port part cq : Nat) (s : State) : Host.Outcome State Fault Refusal :=
  let c := cqAt s port part cq
  match c.firstAt with
  | some t =>
    if c.coalT != 0 && c.since != 0 && t + 1000 * c.coalT ≤ s.clock.now && ringsOk (linkAt s port) then
      .next (sendVector port c.vector (modCq port part cq (fun c => { c with since := 0, firstAt := none }) s))
    else .next s
  | none => .next s

end Sys2Proof.Machine
end

