-- ==== Sys2Proof/Machine/Access.lean ====
section
/-! DEFINITION. Accesses of the tiles' units under the partition firewall (03 R81, R82), and the role of a tile. -/

namespace Sys2Proof.Machine

open Sys2Proof

/-- The size of a tile's SRAM (01 R13, 07 R207). -/
def tileSram : Nat := 0x13000000

/-- The key of a byte of a tile's SRAM in the memory. -/
def tileKey (t a : Nat) : Nat := 0x100000000 * t + a

/-- What a physical tile serves: the key of the slot that holds it, its logical tile, its stage and the stage's entry (03 R85,
R91, R101). -/
def tileRole (s : State) (t : Nat) : Option (Nat × Nat × Nat × Stage) :=
  match KMap.find s.claims.tileOwner t with
  | none => none
  | some k =>
    let sl := KMap.getD s.slots k {}
    match sl.image, (List.range sl.tileMap.length).find? (fun l => nth sl.tileMap l 255 = t) with
    | some im, some l =>
      ((List.range im.stages.length).find? (fun i =>
        let g := nth im.stages i {}
        g.firstTile ≤ l && l < g.firstTile + g.tiles)).map (fun i => (k, l, i, nth im.stages i {}))
    | _, _ => none

/-- The partition whose image holds a tile, or SYSTEM. -/
def tilePart (s : State) (t : Nat) : Nat := match tileRole s t with | some (k, _, _, _) => k / 4 | none => ownSystem

/-- The 4 KiB granules that a range touches. -/
def granules (a n : Nat) : List Nat :=
  if n = 0 then [] else (List.range ((a + n - 1) / 4096 - a / 4096 + 1)).map (fun i => a / 4096 + i)

/-- Whether an owner may access a range of a tile's SRAM (03 R81 to R83). -/
def tileAllowed (s : State) (own t a n : Nat) : Bool :=
  own = ownSystem || (granules a n).all (fun g => ownerOf s 0 t (max a (4096 * g)) = own)

/-- A read of tile SRAM: zeros where the firewall stops it (03 R82). -/
def tileGet (own t a n : Nat) (s : State) : Bytes × State :=
  if tileAllowed s own t a n then (Memory.readN s.mem.tile (tileKey t a) n, s)
  else (List.replicate n 0, firewallHit own (srcTile t) a s)

/-- A write of tile SRAM: dropped where the firewall stops it (03 R82). -/
def tilePut (own t a : Nat) (bs : Bytes) (s : State) : State :=
  if tileAllowed s own t a bs.length then s.modMem (fun m => { m with tile := Memory.writeN m.tile (tileKey t a) bs })
  else firewallHit own (srcTile t) a s

/-- Whether a range lies in tile SRAM. (log 124, DEDUCED.) -/
def inSram (a n : Nat) : Bool := a + n ≤ tileSram

/-- The owner tag of a byte of hub SRAM: an image's claim or a tier object, else SYSTEM (03 R100, 14 R386). (log 93, DEDUCED.) -/
def hubOwner (s : State) (hub a : Nat) : Nat :=
  match s.claims.regions.find? (fun r => r.space = 2 && r.base ≤ a && a < r.base + r.size) with
  | some r => r.owner
  | none =>
    match s.data.tiers.objs.find? (fun e => e.2.tier = 2 && e.2.base ≤ 0x100000000 * hub + a && 0x100000000 * hub + a < e.2.base + e.2.size) with
    | some e => e.1 / 65536
    | none => ownSystem

/-- What an access of a memory answers: it still waits, a bus error, a failed unit, the firewall's zeros, or bytes. -/
inductive Got where
  | wait
  | bus
  | failed
  | fire
  | data (b : Bytes)
deriving DecidableEq, Repr

/-- Two parts of one access joined. -/
def Got.join (x y : Got) : Got :=
  match x, y with
  | .wait, _ => .wait
  | _, .wait => .wait
  | .failed, _ => .failed
  | _, .failed => .failed
  | .fire, _ => .fire
  | _, .fire => .fire
  | .bus, _ => .bus
  | _, .bus => .bus
  | .data a, .data b => .data (a ++ b)

/-- One part of a Carr read within a 4 KiB granule: it waits while its pseudo-channel is not in NORMAL mode (08 R245, R246). -/
def carrGetPart (s : State) (own a n : Nat) : Got :=
  match carrDecode a with
  | .bad => .bus
  | .flag off =>
    .data (slice ((List.range ((n + 7) / 8 + 1)).flatMap (fun i => toLE 8 (readyWord s (off / 8 + i)))) (off % 8) n)
  | .dram pc l =>
    if stackDead s pc then .failed
    else if (pcAt s pc).mode != .normal then .wait
    else if own != ownSystem && dramOwner s pc l != own then .fire
    else if (burstsOf (dramKey pc l) n).any (fun b => s.carr.poison.contains b) then .bus
    else .data (Memory.readN s.mem.carr (dramKey pc l) n)

/-- A Carr read cut at 4 KiB boundaries (08 R234). -/
def carrGet (fuel : Nat) (s : State) (own a n : Nat) : Got :=
  match fuel with
  | 0 => .data []
  | k + 1 =>
    let c := min n (4096 - a % 4096)
    if n ≤ c then carrGetPart s own a n else (carrGetPart s own a c).join (carrGet k s own (a + c) (n - c))

/-- Whether a Carr write can take effect now: none of its pseudo-channels is in a window or DRAIN (08 R246). -/
def carrPutReady (fuel : Nat) (s : State) (own a n : Nat) : Got :=
  match fuel with
  | 0 => .data []
  | k + 1 =>
    let c := min n (4096 - a % 4096)
    let one : Got := match carrDecode a with
      | .dram pc l =>
        if stackDead s pc then .failed
        else if (pcAt s pc).mode != .normal then .wait
        else if own != ownSystem && dramOwner s pc l != own then .fire
        else .data []
      | _ => .bus
    if n ≤ c then one else one.join (carrPutReady k s own (a + c) (n - c))

/-- Bytes written at an address of the Carr address space, granule by granule. -/
def carrPut (fuel a : Nat) (bs : Bytes) (s : State) : State :=
  match fuel with
  | 0 => s
  | k + 1 =>
    if bs.isEmpty then s
    else
      let c := 4096 - a % 4096
      let s := match carrDecode a with
        | .dram pc l => writePc pc l (bs.take c) s
        | _ => s
      carrPut k (a + c) (bs.drop c) s

/-- Whether a range of the Carr address space is populated (08 R232 to R234). -/
def carrPopulated (a n : Nat) (flags : Bool) : Bool :=
  (granules a n).all (fun g => match carrDecode (max a (4096 * g)) with | .dram _ _ => true | .flag _ => flags | .bad => false)

/-- A normal request that meets a window is counted as it is issued (08 OD 0x6100.07). -/
def noteCarrWait (a : Nat) (s : State) : State :=
  match carrDecode a with
  | .dram pc _ => if (pcAt s pc).mode = .pnm && !stackDead s pc then bump 0x6100 0x07 1 s else s
  | _ => s

/-- Whether a cell lies in the run of a slot's image (15 R418). -/
def cellInRun (s : State) (k c : Nat) : Bool :=
  let sl := KMap.getD s.slots k {}
  sl.cellBase ≤ c && c < sl.cellBase + sl.cellCount

/-- A unit's completion signal: its signal field's cell, where enabled (07 R208; 10 R299; 11 R331). -/
def raiseField (part field : Nat) (s : State) : State :=
  if bit field 15 then signalCell part (field % 2048) s else s

/-- A Carr core message or other record of a detected error marked: the first of a stage and slot is retried, a later one is lost
work (03 R97). Whether the stage had one already. -/
def markError (k stage : Nat) (s : State) : Bool × State :=
  (s.units.erred.contains (16 * k + stage), s.modUnits (fun u =>
    { u with erred := if u.erred.contains (16 * k + stage) then u.erred else u.erred ++ [16 * k + stage] }))

/-- The queries of the batch that stands in a stage. -/
def runningQueries (s : State) (k stage : Nat) : List Nat :=
  ((KMap.getD s.slots k {}).batches.filter (fun b => b.at_ = .inStage stage)).flatMap (·.queries)

/-- The batch that stands in a stage. -/
def runningBatch (s : State) (k stage : Nat) : Option Batch :=
  (KMap.getD s.slots k {}).batches.find? (fun b => b.at_ = .inStage stage)

end Sys2Proof.Machine
end

