-- ==== Sys2Proof/Machine/Filter.lean ====
section
/-! DEFINITION. Filter expressions (06 R191, R192). -/

namespace Sys2Proof.Machine

open Sys2Proof

/-- One filter instruction on a stack; none where it is malformed (06 R191). -/
def filterStep (attrs w : Nat) (st : List Bool) : Option (List Bool) :=
  let op := bits w 15 12
  let a := bits w 5 0
  if bits w 11 6 != 0 || (2 < op && a != 0) then none
  else if op = 1 || op = 2 then (if 6 ≤ st.length then none else some ((bit attrs a != (op = 2 : Bool)) :: st))
  else match st with
    | [] => none
    | x :: [] => if op = 6 then some [!x] else none
    | x :: y :: r =>
      if op = 3 then some ((y && x) :: r)
      else if op = 4 then some ((y || x) :: r)
      else if op = 5 then some ((y != x) :: r)
      else if op = 6 then some ((!x) :: y :: r)
      else if op = 7 then some ((y && !x) :: r)
      else none

/-- The value of a filter block for an attribute word; none for a malformed block (06 R191). -/
def filterValue (b : Bytes) (attrs : Nat) : Option Bool :=
  let n := leAt b 1 1
  if leAt b 0 1 != 1 || n = 0 || 28 < n || leAt b 2 6 != 0 || leAt b (8 + 2 * n) (56 - 2 * n) != 0 then none
  else
    match (List.range n).foldl (fun (st : Option (List Bool)) i => st.bind (filterStep attrs (leAt b (8 + 2 * i) 2))) (some []) with
    | some [v] => some v
    | _ => none

end Sys2Proof.Machine
end

