-- ==== Sys2Proof/Machine/Hubs.lean ====
section
/-! DEFINITION. Heartbeats, the silence of a peer and the change of primacy (02 R62 to R70, R625). -/

namespace Sys2Proof.Machine

open Sys2Proof

/-- The preferred primary: 0 HN, 1 HS (02 OD 0x1020.03); while a hub updates it is that hub (19 R556). -/
def preferredHub (s : State) : Nat :=
  match s.island.update with
  | some u => if u.booted then rwVal s 0x1020 0x03 0 else u.hub
  | none => rwVal s 0x1020 0x03 0

/-- The other hub. -/
def otherHub (h : Nat) : Nat := if h = 0 then 1 else 0

/-- The byte of OD 0x1020.05: paths up and the peer silent (02). A path is up unless a present hub takes it as failed. -/
def pathsByte (s : State) : Nat :=
  let n := s.hubs.hn
  let m := s.hubs.hs
  b2n (!(n.failedA || m.failedA)) + 2 * b2n (!(n.failedB || m.failedB)) + 4 * b2n (n.silent || m.silent)

/-- Whether both heartbeat paths work (02 R70). -/
def pathsUp (s : State) : Bool :=
  !(s.hubs.hn.failedA || s.hubs.hs.failedA || s.hubs.hn.failedB || s.hubs.hs.failedB)

/-- Whether the passive hub's mirror lags (02 R70). -/
def mirrorLags (s : State) : Bool := s.hubs.acked < s.hubs.issued || s.hubs.solo || s.hubs.resync

/-- Whether the passive hub reports a health fault (02 R70). -/
def passiveFault (s : State) : Bool :=
  match primaryHub s with
  | some h => (hubSide s (otherHub h)).fault || (countVal s 0xA002 0x01 0).testBit (58 + otherHub h)
      || countVal s 0xA010 0x03 0 = 6
  | none => true

/-- The reason a handover is refused, if any (02 R70, 22 R612 code 0x0103). -/
def handoverBar (s : State) : Option Nat :=
  if !pathsUp s then some 0 else if mirrorLags s then some 1 else if passiveFault s then some 2 else none

/-- The time since the last heartbeat a hub received on either path (02 R66). -/
def sinceHeartbeat (s : State) (h : Nat) : Nat := s.clock.now - max (hubSide s h).lastA (hubSide s h).lastB

/-- The staging of a hub that is gone is lost, and the new primary records it (22 R615). -/
def loseStaging (h o : Nat) (s : State) : State :=
  if (hubSide s o).present || (getStaging s.tele.annals o).events.isEmpty then s
  else annal 0x0001 3 ownDevice (srcHub h) (toLE 4 0xFFFFFFFF ++ toLE 12 0)
    (s.modTele (fun t => { t with annals := putStaging t.annals o {} }))

/-- A hub takes primacy: a higher epoch that every unit then fences with (02 R62), the change counted and recorded, and
FT continued (17 R485). Ticks that fell due while no hub was primary have passed (17 R494). (log 65, DEDUCED.) -/
def takePrimacy (h : Nat) (solo : Bool) (epoch cause : Nat) (s : State) : State :=
  let o := otherHub h
  let old := match primaryHub s with | some k => k | none => o
  let s := modHub h (fun u => { u with primary := true, deciding := true, epoch := epoch, due := none }) s
  let s := modHub o (fun u => { u with primary := false, deciding := false }) s
  let s := s.modHubs (fun u => { u with solo := solo, resync := false, unitEpoch := max u.unitEpoch epoch, grant := none })
  let s := s.modClock (fun c => { c with ft := max c.ft c.mirrored, mirrored := max c.ft c.mirrored })
  let s := if s.clock.state = .unset then s else s.modAlm (fun a => { a with lastTick := max a.lastTick (s.clock.ft / 1024) })
  let s := loseStaging h o (resumeCells s)
  annal 0x0101 1 ownDevice (srcHub h) ([BitVec.ofNat 8 old, BitVec.ofNat 8 h, BitVec.ofNat 8 cause, 0] ++ toLE 4 epoch)
    (bump 0x1020 0x06 1 s)

/-- A hub sends a heartbeat on both paths every 5 µs (02 R64). -/
def execHeartbeatSend (hub : Nat) (s : State) : Host.Outcome State Fault Refusal :=
  let u := hubSide s hub
  if u.present && u.lastSent + 5000 ≤ s.clock.now then
    let beat (p : Nat) : Out := .heartbeat hub p u.epoch u.primary u.deciding (if u.primary then s.hubs.issued else s.hubs.acked)
    .next (emit (beat 1) (emit (beat 0) (modHub hub (fun u => { u with lastSent := s.clock.now }) s)))
  else .next s

/-- The hub's answer to a heartbeat that ends the silence of its peer (02 R625, the table). (log 64, DEDUCED.) -/
def settleAfterSilence (hub epoch : Nat) (peerPrimary peerDeciding : Bool) (s : State) : State :=
  let u := hubSide s hub
  let s := modHub hub (fun u => { u with silent := false, alarm := false }) s
  if u.primary && u.deciding then
    (modHub hub (fun u => { u with due := none }) s).modHubs (fun v => { v with resync := v.solo })
  else if u.primary then
    let s := modHub hub (fun u => { u with primary := false, due := none }) s
    if peerPrimary then s
    else emit (.grant (otherHub hub) (max u.epoch epoch + 1))
      (s.modHubs (fun v => { v with grant := some ⟨otherHub hub, max u.epoch epoch + 1, s.clock.now⟩ }))
  else if peerPrimary && peerDeciding then modHub hub (fun u => { u with due := none }) s
  else s

/-- A heartbeat arrives on a path (02 R64, R625). -/
def execHeartbeatReceive (hub path epoch : Nat) (primary deciding : Bool) (mirror : Nat) (s : State) :
    Host.Outcome State Fault Refusal :=
  let u := hubSide s hub
  if u.present then
    let now := s.clock.now
    let s1 := modHub hub (fun u => if path = 0 then { u with lastA := now, failedA := false }
      else { u with lastB := now, failedB := false }) s
    let s2 := if u.silent then settleAfterSilence hub epoch primary deciding s1 else s1
    let s3 := if primary && (hubSide s2 hub).primary && (hubSide s2 hub).epoch < epoch then
        modHub hub (fun u => { u with primary := false, deciding := false, due := none }) s2
      else s2
    let s4 := if (hubSide s3 hub).primary then s3.modHubs (fun v => { v with acked := max v.acked (min mirror v.issued) })
      else modHub hub (fun u => { u with epoch := max u.epoch epoch }) s3
    .next (settle s4)
  else .next s

/-- A hub takes its peer as silent: it acts on the preference (02 R66). A primary already in solo mode stays so (19 R556). -/
def takeSilent (hub : Nat) (s : State) : State :=
  let u := hubSide s hub
  let last := max u.lastA u.lastB
  let s := modHub hub (fun u => { u with silent := true }) s
  if u.primary && s.hubs.solo then s
  else if preferredHub s = hub then modHub hub (fun u => { u with due := some (last + 60000) }) s
  else if u.primary then modHub hub (fun u => { u with deciding := false, due := some (last + 50000) }) s
  else emit (.peerSilent hub) (modHub hub (fun u => { u with alarm := true }) s)

/-- A path with no heartbeat for 25 µs is taken as failed; with both failed the peer is silent (02 R64 to R66). -/
def execHeartbeatPathTimeout (hub path : Nat) (s : State) : Host.Outcome State Fault Refusal :=
  let u := hubSide s hub
  let last := if path = 0 then u.lastA else u.lastB
  let failed := if path = 0 then u.failedA else u.failedB
  if u.present && !failed && last + 25000 ≤ s.clock.now then
    let s := modHub hub (fun u => if path = 0 then { u with failedA := true } else { u with failedB := true }) s
    let s := if (hubSide s hub).failedA && (hubSide s hub).failedB then takeSilent hub s else s
    .next (settle (annal 0x0102 2 ownDevice (srcHub hub) [BitVec.ofNat 8 (pathsByte s)] s))
  else .next s

/-- At 50 µs a non-preferred primary that has stopped deciding is passive (02 R66). -/
def execPassiveDeadline (hub : Nat) (s : State) : Host.Outcome State Fault Refusal :=
  let u := hubSide s hub
  match u.due with
  | some d =>
    if u.present && u.primary && !u.deciding && preferredHub s != hub && d ≤ s.clock.now then
      .next (settle (emit (.peerSilent hub)
        (modHub hub (fun u => { u with primary := false, due := none, alarm := true }) s)))
    else .next s
  | none => .next s

/-- At 60 µs the preferred hub enters solo mode, or takes primacy in solo mode with epoch + 1 (02 R66). -/
def execSoloDeadline (hub : Nat) (s : State) : Host.Outcome State Fault Refusal :=
  let u := hubSide s hub
  match u.due with
  | some d =>
    if u.present && preferredHub s = hub && d ≤ s.clock.now then
      if u.primary then
        .next (settle (resumeCells ((modHub hub (fun u => { u with due := none }) s).modHubs (fun v => { v with solo := true }))))
      else .next (settle (takePrimacy hub true (max u.epoch s.hubs.unitEpoch + 1) 1 s))
    else .next s
  | none => .next s

/-- The firmware state and result set (19 OD 0xA010.03, .04), with their record (22 R612). -/
def setFirmware (state result : Nat) (s : State) : State :=
  annal 0x0803 1 ownDevice srcDevice (toLE 1 state ++ toLE 1 result) (setCount 0xA010 0x04 result (setCount 0xA010 0x03 state s))

/-- The boot record after a finished update names the updated slot active, with no trial (20 R566). -/
def finishRecord (s : State) : State :=
  match bootRecord s with
  | some r => writeBoot { r with active := 1 - r.active, trial := 0xFF, count := 0 } s
  | none => s

/-- A failed update: the trial is cleared and the active slot unchanged (19 R556, 20 R566). -/
def failUpdate (s : State) : State :=
  let s := match bootRecord s with
    | some r => writeBoot { r with trial := 0xFF, count := 0 } s
    | none => s
  setFirmware 6 (countVal s 0xA010 0x04 0) (s.modIsland (fun i => { i with update := none }))

/-- The handover of a hub update asked for at the next step boundary (19 R556; 02 R69). -/
def updateHandover (s : State) : State :=
  match entryAt s 1 with
  | some e => redirectEntry 1 { e with fire := nextBoundary s } s
  | none => placeShot 1 0x07 0 (nextBoundary s) ownSystem 0 s

/-- What a hub update does once its hub is in step with the mirror: the first hub takes primacy by a handover, the second one ends the
update (19 R556). -/
def updateResynced (s : State) : State :=
  match s.island.update with
  | some u =>
    if !u.booted then s
    else if u.second then
      setFirmware 0 0 (finishRecord (s.modIsland (fun i => { i with update := none, staged := false, running := 1 - i.running })))
    else updateHandover (setFirmware 3 0 s)
  | none => s

/-- After the handover of a hub update the new passive hub is reset and updated; the primary is in solo mode meanwhile (19 R556). -/
def updateHandedOver (s : State) : State :=
  match s.island.update, primaryHub s with
  | some u, some h =>
    if u.booted && !u.second && u.hub = h then
      let s := s.modIsland (fun i => { i with update := some { hub := otherHub h, second := true } })
      let s := modHub (otherHub h) (fun v => { v with present := false }) s
      setFirmware 4 0 (s.modHubs (fun v => { v with solo := true }))
    else s
  | _, _ => s

/-- A handover of an update refused at its firing is tried again at each of the next 8 step boundaries, then the update fails (19 R556). -/
def updateRefused (s : State) : State :=
  match s.island.update with
  | some u =>
    if u.booted && !u.second then
      if u.tries < 8 then updateHandover (s.modIsland (fun i => { i with update := some { u with tries := u.tries + 1 } }))
      else failUpdate s
    else s
  | none => s

/-- When the passive hub has resynchronised the mirror, the primary leaves solo mode (02 R625; 19 R556). -/
def execMirrorResyncDone (s : State) : Host.Outcome State Fault Refusal :=
  if s.hubs.resync then
    .next (settle (updateResynced (s.modHubs (fun v => { v with solo := false, resync := false, acked := v.issued }))))
  else .next s

/-- A planned handover asked for at an instant, 0 the next step boundary (02 R69, R70): refused with STATE, or the
HANDOVER entry placed. -/
def requestHandover (v : Nat) (s : State) : Status × State :=
  match handoverBar s with
  | some _ => (.state, s)
  | none => (.ok, placeShot 1 0x07 0 (instantTick s v) ownSystem 0 s)

/-- A write of the preferred primary (02 R67, R70): with both paths working it starts a planned handover when it names
the passive hub; with the peer silent and no hub primary, the hub it names takes primacy in solo mode. -/
def writePreferred (path : Path) (v : Nat) (s : State) : Status × State :=
  let s' := setRw 0x1020 0x03 v s
  match primaryHub s with
  | some h =>
    if pathsUp s && h != v then
      match requestHandover 0 s with
      | (.ok, _) => (.ok, (requestHandover 0 s').2)
      | (st, _) => (st, s)
    else (.ok, s')
  | none =>
    match path with
    | .side port _ =>
      if port = v && (hubSide s v).present && (hubSide s v).silent then
        (.ok, takePrimacy v true (max (hubSide s v).epoch s.hubs.unitEpoch + 1) 3 s')
      else (.ok, s')
    | _ => (.ok, s')

/-- The HANDOVER entry fires: the conditions are judged again, and the primary sends a grant with epoch + 1 (02 R69,
R70). -/
def execHandoverFiring (s : State) : Host.Outcome State Fault Refusal :=
  match firingOf s 1, primaryHub s with
  | some _, some h =>
    let s := actedFiring 1 s
    match handoverBar s with
    | some r => .next (updateRefused (annal 0x0103 2 ownDevice (srcHub h) [BitVec.ofNat 8 r] s))
    | none =>
      let e := max (hubSide s h).epoch s.hubs.unitEpoch + 1
      let s := modHub h (fun u => { u with primary := false, deciding := false }) s
      .next (emit (.grant (otherHub h) e)
        (s.modHubs (fun v => { v with grant := some ⟨otherHub h, e, s.clock.now⟩ })))
  | _, _ => .next s

end Sys2Proof.Machine
end

