-- ==== Sys2Proof/Machine/Peat.lean ====
section
/-! DEFINITION. Peat: the compressed formats, their blocks and groups (12). -/

namespace Sys2Proof.Machine

open Sys2Proof

/-- Whether a byte is a Peat-A format code (12 R337). -/
def peatA (code : Nat) : Bool := code / 16 = 2 && bits code 3 2 < 3 && bits code 1 0 < 3

/-- Whether a byte is a Peat-W format code (12 R337). -/
def peatW (code : Nat) : Bool := code = 0x10 || code = 0x11

/-- The values that a Peat-A block holds: K of its rate (12 R344). -/
def peatK (code : Nat) : Nat := if bits code 1 0 = 0 then 24 else if bits code 1 0 = 1 then 16 else 8

/-- The size of a Peat-A block (12 R344). -/
def peatBlock (code : Nat) : Nat := 8 + peatK code

/-- The size of a Peat-A tensor of n elements (12 R348). -/
def peatSize (code n : Nat) : Nat := roundUp (ceilDiv n 64) 8 * peatBlock code

/-- The value of an element byte: element 0 INT8, 1 E4M3, 2 E5M2 (07 R204, 12 R337). -/
def elementValue (elem v : Nat) : Fl :=
  if elem = 0 then ofScaled (signedOf 8 v) 0 else if elem = 1 then fmtE4M3.decode v else fmtE5M2.decode v

/-- Whether an element is zero (12 R345). -/
def elementZero (elem v : Nat) : Bool := if elem = 0 then v = 0 else v % 128 = 0

/-- The magnitude by which an encoder keeps elements (12 R346). -/
def elementRank (elem v : Nat) : Nat :=
  if elem = 0 then (signedOf 8 v).natAbs
  else if elem = 1 then v % 128
  else min (v % 128) 0x7D

/-- The elements of a decoded block, by the set bits of its bitmap in ascending order (12 R347). -/
def spreadBlock (bitmap k i : Nat) (fuel : Nat) (vals : Bytes) : Bytes :=
  match fuel with
  | 0 => []
  | f + 1 =>
    if bit bitmap i && 0 < k then
      match vals with
      | v :: r => v :: spreadBlock bitmap (k - 1) (i + 1) f r
      | [] => 0 :: spreadBlock bitmap (k - 1) (i + 1) f []
    else 0 :: spreadBlock bitmap k (i + 1) f vals

/-- A Peat-A block decoded to 64 element bytes, and whether it is malformed (12 R347). -/
def decodeBlock (code : Nat) (b : Bytes) : Bytes × Bool :=
  let m := leAt b 0 8
  (spreadBlock m (peatK code) 0 64 (slice b 8 (peatK code)), peatK code < ((List.range 64).filter (fun i => bit m i)).length)

/-- Whether element i is kept: fewer than K others precede it by magnitude, then index (12 R346). -/
def keepElement (elem k : Nat) (e : Bytes) (i : Nat) : Bool :=
  let v (j : Nat) : Nat := (nth e j 0).toNat
  !elementZero elem (v i) &&
  ((List.range 64).filter (fun j => !elementZero elem (v j) && (elementRank elem (v i) < elementRank elem (v j) ||
    (elementRank elem (v j) = elementRank elem (v i) && j < i)))).length < k

/-- A Peat-A block of 64 element bytes, and whether it overflows (12 R344 to R346). -/
def encodeBlock (code : Nat) (e : Bytes) : Bytes × Bool :=
  let elem := bits code 3 2
  let keep := (List.range 64).filter (keepElement elem (peatK code) e)
  let n := ((List.range 64).filter (fun i => !elementZero elem (nth e i 0).toNat)).length
  (toLE 8 (keep.foldl (fun a i => a + 2 ^ i) 0) ++ padTo (peatK code) (keep.map (fun i => nth e i 0)), peatK code < n)

/-- Blocks decoded one after another, with the count of malformed ones. -/
def decodeBlocks (fuel code : Nat) (b : Bytes) : Bytes × Nat :=
  match fuel with
  | 0 => ([], 0)
  | f + 1 =>
    let d := decodeBlock code (slice b 0 (peatBlock code))
    let r := decodeBlocks f code (b.drop (peatBlock code))
    (d.1 ++ r.1, b2n d.2 + r.2)

/-- Blocks encoded one after another, with the count of overflows. -/
def encodeBlocks (fuel code : Nat) (e : Bytes) : Bytes × Nat :=
  match fuel with
  | 0 => ([], 0)
  | f + 1 =>
    let d := encodeBlock code (slice e 0 64)
    let r := encodeBlocks f code (e.drop 64)
    (d.1 ++ r.1, b2n d.2 + r.2)

/-- Whether a Peat-W header passes its check for a weight reference's format and size (12 R339, R340). (log 88, DEDUCED.) -/
def peatHeaderOk (h : Bytes) (format size : Nat) : Bool :=
  let nr := leAt h 8 4
  let nc := leAt h 12 4
  let body := nr / 128 * (nc / 128) * 8704
  let f := leAt h 6 1
  let fin (v : Nat) : Bool := match elementValue (if f = 0x10 then 1 else 2) v with | .fin _ _ _ => true | _ => false
  leAt h 0 4 = 0x54414550 && leAt h 4 1 = 1 && leAt h 5 1 = 0 && peatW f && f = format
  && nr != 0 && nr % 128 = 0 && nc != 0 && nc % 128 = 0 && leAt h 32 8 = body && 64 + body = size
  && (List.range 16).all (fun i => fin (leAt h (16 + i) 1)) && leAt h 7 1 = 0 && leAt h 40 20 = 0
  && leAt h 60 4 = crc32 (slice h 0 60)

/-- The 64 weights of a Peat-W group under a codebook (12 R342, R343). -/
def expandGroup (book g : Bytes) : Bytes :=
  (List.range 64).map (fun i =>
    let b := (nth g (i / 2) 0).toNat
    nth book (if i % 2 = 0 then b % 16 else b / 16) 0)

/-- The elements of a gradient as F32, with the count of malformed blocks: BF16, or Peat-A behind its 64-byte header (05 R156; 12
R349, R350). -/
def gradient (format d : Nat) (payload : Bytes) : List Nat × Nat :=
  if format = 0 then ((List.range d).map (fun i => 65536 * leAt payload (2 * i) 2), 0)
  else
    let r := decodeBlocks (ceilDiv d 64) format (payload.drop 64)
    let sc := leAt payload 0 4
    ((List.range d).map (fun i => mulF32 (toF32 (elementValue (bits format 3 2) (nth r.1 i 0).toNat)) sc), r.2)

end Sys2Proof.Machine
end

