-- ==== Sys2Proof/Machine/Tables.lean ====
section
/-! DEFINITION. Embedding tables: records, updates, hot rows, partners and replicas (14 R392 to R412). -/

namespace Sys2Proof.Machine

open Sys2Proof

/-- The object of a table (14, Objects of this chapter). -/
def tableObj (p t : Nat) : Nat := 0x6400 + 0x40 * p + t

/-- A table by its key, 64 × partition + table. -/
def tableAt (s : State) (k : Nat) : Option Table := KMap.find s.data.tables k

/-- The state with one table replaced. -/
def putTable (k : Nat) (t : Table) (s : State) : State := s.modData (fun d => { d with tables := KMap.put d.tables k t })

/-- The object of a table's key. -/
def tabObj (k : Nat) : Nat := tableObj (k / 64) (k % 64)

/-- Where the row of a key stands: class number, class, shard, row; none for an absent key (14 R393, R394). -/
def locateRow (t : Table) (key : Nat) : Option (Nat × WidthClass × Nat × Nat) :=
  let row := bits key 31 0
  if t.shards ≤ bits key 63 48 || bits key 47 32 != 0 || t.rows ≤ row then none
  else ((List.range t.classes.length).reverse.find? (fun c => (nth t.classes c ⟨0, 0, false, 0⟩).first ≤ row)).map
    (fun c => (c, nth t.classes c ⟨0, 0, false, 0⟩, bits key 63 48, row))

/-- Whether this node owns a shard (14 R393). -/
def Table.owns (t : Table) (sh : Nat) : Bool := t.firstOwned ≤ sh && sh ≤ t.lastOwned

/-- Whether this node is the partner of a shard. -/
def Table.partners (t : Table) (sh : Nat) : Bool := t.lastPart != 0xFFFF && t.firstPart ≤ sh && sh ≤ t.lastPart

/-- The stride of a class (14 R395). -/
def Table.stride (t : Table) (c : WidthClass) : Nat := recordStride t c

/-- The rows of a class per shard. -/
def Table.classRows (t : Table) (c : Nat) : Nat :=
  (if c + 1 < t.classes.length then (nth t.classes (c + 1) ⟨0, 0, false, 0⟩).first else t.rows) - (nth t.classes c ⟨0, 0, false, 0⟩).first

/-- The shards of a class held here. -/
def Table.heldShards (t : Table) (c : WidthClass) : Nat :=
  if c.replicated then t.shards else (t.lastOwned + 1 - t.firstOwned) + if t.lastPart = 0xFFFF then 0 else t.lastPart + 1 - t.firstPart

/-- The position of a shard in a class's records, where this node holds it (14 R395). -/
def Table.position (t : Table) (c : WidthClass) (sh : Nat) : Option Nat :=
  if c.replicated then some sh
  else if t.owns sh then some (sh - t.firstOwned)
  else if t.partners sh then some (t.lastOwned + 1 - t.firstOwned + (sh - t.firstPart)) else none

/-- The offset of a row's record in its RECORDS object (14 R395). -/
def recordOffset (t : Table) (key : Nat) : Option (Nat × WidthClass × Nat) :=
  match locateRow t key with
  | none => none
  | some (n, c, sh, row) => (t.position c sh).map (fun p => (n, c, (p * t.classRows n + row - c.first) * t.stride c))

/-- The interleaved base of a class's records. -/
def recordsBase (s : State) (c : WidthClass) : Nat :=
  match KMap.find s.data.tiers.objs c.records with | some o => o.base | none => 0

/-- The interleaved address of a row's record (14 R395). -/
def recordAddr (s : State) (t : Table) (key : Nat) : Option (Nat × WidthClass) :=
  (recordOffset t key).map (fun r => (recordsBase s r.2.1 + r.2.2, r.2.1))

/-- The size of a class's RECORDS object: whole tiles (14 R387, R395). -/
def Table.recordsSize (t : Table) (n : Nat) : Nat :=
  let c := nth t.classes n ⟨0, 0, false, 0⟩
  max 16384 (roundUp (t.heldShards c * t.classRows n * t.stride c) 16384)

/-- The place of a class's persistent copy in the table's namespace: one class after another (log 25). -/
def Table.flashBase (t : Table) (n : Nat) : Nat := (List.range n).foldl (fun a i => a + t.recordsSize i) 0

/-- A record written, and through to the persistent copy while that can be done (14 R411, 19 R542). -/
def writeRecord14 (k : Nat) (t : Table) (key : Nat) (rec : Bytes) (s : State) : State :=
  match recordOffset t key with
  | none => s
  | some (n, c, off) =>
    let s := writeI (recordsBase s c + off) rec s
    let ns := rwVal s (tabObj k) 0x13 0
    if throughOk s then patchSpace 3 ns (t.flashBase n + off) rec s else countThrough s

/-- The classes of a class table, none where an entry breaks R394 or R395. -/
def parseClasses (d : Bytes) (rows : Nat) (adam : Bool) : Option (List WidthClass) :=
  let n := d.length / 16
  let e (i : Nat) : WidthClass := ⟨leAt d (16 * i) 4, leAt d (16 * i + 4) 1, bit (leAt d (16 * i + 5) 1) 0, 0⟩
  let ok (i : Nat) : Bool :=
    6 ≤ (e i).log2 && (e i).log2 ≤ (if adam then 10 else 11) && leAt d (16 * i + 5) 1 < 2 && leAt d (16 * i + 6) 2 = 0
    && leAt d (16 * i + 12) 4 = 0 && (e i).first < rows && (if i = 0 then (e i).first = 0 else (e (i - 1)).first < (e i).first)
  if d.length % 16 = 0 && 1 ≤ n && n ≤ 8 && (List.range n).all ok then some ((List.range n).map e) else none

/-- The table that the objects describe. -/
def tableDraft (s : State) (k : Nat) (cs : List WidthClass) : Table :=
  let v (sub d : Nat) : Nat := rwVal s (tabObj k) sub d
  let h := v 0x0C 0
  { ready := false, classes := cs, shards := bits (v 0x0B 0x00010000) 31 16, firstOwned := bits h 63 48, lastOwned := bits h 47 32,
    firstPart := bits h 31 16, lastPart := bits h 15 0, rows := v 0x0D 0, optimiser := v 3 1, shardMap := v 0x0A 0, hot := v 0x14 0 }

/-- The shard-map entry of a shard (14 R393). -/
def shardEntry (s : State) (k : Nat) (t : Table) (sh : Nat) : Nat :=
  match tierOf s (k / 64) t.shardMap with
  | some o => leNat (readObj o (8 * sh) 8 s).1
  | none => 0

/-- The owner and partner nodes of a shard. -/
def ownerNode (s : State) (k : Nat) (t : Table) (sh : Nat) : Nat := bits (shardEntry s k t sh) 63 47
/-- The partner node of a shard. -/
def partnerNode (s : State) (k : Nat) (t : Table) (sh : Nat) : Nat := bits (shardEntry s k t sh) 46 30

/-- Whether the shard map names this node for its ranges (14 R393). -/
def shardsOk (s : State) (k : Nat) (t : Table) : Bool :=
  (List.range t.shards).all (fun sh =>
    (!t.owns sh || ownerNode s k t sh = nodeId s) && (!t.partners sh || partnerNode s k t sh = nodeId s))

/-- The refusal of a table command (14 OD b .1E), with its status: STATE for IN_USE, RANGE for the others (02 R624). -/
def tableResult (k code : Nat) (s : State) : Status × State :=
  (if code = 0 then .ok else if code = 6 then .state else .range, setCount (tabObj k) 0x1E code s)

/-- The RECORDS object of one class of a table created at the lowest place that fits (14 R387, R392, log 21). -/
def placeRecord (k n : Nat) (x : Table × State) : Option (Table × State) :=
  let size := x.1.recordsSize n
  (freeNumber x.2 (k / 64)).bind (fun m => (carrPlace x.2 size 4096).map (fun a =>
    let o : TierObj := { tier := 3, size := size, place := k % 64, offset := 0, base := a, role := 2 }
    let s := modTiers (fun y => { y with objs := KMap.put y.objs (tierId (k / 64) m) o }) (addRegion ⟨1, 0, a, size, k / 64, .table k⟩ x.2)
    ({ x.1 with classes := x.1.classes.modify n (fun c => { c with records := tierId (k / 64) m }) }, zeroObj o s)))

/-- The RECORDS objects of a table created class by class. -/
def placeRecords (k : Nat) (t : Table) (todo : List Nat) (s : State) : Option (Table × State) :=
  todo.foldl (fun r n => r.bind (placeRecord k n)) (some (t, s))

/-- The class table with the RECORDS ids the device writes (14 R394). -/
def classBytes (d : Bytes) (t : Table) : Bytes :=
  ((List.range t.classes.length).map (fun i =>
    slice d (16 * i) 8 ++ toLE 4 (nth t.classes i ⟨0, 0, false, 0⟩).records ++ slice d (16 * i + 12) 4)).flatten

/-- CREATE of a table (14 R392 to R395). -/
def tableCreate (k : Nat) (s : State) : Status × State :=
  let p := k / 64
  let d := rwDom s (tabObj k) 0x09 []
  if (tableAt s k).isSome then (.state, s)
  else match parseClasses d (rwVal s (tabObj k) 0x0D 0) (rwVal s (tabObj k) 3 1 = 2) with
    | none => tableResult k 1 s
    | some cs =>
      let t := tableDraft s k cs
      let need := t.flashBase cs.length
      let rangeOk := t.firstOwned ≤ t.lastOwned && t.lastOwned < t.shards
        && (t.lastPart = 0xFFFF || (t.firstPart ≤ t.lastPart && t.lastPart < t.shards))
      if t.shards = 0 || 4096 < t.shards || !rangeOk then tableResult k 1 s
      else if !(match tierOf s p t.shardMap with | some o => 8 * t.shards ≤ o.size | none => false) then tableResult k 2 s
      else if 1048576 * rwVal s (0x3000 + 0x10 * p) 0x04 0 < partCarr s p + need then tableResult k 3 s
      else if carrAllocatable s < carrCommitted s + need then tableResult k 4 s
      else if !(match KMap.find s.mire.spaces (rwVal s (tabObj k) 0x13 0) with
          | some n => n.owner = p && need ≤ 16384 * n.size
          | none => false) then tableResult k 5 s
      else if !shardsOk s k t then tableResult k 7 s
      else match placeRecords k t (List.range cs.length) s with
        | none => tableResult k 4 s
        | some (u, v) => tableResult k 0 (setDom (tabObj k) 0x09 (classBytes d u) (putTable k { u with claimed := need } v))

/-- SEAL of a table: the records are locked and persistent, and the refresh chain begins (14 R392, R403). -/
def tableSeal (k : Nat) (s : State) : Status × State :=
  match tableAt s k with
  | none => (.state, s)
  | some t =>
    if t.ready then (.state, s)
    else
      let s := putTable k { t with ready := true } s
      let ns := rwVal s (tabObj k) 0x13 0
      let s := (List.range t.classes.length).foldl (fun s n =>
        let size := t.recordsSize n
        patchSpace (size / 16384 + 1) ns (t.flashBase n) (readI s (recordsBase s (nth t.classes n ⟨0, 0, false, 0⟩)) size) s) s
      let s := if t.hot = 0 then s else
        placeChain (refreshNo (k / 64) (k % 64)) 0x05 (256 * (k / 64) + k % 64) (rwVal s (tabObj k) 0x0F 1024) (k / 64) 0 s
      tableResult k 0 s

/-- DESTROY of a table (14 R392; 03 R84). -/
def tableDestroy (k : Nat) (s : State) : Status × State :=
  match tableAt s k with
  | none => (.state, s)
  | some t =>
    if !t.areas.isEmpty then tableResult k 6 s
    else
      let s := releaseRegions (.table k) (cancelEntry (refreshNo (k / 64) (k % 64)) s)
      let s := modTiers (fun x => { x with objs := t.classes.foldl (fun o c => KMap.del o c.records) x.objs }) s
      tableResult k 0 (s.modData (fun d => { d with tables := KMap.del d.tables k }))

/-- A BF16 element of a byte string widened to F32. -/
def bf16At (b : Bytes) (off : Nat) : Nat := 65536 * leAt b off 2

/-- A BF16 element rounded to nearest even. -/
def toBf16 (v : Nat) : Nat := fmtBf16.encode (f32 v)

/-- The random value of an element (07 R220). -/
def roundingValue (seed key step e : Nat) : Nat :=
  let x := (seed ^^^ key ^^^ (step * 2 ^ 32) ^^^ ((e + 1) * 0x9E3779B97F4A7C15)) % 2 ^ 64
  let y := (x ^^^ (x / 2 ^ 33)) * 0xFF51AFD7ED558CCD % 2 ^ 64
  (y ^^^ (y / 2 ^ 33)) % 65536

/-- A row element stored with stochastic rounding (07 R219). -/
def stochasticBf16 (v r : Nat) : Nat :=
  let sign := v / 2 ^ 31 * 32768
  if isNan32 v then 0x7FC0
  else if v % 2 ^ 31 = 0x7F800000 then sign + 0x7F80
  else
    let out := (v % 2 ^ 31 + r) / 65536
    sign + if bits out 14 7 = 0xFF then 0x7F7F else out

/-- An update of a row as the owner or a forward gives it. -/
structure RowUpdate where
  key      : Nat
  step     : Nat
  rounding : Nat
  opt      : Nat
  format   : Nat
  commit   : Nat
  rates    : List Nat
  payload  : Bytes
deriving DecidableEq, Repr

/-- The sum of squares of a gradient in ascending order (14 R410). -/
def sumSquares (g : List Nat) : Nat := g.foldl (fun a x => addF32 a (mulF32 x x)) 0

/-- The new weights, moments and accumulator of a row (14 R410): weights, first and second moments as F32, accumulator. -/
def rowCompute (u : RowUpdate) (rec : Bytes) (d : Nat) (g : List Nat) : List Nat × List Nat × List Nat × Nat :=
  let lr := nth u.rates 0 0
  let eps := nth u.rates 1 0
  let at_ (base i : Nat) : Nat := bf16At rec (base + 2 * i)
  let gi (i : Nat) : Nat := nth g i 0
  if u.opt = 1 then
    let acc := addF32 (leAt rec 12 4) (divF32 (sumSquares g) (intF32 d))
    let r := divF32 lr (addF32 (sqrtF32 acc) eps)
    ((List.range d).map (fun i => subF32 (at_ 64 i) (mulF32 r (gi i))), [], [], acc)
  else
    let b1 := nth u.rates 2 0
    let b2 := nth u.rates 3 0
    let one := 0x3F800000
    let t := max u.step 1
    let c1 := subF32 one (powF32 b1 t)
    let c2 := subF32 one (powF32 b2 t)
    let m := (List.range d).map (fun i => addF32 (mulF32 b1 (at_ (64 + 2 * d) i)) (mulF32 (subF32 one b1) (gi i)))
    let v := (List.range d).map (fun i => addF32 (mulF32 b2 (at_ (64 + 4 * d) i)) (mulF32 (subF32 one b2) (mulF32 (gi i) (gi i))))
    let w := (List.range d).map (fun i =>
      subF32 (at_ 64 i) (divF32 (mulF32 lr (divF32 (nth m i 0) c1)) (addF32 (sqrtF32 (divF32 (nth v i 0) c2)) eps)))
    (w, m, v, 0)

/-- The record after an update, none where a gradient element or a new value is no finite number (14 R409 cause 0x04, R410). -/
def newRecord (s : State) (p : Nat) (u : RowUpdate) (rec : Bytes) (d : Nat) (g : List Nat) : Option Bytes :=
  let r := rowCompute u rec d g
  let seed := rwVal s (0x3000 + 0x10 * p) 0x11 0
  let row := (List.range d).map (fun i =>
    if u.rounding = 1 then stochasticBf16 (nth r.1 i 0) (roundingValue seed u.key u.step i) else toBf16 (nth r.1 i 0))
  let st := (r.2.1 ++ r.2.2.1).map toBf16
  if (g ++ r.1 ++ r.2.1 ++ r.2.2.1 ++ [r.2.2.2]).all finite32 && (row ++ st).all (fun h => bits h 14 7 != 0xFF) then
    some (toLE 8 u.commit ++ toLE 4 u.step ++ toLE 4 r.2.2.2 ++ slice rec 16 48 ++ (row ++ st).flatMap (toLE 2)
      ++ rec.drop (64 + 2 * (row ++ st).length))
  else none

/-- The HOT areas told that a record has changed: a copy's lag starts (14 R405). -/
def staleCopies (k key c : Nat) (s : State) : State :=
  s.modData (fun d => { d with tables := KMap.modify d.tables k (fun t => { t with areas := t.areas.map (fun a =>
    { a with copies := a.copies.map (fun h => if h.key = key && h.stale.isNone then { h with stale := some c } else h) }) }) })

/-- An update computed on the record of a held row: 0 where it is written, else the cause of R409 (14 R409, R410; 12 R349). -/
def applyRow (k : Nat) (t : Table) (u : RowUpdate) (s : State) : Nat × State :=
  match recordAddr s t u.key with
  | none => (2, s)
  | some (a, c) =>
    if u.opt = 0 then (3, s)
    else if stackDead s (localOf a).1 then (4, s)
    else
      let d := 2 ^ c.log2 / 2
      let g := gradient u.format d u.payload
      let s := bump (0x3000 + 0x10 * (k / 64)) 0x12 g.2 s
      match newRecord s (k / 64) u (readI s a (t.stride c)) d g.1 with
      | none => (4, s)
      | some rec => (0, staleCopies k u.key u.commit (writeRecord14 k t u.key rec s))

/-- The bytes of a forward (14 R406, 16 R462). -/
def forwardBytes (u : RowUpdate) (prev : Nat) : Bytes :=
  padTo 64 (toLE 8 u.key ++ toLE 4 u.step ++ toLE 1 u.rounding ++ toLE 1 u.opt ++ toLE 1 u.format ++ toLE 1 0 ++ toLE 8 u.commit
    ++ toLE 8 prev ++ u.rates.flatMap (toLE 4)) ++ u.payload

/-- The nodes of a replica list (14 OD b .12). -/
def replicaNodes (s : State) (k : Nat) : List Nat :=
  let d := rwDom s (tabObj k) 0x12 []
  (List.range (d.length / 4)).map (fun i => leAt d (4 * i) 4)

/-- An owned row's update forwarded to its partner node and, for a replicated class, to the replicas (14 R406). (log 59, DEDUCED.) -/
def forwardRow (k : Nat) (t : Table) (u : RowUpdate) (prev : Nat) (s : State) : State :=
  match locateRow t u.key with
  | none => s
  | some (_, c, sh, _) =>
    let nodes := [partnerNode s k t sh] ++ (if c.replicated then replicaNodes s k else [])
    nodes.foldl (fun s n =>
      let g := freshTag s
      bump (tabObj k) 0x1C 1 (sendMessage 7 2 n (k / 64) g.1 (toLE 4 (k % 64)) 0 0 0 (forwardBytes u prev) g.2)) s

/-- An EMBED_UPDATE taken by the row updater, or waiting for a window (14 R409 to R411; 19 R543). -/
def embedUpdate (v : Update) (s : State) : State :=
  let k := 64 * v.part + v.desc.w32
  let c := max (s.clock.ft + landNs s v.part) (countVal s (tabObj k) 0x1B 0 + 1)
  let none_ (cause : Nat) (s : State) : State := setCount (tabObj k) 0x17 cause (bump (tabObj k) 0x16 1 s)
  match (tableAt s k).filter (·.ready) with
  | none => takeUpdate v c 0 (none_ 2 (setCount (tabObj k) 0x1B c s))
  | some t =>
    match locateRow t v.desc.w48 with
    | none => takeUpdate v c 0 (none_ 2 (setCount (tabObj k) 0x1B c s))
    | some (_, _, sh, _) =>
      if !t.owns sh then takeUpdate v c 0 (none_ 1 (setCount (tabObj k) 0x1B c s))
      else
        let a := match recordAddr s t v.desc.w48 with | some (a, _) => a | none => 0
        if (pcAt s (localOf a).1).mode = .pnm then s
        else
          let rates := [rwVal s (tabObj k) 4 0x3C23D70A, rwVal s (tabObj k) 5 0x322BCC77, rwVal s (tabObj k) 6 0x3F666666,
            rwVal s (tabObj k) 7 0x3F7FBE77]
          let u : RowUpdate := ⟨v.desc.w48, bits v.desc.w40 31 0, bits v.desc.w34 15 8, t.optimiser, bits v.desc.w34 7 0, c, rates, v.payload⟩
          let prev := leNat (readI s a 8)
          let r := applyRow k t u s
          let s := if r.1 = 0 then bump (tabObj k) 0x15 1 r.2 else none_ r.1 r.2
          takeUpdate v c 0 (forwardRow k t u prev (setCount (tabObj k) 0x1B c s))

/-- The oldest update of a partition applied when it is an EMBED_UPDATE (14 R409). -/
def execEmbedUpdateApply (part : Nat) (s : State) : Host.Outcome State Fault Refusal :=
  match oldestUpdate s part with
  | some u => if u.desc.opcode = 0x12 && mainOn s then .next (settle (embedUpdate u s)) else .next s
  | none => .next s

/-- A row put on the list of those to resynchronise (14 R408). -/
def needResync (k key : Nat) (s : State) : State :=
  s.modData (fun d => { d with tables := KMap.modify d.tables k (fun t => if t.resync.contains key then t else { t with resync := t.resync ++ [key] }) })

/-- Whether the node is current for every other owner of a replicated class (14 R407). (log 58, DEDUCED.) -/
def replicasCurrent (s : State) (k : Nat) (t : Table) : Bool :=
  t.classes.any (·.replicated) &&
  ((List.range t.shards).map (ownerNode s k t)).eraseDups.all (fun n =>
    n = nodeId s || (match KMap.find t.marks n with
      | some m => m.current && s.clock.ft ≤ m.at_ + 1000 * rwVal s (tabObj k) 0x11 50000
      | none => false))

/-- The current flag written into the header of every HOT area of a table (14 R397, R407). -/
def updateCurrent (k : Nat) (s : State) : State :=
  match tableAt s k with
  | none => s
  | some t =>
    let c := replicasCurrent s k t
    let s := t.areas.foldl (fun s a => match KMap.find s.data.tiers.objs a.obj with
      | some o => writeObj o 6 (toLE 1 (b2n c)) s
      | none => s) s
    putTable k { t with areas := t.areas.map (fun a => { a with current := c }) } s

/-- Whether a table is current under R407: no row waits for its record, and the replicated rows of every owner are current. -/
def tableCurrent (s : State) (k : Nat) (t : Table) : Bool := t.resync.isEmpty && (!t.classes.any (·.replicated) || replicasCurrent s k t)

/-- A received forward is applied when the record's commit FT equals its previous one; else the row is resynchronised (14 R406,
R408). A device in role TEST refuses it (19 R553). -/
def execForward (s : State) : Host.Outcome State Fault Refusal :=
  match takeWhole 7 s with
  | none => .next s
  | some (f, b, s) =>
    let k := 64 * f.owner + leAt f.data 0 4 % 64
    match (if rwVal s 0x2001 0x01 3 = 4 then none else (tableAt s k).filter (·.ready)) with
    | none => .next s
    | some t =>
      let u : RowUpdate := ⟨leAt b 0 8, leAt b 8 4, leAt b 12 1, leAt b 13 1, leAt b 14 1, leAt b 16 8,
        (List.range 4).map (fun i => leAt b (32 + 4 * i) 4), b.drop 64⟩
      match recordAddr s t u.key with
      | none => .next s
      | some (a, _) =>
        if leNat (readI s a 8) != leAt b 24 8 || t.resync.contains u.key then .next (updateCurrent k (needResync k u.key s))
        else
          let r := applyRow k t u s
          if r.1 = 0 then .next (settle (bump (tabObj k) 0x1D 1 (bump (tabObj k) 0x15 1 r.2))) else .next r.2

/-- A received whole record is written (14 R408; 16 R462 names no key in the message: the row is the one asked for). -/
def execResyncRecord (key : Nat) (s : State) : Host.Outcome State Fault Refusal :=
  match takeWhole 8 s with
  | none => .next s
  | some (f, b, s) =>
    let k := 64 * f.owner + leAt f.data 0 4 % 64
    match (tableAt s k).filter (·.ready) with
    | none => .next s
    | some t =>
      match recordAddr s t key with
      | none => .next s
      | some (_, c) =>
        if t.resync.contains key && b.length = t.stride c then
          let s := putTable k { t with resync := t.resync.erase key } (bump (tabObj k) 0x19 1 s)
          .next (settle (updateCurrent k (staleCopies k key (leAt b 0 8) (writeRecord14 k t key b s))))
        else .next s

/-- The holders of an owner's rows: the partner nodes of its shards and, with a replicated class, the replicas (14 R406, R407). -/
def holderNodes (s : State) (k : Nat) (t : Table) : List Nat :=
  (((List.range t.shards).filter t.owns).map (partnerNode s k t) ++ (if t.classes.any (·.replicated) then replicaNodes s k else [])).eraseDups

/-- An owner sends each holder its watermark: every update committed by now has been forwarded (14 R407). -/
def execWatermarkSend (part table : Nat) (s : State) : Host.Outcome State Fault Refusal :=
  let k := 64 * part + table
  match (tableAt s k).filter (·.ready) with
  | none => .next s
  | some t => .next ((holderNodes s k t).foldl (fun s n => emit (.watermark n part table s.clock.ft) s) s)

/-- A holder takes a watermark and updates its current flag: it is current for the owner while no row of that owner waits for its
record (14 R407, R408). -/
def execWatermarkReceive (part table src mark : Nat) (s : State) : Host.Outcome State Fault Refusal :=
  let k := 64 * part + table
  match (tableAt s k).filter (·.ready) with
  | none => .next s
  | some t =>
    let clean := t.resync.all (fun key => ownerNode s k t (bits key 63 48) != src)
    .next (updateCurrent k (putTable k { t with marks := KMap.put t.marks src ⟨mark, mark, clean⟩ } s))

/-- A watermark older than r_max clears the current flag (14 R407). -/
def execReplicaStale (part table src : Nat) (s : State) : Host.Outcome State Fault Refusal :=
  let k := 64 * part + table
  match (tableAt s k).filter (·.ready) with
  | none => .next s
  | some t =>
    match KMap.find t.marks src with
    | none => .next s
    | some m =>
      if m.at_ + 1000 * rwVal s (tabObj k) 0x11 50000 < s.clock.ft then
        .next (updateCurrent k (putTable k { t with marks := KMap.put t.marks src { m with current := false } } s))
      else .next s

/-- The address of a key's bucket in a HOT area, and of its slots (14 R397). -/
def bucketOff (t : Table) (key : Nat) : Nat := 512 + 64 * keyBucket key (hotBuckets t)
/-- The offset of a hot slot (14 R397). -/
def hotSlotOff (t : Table) (n : Nat) : Nat := 512 + 64 * hotBuckets t + (8 + n) * widestRow t

/-- The entry of a bucket that holds a key, or the first empty one. -/
def bucketEntry (s : State) (o : TierObj) (t : Table) (key : Nat) (held : Bool) : Option Nat :=
  (List.range 4).find? (fun i =>
    let e := (readObj o (bucketOff t key + 16 * i) 16 s).1
    if held then leAt e 0 8 = key && leAt e 8 4 != 0xFFFFFFFF else leAt e 8 4 = 0xFFFFFFFF)

/-- A bucket entry written in one 16-byte write (14 R403). -/
def writeBucket (o : TierObj) (t : Table) (key i : Nat) (e : Bytes) (s : State) : State := writeObj o (bucketOff t key + 16 * i) e s

/-- The area of a table replaced. -/
def putArea (k : Nat) (a : HotArea) (s : State) : State :=
  s.modData (fun d => { d with tables := KMap.modify d.tables k (fun t => { t with areas := t.areas.map (fun b => if b.obj = a.obj then a else b) }) })

/-- A copy's bucket entry cleared; its slot retires (14 R403, R405). -/
def dropCopy (k : Nat) (t : Table) (o : TierObj) (h : HotCopy) (a : HotArea) (s : State) : HotArea × State :=
  let s := match bucketEntry s o t h.key true with
    | some i => writeBucket o t h.key i emptyBucket s
    | none => s
  let a := { a with copies := a.copies.erase h, retired := a.retired ++ [h.slot] }
  (a, putArea k a s)

/-- The lowest free slot of a HOT area. -/
def freeHotSlot (t : Table) (a : HotArea) : Option Nat :=
  (List.range (t.hot + ceilDiv t.hot 8)).find? (fun n => !a.retired.contains n && a.copies.all (fun h => h.slot != n))

/-- A key of the hot set put in order of its record's commit, oldest first (14 R403). -/
def insertKey (e : Nat × Nat) (l : List (Nat × Nat)) : List (Nat × Nat) :=
  match l with
  | [] => [e]
  | f :: r => if e.2 < f.2 then e :: l else f :: insertKey e r

/-- One key installed or copied again in a HOT area (14 R403). -/
def installKey (k : Nat) (t : Table) (o : TierObj) (key : Nat) (s : State) : State :=
  match (tableAt s k).bind (fun t => t.areas.find? (fun a => tierOf s (k / 64) a.obj = some o)), recordAddr s t key with
  | some a, some (r, c) =>
    let old := a.copies.find? (fun h => h.key = key)
    match bucketEntry s o t key old.isSome with
    | none => bump (tabObj k) 0x1F 1 s
    | some i =>
      match freeHotSlot t a with
      | none => s
      | some n =>
        let row := readI s r (64 + 2 ^ c.log2)
        let s := writeObj o (hotSlotOff t n) (slice row 64 (2 ^ c.log2)) s
        let s := writeBucket o t key i (toLE 8 key ++ toLE 4 n ++ toLE 4 0) s
        putArea k { a with copies := a.copies.filter (fun h => h.key != key) ++ [⟨key, n, leAt row 0 8, none⟩],
                           retired := a.retired ++ (old.map (·.slot)).toList } s
  | _, _ => bump (tabObj k) 0x1F 1 s

/-- A refresh step in one HOT area (14 R403). -/
def refreshArea (k : Nat) (t : Table) (a : HotArea) (s : State) : State :=
  match KMap.find s.data.tiers.objs a.obj with
  | none => s
  | some o =>
    let gone := a.copies.filter (fun h => !t.hotSet.contains h.key)
    let s := (gone.foldl (fun (x : HotArea × State) h => dropCopy k t o h x.1 x.2) (a, s)).2
    let due (key : Nat) : Option (Nat × Nat) :=
      match recordAddr s t key, locateRow t key with
      | some (r, c), some (_, _, sh, _) =>
        let ft := leNat (readI s r 8)
        if !(t.owns sh || c.replicated) then some (key, 0)
        else match a.copies.find? (fun h => h.key = key) with
          | some h => if h.commit < ft then some (key, ft) else none
          | none => some (key, ft)
      | _, _ => some (key, 0)
    let held (key : Nat) : Bool := match locateRow t key with | some (_, c, sh, _) => t.owns sh || c.replicated | none => false
    let keys := (t.hotSet.filterMap due).foldl (fun l e => insertKey e l) []
    let s := keys.foldl (fun s e => if held e.1 then installKey k t o e.1 s else bump (tabObj k) 0x1F 1 s) s
    writeObj o 32 (toLE 8 s.clock.ft) s

/-- A REFRESH firing updates the HOT areas of a table and asks the owners of mismatched rows for their records (14 R403, R408). -/
def execRefreshStep (part table : Nat) (s : State) : Host.Outcome State Fault Refusal :=
  let k := 64 * part + table
  let n := refreshNo part table
  match firingOf s n with
  | none => .next s
  | some _ =>
    let s := actedFiring n s
    match (tableAt s k).filter (·.ready) with
    | none => .next s
    | some t =>
      let d := rwDom s (tabObj k) 0x0E []
      let t := { t with hotSet := (List.range (d.length / 8)).map (fun i => leAt d (8 * i) 8) }
      let s := t.areas.foldl (fun s a => refreshArea k t a s) (putTable k t s)
      .next (settle (t.resync.foldl (fun s key => emit (.resync (ownerNode s k t (bits key 63 48)) part table key) s) s))

/-- A retired slot is free after the next slot boundary of the area's image (14 R404). -/
def freeRetired (p sl : Nat) (s : State) : State :=
  s.modData (fun d => { d with tables := d.tables.map (fun e => (e.1, { e.2 with areas := e.2.areas.map (fun a =>
    match KMap.find d.tiers.objs a.obj with
    | some o => if e.1 / 64 = p && bits o.place 15 8 = sl then { a with retired := [] } else a
    | none => a) })) })

/-- A hot copy that would reach h_max before the next refresh step has its bucket entry cleared (14 R405). -/
def execHotCopyExpiry (part table area key : Nat) (s : State) : Host.Outcome State Fault Refusal :=
  let k := 64 * part + table
  match (tableAt s k).filter (·.ready) with
  | none => .next s
  | some t =>
    match t.areas.find? (fun a => a.obj = area), KMap.find s.data.tiers.objs area with
    | some a, some o =>
      match a.copies.find? (fun h => h.key = key) with
      | some h =>
        let late : Bool := match h.stale with
          | some c => c + 1000 * rwVal s (tabObj k) 0x10 5000 ≤ s.clock.ft + 1024 * rwVal s (tabObj k) 0x0F 1024
          | none => false
        if late then .next (bump (tabObj k) 0x18 1 (dropCopy k t o h a s).2) else .next s
      | none => .next s
    | _, _ => .next s

/-- An owner's lookup service answers a request for rows, one message a key: OK with the row, ABSENT, or FAILED for a failed
stack (14 R399, 16 R462). -/
def execLookupReq (s : State) : Host.Outcome State Fault Refusal :=
  match takeInbox 4 s with
  | none => .next s
  | some (f, s) =>
    let tab := leAt f.data 15 1 % 64
    let k := 64 * f.owner + tab
    let n := leAt f.data 12 2 / 16
    .next ((List.range n).foldl (fun s i =>
      let key := leAt f.data (16 + 16 * i) 8
      let item := leAt f.data (24 + 16 * i) 4
      let send (st base : Nat) (b : Bytes) (s : State) : State := sendMessage 5 1 f.src f.owner f.tag (f.data.take 8) base st tab b s
      match (tableAt s k).filter (·.ready) with
      | none => send 1 0 [] s
      | some t =>
        match recordAddr s t key with
        | none => send 1 (item * widestRow t) [] s
        | some (a, c) =>
          if stackDead s (localOf a).1 then send 2 (item * widestRow t) [] s
          else send 0 (item * widestRow t) (readI s (a + 64) (2 ^ c.log2)) s) s)

/-- A returned row is written into the gather output before its round ends (14 R399). -/
def execLookupRsp (s : State) : Host.Outcome State Fault Refusal :=
  match takeInbox 5 s with
  | none => .next s
  | some (f, s) =>
    let off := leAt f.data 8 4
    let n := leAt f.data 12 2
    let fits (r : ExRound) (a : Ask) : Bool :=
      r.slot / 4 = f.owner && rwVal s (0x7200 + r.slot) 0x01 0 = leAt f.data 0 4 && r.batch = leAt f.data 4 4 && a.tag = f.tag
      && a.width != 0 && a.item = off / a.width && a.table = leAt f.data 15 1 % 64 && !a.done
    let hit := s.fab.rounds.findSome? (fun r => (r.asks.find? (fits r)).map (fun a => (r, a)))
    match hit with
    | none => .next s
    | some (r, a) =>
      let ok := leAt f.data 14 1 = 0
      let upd : Ask := if ok then { a with got := a.got + n, done := f.last } else { a with dead := true }
      let s := s.modFab (fun c => { c with rounds := c.rounds.map (fun x => if x = r then { x with asks := x.asks.map (fun b => if b = a then upd else b) } else x) })
      .next (if ok then writeTile a.tile (a.dest + off % a.width) (slice f.data 16 (min n (a.width - off % a.width))) s else s)

end Sys2Proof.Machine
end

