-- ==== Sys2Proof/Machine/Levee.lean ====
section
/-! DEFINITION. Levee: the bound and its terms, policing, admission, the update states and queue samples (04), and the fetch of
descriptors with the records of their requests (05). -/

namespace Sys2Proof.Machine

open Sys2Proof

/-- The formula terms S, W, F and X of an image (03 R89). -/
def imageTerms (im : Image) : Nat × Nat × Nat × Nat :=
  (im.stages.length, (im.stages.filter (fun g => g.kind = 4 || g.kind = 5)).length,
   (im.stages.map (fun g => if g.kind = 7 then g.flash else 0)).foldl (· + ·) 0,
   (im.stages.map (·.exchange)).foldl (· + ·) 0 + b2n (bit im.flags 0))

/-- Q_max of a partition (04 R115). -/
def qMaxOf (s : State) (p : Nat) : Nat := rwVal s (0x3000 + 0x10 * p) 0x0E 4

/-- The promise of a partition in µs (04 R114). -/
def promiseOf (s : State) (p : Nat) : Nat := rwVal s (0x3000 + 0x10 * p) 0x0D 1000

/-- L_max in µs of an image in a slot of a partition with a slot length, from the terms in force (04 R111). -/
def lmaxOf (s : State) (p tSlot : Nat) (im : Image) : Nat :=
  let (st, w, f, x) := imageTerms im
  2 + (qMaxOf s p + st) * tSlot + w * rwVal s 0x6100 0x01 40 + f * (tFread s + (flashDepth s - 1) * tFsus s)
  + x * rwVal s 0x7000 0x0A 90 + 2

/-- Whether the L_max of every RESIDENT, PENDING or ACTIVE slot stays within its partition's promise (04 R113). -/
def boundsHold (s : State) : Bool :=
  (residents s).all (fun r => r.2.1.state = .retiring || lmaxOf s (r.1 / 4) r.2.1.tSlot r.2.2 ≤ promiseOf s (r.1 / 4))

/-- The fields of a descriptor (05 R155, R156). -/
def parseDesc (b : Bytes) : Desc :=
  { opcode := leAt b 0 1, flags := leAt b 1 1, service := leAt b 2 1, index := leAt b 3 1, cid := leAt b 4 4, budget := leAt b 8 4,
    payOff := leAt b 12 4, payLen := leAt b 16 4, resAddr := leAt b 24 8, w32 := leAt b 32 2, w34 := leAt b 34 2, w36 := leAt b 36 2,
    w38 := leAt b 38 2, w40 := leAt b 40 8, w48 := leAt b 48 8, w56 := leAt b 56 8 }

/-- Whether a descriptor asks a query: SEARCH, RANK or LOOKUP (05 R155). -/
def Desc.isQuery (d : Desc) : Bool := d.opcode = 1 || d.opcode = 2 || d.opcode = 3
/-- Whether a descriptor brings an update: UPSERT, DELETE or EMBED_UPDATE (05 R155). -/
def Desc.isUpdate (d : Desc) : Bool := d.opcode = 0x10 || d.opcode = 0x11 || d.opcode = 0x12

/-- The policer class of a request (04 R133). -/
def Desc.class_ (d : Desc) : Nat := if d.isQuery then d.flags % 2 else if d.opcode = 0x12 then 3 else 2

/-- Whether a reserved bit or field of a descriptor is nonzero (05 R155, R156). -/
def Desc.reservedSet (d : Desc) (rsv20 : Nat) : Bool :=
  8 ≤ d.flags || 4 ≤ d.service || 16 ≤ d.index || rsv20 != 0
  || (bit d.flags 2 && d.opcode != 1 && d.opcode != 2)
  || (d.isUpdate && (bit d.flags 0 || d.service != 0 || d.budget != 0 || d.resAddr != 0))
  || (d.index != 0 && d.opcode != 1 && d.opcode != 0x10 && d.opcode != 0x11)
  || (match d.opcode with
      | 1 => d.w38 != 0 && d.w38 != 64
      | 2 => d.w36 != 0 || d.w38 != 0
      | 3 => d.w36 != 0 || d.w38 != 0 || d.w40 != 0 || d.w48 != 0 || d.w56 != 0
      | 0x10 => d.w32 != 0 || d.w34 != 0 || d.w36 != 0 || d.w38 != 0 || d.w56 != 0
      | 0x11 => d.w32 != 0 || d.w34 != 0 || d.w36 != 0 || d.w38 != 0 || d.w40 != 0 || d.w56 != 0
      | _ => 2 ≤ d.w34 / 256 || d.w36 != 0 || d.w38 != 0 || 2 ^ 32 ≤ d.w40 || d.w56 != 0)

/-- The codes 0x01 to 0x04 of 05 R157 that the port hub checks, 0 for none; a malformed filter block is RESERVED (06 R191). (log 49, DEDUCED.) -/
def fetchCheck (d : Desc) (rsv20 : Nat) (payload : Bytes) : Nat :=
  if !d.isQuery && !d.isUpdate then 1
  else if d.reservedSet rsv20 then 2
  else if d.payOff % 64 != 0 || 524288 < d.payOff + d.payLen
      || (d.opcode = 1 && (d.w36 % 64 != 0 || d.payLen < d.w36 + d.w38)) then 3
  else if d.isQuery && (d.resAddr = 0 || d.resAddr % 64 != 0) then 4
  else if d.opcode = 1 && d.w38 != 0 && (filterValue (slice payload d.w36 64) 0).isNone then 2
  else 0

/-- The trace of a decision (22 R604 code 0x01). (log 53, DEDUCED.) -/
def traceAdmit (r : Request) (reason ft : Nat) (s : State) : State :=
  trace 0x01 r.part (srcPort r.port) (toLE 4 r.desc.cid ++ toLE 1 reason ++ toLE 1 (16 * r.port + r.sq) ++ toLE 2 0 ++ toLE 8 ft) s

/-- The trace of a composed record (22 R604 code 0x02). -/
def traceRecord (port p cid status degraded : Nat) (s : State) : State :=
  trace 0x02 p (srcPort port) (toLE 4 cid ++ toLE 1 status ++ toLE 1 0 ++ toLE 2 degraded ++ toLE 8 s.clock.ft) s

/-- A record composed for a request that is not accepted: its FT is the arrival stamp (05 R158; 04 R117). -/
def refuseRecord (r : Request) (status reason : Nat) (s : State) : State :=
  postRecord r.port r.part r.cq 0 []
    { cid := r.desc.cid, status := status, reason := reason, sq := r.sq, ft := r.stampFt, degraded := 0,
      sqHead := (sqAt s r.port r.part r.sq).head, bytes := 0, detail := 0, image := 0, quiet := bit r.desc.flags 1 }
    (some (r.stamp + 2000)) (traceRecord r.port r.part r.desc.cid status 0 s)

/-- A request completed INVALID at submission (05 R157; 22 R599). An unknown opcode is charged as a query. -/
def invalidRequest (r : Request) (code : Nat) (s : State) : State :=
  refuseRecord r 3 code (charge r.part (if r.desc.isUpdate then 0x09 else 0x06) 1 (traceAdmit r (0x80 + code) r.stampFt s))

/-- A request refused by Levee (04 R119; 22 R599). -/
def refuseRequest (r : Request) (reason : Nat) (s : State) : State :=
  let s := charge r.part (if r.desc.isQuery then 0x02 else 0x09) 1 (traceAdmit r reason r.stampFt s)
  let s := s.modTele (fun t => { t with refusals := KMap.upd t.refusals (16 * r.part + reason) 0 (· + 1) })
  let s := if reason = 8 then bump (0x3004 + 0x10 * r.part + r.desc.class_) 0x0A 1 s else s
  refuseRecord r 4 reason s

/-- A request placed in order of arrival stamp, port and ring (04 R118). -/
def insertRequest (r : Request) (l : List Request) : List Request :=
  match l with
  | [] => [r]
  | x :: t =>
    if r.stamp < x.stamp || (r.stamp = x.stamp && (r.port < x.port || (r.port = x.port && r.sq < x.sq))) then r :: x :: t
    else x :: insertRequest r t

/-- A port hub fetches the descriptor at a ring's head with its payload, sets a completion entry aside, and stamps it (04 R117;
05 R152 to R154, R157). -/
def execDescriptorFetch (port part sq : Nat) (desc payload : Bytes) (s : State) : Host.Outcome State Fault Refusal :=
  let q := sqAt s port part sq
  let c := cqAt s port part q.cq
  if mainOn s && ringsOk (linkAt s port) && q.enabled && q.head != q.tail && c.enabled && !c.closing && 1 ≤ cqFree c then
    let s := modSq port part sq (fun q => { q with head := (q.head + 1) % q.depth }) s
    let s := bump (0x1070 + port) 0x07 1 (modCq port part q.cq (fun c => { c with held := c.held + 1 }) s)
    let d := parseDesc desc
    let pay := slice payload 0 (if 524288 < d.payLen then 0 else d.payLen)
    let r : Request := { port := port, part := part, sq := sq, cq := q.cq, stamp := s.clock.now, stampFt := s.clock.ft, desc := d, payload := pay }
    let code := fetchCheck d (leAt desc 20 4) pay
    if code = 0 then .next (s.modLevee (fun l => { l with requests := insertRequest r l.requests }))
    else .next (invalidRequest r code s)
  else .next s

/-- The slot that serves a service for a request stamped at a local time: an ACTIVE slot, or one that a replacement retired later than
that time (03 R106; 04, Events that meet); not a restricted slot, nor a halted one where OD .18 is set (19 R541; 21 R592). (log 55, DEDUCED.) -/
def servingSlot (s : State) (p svc stamp : Nat) : Option Nat :=
  (List.range 4).find? (fun sl =>
    let x := slotAt s p sl
    x.service = svc && x.activeAt ≤ stamp && !x.restricted
    && (x.state = .active || ((x.state = .retiring || x.state = .resident) && stamp < x.retiredAt))
    && !(x.halted && rwVal s (0x3000 + 0x10 * p) 0x18 0 = 1))

/-- The queries of a slot that wait for stage 1. -/
def waitingBatches (x : Slot) : List Batch := x.batches.filter (fun b => b.at_ = .waiting)

/-- The positions of a service in use: those of the slot that admits, batch by batch, and the queries of other slots of the service that
still wait (04 R122). A closed batch leaves no position of its own free. (log 51, DEDUCED.) -/
def positionsUsed (s : State) (p sl svc bq : Nat) : Nat :=
  let w := waitingBatches (slotAt s p sl)
  let mine := match w.reverse with
    | [] => 0
    | b :: r => r.length * bq + (if b.closed then bq else b.queries.length)
  (List.range 4).foldl (fun a o =>
    if o = sl || (slotAt s p o).service != svc then a
    else a + ((waitingBatches (slotAt s p o)).map (·.queries.length)).foldl (· + ·) 0) mine

/-- A bucket refilled over a time in ns: its level and what is left below 1/65,536 token (04 R134). -/
def refillBucket (level rest rate burst elapsed : Nat) : Nat × Nat :=
  let add := rate * elapsed * 65536 + rest
  if burst * 65536 ≤ level + add / 1000000000 then (burst * 65536, 0) else (level + add / 1000000000, add % 1000000000)

/-- The colour that a policer gives a request: 0 green, 1 yellow, 2 red, and the policer after it (04 R134). -/
def markOne (now : Nat) (x : Policer) : Nat × Policer :=
  if x.mode = 0 then (0, x)
  else
    let c := refillBucket x.tc x.rc x.cir x.cbs (now - x.last)
    let p := refillBucket x.tp x.rp x.pir x.pbs (now - x.last)
    let x := { x with tc := c.1, rc := c.2, tp := p.1, rp := p.2, last := now }
    if x.tp < 65536 then (2, x)
    else if x.tc < 65536 then (1, { x with tp := x.tp - 65536 })
    else (0, { x with tp := x.tp - 65536, tc := x.tc - 65536 })

/-- A request marked by the policer of its partition and class, and counted (04 R133, R134). -/
def policerMark (p c : Nat) (s : State) : Nat × State :=
  let r := markOne s.clock.now (KMap.getD s.levee.policers (4 * p + c) {})
  (r.1, bump (0x3004 + 0x10 * p + c) (0x07 + r.1) 1 (s.modLevee (fun l => { l with policers := KMap.put l.policers (4 * p + c) r.2 })))

/-- The policer parameters of a partition and class as in force in the dictionary, with both buckets full (04 R135; 20 R622). -/
def loadPolicer (p c : Nat) (s : State) : State :=
  let o := 0x3004 + 0x10 * p + c
  let x : Policer := { mode := rwVal s o 1 0, cir := rwVal s o 2 0, cbs := rwVal s o 3 0, pir := rwVal s o 4 0, pbs := rwVal s o 5 0,
                       tc := 65536 * rwVal s o 3 0, tp := 65536 * rwVal s o 5 0, last := s.clock.now }
  s.modLevee (fun l => { l with policers := KMap.put l.policers (4 * p + c) x })

/-- A policer COMMIT (04 R135): refused with RANGE, or the staged parameters with full buckets. -/
def policerCommit (p c : Nat) (s : State) : Status × State :=
  let o := 0x3004 + 0x10 * p + c
  if (stagedVal s o 1 0 = 1 && stagedVal s o 4 0 < stagedVal s o 2 0) || stagedVal s o 4 0 = 0 || stagedVal s o 3 0 = 0 || stagedVal s o 5 0 = 0 then
    (.range, s)
  else (.ok, loadPolicer p c (commitStaged o s))

/-- The egress rates and bursts of a partition as in force in the dictionary (04 R138). -/
def loadShaper (p : Nat) (s : State) : State :=
  let o := 0x3003 + 0x10 * p
  let set (kind port : Nat) (s : State) : State :=
    modEgress p port kind (fun e =>
      let e := refillEgress s.clock.now e
      { e with rate := rwVal s o (1 + 2 * kind) 0, burst := rwVal s o (2 + 2 * kind) 65536 }) s
  let s := set 1 1 (set 1 0 (set 0 1 (set 0 0 s)))
  [(0, 0), (1, 0), (0, 1), (1, 1)].foldl (fun s x => flushUnshaped (egressAt s p x.1 x.2).units.length p x.1 x.2 s) s

/-- A shaper COMMIT (04 R138): a burst below 4,096 bytes is refused with RANGE. -/
def shaperCommit (p : Nat) (s : State) : Status × State :=
  let o := 0x3003 + 0x10 * p
  if stagedVal s o 2 65536 < 4096 || stagedVal s o 4 65536 < 4096 then (.range, s) else (.ok, loadShaper p (commitStaged o s))

/-- The bound of one update of an index at full priority, in ns (06 R183). -/
def indexUpd (x : SearchIndex) : Nat := if x.dims ≤ 256 then 5000 else if x.dims ≤ 512 then 8000 else 14000

/-- The bound of one update of a table at full priority, in ns (14 R412). -/
def tableUpd (t : Table) : Nat :=
  let w := widestRow t
  if t.optimiser = 0 then 1000
  else if t.optimiser = 1 then (if w ≤ 256 then 2000 else if w ≤ 1024 then 3000 else 4500)
  else if w ≤ 256 then 2500 else 4500

/-- t_upd of a partition in ns (04 R128; 06 R183). -/
def tUpd (s : State) (p : Nat) : Nat :=
  let a := (s.data.indices.filter (fun e => e.1 / 16 = p && e.2.state != .building)).foldl (fun a e => max a (indexUpd e.2)) 0
  (s.data.tables.filter (fun e => e.1 / 64 = p && e.2.ready)).foldl (fun a e => max a (tableUpd e.2)) a

/-- The pending updates of a partition, oldest first. -/
def pendingUpdates (s : State) (p : Nat) : List Update := s.levee.updates.filter (fun u => u.part = p)

/-- The slack of pending updates that finish one after another, in ns; none with none pending (04 R129). -/
def slackFrom (now tupd k : Nat) (us : List Update) : Option Int :=
  match us with
  | [] => none
  | u :: r =>
    let x : Int := (u.bound : Int) - now - ((k + 1) * tupd : Nat)
    match slackFrom now tupd (k + 1) r with
    | none => some x
    | some y => some (min x y)

/-- The slack σ of a partition in ns (04 R129). -/
def slackOf (s : State) (p : Nat) : Option Int := slackFrom s.clock.now (tUpd s p) 0 (pendingUpdates s p)

/-- The hysteresis t_hyst of a partition in µs (04 R132). -/
def hystOf (s : State) (p : Nat) : Nat := rwVal s (0x3001 + 0x10 * p) 0x02 1000

/-- The update state of a partition. -/
def updStateOf (s : State) (p : Nat) : UpdState := KMap.getD s.levee.updState p .normal

/-- The update state that follows from the slack (04 R130). -/
def nextUpdState (st : UpdState) (slack : Option Int) (lp hyst : Nat) : UpdState :=
  match slack with
  | none => .normal
  | some x =>
    match st with
    | .hold => if (1000 * (lp + hyst) : Nat) ≤ x then .normal else .hold
    | _ => if x ≤ (1000 * lp : Nat) then .hold else if x < (1000 * (lp + hyst) : Nat) then .warn else .normal

/-- The update state of a partition changes as its slack crosses a threshold (04 R130). -/
def execUpdateStateChange (part : Nat) (s : State) : Host.Outcome State Fault Refusal :=
  if !mainOn s || 32 ≤ part then .next s
  else
    let old := updStateOf s part
    let new := nextUpdState old (slackOf s part) (promiseOf s part) (hystOf s part)
    if old = new then .next s
    else
      let s := s.modLevee (fun l => { l with updState := KMap.put l.updState part new })
      .next (settle (if new = .hold then bump (0x3001 + 0x10 * part) 0x08 1 s else s))

/-- The margin m of an update that arrives now, in ns (04 R131). -/
def updateMargin (s : State) (p : Nat) : Int :=
  (1000 * rwVal s (0x3001 + 0x10 * p) 0x01 1000000 : Nat) - (((pendingUpdates s p).length + 1) * tUpd s p : Nat)

/-- Whether a completion entry can be reserved: the entry set aside at the fetch counts as free (05 R153). (log 50, DEDUCED.) -/
def cqRoom (s : State) (r : Request) : Bool :=
  let c := cqAt s r.port r.part r.cq
  max 1 c.reserve ≤ cqFree c + 1

/-- The largest k that the SELECT stage of an image takes: that of its Sedge OPEN descriptors with a RESULT output, 1,024 where the
image has none (05 R157 code 0x07). (log 52, DEDUCED.) -/
def selectLimit (sl : Slot) (im : Image) : Nat :=
  let g := nth im.stages (im.stages.length - 1) {}
  let ks := ((im.progs.drop g.firstProg).take g.progs).flatMap (fun e =>
    if e.target = 3 && e.kind = 4 then
      (List.range (e.length / 64)).filterMap (fun i =>
        let o := e.offset + 64 * i
        if leAt sl.file o 1 = 1 && bits (leAt sl.file (o + 1) 1) 7 6 = 2 then some (leAt sl.file (o + 8) 2) else none)
    else [])
  match ks with
  | [] => 1024
  | k :: r => r.foldl max k

/-- The bytes of a vector that a host supplies to an index (05 R156): an index that keeps no full vectors takes FP16. -/
def suppliedVector (x : SearchIndex) : Nat := x.dims * (if x.vfmt = 0 then 2 else elementSize x.vfmt)

/-- Whether a gradient suits a row width: its format, and its size with its header (05 R157; 12 R349): 0, TABLE or SHAPE. -/
def gradientCode (t : Table) (fmt key : Nat) (payload : Bytes) : Nat :=
  if fmt != 0 && !peatA fmt then 0x0A
  else match locateRow t key with
    | none => 0
    | some (_, c, _, _) =>
      let d := 2 ^ c.log2 / 2
      if fmt = 0 then (if payload.length = 2 * d then 0 else 8)
      else if payload.length != 64 + peatSize fmt d || leAt payload 4 4 != d || leAt payload 8 1 != fmt
          || !finite32 (leAt payload 0 4) || bit (leAt payload 0 4) 31 || leAt payload 0 4 = 0 || leAt payload 9 55 != 0 then 8
      else 0

/-- The index of a partition that queries and updates reach: not BUILDING (06 R179). -/
def liveIndex (s : State) (p i : Nat) : Option SearchIndex :=
  if 16 ≤ i then none
  else match indexAt s (16 * p + i) with
    | some x => if x.usable then some x else none
    | none => none

/-- The table of a partition that queries and updates reach: not BUILDING (14 R392). -/
def liveTable (s : State) (p t : Nat) : Option Table :=
  match tableAt s (64 * p + t) with
  | some x => if t < 64 && x.ready then some x else none
  | none => none

/-- The codes 0x05 to 0x0A of 05 R157 for a query on an image, 0 for none. -/
def queryCheck (s : State) (r : Request) (sl : Slot) (im : Image) : Nat :=
  let d := r.desc
  if d.opcode = 1 then
    match liveIndex s r.part d.index with
    | none => 5
    | some x =>
      let sent := d.w38 < d.payLen
      let asks := im.stages.any (fun g => g.kind = 3 && bit g.flags 1)
      if !im.stages.any (fun g => g.index = d.index) then 5
      else if d.w38 != 0 && !(im.stages.any (fun g => g.kind = 5) && im.stages.any (fun g => g.kind = 4 && g.index = d.index)) then 6
      else if d.w32 = 0 || 1024 < d.w32 || selectLimit sl im < d.w32 || 1024 < d.w34 || x.cells < d.w34 then 7
      else if asks && sent && (d.payLen - d.w38 != suppliedVector x || (d.w38 != 0 && d.w36 < suppliedVector x)) then 8
      else if asks != sent then 9 else 0
  else if d.opcode = 2 then
    if d.w32 = 0 || 1024 < d.w32 || selectLimit sl im < d.w32 || d.w34 = 0 || 4096 < d.w34 then 7
    else if d.payLen != 8 * d.w34 then 8
    else if im.stages.any (fun g => g.kind = 8 && bit g.flags 2) then 0 else 9
  else
    if d.w34 = 0 || 256 < d.w34 then 7
    else if d.payLen != 8 * d.w34 then 8
    else if !im.stages.any (fun g => g.kind = 1) then 9
    else if (liveTable s r.part d.w32).isSome then 0 else 0x0A

/-- The codes 0x05 to 0x0A of 05 R157 for an update, 0 for none. -/
def updateCheck (s : State) (r : Request) : Nat :=
  let d := r.desc
  if d.opcode = 0x12 then
    match liveTable s r.part d.w32 with
    | none => 0x0A
    | some t => gradientCode t (d.w34 % 256) d.w48 r.payload
  else
    match liveIndex s r.part d.index with
    | none => 5
    | some x => if d.payLen = (if d.opcode = 0x10 then suppliedVector x else 0) then 0 else 8

/-- The indices that a query reads: the named one of a SEARCH, those of the image for a RANK. -/
def queryIndices (d : Desc) (im : Image) : List Nat :=
  if d.opcode = 1 then [d.index] else if d.opcode = 2 then ((im.stages.map (·.index)).filter (· < 16)).eraseDups else []

/-- The snapshot of a query before the horizons: its own, or the acceptance FT less the visibility lag, not later than the acceptance FT
(06 R185). -/
def askedSnapshot (s : State) (r : Request) : Nat :=
  let lag := 1000 * rwVal s (0x3000 + 0x10 * r.part) 0x10 100
  if r.desc.opcode = 3 then r.stampFt else if r.desc.w40 != 0 then min r.desc.w40 r.stampFt else r.stampFt - lag

/-- The snapshot raised to the horizon of each index it reads, counted where it is raised, and taken as used there (06 R182, R185). -/
def fixSnapshot (p : Nat) (is : List Nat) (snap : Nat) (s : State) : Nat × State :=
  let hor := is.foldl (fun a i => match liveIndex s p i with | some x => max a x.horizon | none => a) snap
  (hor, is.foldl (fun s i =>
    match liveIndex s p i with
    | none => s
    | some x =>
      let s := putIndex (16 * p + i) { x with top := max x.top hor } s
      if snap < x.horizon then bump (indexStatus p i) 0x10 1 s else s) s)

/-- A query placed in the open batch of a slot, or in a new one (03 R86; 04 R121, R122). -/
def placeQuery (id buffer bq : Nat) (x : Slot) : Slot :=
  match (x.batches.filter (fun b => b.at_ = .waiting && !b.closed && b.buffer = buffer)).reverse with
  | b :: _ =>
    { x with batches := x.batches.map (fun c =>
        if c.id = b.id then { c with queries := c.queries ++ [id], closed := bq ≤ c.queries.length + 1 } else c) }
  | [] =>
    let b : Batch := { id := x.nextBatch, queries := [id], closed := bq ≤ 1, at_ := .waiting, buffer := buffer }
    { x with batches := x.batches.map (fun c => if c.at_ = .waiting then { c with closed := true } else c) ++ [b],
             nextBatch := x.nextBatch + 1 }

/-- A RETIRING slot whose last accepted query has completed is RESIDENT (03 R105). -/
def retireDone (p sl : Nat) (s : State) : State :=
  if (slotAt s p sl).state = .retiring && !s.levee.queries.any (fun q => q.part = p && q.slot = sl) then
    modSlot p sl (fun x => { x with state := .resident }) s
  else s

/-- A DRAINING device whose last accepted query has completed is in CONFIG (02 R73, R74). -/
def drainDone (s : State) : State :=
  if s.dev.state = .draining && s.levee.queries.isEmpty then setDevState .config 3 s else s

/-- A query that has completed leaves its batch, releases the buffer it locked, and ends what waited on it (03 R105, R108; 02 R74). -/
def leaveQuery (q : Query) (s : State) : State :=
  let s := s.modLevee (fun l => { l with queries := l.queries.filter (fun v => v.id != q.id) })
  let s := modSlot q.part q.slot (fun x =>
    let locked := x.locked.filter (· != q.id)
    { x with batches := (x.batches.map (fun b => { b with queries := b.queries.filter (· != q.id) })).filter (fun b =>
               !b.queries.isEmpty || (b.at_ != .out && b.at_ != .waiting)),
             locked := locked, prevLocked := x.prevLocked && !locked.isEmpty }) s
  drainDone (retireDone q.part q.slot s)

/-- The record of an accepted query composed, with its result before it (05 R158, R159; 22 R599). (log 57, DEDUCED.) -/
def composeQuery (q : Query) (status reason degraded detail : Nat) (result : Bytes) (s : State) : State :=
  let s := charge q.part (if status = 0 then 0x03 else if status = 1 then 0x04 else if status = 2 then 0x05 else 0x07) 1 s
  let s := traceRecord q.port q.part q.desc.cid status degraded s
  let body := if status < 2 then result else []
  let r : Record := { cid := q.desc.cid, status := status, reason := reason, sq := q.sq, ft := q.dFt, degraded := if status = 1 then degraded else 0,
                      sqHead := (sqAt s q.port q.part q.sq).head, bytes := body.length, detail := detail, image := q.slot + 256 * q.buffer,
                      quiet := bit q.desc.flags 1 }
  postRecord q.port q.part q.cq q.desc.resAddr body r (some q.deadline) (leaveQuery q s)

/-- The fault completion of a query that a halted slot has accepted (19 R540). (log 56, DEDUCED.) -/
def faultCompletion (q : Query) (s : State) : State :=
  composeQuery q 1 0 4 0
    (toLE 4 q.desc.cid ++ toLE 2 0 ++ toLE 2 (b2n (bit q.desc.flags 2)) ++ toLE 8 0 ++ toLE 4 0xFFFFFFFF ++ toLE 4 0 ++ toLE 8 q.snapshot)
    (bump 0xA002 0x03 1 s)

/-- A query accepted on a slot with its L_max: D fixed, the position taken, and its place in a batch (04 R121). -/
def acceptQuery (r : Request) (sl lmax : Nat) (s : State) : State :=
  let x := slotAt s r.part sl
  let im := x.image.getD {}
  let buffer := if r.stamp < x.swapAt then 1 - x.buffer else x.buffer
  let f := fixSnapshot r.part (queryIndices r.desc im) (askedSnapshot s r) s
  let id := s.levee.nextId
  let q : Query := { id := id, part := r.part, slot := sl, service := r.desc.service, port := r.port, sq := r.sq, cq := r.cq, stamp := r.stamp,
                     deadline := r.stamp + 1000 * lmax, dFt := r.stampFt + 1000 * lmax, lmax := lmax, snapshot := f.1, buffer := buffer,
                     tSlot := x.tSlot, desc := r.desc, payload := r.payload }
  let s := f.2.modLevee (fun l => { l with queries := l.queries ++ [q], nextId := id + 1 })
  let s := charge r.part 0x01 1 (traceAdmit r 0 q.dFt s)
  let s := modSlot r.part sl (fun x =>
    let x := if x.state = .resident then { x with state := .retiring } else x
    let x := if buffer = x.buffer then x else { x with locked := x.locked ++ [id], prevLocked := true }
    if x.halted then x else placeQuery id buffer im.bq x) s
  if x.halted then faultCompletion q s else s

/-- An update accepted: C fixed, and placed last (04 R121, R131). -/
def acceptUpdate (r : Request) (s : State) : State :=
  let c := 1000 * rwVal s (0x3001 + 0x10 * r.part) 0x01 1000000
  let u : Update := { id := s.levee.nextId, part := r.part, port := r.port, sq := r.sq, cq := r.cq, stamp := r.stamp, bound := r.stamp + c,
                      desc := r.desc, payload := r.payload }
  charge r.part 0x08 1 (traceAdmit r 0 (r.stampFt + c) (s.modLevee (fun l => { l with updates := l.updates ++ [u], nextId := l.nextId + 1 })))

/-- A request accepted. -/
def acceptRequest (r : Request) (s : State) : State :=
  if r.desc.isQuery then acceptQuery r r.slot r.lmax s else acceptUpdate r s

/-- What Levee finds for a request: refused with a reason of 04 R119, INVALID with a code of 05 R157, or to be accepted on a slot with
its L_max. -/
inductive Verdict where
  | refuse (reason : Nat)
  | invalid (code : Nat)
  | take (slot lmax : Nat)
deriving DecidableEq, Repr

/-- The checks of a query after its policer, in order (04 R119, R120, R122, R123). -/
def queryVerdict (s : State) (r : Request) (sl colour : Nat) : Verdict :=
  let x := slotAt s r.part sl
  match x.image with
  | none => .refuse 3
  | some im =>
    let lmax := lmaxOf s r.part x.tSlot im
    let used := positionsUsed s r.part sl r.desc.service im.bq
    let q := qMaxOf s r.part
    let rsv := min (rwVal s (0x3001 + 0x10 * r.part) 0x03 1) (q - 1)
    if updStateOf s r.part = .hold then .refuse 5
    else if (if r.desc.budget = 0 then promiseOf s r.part else r.desc.budget) < lmax then .refuse 6
    else if q * im.bq ≤ used then .refuse 7
    else if colour = 1 && (updStateOf s r.part = .warn || q * im.bq < used + 1 + rsv * im.bq) then .refuse 8
    else if !cqRoom s r then .refuse 0x0A
    else
      let code := queryCheck s r x im
      if code = 0 then .take sl lmax else .invalid code

/-- The checks of an update after its policer, in order (04 R119, R131). -/
def updateVerdict (s : State) (r : Request) (colour : Nat) : Verdict :=
  let m := updateMargin s r.part
  let lp := promiseOf s r.part
  if colour = 1 && m < (1000 * (lp + hystOf s r.part) : Nat) then .refuse 8
  else if colour = 0 && m < (1000 * lp : Nat) then .refuse 9
  else if !cqRoom s r then .refuse 0x0A
  else
    let code := updateCheck s r
    if code = 0 then .take 0 0 else .invalid code

/-- The decision on a request, with the tokens it takes (04 R119; 05 R157). -/
def decide_ (r : Request) (s : State) : Verdict × State :=
  if (decidingHub s).isNone then (.refuse 1, s)
  else
    let open_ := s.dev.state = .serving || (r.desc.isUpdate && s.dev.state = .config)
    if !open_ || !partEnabled s r.part then (.refuse 2, s)
    else if r.desc.isQuery then
      match servingSlot s r.part r.desc.service r.stamp with
      | none => (.refuse 3, s)
      | some sl =>
        let m := policerMark r.part r.desc.class_ s
        if m.1 = 2 then (.refuse 4, m.2) else (queryVerdict m.2 r sl m.1, m.2)
    else
      let m := policerMark r.part r.desc.class_ s
      if m.1 = 2 then (.refuse 4, m.2) else (updateVerdict m.2 r m.1, m.2)

/-- The requests without one. -/
def dropRequest (r : Request) (s : State) : State := s.modLevee (fun l => { l with requests := l.requests.erase r })

/-- Levee decides the oldest request of a partition; an acceptance waits for its mirror write, and no decision is taken while a grant of
primacy is on its way (02 R63, R69; 04 R118, R119). -/
def execLeveeDecision (part : Nat) (s : State) : Host.Outcome State Fault Refusal :=
  match s.levee.requests.find? (fun r => r.part = part) with
  | none => .next s
  | some r =>
    if r.mirror.isSome || s.hubs.grant.isSome then .next s
    else
      let d := decide_ r s
      match d.1 with
      | .refuse c => .next (settle (refuseRequest r c (dropRequest r d.2)))
      | .invalid c => .next (settle (invalidRequest r c (dropRequest r d.2)))
      | .take sl lmax =>
        if needsMirror s then
          let s := issueMirror d.2
          .next (s.modLevee (fun l => { l with requests := l.requests.map (fun q =>
            if q = r then { q with mirror := some s.hubs.issued, slot := sl, lmax := lmax } else q) }))
        else .next (settle (acceptRequest { r with slot := sl, lmax := lmax } (dropRequest r d.2)))

/-- The requests whose mirror write the passive hub has acknowledged take effect (02 R63). -/
def takeAcked (s : State) : State :=
  (s.levee.requests.filter (fun r => match r.mirror with | some m => m ≤ s.hubs.acked | none => false)).foldl
    (fun s r => acceptRequest r (dropRequest r s)) s

/-- An acknowledgement of the mirror writes up to a sequence: what waited on them takes effect (02 R63; 15 R417). -/
def execMirrorAck (sq : Nat) (s : State) : Host.Outcome State Fault Refusal :=
  if mainOn s && s.hubs.acked < sq && sq ≤ s.hubs.issued then
    .next (settle (takeAcked (resumeCells (s.modHubs (fun u => { u with acked := sq })))))
  else .next s

/-- An admission whose mirror write is not acknowledged within t_in becomes a PRIMACY refusal (02 R63; 04 R119). -/
def execMirrorWriteTimeout (part : Nat) (s : State) : Host.Outcome State Fault Refusal :=
  match s.levee.requests.find? (fun r => r.part = part && r.mirror.isSome) with
  | some r => if r.stamp + 2000 ≤ s.clock.now then .next (refuseRequest r 1 (dropRequest r s)) else .next s
  | none => .next s

/-- At D − t_out a query with no record gets ABORTED_FAULT from the port hub (04 R126). -/
def execBackstopExpiry (query : Nat) (s : State) : Host.Outcome State Fault Refusal :=
  match s.levee.queries.find? (fun q => q.id = query) with
  | some q => if q.deadline ≤ s.clock.now + 2000 then .next (settle (composeQuery q 2 0 0 0 [] s)) else .next s
  | none => .next s

/-- The detail of a LOOKUP's record: some key is absent, read from the presence bitmap of its result (05 R158, R161). -/
def lookupDetail (d : Desc) (result : Bytes) : Nat :=
  if d.opcode = 3 && (List.range d.w34).any (fun i => !bit (leAt result 32 32) i) then 1 else 0

/-- A record composed by the tiles is posted: that of a query past the last stage, with the degraded flags gathered, or that of an update
whose commit FT has come (05 R158, R159; 04 R125; 06 R184). -/
def execCompletionRecordWrite (query status degraded : Nat) (result : Bytes) (s : State) : Host.Outcome State Fault Refusal :=
  match s.levee.queries.find? (fun q => q.id = query) with
  | some q =>
    if (slotAt s q.part q.slot).batches.any (fun b => b.at_ = .out && b.queries.contains query) then
      let flags := (q.degraded ||| degraded) % 64
      let st := if status = 2 then 2 else if flags = 0 then 0 else 1
      .next (settle (composeQuery q st 0 flags (if st = 2 then 0 else lookupDetail q.desc result) result s))
    else .next s
  | none =>
    match s.levee.committed.find? (fun c => c.upd.id = query) with
    | some c =>
      if c.at_ ≤ s.clock.ft then
        let u := c.upd
        let s := s.modLevee (fun l => { l with committed := l.committed.filter (fun v => v.upd.id != query) })
        .next (settle (postRecord u.port u.part u.cq 0 []
          { cid := u.desc.cid, status := 0, reason := 0, sq := u.sq, ft := c.at_, degraded := 0, sqHead := (sqAt s u.port u.part u.sq).head,
            bytes := 0, detail := c.detail, image := 0, quiet := bit u.desc.flags 1 } (some u.bound)
          (traceRecord u.port u.part u.desc.cid 0 0 s)))
      else .next s
    | none => .next s

/-- The depth of a queue and the stamp of its oldest entry (04 R140): queues 0 to 3 are the admission queues, 4 the updates, 5 and 6
RESULT, 7 and 8 BULK of the two ports. -/
def queueNow (s : State) (p n : Nat) : Nat × Option Nat :=
  if n < 4 then
    let ids := (List.range 4).flatMap (fun sl => if (slotAt s p sl).service = n then (waitingBatches (slotAt s p sl)).flatMap (·.queries) else [])
    let qs := s.levee.queries.filter (fun q => q.part = p && ids.contains q.id)
    (qs.length, qs.head?.map (·.stamp))
  else if n = 4 then ((pendingUpdates s p).length, (pendingUpdates s p).head?.map (·.stamp))
  else
    let us := (egressAt s p ((n - 5) % 2) ((n - 5) / 2)).units
    ((us.map (·.size)).foldl (· + ·) 0 / 64, us.head?.map (·.at_))

/-- One queue sampled (04 R140). -/
def sampleQueue (p n : Nat) (s : State) : State :=
  let q := queueNow s p n
  let depth := min q.1 0xFFFF
  let delay := match q.2 with | some t => min ((s.clock.now - t) / 1000) 0xFFFF | none => 0
  s.modLevee (fun l => { l with samples := KMap.upd l.samples (16 * p + n) {} (fun x =>
    { peakDepth := max x.peakDepth depth, depth := depth, peakDelay := max x.peakDelay delay, delay := delay }) })

/-- Every 1,024 ns Levee samples each queue of each partition (04 R140). -/
def execQueueSample (s : State) : Host.Outcome State Fault Refusal :=
  if mainOn s && s.levee.lastSample / 1024 < s.clock.now / 1024 then
    let s := (List.range 32).foldl (fun s p => (List.range 9).foldl (fun s n => sampleQueue p n s) s) s
    .next (s.modLevee (fun l => { l with lastSample := s.clock.now }))
  else .next s

/-- A partition's peak fields set to the current values (04 R140). -/
def resetPeaks (p : Nat) (s : State) : State :=
  s.modLevee (fun l => { l with samples := l.samples.map (fun e =>
    if e.1 / 16 = p then (e.1, { e.2 with peakDepth := e.2.depth, peakDelay := e.2.delay }) else e) })

/-- The sample object of a queue (04 R140). -/
def sampleWord (x : Sample) : Nat := 2 ^ 48 * x.peakDepth + 2 ^ 32 * x.depth + 65536 * x.peakDelay + x.delay

end Sys2Proof.Machine
end

