-- ==== Sys2Proof/Machine/CarrCore.lean ====
section
/-! DEFINITION. What every instruction of a Carr core shares: issue, registers and poison, exceptions, loads and stores, the
ADC unit and the Sedge-8 list (09). -/

namespace Sys2Proof.Machine

open Sys2Proof

/-- The owner tag under which a core runs (09 R264, R265). -/
def coreOwner (s : State) (k : Core) : Nat :=
  match k.window.bind (windowAt s) with
  | some w => w.owner
  | none => ownSystem

/-- Whether a core may issue: an image program in PNM mode, a SYSTEM program in NORMAL mode, not while a TRYW waits (08
R245, 09 R265). -/
def coreIssues (s : State) (pc mode : Nat) : Bool :=
  mainOn s && pc < 512 && !stackDead s pc && !(coreAt s pc mode).tryWait
  && (if mode = 0 then (coreAt s pc 0).running && (pcAt s pc).mode = .pnm
      else mode = 1 && (pcAt s pc).mode = .normal && !(pcAt s pc).failed)

/-- The length of the running program in words: SYSTEM programs hold words 0 to 511 (09 R292). -/
def coreLength (s : State) (pc mode : Nat) : Nat := if mode = 0 then (coreAt s pc 0).length else 512

/-- What an instruction does: it waits, raises an exception, goes on to the next word, jumps to a word, or ends the
program. -/
inductive Issue where
  | wait
  | exc (code : Nat)
  | go (s : State)
  | jump (target : Nat) (s : State)
  | ended (s : State)

/-- The ready-flag state of an exception (09 R289): core fault for ILLEGAL and HARDWARE, else cut. -/
def excFaults (code : Nat) : Bool := code = 1 || code = 9

/-- An exception (09 R289). -/
def raiseExc (pc mode code : Nat) (s : State) : State :=
  let k := coreAt s pc mode
  let id := if mode = 0 then k.window.getD 0 else 0
  let s := setCount 0x6100 0x0C (2 ^ 48 * id + 2 ^ 40 * code + 2 ^ 37 * (pc / 64) + 2 ^ 31 * (pc % 64) + k.pc % 4096) s
  let s := bump (0xA200 + pc / 64) 0x0B 1 s
  if mode = 1 then
    annal 0x0305 2 ownSystem (srcStack (pc / 64))
      (toLE 1 0 ++ toLE 1 (coreOf s pc) ++ toLE 1 code ++ toLE 2 k.pc)
      (modCore pc 1 (fun k => { k with pc := 0, queue := [], rows := [] }) s)
  else match k.window.bind (windowAt s) with
    | none => modCore pc 0 (fun k => { k with running := false }) s
    | some w =>
      let s := if w.kind = 2 then s else bump (0x4000 + w.slot) 0x16 1 s
      if excFaults code then
        let s := modReady w.id pc (fun r => { r with state := 3 }) s
        let s := modWindow w.id (fun w => { w with cutOn := w.cutOn ++ [pc] }) s
        killCore pc 1 (modCore pc 0 (fun k => { k with running := false, queue := [], rows := [] }) s)
      else closeOn w.id pc 2 s

/-- An instruction issues on a core: nothing where the core does not run or the instruction waits; a program counter at or
past the program's length raises PC (09 R262, R276, R289). -/
def carrIssue (pc mode : Nat) (f : Core → Issue) (s : State) : State :=
  if coreIssues s pc mode then
    let k := coreAt s pc mode
    if coreLength s pc mode ≤ k.pc then raiseExc pc mode 2 s
    else match f k with
      | .wait => s
      | .exc c => raiseExc pc mode c s
      | .go t => modCore pc mode (fun k => { k with pc := k.pc + 1 }) t
      | .jump n t => if n < coreLength s pc mode then modCore pc mode (fun k => { k with pc := n }) t else raiseExc pc mode 2 s
      | .ended t => t
  else s

/-- A general register; g0 reads as zero (09 R262). -/
def Core.gr (k : Core) (r : Nat) : W32 := if r % 16 = 0 then 0 else nth k.g (r % 16) 0

/-- The poison bit of a general register (09 R263). -/
def Core.grBad (k : Core) (r : Nat) : Bool := r % 16 != 0 && nth k.gp (r % 16) false

/-- A vector register. -/
def Core.vr (k : Core) (r : Nat) : W512 := nth k.v (r % 4) 0

/-- The poison bit of a vector register. -/
def Core.vrBad (k : Core) (r : Nat) : Bool := nth k.vp (r % 4) false

/-- A general register written with its poison bit (09 R262, R263). -/
def setG (pc mode d : Nat) (v : W32) (bad : Bool) (s : State) : State := setCoreG (2 * pc + mode) d v bad s

/-- A vector register written with its poison bit. -/
def setV (pc mode d : Nat) (v : W512) (bad : Bool) (s : State) : State :=
  modCore pc mode (fun k => { k with v := setAt k.v (d % 4) v, vp := setAt k.vp (d % 4) bad }) s

/-- An 18-bit immediate, sign-extended (09 R276). -/
def sext18 (imm : Nat) : W32 := (BitVec.ofNat 18 imm).signExtend 32

/-- An 18-bit immediate, zero-extended (09 R276). -/
def zext18 (imm : Nat) : W32 := (BitVec.ofNat 18 imm).zeroExtend 32

/-- A two-register operation (09 R275, R263). -/
def aluRR (pc mode d a b : Nat) (f : W32 → W32 → W32) (s : State) : State :=
  carrIssue pc mode (fun k => .go (setG pc mode d (f (k.gr a) (k.gr b)) (k.grBad a || k.grBad b) s)) s

/-- A register and immediate operation (09 R275, R263). -/
def aluRI (pc mode d a : Nat) (f : W32 → W32) (s : State) : State :=
  carrIssue pc mode (fun k => .go (setG pc mode d (f (k.gr a)) (k.grBad a) s)) s

/-- A vector operation (09 R275 VOP). -/
def vop (pc mode d a b : Nat) (f : W512 → W512 → W512) (s : State) : State :=
  carrIssue pc mode (fun k => .go (setV pc mode d (f (k.vr a) (k.vr b)) (k.vrBad a || k.vrBad b) s)) s

/-- A conditional branch (09 R276): a poisoned comparison raises POISON. -/
def branch (pc mode a b off : Nat) (f : W32 → W32 → Bool) (s : State) : State :=
  carrIssue pc mode (fun k =>
    if k.grBad a || k.grBad b then .exc 7
    else if f (k.gr a) (k.gr b) then .jump (BitVec.ofNat 32 (k.pc + 1) + sext18 off).toNat s
    else .go s) s

/-- The count of set bits of n bits of a number (09 R283). -/
def popBits (n v : Nat) : Nat :=
  match n with
  | 0 => 0
  | k + 1 => v % 2 + popBits k (v / 2)

/-- What a load gives: it waits, raises an exception, or reads bytes with a poison mark. -/
inductive Loaded where
  | wait
  | exc (code : Nat)
  | val (bytes : Bytes) (bad : Bool) (s : State)

/-- Whether a queued or active row operation writes a staging row (09 R277, R284). -/
def rowPending (s : State) (pc mode key : Nat) : Bool :=
  let hits (o : RowOp) : Bool := 504 ≤ (rowRef o.dest).2.2 && stagingKey pc o.dest = key
  (coreAt s pc mode).queue.any hits || (pcAt s pc).active.any hits

/-- Whether any unit of a range is marked. -/
def anyMarked (marks : List Nat) (unit a n : Nat) : Bool :=
  (List.range ((a + n - 1) / unit - a / unit + 1)).any (fun i => marks.contains (a / unit + i))

/-- A load of n bytes at a core address with an alignment (09 R266 to R268, R277). Checks run in the order POISON (of the address, by the
caller), ALIGN, then the space's own. (log 76, DEDUCED.) -/
def loadCore (pc mode : Nat) (k : Core) (addr n al : Nat) (s : State) : Loaded :=
  if addr % al != 0 then .exc 3
  else if addr < 0x40000000 then
    if localEnd ≤ addr then .exc 4
    else if mode = 0 && dramOwner s pc addr != coreOwner s k then
      .val (List.replicate n 0) false (firewallHit (coreOwner s k) (srcStack (pc / 64)) (interleaved pc addr) s)
    else .val (Memory.readN s.mem.carr (dramKey pc addr) n) (anyMarked s.carr.poison 64 (dramKey pc addr) n) s
  else if addr < 0x40100000 then
    let o := addr - 0x40000000
    let w := (k.window.bind (windowAt s)).map (fun w => (w.stBase, w.stLen))
    let inside := match w with | some (b, l) => b ≤ o && o + n ≤ b + l | none => false
    if mode = 0 && !inside then .exc 4
    else .val (Memory.readN s.mem.stage (0x100000 * pc + o) n) (anyMarked s.carr.stageBad 4 (0x100000 * pc + o) n) s
  else if 0x80000000 ≤ addr && addr < 0x80010000 then
    let o := addr - 0x80000000
    let key := 0x10000 * pc + o
    if mode = 0 && 0xC000 ≤ o then .exc 5
    else if mode = 0 && o < 0x8000 &&
        (match KMap.find s.carr.ringOwner (key / 64) with | some p => p != coreOwner s k | none => false) then
      .val (List.replicate n 0) false (firewallHit (coreOwner s k) (srcStack (pc / 64)) addr s)
    else .val (Memory.readN s.mem.scratch key n) (anyMarked s.carr.scratchBad 4 key n) s
  else if 0xC0000000 ≤ addr && addr < 0xC1000000 then
    let o := addr - 0xC0000000
    let row := 16384 * pc + o / 1024
    if rowPending s pc mode row then .wait
    else if KMap.find s.carr.stagingWin row = some (stagingTag (if mode = 0 then k.window else none)) then
      .val (Memory.readN s.mem.staging (0x1000000 * pc + o) n) (anyMarked s.carr.stagingBad 64 (0x1000000 * pc + o) n) s
    else .val (List.replicate n 0) false s
  else .exc 4

/-- A store at a core address (09 R263, R266 to R268). -/
def storeCore (pc mode : Nat) (k : Core) (addr : Nat) (bytes : Bytes) (bad : Bool) (s : State) : Issue :=
  let n := bytes.length
  if addr % n != 0 then .exc 3
  else if addr < 0x40000000 then
    if mode = 0 then .exc 5
    else if localEnd ≤ addr then .exc 4
    else
      let key := dramKey pc addr
      .go ((s.modMem (fun m => { m with carr := Memory.writeN m.carr key bytes })).modCarr
        (fun c => { c with poison := markPoison 64 c.poison key n bad }))
  else if addr < 0x40100000 then
    let o := addr - 0x40000000
    let w := (k.window.bind (windowAt s)).map (fun w => (w.stBase, w.stLen))
    let inside := match w with | some (b, l) => b ≤ o && o + n ≤ b + l | none => false
    if mode = 0 && !inside then .exc 4
    else
      let key := 0x100000 * pc + o
      .go ((s.modMem (fun m => { m with stage := Memory.writeN m.stage key bytes })).modCarr
        (fun c => { c with stageBad := markPoison 4 c.stageBad key n bad }))
  else if 0x80000000 ≤ addr && addr < 0x80010000 then
    let o := addr - 0x80000000
    let key := 0x10000 * pc + o
    if mode = 0 && 0xC000 ≤ o then .exc 5
    else
      .go ((s.modMem (fun m => { m with scratch := Memory.writeN m.scratch key bytes })).modCarr (fun c =>
        { c with scratchBad := markPoison 4 c.scratchBad key n bad,
                 ringOwner := if o < 0x8000 && mode = 0 then KMap.put c.ringOwner (key / 64) (coreOwner s k) else c.ringOwner }))
  else if 0xC0000000 ≤ addr && addr < 0xC1000000 then
    if mode = 0 then .exc 5
    else
      let o := addr - 0xC0000000
      let key := 0x1000000 * pc + o
      .go ((s.modMem (fun m => { m with staging := Memory.writeN m.staging key bytes })).modCarr (fun c =>
        { c with stagingBad := markPoison 64 c.stagingBad key n bad,
                 stagingWin := KMap.put c.stagingWin (16384 * pc + o / 1024) 65536 }))
  else .exc 4

/-- A scalar load into a general register (09 R275, R277). -/
def loadG (pc mode d a imm n : Nat) (s : State) : State :=
  carrIssue pc mode (fun k =>
    if k.grBad a then .exc 7
    else match loadCore pc mode k (k.gr a + sext18 imm).toNat n n s with
      | .wait => .wait
      | .exc c => .exc c
      | .val b bad t => .go (setG pc mode d (BitVec.ofNat 32 (leNat b)) bad t)) s

/-- A scalar store of a general register (09 R275). -/
def storeG (pc mode v a imm n : Nat) (s : State) : State :=
  carrIssue pc mode (fun k =>
    if k.grBad a then .exc 7
    else storeCore pc mode k (k.gr a + sext18 imm).toNat (toLE n (k.gr v).toNat) (k.grBad v) s) s

/-- Whether an entry of the Sedge-8 list precedes another (09 R282): higher score, or equal score and lower item. -/
def precedes8 (a b : Nat × Nat) : Bool := ltF32 b.1 a.1 || (eqF32 a.1 b.1 && a.2 < b.2)

/-- An entry inserted into a list kept best first. -/
def insert8 (l : List (Nat × Nat)) (e : Nat × Nat) : List (Nat × Nat) :=
  match l with
  | [] => [e]
  | h :: t => if precedes8 e h then e :: h :: t else h :: insert8 t e

/-- The Sedge-8 insertion: the best 8 stay; a NaN is dropped and counted (09 R281, R282). -/
def sedge8 (score item : Nat) (k : Core) : Core :=
  if isNan32 score then { k with nans := k.nans + 1 } else { k with list := (insert8 k.list (score, item)).take 8 }

/-- The 64 bytes of the Sedge-8 list (09 R282). -/
def list8Bytes (l : List (Nat × Nat)) : Bytes :=
  (List.range 8).flatMap (fun i => let e := nth l i (0xFF800000, 0xFFFFFFFF); toLE 4 e.1 ++ toLE 4 e.2)

/-- The status word of SRD (09 R282). -/
def list8Status (k : Core) : Nat := 2 ^ 17 * b2n k.listBad + k.list.length

/-- Subcode j of a code (09 R273). -/
def subcode (pq64 : Bool) (code : Bytes) (j : Nat) : Nat :=
  if pq64 then (nth code j 0).toNat
  else
    let v := (nth code (j / 2) 0).toNat
    if j % 2 = 0 then v % 16 else v / 16

/-- The score of one code by the tables of the stage store (09 R273, R281). -/
def adcScore (s : State) (pc : Nat) (c : AdcCfg) (q gen : Nat) (bias : Nat) (code : Bytes) : Nat :=
  let st := if c.pq64 then 16384 else 1024
  let t := 0x100000 * pc + (c.tables + (gen * c.bq + q) * st) % 0x100000
  let sum : Int := (List.range 64).foldl (fun a j =>
    a + signedOf 8 (Memory.read s.mem.stage (t + (if c.pq64 then 256 else 16) * j + subcode c.pq64 code j)).toNat) 0
  let scale := Memory.readLE s.mem.stage (0x100000 * pc + (c.scales + 4 * (gen * c.bq + q)) % 0x100000) 4
  fmaF32 (intF32 sum) scale bias

/-- The ADC unit runs a queued row: every allowed code is scored and inserted; a row with a poisoned allowed word or burst
inserts nothing (09 R281). -/
def runRow (pc mode : Nat) (r : AdcRow) (s : State) : State :=
  let k := coreAt s pc mode
  match k.adc with
  | none => s
  | some c =>
    let e := 0x100000 * pc + r.entry % 0x100000
    let rd (o n : Nat) : Nat := Memory.readLE s.mem.stage (e + o) n
    let row := rd 0 4 % 0x40000000
    let key := dramKey pc row
    let owned := mode = 1 || dramOwner s pc row = coreOwner s k
    let s := if owned then s else firewallHit (coreOwner s k) (srcStack (pc / 64)) (interleaved pc row) s
    let s := charge (coreOwner s k) 0x0E 1024 s
    if r.poison || anyMarked s.carr.poison 64 key 1024 then
      modCore pc mode (fun k => { k with skips := k.skips + 1, listBad := true }) s
    else
      let sz := if c.pq64 then 64 else 32
      let n := if c.pq64 then 16 else 32
      let code (i : Nat) : Bytes := if owned then Memory.readN s.mem.carr (key + sz * i) sz else List.replicate sz 0
      modCore pc mode (fun k => (List.range n).foldl (fun k i =>
        if r.word.testBit i then sedge8 (adcScore s pc c (rd 12 1) (rd 13 1 % 2) (rd 8 4) (code i)) (rd 4 4 + i) k else k) k) s

/-- A row operation queued (08 R238, 09 R284): the checks at issue raise ROWOP; the queue holds 8. -/
def queueRow (pc mode op d a b : Nat) (s : State) : State :=
  carrIssue pc mode (fun k =>
    let two := op ≤ 3
    if k.grBad d || k.grBad a || (two && k.grBad b) then .exc 7
    else
      let vd := (k.gr d).toNat
      let va := (k.gr a).toNat
      let vb := if two then (k.gr b).toNat else va
      let place (v : Nat) : Nat × Nat := ((rowRef v).1, (rowRef v).2.1)
      let data (v : Nat) : Bool := (rowRef v).2.2 < 504
      let w := k.window.bind (windowAt s)
      let owner := coreOwner s k
      let tag (v : Nat) : Nat := dramOwner s pc (dataRow (rowRef v).1 (rowRef v).2.1 (rowRef v).2.2)
      let open_ (v : Nat) : Bool := !data v || mode = 1 || tag v = owner || tag v = ownSystem
      if 0x100000 ≤ vd || 0x100000 ≤ va || 0x100000 ≤ vb then .exc 6
      else if place vd != place va || place vd != place vb then .exc 6
      else if mode = 0 && data vd then .exc 6
      else if !open_ va || !open_ vb then .exc 6
      else if two && (va = vd || vb = vd) then .exc 6
      else if mode = 0 && (w.map (·.tokens)).getD 0 = 0 then .exc 6
      else if 8 ≤ k.queue.length then .wait
      else .go (modCore pc mode (fun k => { k with queue := k.queue ++
        [⟨op, vd, va, vb, if mode = 0 then k.window else none, none⟩] }) s)) s

/-- Whether every queued row operation of a core has ended (09 R284). -/
def rowsEnded (s : State) (pc mode : Nat) : Bool := (coreAt s pc mode).queue.isEmpty && (pcAt s pc).active.isEmpty

/-- The end of an image program by DONE (09 R286): once its SENDs are acknowledged and its row operations have ended,
items and state are written and the window closes on the pseudo-channel. -/
def postDone (pc : Nat) (k : Core) (items : Option Nat) (s : State) : Issue :=
  match k.window.bind (windowAt s) with
  | none => .exc 5
  | some w =>
    if k.sends != 0 || !rowsEnded s pc 0 then .wait
    else
      let s := match items with
        | some v => modReady w.id pc (fun r => { r with items := v % 65536 }) s
        | none => s
      .ended (closeOn w.id pc 1 s)

/-- A partition cell that an image program may name: it lies in the run of the image that owns the window (09 R287, 15
R418). -/
def coreCell (s : State) (k : Core) (v : Nat) : Option Nat :=
  match k.window.bind (windowAt s) with
  | none => if v < 2048 then some (systemCell v) else none
  | some w =>
    let t := KMap.getD s.slots w.slot {}
    if t.cellBase ≤ v && v < t.cellBase + t.cellCount then some (cellNo w.owner v) else none

end Sys2Proof.Machine
end

