-- ==== Sys2Proof/Machine/Arrays.lean ====
section
/-! DEFINITION. The matrix arrays: passes, chains, checks and the search for a bad column (07; 19 R533, R534). -/

namespace Sys2Proof.Machine

open Sys2Proof

/-- An array of a tile, by 2 × tile + array. -/
def arrayAt (s : State) (n : Nat) : ArrayUnit := KMap.getD s.units.arrays n {}

/-- The state with one array changed. -/
def modArray (n : Nat) (f : ArrayUnit → ArrayUnit) (s : State) : State :=
  s.modUnits (fun u => { u with arrays := KMap.upd u.arrays n {} f })

/-- The object of an array (07 OD 0xA100 + 0x02·t + a). -/
def arrayObj (n : Nat) : Nat := 0xA100 + n

/-- A tile lost beyond its spares: recorded, and its Vigil visit ends; its slots halt at their next boundary (19 R538, R539, R558). -/
def loseTile (t : Nat) (s : State) : State :=
  if s.units.lost.contains t then s
  else
    let s := match KMap.find s.vigil.visits t with
      | some v => (actedFiring v.entry s).modVigil (fun g => { g with visits := KMap.del g.visits t })
      | none => s
    let s := s.modTiles (fun c => { c with underTest := c.underTest.filter (· != t) })
    settle (unitLost 0x10 0 (srcTile t) (some t) (s.modUnits (fun u => { u with lost := u.lost ++ [t] })))

/-- The spare-role columns of an array that have not failed (07 R201, R203). -/
def spareCols (a : ArrayUnit) : List Nat := (List.range 136).filter (fun c => !a.cols.contains c && !a.bad.contains c)

/-- An array without a healthy column for its work has failed: its tile is lost (07 R203, 19 R538). -/
def breakArray (n : Nat) (s : State) : State := loseTile (n / 2) (modArray n (fun a => { a with broken := true }) s)

/-- A physical column put behind a logical one at a slot boundary (07 R202, R203; 19 R534, R535). -/
def switchColumn (n col dst cause : Nat) (retire : Bool) (s : State) : State :=
  let old := nth (arrayAt s n).cols col 0
  let now := s.clock.now
  let s := modArray n (fun a => { a with cols := setAt a.cols col dst, bad := if retire then a.bad ++ [old] else a.bad }) s
  let s := modArray n (fun a => { a with since := KMap.put a.since dst now }) s
  spareSwitch (1 + n % 2) col old dst cause 0 (srcTile (n / 2)) s

/-- A column of an array marked failed (07 R203). -/
def failColumn (n phys : Nat) (s : State) : State :=
  modArray n (fun a => { a with bad := if a.bad.contains phys then a.bad else a.bad ++ [phys] }) s

/-- An in-service column is retired: the shadow that agrees takes its place at the next slot boundary (19 R534). -/
def retireColumn (n col dst : Nat) (s : State) : State :=
  modArray n (fun a => { a with search := none, swap := a.swap ++ [(col, dst, 3)] }) s

/-- What array columns wait for at a slot boundary with the queue empty takes effect: replacements, and a search that starts (07
R202; 19 R533, R534). -/
def arrayBoundary (n : Nat) (s : State) : State :=
  let a := arrayAt s n
  if a.queue.isEmpty then
    let s := modArray n (fun a => { a with swap := [] }) s
    let s := a.swap.foldl (fun s w => switchColumn n w.1 w.2.1 w.2.2 (w.2.2 != 0) s) s
    modArray n (fun a => match a.search with
      | some q =>
        if q.started then a
        else
          let sp := spareCols a
          let ends := rwVal s 0xA001 0x03 8
          { a with search := some { started := true, todo := q.todo.drop sp.length,
                                    shadows := (sp.zip q.todo).map (fun e => ⟨e.1, e.2, ends, none⟩) } }
      | none => a) s
  else s

/-- A checksum mismatch starts a shadow search unless one runs; with no healthy spare column there is nothing to search with (19
R533). -/
def startSearch (n : Nat) (s : State) : State :=
  modArray n (fun a => match a.search with
    | some _ => a
    | none => if (spareCols a).isEmpty then a else { a with search := some {} }) s

/-- The values of a shadow disagree with its column at a group end (19 R534). -/
def disagree (n phys : Nat) (s : State) : State :=
  let a := arrayAt s n
  match a.search with
  | none => s
  | some q =>
    match q.shadows.find? (fun w => w.phys = phys) with
    | none => s
    | some w =>
      match w.second with
      | some first => retireColumn n w.col first s
      | none =>
        match (spareCols a).find? (fun c => c != phys) with
        | none => retireColumn n w.col phys s
        | some y =>
          let back := (q.shadows.filter (fun v => v.phys = y)).map (·.col)
          let w2 : Shadow := ⟨y, w.col, rwVal s 0xA001 0x03 8, some phys⟩
          let sh := q.shadows.filter (fun v => v.phys != y) ++ [w2]
          modArray n (fun a => { a with search := some { q with todo := back ++ q.todo, shadows := sh } }) s

/-- A shadow that has stayed its chain ends moves to the next column; a second shadow that agreed shows the first to err; a search
with nothing left records its mismatch as transient (19 R533, R534). (log 87, DEDUCED.) -/
def advanceShadows (n : Nat) (s : State) : State :=
  match (arrayAt s n).search with
  | none => s
  | some q =>
    if !q.started then s
    else match q.shadows.find? (fun w => w.ends = 0 && w.second.isSome) with
      | some w => failColumn n (w.second.getD 0) (modArray n (fun a => { a with search := none }) s)
      | none =>
        let done := q.shadows.filter (fun w => w.ends = 0)
        let stay := q.shadows.filter (fun w => w.ends != 0)
        let ends := rwVal s 0xA001 0x03 8
        let sh := stay ++ (done.zip q.todo).map (fun e => { e.1 with col := e.2, ends := ends })
        if sh.isEmpty then bump (arrayObj n) 0x0B 1 (modArray n (fun a => { a with search := none }) s)
        else modArray n (fun a => { a with search := some { q with todo := q.todo.drop done.length, shadows := sh } }) s

/-- After the set number of chain ends, a shadow moves to the next column (19 R533). -/
def execShadowAdvance (tile array : Nat) (s : State) : Host.Outcome State Fault Refusal :=
  .next (advanceShadows (2 * tile + array % 2) s)

/-- The fields of a pass descriptor (07 R208). -/
structure Pass where
  wf   : Nat
  af   : Nat
  grp  : Nat
  exp  : Bool
  init : Nat
  last : Bool
  toSedge : Bool
  sedge : Nat
  relu : Bool
  out  : Nat
  m    : Nat
  base : Nat
  sig  : Nat
  waddr : Nat
  saddr : Nat
  aaddr : Nat
  oaddr : Nat
  baddr : Nat
  ascale : Nat
  inv  : Nat
deriving DecidableEq, Repr

/-- A pass descriptor read (07 R208). -/
def passOf (d : Bytes) : Pass :=
  let b (i : Nat) : Nat := leAt d i 1
  { wf := bits (b 1) 7 4, af := bits (b 1) 3 0, grp := 32 * 2 ^ bits (b 2) 7 6, exp := bit (b 2) 5, init := bits (b 3) 7 6,
    last := bit (b 3) 5, toSedge := bit (b 3) 4, sedge := bits (b 3) 3 3, relu := b 4 = 1, out := bits (b 5) 3 0, m := leAt d 6 2,
    base := leAt d 8 2, sig := leAt d 10 2, waddr := leAt d 12 4, saddr := leAt d 16 4, aaddr := leAt d 20 4, oaddr := leAt d 24 4,
    baddr := leAt d 28 4, ascale := leAt d 32 4, inv := leAt d 36 4 }

/-- The reduction rows of a tile (07 R205). -/
def Pass.rows (p : Pass) : Nat := if p.wf = 1 then 256 else 128

/-- The bytes of an activation vector (07 R206). -/
def Pass.vec (p : Pass) : Nat := if p.wf = 1 then 256 else if p.wf = 4 then 256 else 128

/-- The bytes of a weight tile (07 R206). -/
def Pass.tile (p : Pass) : Nat := if p.wf = 4 then 32768 else 16384

/-- The bytes of an output element. -/
def outSize (f : Nat) : Nat := if f = 5 then 4 else if f = 4 then 2 else 1

/-- Whether an F32 is a finite positive number. -/
def goodScale (v : Nat) : Bool := finite32 v && v != 0 && v < 0x80000000

/-- Whether a signal field's encoding is in order (07 R208). -/
def signalOk (s : State) (k field : Nat) : Bool := bits field 14 11 = 0 && (!bit field 15 || cellInRun s k (field % 2048))

/-- Whether the encoding of a pass descriptor is in order (07 R204, R205, R208), apart from its signal field. -/
def passEncoded (d : Bytes) : Bool :=
  let p := passOf d
  leAt d 0 1 = 1
  && (p.wf = 0 && p.af = 0 || p.wf = 1 && (p.af = 0 || p.af = 2 || p.af = 3) || (p.wf = 2 || p.wf = 3) && (p.af = 2 || p.af = 3)
      || p.wf = 4 && p.af = 4)
  && bits (leAt d 2 1) 7 6 != 3 && bits (leAt d 2 1) 4 0 = 0
  && p.init != 3 && bits (leAt d 3 1) 2 0 = 0
  && leAt d 4 1 ≤ 1 && bits (leAt d 5 1) 7 4 = 0 && (p.out = 0 || 2 ≤ p.out && p.out ≤ 5)
  && 1 ≤ p.m && p.m ≤ 512 && p.base + p.m ≤ 512 && leAt d 40 24 = 0
  && p.waddr % 16384 = 0 && (!p.exp || p.waddr = 0) && p.saddr % 64 = 0 && (!(p.exp || p.wf = 4) || p.saddr = 0)
  && p.aaddr % 64 = 0 && p.oaddr % 64 = 0 && (!p.toSedge || p.oaddr = 0) && p.baddr % 64 = 0
  && inSram p.waddr (if p.exp then 0 else p.tile) && inSram p.saddr (p.rows / p.grp * 256) && inSram p.aaddr (p.m * p.vec)
  && inSram p.oaddr (p.m * 128 * outSize p.out) && inSram p.baddr (if p.init = 1 then 512 else 0)
  && goodScale p.ascale && (p.out = 5 || p.toSedge || goodScale p.inv)
  && (!p.exp || (p.wf = 2 || p.wf = 3) && p.grp = 64)

/-- Whether an array takes a pass (07 R209). -/
def passOk (s : State) (k : Nat) (a : ArrayUnit) (d : Bytes) : Bool :=
  let p := passOf d
  passEncoded d && signalOk s k p.sig
  && (p.init != 2 || match a.chain.head? with
      | some c => (passOf c).base = p.base && (passOf c).m = p.m
      | none => false)

/-- The value of an element byte or word of a format of 07 R204. -/
def elemFl (f v : Nat) : Fl :=
  if f = 0 then ofScaled (signedOf 8 v) 0 else if f = 1 then ofScaled (signedOf 4 v) 0
  else if f = 2 then fmtE4M3.decode v else if f = 3 then fmtE5M2.decode v else fmtBf16.decode v

/-- The weight of reduction row k, column j (07 R206). -/
def weightAt (p : Pass) (w : Bytes) (k j : Nat) : Fl :=
  if p.wf = 1 then
    let b := leAt w (k / 2 * 128 + j) 1
    elemFl 1 (if k % 2 = 0 then b % 16 else b / 16)
  else if p.wf = 4 then elemFl 4 (leAt w (2 * (128 * k + j)) 2)
  else elemFl p.wf (leAt w (128 * k + j) 1)

/-- Activation element k of a vector (07 R206). -/
def actAt (p : Pass) (v : Bytes) (k : Nat) : Fl := if p.af = 4 then elemFl 4 (leAt v (2 * k) 2) else elemFl p.af (leAt v k 1)

/-- Whether a value is finite. -/
def Fl.isFin (x : Fl) : Bool := match x with | .fin _ _ _ => true | _ => false

/-- The special value that special products give a group, if any (07 R216). -/
def specialSum (xs : List Fl) : Option Fl :=
  if xs.any (fun x => x = .nan) then some .nan
  else match xs.contains (.inf false), xs.contains (.inf true) with
    | true, true => some .nan
    | true, false => some (.inf false)
    | false, true => some (.inf true)
    | false, false => none

/-- The sum of a group's products as F32 (07 R213, R214, R216). -/
def groupSum (bf : Bool) (xs : List Fl) : Nat :=
  match specialSum xs with
  | some v => toF32 v
  | none =>
    if bf then xs.foldl (fun a x => toF32 ((f32 a).add x)) 0
    else toF32 (xs.foldl Fl.add (.fin false 0 0))

/-- One accumulator after a pass, with the count of overflows (07 R214, R217). -/
def accumulate (p : Pass) (w sc v : Bytes) (j : Nat) (acc : Nat) : Nat × Nat :=
  (List.range (p.rows / p.grp)).foldl (fun r g =>
    let xs := (List.range p.grp).map (fun i => (actAt p v (g * p.grp + i)).mul (weightAt p w (g * p.grp + i) j))
    let sum := groupSum (p.wf = 4) xs
    let ws := if p.wf = 4 then 0x3F800000 else 65536 * leAt sc (2 * (g * 128 + j)) 2
    let k := mulF32 ws p.ascale
    let n := fmaF32 sum k r.1
    (n, r.2 + b2n (finite32 sum && finite32 k && finite32 r.1 && n % 0x80000000 = 0x7F800000))) (acc, 0)

/-- The groups of a pass whose inputs hold a NaN or an infinity, over its vectors (07 R225). -/
def uncheckedGroups (p : Pass) (w : Bytes) (vs : List Bytes) : Nat :=
  let badW (g : Nat) : Bool := (List.range p.grp).any (fun i => (List.range 128).any (fun j => !(weightAt p w (g * p.grp + i) j).isFin))
  let badV (v : Bytes) (g : Nat) : Bool := (List.range p.grp).any (fun i => !(actAt p v (g * p.grp + i)).isFin)
  let ws := (List.range (p.rows / p.grp)).map badW
  vs.foldl (fun a v => a + ((List.range (p.rows / p.grp)).filter (fun g => nth ws g false || badV v g)).length) 0

/-- A finite value rounded to the nearest integer, ties to even. -/
def Fl.rint (x : Fl) : Int :=
  match x with
  | .fin neg m e =>
    let r : Nat := if 0 ≤ e then m * 2 ^ e.toNat else rneShift m (-e).toNat
    if neg then -(r : Int) else r
  | _ => 0

/-- What writing an output counted: saturations, NaN outputs, overflows (07 R218). -/
structure OutCount where
  sat : Nat := 0
  nan : Nat := 0
  ovf : Nat := 0
deriving DecidableEq, Repr

/-- An accumulator value as it is written, and what that counts (07 R218). -/
def outValue (p : Pass) (y : Nat) : Nat × OutCount :=
  let y1 := if p.relu then (if isNan32 y then 0x7FC00000 else if ltF32 0 y then y else 0) else y
  let isN := isNan32 y1
  if p.toSedge || p.out = 5 then (y1, { nan := b2n isN })
  else
    let t := (f32 y1).mul (f32 p.inv)
    let neg (v top : Nat) : Nat := match t with
      | .inf true => v + top
      | .fin true _ _ => v + top
      | _ => v
    match t with
    | .nan => (if p.out = 0 then 0 else if p.out = 4 then 0x7FC0 else 0x7F, { nan := 1 })
    | .inf s =>
      if p.out = 0 then (if s then 0x80 else 127, { sat := 1 })
      else if p.out = 2 then (neg 0x7E 128, { sat := 1 })
      else if p.out = 3 then (neg 0x7B 128, { sat := 1 })
      else (neg 0x7F80 32768, {})
    | .fin _ _ _ =>
      if p.out = 0 then
        let r := t.rint
        (patternOf 8 (max (-128) (min 127 r)), { sat := b2n (decide (127 < r) || decide (r < -128)) })
      else if p.out = 2 then (fmtE4M3.encode t, { sat := b2n (fmtE4M3.overflows t) })
      else if p.out = 3 then (if fmtE5M2.overflows t then neg 0x7B 128 else fmtE5M2.encode t, { sat := b2n (fmtE5M2.overflows t) })
      else (fmtBf16.encode t, { ovf := b2n (fmtBf16.overflows t) })

/-- The canonical NaN of an output format, 0 in INT8 (19 R537). -/
def nanOut (p : Pass) : Nat :=
  if p.toSedge || p.out = 5 then 0x7FC00000 else if p.out = 0 then 0 else if p.out = 4 then 0x7FC0 else 0x7F

/-- The outputs of an end-of-chain pass leave the array: to tile SRAM or to the port of a Sedge unit (07 R208, R218; 11 R322). -/
def writeOutputs (t k n : Nat) (p : Pass) (lost : Bool) (s : State) : State :=
  let a := arrayAt s n
  let val (v j : Nat) : Nat × OutCount :=
    if lost then (nanOut p, {}) else outValue p (KMap.getD a.acc (128 * (p.base + v) + j) 0)
  let rows := (List.range p.m).map (fun v => (List.range 128).map (val v))
  let sum (f : OutCount → Nat) : Nat := rows.foldl (fun a r => a + r.foldl (fun a e => a + f e.2) 0) 0
  let s := bump (0x4000 + k) 0x13 (sum (·.ovf)) (bump (0x4000 + k) 0x12 (sum (·.nan)) (bump (0x4000 + k) 0x11 (sum (·.sat)) s))
  if p.toSedge then
    let vs := rows.map (fun r => r.map (·.1))
    s.modUnits (fun u => { u with sedges := KMap.upd u.sedges (2 * t + p.sedge) {} (fun g =>
      { g with port := g.port ++ (List.range p.m).map (fun v => (n % 2, decide (v + 1 = p.m), nth vs v [])) }) })
  else tilePut (k / 4) t p.oaddr (rows.flatMap (fun r => r.flatMap (fun e => toLE (outSize p.out) e.1))) s

/-- A pass descriptor with its signal disabled: it has been raised. -/
def unsignalled (d : Bytes) : Bytes := d.take 10 ++ [0, 0] ++ d.drop 12

/-- A detected error in a pass (07 R228; 03 R97; 19 R537): the first of the stage and slot runs the chain again from its first pass;
with a second, the chain's work is lost. (log 86, DEDUCED.) -/
def passError (t k st n : Nat) (errs : List Nat) (d : Bytes) (s : State) : Bool × State :=
  let s := errs.foldl (fun s e =>
    traceCheck (k / 4) (srcTile t) 0 (n % 2) (b2n (!s.units.erred.contains (16 * k + st)))
      (if e = 1 then startSearch n (bump (arrayObj n) 0x04 1 s) else bump (arrayObj n) 0x06 1 s)) s
  let r := markError k st s
  if !r.1 && errs.length = 1 then
    (true, modArray n (fun a =>
      { a with queue := a.chain.map unsignalled ++ [d] ++ a.queue, chain := [], retry := true, shadow := [], fed := a.start,
               replay := if (passOf d).exp then some a.start else none }) r.2)
  else (false, lostWork (k / 4) (k % 4) st 1 (srcTile t) (runningQueries r.2 k st) (modArray n (fun a => { a with lost := true }) r.2))

/-- A pass has run: its accumulators, its outputs at the end of its chain, its signal (07 R208, R214, R218). -/
def finishPass (t k n : Nat) (d : Bytes) (s : State) : State :=
  let p := passOf d
  let a := arrayAt s n
  let s := if p.last then writeOutputs t k n p a.lost s else s
  let s := if p.last && a.retry && !a.lost then bump (arrayObj n) 0x05 1 s else s
  let s := modArray n (fun a =>
    if p.last then { a with chain := [], lost := false, retry := false,
                            search := a.search.map (fun q => { q with shadows := q.shadows.map (fun w => { w with ends := w.ends - 1 }) }) }
    else { a with chain := a.chain ++ [d] }) s
  raiseField (k / 4) p.sig s

/-- The operands of a pass read, its groups summed and the accumulators updated (07 R206, R213 to R217). -/
def streamPass (t k n : Nat) (p : Pass) (s : State) : State :=
  let own := k / 4
  let a := arrayAt s n
  let tile := a.shadow.head?.getD []
  let w := if p.exp then (tile.take 16384, s) else tileGet own t p.waddr p.tile s
  let sc := if p.exp then (tile.drop 16384, w.2) else if p.wf = 4 then ([], w.2) else tileGet own t p.saddr (p.rows / p.grp * 256) w.2
  let ac := tileGet own t p.aaddr (p.m * p.vec) sc.2
  let bi := if p.init = 1 then tileGet own t p.baddr 512 ac.2 else ([], ac.2)
  let vs := (List.range p.m).map (fun v => slice ac.1 (v * p.vec) p.vec)
  let start (v j : Nat) : Nat :=
    if p.init = 0 then 0 else if p.init = 1 then leAt bi.1 (4 * j) 4 else KMap.getD a.acc (128 * (p.base + v) + j) 0
  let rs := (List.range p.m).flatMap (fun v => (List.range 128).map (fun j =>
    (128 * (p.base + v) + j, accumulate p w.1 sc.1 (nth vs v []) j (start v j))))
  let un := uncheckedGroups p w.1 vs
  let s := bump (0x4000 + k) 0x13 (rs.foldl (fun a r => a + r.2.2) 0) bi.2
  let s := bump (arrayObj n) 0x09 un (bump (0x4000 + k) 0x14 un s)
  modArray n (fun a => { a with acc := rs.foldl (fun m r => KMap.put m r.1 r.2.1) a.acc,
                                shadow := if p.exp then a.shadow.drop 1 else a.shadow,
                                fed := if p.exp then a.fed + 1 else a.fed }) s

/-- An array runs the first pass of its queue (07 R207 to R217). `errs` are the errors detected in it, 1 a checksum mismatch and 2 a
rescale mismatch; `off` are the physical columns of shadows whose values disagreed. -/
def execArrayPass (tile array : Nat) (errs off : List Nat) (s : State) : Host.Outcome State Fault Refusal :=
  let n := 2 * tile + array % 2
  let a := arrayAt s n
  match a.queue, tileRole s tile with
  | d :: r, some (k, _, st, _) =>
    let p := passOf d
    if !passOk s k a d then .next (bump (arrayObj n) 0x08 1 (modArray n (fun a => { a with queue := r }) s))
    else if p.exp && a.shadow.isEmpty then .next s
    else
      let s := modArray n (fun a => { a with queue := r, chain := if p.init = 2 then a.chain else [],
                                             lost := if p.init = 2 then a.lost else false,
                                             start := if p.init = 2 then a.start else a.fed }) s
      let s := streamPass tile k n p s
      let s := off.foldl (fun s c => disagree n c s) s
      if errs.isEmpty then .next (finishPass tile k n d s)
      else
        let e := passError tile k st n errs d s
        .next (if e.1 then e.2 else finishPass tile k n d e.2)
  | _, _ => .next s

/-- A descriptor put into a queue of 8; none while the queue is full (07 R207). -/
def putQueue (q : List Bytes) (d : Bytes) : Option (List Bytes) := if 8 ≤ q.length then none else some (q ++ [d])

/-- A pass descriptor enqueued, unless the queue is full. -/
def enqueuePass (n : Nat) (d : Bytes) (s : State) : Option State :=
  (putQueue (arrayAt s n).queue d).map (fun q => modArray n (fun a => { a with queue := q }) s)

/-- A 64-byte write to an array's command window (07 R207): held while the queue is full. -/
def execPassEnqueue (tile array : Nat) (data : Bytes) (s : State) : Host.Outcome State Fault Refusal :=
  .next ((enqueuePass (2 * tile + array % 2) (slice data 0 64) s).getD s)

/-- What a cut drops in an array (07 R229): its queue, the pass in flight and the open chain, whose accumulator entries become
undefined: free values (log 2). -/
def cutArray (n : Nat) (s : State) : State :=
  let a := arrayAt s n
  let s := modArray n (fun a => { a with queue := [], chain := [], lost := false, retry := false, shadow := [], replay := none }) s
  match a.chain.head? with
  | none => s
  | some d =>
    let p := passOf d
    let v := freeVal s (p.m * 4096)
    let acc := (List.range (p.m * 128)).foldl (fun m i => KMap.put m (128 * p.base + i) (v / 2 ^ (32 * i) % 2 ^ 32)) a.acc
    drawn (modArray n (fun a => { a with acc := acc }) s)

end Sys2Proof.Machine
end

