-- ==== Sys2Proof/Machine/Sedge.lean ====
section
/-! DEFINITION. The Sedge units: lists, sums, the array port, the collector and the outputs (11). -/

namespace Sys2Proof.Machine

open Sys2Proof

/-- The working precision of the exponential and the logarithm in bits. -/
def lnBits : Nat := 256

/-- The odd power series of the inverse hyperbolic tangent of z ÷ 2^256, by terms. -/
def atanhSum (fuel i : Nat) (z p : Nat) : Nat :=
  match fuel with
  | 0 => 0
  | k + 1 => p / (2 * i + 1) + atanhSum k (i + 1) z (p * z / 2 ^ lnBits * z / 2 ^ lnBits)

/-- The natural logarithm of 2, times 2^256. -/
def ln2Fix : Nat := 2 * atanhSum 100 0 (2 ^ lnBits / 3) (2 ^ lnBits / 3)

/-- The exponential series of r ÷ 2^256, by terms. -/
def expSum (fuel i r t : Nat) : Nat :=
  match fuel with
  | 0 => 0
  | k + 1 => t + expSum k (i + 1) r (t * r / 2 ^ lnBits / (i + 1))

/-- e^x rounded to 24 significant bits, in units of 2^-1097, for x of at most 744 in magnitude (11 R328). -/
def expTerm (neg : Bool) (m : Nat) (e : Int) : Nat :=
  let x : Int := scaled neg m e (-(lnBits : Int))
  let k : Int := x / (ln2Fix : Int)
  let r : Nat := (x - k * (ln2Fix : Int)).toNat
  rneShift (expSum 80 0 r (2 ^ lnBits)) (lnBits - 23) * 2 ^ (k + 1074).toNat

/-- ln of a total in units of 2^-1097, rounded once to F32 (11 R328). -/
def lnF32 (a : Nat) : Nat :=
  if a = 0 then 0xFF800000
  else
    let b := Nat.log2 a
    let z := (a - 2 ^ b) * 2 ^ lnBits / (a + 2 ^ b)
    let l : Int := ((b : Int) - 1097) * (ln2Fix : Int) + 2 * (atanhSum 100 0 z z : Nat)
    if a = 2 ^ 1097 then 0 else toF32 (.fin (l < 0) (2 * l.natAbs + 1) (-(lnBits : Int) - 1))

/-- A score added to a sum, with the count of clamps (11 R327, R328). -/
def Acc.add (lse : Bool) (a : Acc) (v : Nat) : Acc × Nat :=
  match f32 v with
  | .nan => ({ a with nan := true }, 0)
  | .inf neg => if neg then (if lse then a else { a with ninf := true }, 0) else ({ a with pinf := true }, 0)
  | .fin neg m e =>
    if lse then
      let big := (Fl.fin false 744 0).lt (.fin false m e)
      ({ a with total := a.total + (if big then expTerm neg 744 0 else expTerm neg m e : Nat) }, b2n big)
    else ({ a with total := a.total + scaled neg m e (-149) }, 0)

/-- A sum as F32, rounded once (11 R327, R328). -/
def Acc.value (lse : Bool) (a : Acc) : Nat :=
  if a.nan || (a.pinf && a.ninf) then 0x7FC00000
  else if a.pinf then 0x7F800000
  else if a.ninf then 0xFF800000
  else if lse then lnF32 a.total.toNat
  else toF32 (ofScaled a.total (-149))

/-- Scores added to a sum one after another. -/
def Acc.addAll (lse : Bool) (a : Acc) (vs : List Nat) : Acc × Nat :=
  vs.foldl (fun r v => let x := Acc.add lse r.1 v; (x.1, r.2 + x.2)) (a, 0)

/-- Whether an entry precedes another (11 R319). -/
def Ent.before (a b : Ent) : Bool := ltF32 b.score a.score || (eqF32 a.score b.score && a.hand < b.hand)

/-- An entry put into a list in order. -/
def insertEnt (e : Ent) (l : List Ent) : List Ent :=
  match l with
  | [] => [e]
  | f :: r => if e.before f then e :: l else f :: insertEnt e r

/-- What taking an entry counted: NaN entries, duplicates, clamps. -/
structure TakeCount where
  nan : Nat := 0
  dup : Nat := 0
  clamp : Nat := 0
deriving DecidableEq, Repr

/-- An entry offered to a list of some capacity (11 R319, R320, R327). -/
def takeEnt (cap : Nat) (e : Ent) (q : QList) : QList × TakeCount :=
  if isNan32 e.score then (q, { nan := 1 })
  else match q.ents.find? (fun f => f.hand = e.hand) with
    | some f =>
      (if e.before f then { q with ents := insertEnt e (q.ents.filter (fun g => g.hand != e.hand)) } else q, { dup := 1 })
    | none =>
      let l := insertEnt e q.ents
      if l.length ≤ cap then ({ q with ents := l }, {})
      else
        let out := (l.drop cap).map (·.score)
        let u := Acc.addAll q.lse q.un out
        ({ q with ents := l.take cap, un := u.1 }, { clamp := u.2 })

/-- A Sedge unit, by 2 × tile + unit. -/
def sedgeAt (s : State) (n : Nat) : SedgeUnit := KMap.getD s.units.sedges n {}

/-- The state with one Sedge unit changed. -/
def modSedge (n : Nat) (f : SedgeUnit → SedgeUnit) (s : State) : State :=
  s.modUnits (fun u => { u with sedges := KMap.upd u.sedges n {} f })

/-- The object of a Sedge unit (11 OD 0xA400 + 0x02·t + u). -/
def sedgeObj (n : Nat) : Nat := 0xA400 + n

/-- The open batch of a unit changed. -/
def modOpen (n : Nat) (f : OpenBatch → OpenBatch) (s : State) : State :=
  modSedge n (fun g => { g with batch := g.batch.map f }) s

/-- An entry offered to the list of a query, numbered from the unit's first; its effects counted (11 R319, R320, R328). -/
def giveEnt (n k j : Nat) (e : Ent) (s : State) : State :=
  match (sedgeAt s n).batch with
  | none => s
  | some b =>
    let r := takeEnt (64 * leAt b.desc 2 1) e (nth b.lists j {})
    let s := modOpen n (fun b => { b with lists := setAt b.lists j r.1 }) s
    let s := bump (sedgeObj n) 0x03 r.2.nan (bump (sedgeObj n) 0x02 r.2.dup s)
    bump (0x4000 + k) 0x1B r.2.clamp s

/-- Whether a Sedge descriptor may be taken: its encoding, its addresses and its signal cell (11 R318, R331). -/
def sedgeEncoded (d : Bytes) : Bool :=
  let mode := leAt d 1 1
  let out := bits mode 7 6
  let port := bits mode 3 2
  let n := leAt d 2 1
  let nq := leAt d 4 2
  let k := leAt d 8 2
  if leAt d 0 1 = 2 then leAt d 1 9 = 0 && leAt d 12 52 = 0
  else
    leAt d 0 1 = 1 && out != 3 && bits mode 5 4 = 0 && port != 3 && bits mode 0 0 = 0
    && 1 ≤ n && n ≤ 16 && leAt d 3 1 = 0 && 1 ≤ nq && nq ≤ 128 && leAt d 6 2 + nq ≤ 256 && nq * n ≤ 128 && 1 ≤ k && k ≤ 64 * n
    && (if out = 1 then bits (leAt d 12 4) 24 16 = 0
        else leAt d 12 4 % 64 = 0 && inSram (leAt d 12 4) (nq * (if out = 0 then 16 * k else 32 + 24 * k)))
    && inSram (leAt d 20 4) nq
    && (if port = 2 then leAt d 32 4 % 64 = 0 && inSram (leAt d 32 4) 8 && leAt d 36 2 < 128 && 1 ≤ leAt d 38 2 && leAt d 38 2 ≤ 4096
        else leAt d 36 4 = 0 && (port = 1 || leAt d 32 4 = 0))
    && (!bit mode 1 || leAt d 44 4 % 64 = 0 && leAt d 48 4 % 64 = 0 && inSram (leAt d 44 4) 2 && inSram (leAt d 48 4) 4
        && 1 ≤ leAt d 52 2 && leAt d 52 2 ≤ 16384)
    && leAt d 54 2 = 0 && leAt d 60 4 = 0
    && (leAt d 24 8 = 0 || 1 ≤ leAt d 56 4 && leAt d 56 4 ≤ 16777216)

/-- Whether a unit takes a descriptor. -/
def sedgeOk (s : State) (k : Nat) (d : Bytes) : Bool := sedgeEncoded d && signalOk s k (leAt d 10 2)

/-- A Sedge descriptor enqueued, unless the queue is full. -/
def enqueueSedge (n : Nat) (d : Bytes) (s : State) : Option State :=
  (putQueue (sedgeAt s n).queue d).map (fun q => modSedge n (fun g => { g with queue := q }) s)

/-- A 64-byte write to a Sedge command window (11 R330): held while the queue is full. -/
def execSedgeEnqueue (tile unit : Nat) (data : Bytes) (s : State) : Host.Outcome State Fault Refusal :=
  .next ((enqueueSedge (2 * tile + unit % 2) (slice data 0 64) s).getD s)

/-- The first descriptor of a unit's queue refused (11 R331). -/
def refuseSedge (n : Nat) (s : State) : State := bump (sedgeObj n) 0x07 1 (modSedge n (fun g => { g with queue := g.queue.drop 1 }) s)

/-- An OPEN runs once the previous FINISH has completed: each query gets an empty list in its sum mode (11 R318, R328, R330). -/
def execSedgeOpen (tile unit : Nat) (s : State) : Host.Outcome State Fault Refusal :=
  let n := 2 * tile + unit % 2
  let g := sedgeAt s n
  match g.queue, tileRole s tile with
  | d :: _, some (k, _, _, _) =>
    if leAt d 0 1 = 2 || g.batch.isSome then .next s
    else if !sedgeOk s k d then .next (refuseSedge n s)
    else
      let nq := leAt d 4 2
      let r := tileGet (k / 4) tile (leAt d 20 4) nq s
      let ls := (List.range nq).map (fun j => ({ lse := bit (leAt r.1 j 1) 0 } : QList))
      .next (modSedge n (fun g => { g with queue := g.queue.drop 1, batch := some { desc := d, lists := ls } }) r.2)
  | _, _ => .next s

/-- A captured score written for the entry of an item (11 R323). -/
def captureScore (own t q item base score : Nat) (d : Bytes) (s : State) : State :=
  let r := tileGet own t (leAt d 44 4 + 2 * (item - base)) 2 s
  let i := leAt r.1 0 2
  if i = 0xFFFF then r.2 else tilePut own t (leAt d 48 4 + 4 * (q * leAt d 52 2 + i)) (toLE 4 score) r.2

/-- A vector of the array port in COLUMNS mode: one entry for each column (11 R322, R323). -/
def columnsVector (t n k a v : Nat) (vec : List Nat) (b : OpenBatch) (s : State) : State :=
  let d := b.desc
  let base := leAt d 32 4
  let first := base + 128 * (nth b.chains a 0 + (if a = 1 then leAt d 40 4 else 0))
  (List.range 128).foldl (fun s j =>
    let item := first + j
    let sc := nth vec j 0
    let s := if bit (leAt d 1 1) 1 then captureScore (k / 4) t (leAt d 6 2 + v) item base sc d s else s
    giveEnt n k v ⟨sc, 2 ^ 32 * leAt d 16 4 + item % 2 ^ 32, 0xFFFFFFFF, 1024, none⟩ s) s

/-- A vector of the array port in VECTORS mode: one candidate (11 R322). -/
def candidateVector (t n k c : Nat) (vec : List Nat) (d : Bytes) (s : State) : State :=
  let per := leAt d 38 2
  let r := tileGet (k / 4) t (leAt d 32 4 + 8 * c) 8 s
  giveEnt n k (c / per) ⟨nth vec (leAt d 36 2) 0, leAt r.1 0 8, c % per, 1024, none⟩ r.2

/-- The array port forms entries from the oldest vector sent to it and inserts them (11 R322). A vector for no query of the unit, or
for no open batch, is dropped and counted. -/
def execArrayPortVector (tile unit : Nat) (s : State) : Host.Outcome State Fault Refusal :=
  let n := 2 * tile + unit % 2
  let g := sedgeAt s n
  match g.port, tileRole s tile with
  | (a, last, vec) :: r, some (k, _, _, _) =>
    let s := modSedge n (fun g => { g with port := r }) s
    let drop (s : State) : State := bump (sedgeObj n) 0x04 1 s
    match g.batch with
    | none => .next (drop s)
    | some b =>
      let mode := bits (leAt b.desc 1 1) 3 2
      let nq := leAt b.desc 4 2
      let v := nth b.vecs a 0
      let c := v + if a = 1 then leAt b.desc 40 4 else 0
      let s :=
        if mode = 1 then (if v < nq then columnsVector tile n k a v vec b s else drop s)
        else if mode = 2 then (if c / max 1 (leAt b.desc 38 2) < nq then candidateVector tile n k c vec b.desc s else drop s)
        else drop s
      .next (modOpen n (fun b =>
        { b with vecs := setAt b.vecs a (if mode = 1 && last then 0 else v + 1),
                 chains := setAt b.chains a (nth b.chains a 0 + b2n last) }) s)
  | _, _ => .next s

/-- The unit's parity finds an error in its list or slot storage: its lists for the batch are lost work; a second error within 1 s loses
the tile (19 R530, R532, R537). -/
def sedgeParity (tile n k st : Nat) (s : State) : State :=
  let now := s.clock.now
  let again : Bool := match KMap.find s.units.sedgeAt n with | some t0 => now < t0 + 1000000000 | none => false
  let s := traceCheck (k / 4) (srcTile tile) 3 (n % 2) 0 (s.modUnits (fun u => { u with sedgeAt := KMap.put u.sedgeAt n now }))
  let s := lostWork (k / 4) (k % 4) st 5 (srcTile tile) (runningQueries s k st) (modOpen n (fun b => { b with lost := true }) s)
  if again then loseTile tile s else s

/-- The entries that a message carries, with their queries (11 R325). -/
def messageEnts (hh slot header : Nat) (data : Bytes) : List (Nat × Ent) :=
  let q := bits header 31 24
  let n := bits header 3 0
  match bits header 21 18 with
  | 0 => (List.range n).map (fun i => (q, ⟨leAt data (8 * i) 4, 2 ^ 32 * hh + leAt data (8 * i + 4) 4, 0xFFFFFFFF, slot, none⟩))
  | 1 => (List.range n).map (fun i => (leAt data (16 * i + 12) 1, ⟨leAt data (16 * i + 8) 4, leAt data (16 * i) 8, 0xFFFFFFFF, slot, none⟩))
  | 2 => (List.range n).map (fun i => (q, ⟨leAt data (24 * i + 16) 4, leAt data (24 * i + 8) 8, 0xFFFFFFFF, slot, some (leAt data (24 * i) 8)⟩))
  | _ => []

/-- Whether a message is well formed for an open batch (11 R326). -/
def messageOk (b : OpenBatch) (slot header : Nat) (data : Bytes) : Bool :=
  let q0 := leAt b.desc 6 2
  let nq := leAt b.desc 4 2
  let f := bits header 21 18
  let n := bits header 3 0
  let inR (q : Nat) : Bool := q0 ≤ q && q < q0 + nq
  f ≤ 3 && 1 ≤ n && n ≤ (if f = 0 then 8 else if f = 1 then 4 else if f = 2 then 2 else 1) && slot < 1024 && b.closed.isNone
  && (if f = 1 then (messageEnts 0 slot header data).all (fun e => inR e.1) else inR (bits header 31 24))

/-- A message merged: entries, flags and summary (11 R325 to R329). (log 82, DEDUCED.) -/
def mergeMessage (n k slot header : Nat) (data : Bytes) (s : State) : State :=
  match (sedgeAt s n).batch with
  | none => bump (sedgeObj n) 0x04 1 s
  | some b =>
    if !messageOk b slot header data then bump (sedgeObj n) 0x04 1 s
    else
      let q0 := leAt b.desc 6 2
      let f := bits header 21 18
      let qs := if f = 1 then (messageEnts 0 slot header data).map (·.1) else [bits header 31 24]
      let mark (q flag : Nat) (s : State) : State :=
        modOpen n (fun b => { b with lists := b.lists.modify (q - q0) (fun l => { l with flags := l.flags ||| flag }) }) s
      let s := bump (sedgeObj n) 0x01 1 s
      let s := if bit header 17 then qs.foldl (fun s q => mark q 4 s) s else s
      let s := if bit header 16 then bump (sedgeObj n) 0x08 1 s else s
      let s := if f = 1 then (List.range (bits header 3 0)).foldl (fun s i =>
          if bit (leAt data (16 * i + 13) 1) 2 then mark (leAt data (16 * i + 12) 1) 1 s else s) s else s
      let s := (messageEnts (leAt b.desc 16 4) slot header data).foldl (fun s e => giveEnt n k (e.1 - q0) e.2 s) s
      if f = 3 then
        let j := bits header 31 24 - q0
        let l := nth ((((sedgeAt s n).batch).map (·.lists)).getD []) j {}
        let u := Acc.add l.lse l.un (leAt data 0 4)
        let nl : QList := { l with un := u.1, args := KMap.put l.args slot (leAt data 4 4), flags := l.flags ||| leAt data 8 2 }
        bump (0x4000 + k) 0x1B u.2 (modOpen n (fun b => { b with lists := setAt b.lists j nl }) s)
      else s

/-- The first element of a list that meets a test removed. -/
def dropFirst {α : Type} (f : α → Bool) (l : List α) : List α :=
  match l with
  | [] => []
  | x :: r => if f x then r else x :: dropFirst f r

/-- A message arrives in a producer slot, is merged and acknowledged (11 R324 to R326; 03 R82; 19 R536). `src` 0 takes the first message
of a Carr core on its way to the unit, 1 the first of a Mere engine or Sedge unit, 2 an exchange message with the given header, slot and
payload; `parity` tells of an error in the unit's storage. -/
def execCollectorMessage (tile unit src slot header : Nat) (data : Bytes) (parity : Bool) (s : State) :
    Host.Outcome State Fault Refusal :=
  let n := 2 * tile + unit % 2
  let here (t : Nat) : Bool := bits t 31 25 = n
  match tileRole s tile with
  | none =>
    .next ((s.modCarr (fun c => { c with msgs := if src = 0 then dropFirst (fun m => here m.target) c.msgs else c.msgs })).modUnits
      (fun u => { u with msgs := if src = 1 then dropFirst (fun m => here m.target) u.msgs else u.msgs }))
  | some (k, _, st, _) =>
    let own := k / 4
    let take (o tgt hd : Nat) (d : Bytes) (s : State) : State :=
      let s := raiseTo (sedgeObj n) 0x05 1 s
      if o != own && o != ownSystem then firewallHit o (srcTile tile) tgt s else mergeMessage n k (tgt % 65536) hd d s
    let s := if parity then sedgeParity tile n k st s else s
    if src = 0 then
      match s.carr.msgs.find? (fun m => here m.target) with
      | none => .next s
      | some m =>
        let s := s.modCarr (fun c => { c with msgs := dropFirst (fun m => here m.target) c.msgs })
        if m.gen != KMap.getD s.carr.gens m.pc 0 then .next (bump (0xA200 + m.pc / 64) 0x0E 1 s)
        else .next (take m.owner m.target (m.header % 2 ^ 18 + 2 ^ 24 * bits m.header 31 24) m.data s)
    else if src = 1 then
      match s.units.msgs.find? (fun m => here m.target) with
      | none => .next s
      | some m =>
        .next (take m.owner m.target m.header m.data (s.modUnits (fun u => { u with msgs := dropFirst (fun m => here m.target) u.msgs })))
    else .next (take own slot header (slice data 0 64) s)

/-- The position of an entry (11 R329). -/
def entPos (q : QList) (e : Ent) : Nat := if e.slot = 1024 then e.pos else KMap.getD q.args e.slot 0xFFFFFFFF

/-- The argmax of a query (11 R329). -/
def queryArgmax (q : QList) : Nat := match q.ents with | e :: _ => entPos q e | [] => 0xFFFFFFFF

/-- The selected and unselected sums of a query, with the count of clamps (11 R327, R328). -/
def querySums (k : Nat) (q : QList) : Nat × Nat × Nat :=
  let a := Acc.addAll q.lse {} ((q.ents.take k).map (·.score))
  let b := Acc.addAll q.lse q.un ((q.ents.drop k).map (·.score))
  (a.1.value q.lse, b.1.value q.lse, a.2 + b.2)

/-- The candidate record of an entry (10 R301; 11 R332). -/
def candRecord (q : Nat) (e : Ent) : Bytes := toLE 8 e.hand ++ toLE 4 e.score ++ toLE 1 q ++ toLE 3 0

/-- Elements cut into runs of n. -/
def runsOf {α : Type} (fuel n : Nat) (l : List α) : List (List α) :=
  match fuel with
  | 0 => []
  | k + 1 => if l.isEmpty then [] else l.take n :: runsOf k n (l.drop n)

/-- The messages of a FORWARD of one query: its best records, then its summary (11 R325, R332, R334). -/
def forwardMessages (own target q k : Nat) (lost : Bool) (l : QList) : List SedgeMsg :=
  let es := if lost then [] else l.ents.take k
  let recs := runsOf (k + 1) 4 (es.map (candRecord q))
  let m (f n : Nat) (d : Bytes) : SedgeMsg := ⟨target, 2 ^ 24 * q + 2 ^ 18 * f + n, padTo 64 d, own⟩
  let un := if lost then 0x7FC00000 else (querySums k l).2.1
  recs.map (fun r => m 1 r.length r.flatten) ++ [m 3 1 (toLE 4 un ++ toLE 4 (if lost then 0xFFFFFFFF else queryArgmax l) ++ toLE 2 l.flags)]

/-- The external key of an entry, and whether its read has returned: 0 returned, 1 still waits, 2 missed (11 R333). -/
def entKey (s : State) (own keys : Nat) (e : Ent) : Nat × Nat :=
  match e.key with
  | some v => (v, 0)
  | none =>
    if keys = 0 then (2 ^ 64 - 1, 0)
    else match carrGet 3 s own (keys + 12 * (e.hand % 2 ^ 32)) 12 with
      | .data b => (leAt b 0 8, 0)
      | .fire => (0, 0)
      | .wait => (2 ^ 64 - 1, 1)
      | _ => (2 ^ 64 - 1, 2)

/-- The RESULT of one query: bytes 0 to 31 and its entries, with the number of keys missed (05 R160; 11 R332, R333). -/
def resultBytes (s : State) (own keys k cid snap : Nat) (lost : Bool) (l : QList) : Bytes × Nat :=
  let es := if lost then [] else l.ents.take k
  let ks := es.map (entKey s own keys)
  let sums := querySums k l
  let nan := 0x7FC00000
  (toLE 4 cid ++ toLE 2 es.length ++ toLE 2 (b2n l.lse) ++ toLE 4 (if lost then nan else sums.1) ++ toLE 4 (if lost then nan else sums.2.1)
    ++ toLE 4 (if lost then 0xFFFFFFFF else queryArgmax l) ++ toLE 4 0 ++ toLE 8 snap
    ++ (es.zip ks).flatMap (fun e => toLE 8 e.2.1 ++ toLE 8 e.1.hand ++ toLE 4 e.1.score ++ toLE 4 0),
   (ks.filter (fun r => r.2 != 0)).length)

/-- The outputs of a FINISH written in query order, then its signal; the flags reach the queries unless a parent takes them on (11 R332
to R335). The stage's tiles add the cid and the snapshot FT of each query. (log 83, DEDUCED.) -/
def writeLists (tile n k st : Nat) (b : OpenBatch) (fin : Bytes) (s : State) : State :=
  let d := b.desc
  let own := k / 4
  let out := bits (leAt d 1 1) 7 6
  let kk := leAt d 8 2
  let q0 := leAt d 6 2
  let ids := runningQueries s k st
  let query (j : Nat) : Option Query := s.levee.queries.find? (fun q => some q.id = ids[q0 + j]?)
  let s := (List.range b.lists.length).foldl (fun s j =>
    let l := nth b.lists j {}
    let s := bump (0x4000 + k) 0x1B (if b.lost then 0 else (querySums kk l).2.2) s
    let s := if out = 1 then s else match query j with
      | some q => flagQueries [q.id] l.flags s
      | none => s
    if out = 0 then
      let es := if b.lost then [] else l.ents.take kk
      let empty := toLE 8 (2 ^ 64 - 1) ++ toLE 4 (if b.lost then 0x7FC00000 else 0xFF800000) ++ toLE 1 (q0 + j) ++ toLE 3 0
      tilePut own tile (leAt d 12 4 + 16 * j * kk)
        (es.flatMap (candRecord (q0 + j)) ++ (List.replicate (kk - es.length) empty).flatten) s
    else if out = 1 then s.modUnits (fun u => { u with msgs := u.msgs ++ forwardMessages own (leAt d 12 4) (q0 + j) kk b.lost l })
    else
      let r := resultBytes s own (leAt d 24 8) kk (((query j).map (·.desc.cid)).getD 0) (((query j).map (·.snapshot)).getD 0) b.lost l
      bump (0x4000 + k) 0x1A r.2 (tilePut own tile (leAt d 12 4 + j * (32 + 24 * kk)) r.1 s)) s
  raiseField own (leAt fin 10 2) (modSedge n (fun g => { g with batch := none }) s)

/-- Whether some key read of a closed batch has not returned (11 R333). (log 81, DEDUCED.) (log 84, DEDUCED.) -/
def keysWait (s : State) (own : Nat) (b : OpenBatch) : Bool :=
  bits (leAt b.desc 1 1) 7 6 = 2 && !b.lost &&
    b.lists.any (fun l => (l.ents.take (leAt b.desc 8 2)).any (fun e => (entKey s own (leAt b.desc 24 8) e).2 = 1))

/-- A FINISH closes the lists once the port is empty, and writes the outputs once every key read has returned (11 R332, R333). -/
def execFinish (tile unit : Nat) (s : State) : Host.Outcome State Fault Refusal :=
  let n := 2 * tile + unit % 2
  let g := sedgeAt s n
  match g.batch, tileRole s tile with
  | some b, some (k, _, st, _) =>
    match b.closed with
    | some (_, fin) => if keysWait s (k / 4) b then .next s else .next (writeLists tile n k st b fin s)
    | none =>
      match g.queue with
      | [] => .next s
      | d :: r =>
        if leAt d 0 1 != 2 then .next s
        else if !sedgeOk s k d then .next (refuseSedge n s)
        else if !g.port.isEmpty then .next s
        else
          let s := modSedge n (fun g => { g with queue := r }) s
          if keysWait s (k / 4) b then .next (modOpen n (fun b => { b with closed := some (s.clock.now, d) }) s)
          else .next (writeLists tile n k st b d s)
  | none, some _ =>
    match g.queue with
    | d :: _ => if leAt d 0 1 = 2 then .next (refuseSedge n s) else .next s
    | [] => .next s
  | _, none => .next s

/-- At the key cutoff, a key read that has not returned leaves its key all-ones (11 R333). -/
def execKeyCutoff (tile unit : Nat) (s : State) : Host.Outcome State Fault Refusal :=
  let n := 2 * tile + unit % 2
  match (sedgeAt s n).batch, tileRole s tile with
  | some b, some (k, _, st, _) =>
    match b.closed with
    | some (_, fin) => .next (writeLists tile n k st b fin s)
    | none => .next s
  | _, _ => .next s

/-- What a cut drops in a Sedge unit: its queue, lists and port (11, Events that meet). -/
def cutSedge (n : Nat) (s : State) : State := modSedge n (fun g => { g with queue := [], batch := none, port := [] }) s

end Sys2Proof.Machine
end

