-- ==== Sys2Proof/Machine/Mere.lean ====
section
/-! DEFINITION. The Mere query engines: jobs, contexts and their items, cutoffs, checks (10; 14 R397 to R400). -/

namespace Sys2Proof.Machine

open Sys2Proof

/-- A logical engine, by 4 × tile + engine. -/
def engineAt (s : State) (n : Nat) : MereEng := KMap.getD s.units.engines n {}

/-- The state with one engine changed. -/
def modEngine (n : Nat) (f : MereEng → MereEng) (s : State) : State :=
  s.modUnits (fun u => { u with engines := KMap.upd u.engines n {} f })

/-- The engines of a tile. -/
def mereAt (s : State) (t : Nat) : MereTile := KMap.getD s.units.meres t {}

/-- The state with the engines of a tile changed. -/
def modMere (t : Nat) (f : MereTile → MereTile) (s : State) : State :=
  s.modUnits (fun u => { u with meres := KMap.upd u.meres t {} f })

/-- The object of a tile's engines (10 OD 0xA300 + 0x04·t). (log 63, DEDUCED.) -/
def mereObj (t : Nat) : Nat := 0xA300 + 4 * t

/-- The job of an engine changed. -/
def modJob (n : Nat) (f : Job → Job) (s : State) : State := modEngine n (fun e => { e with job := e.job.map f }) s

/-- The contexts of an engine that belong to the image on its tile: its share (10 R295). -/
def engineShare (s : State) (k lt m : Nat) : Nat :=
  match (KMap.getD s.slots k {}).image with
  | none => 0
  | some im =>
    let c := (im.claims.filter (fun c => c.resource = 2 && c.tile = lt)).foldl (fun a c => a + c.amount) 0
    min 256 (c - 256 * m)

/-- The bits of a DIST element, 0 for a code the engines refuse (10 R303). -/
def distBits (f : Nat) : Nat := if f = 0 then 8 else if f = 1 then 4 else if f = 4 || f = 6 then 16 else if f = 7 then 1 else 0

/-- The address of query block q of a job (10 R300). -/
def queryBlock (d : Bytes) (q : Nat) : Nat := leAt d 24 4 + 64 * q

/-- The bytes of tile SRAM, unchecked by the firewall. -/
def sramBytes (s : State) (t a n : Nat) : Bytes := Memory.readN s.mem.tile (tileKey t a) n

/-- Whether the encoding of a job descriptor is in order (10 R299, R302). -/
def jobEncoded (d : Bytes) : Bool :=
  let op := leAt d 0 1
  let fl := leAt d 1 1
  let n := leAt d 8 4
  let sh := leAt d 32 2
  let cut := leAt d 36 4
  let dest := bit fl 0
  let src := leAt d 16 8
  let out := leAt d 28 4
  let outOk (size : Nat) : Bool := if dest then bits out 24 16 = 0 else out % 64 = 0 && inSram out size
  leAt d 44 20 = 0 && bits (leAt d 4 2) 14 11 = 0 && leAt d 12 4 % 64 = 0
  && (if op = 4 then leAt d 6 2 = 0 && leAt d 24 4 = 0 && leAt d 34 2 = 0
      else leAt d 6 2 < 2 && leAt d 24 4 % 64 = 0 && 1 ≤ leAt d 34 2 && leAt d 34 2 ≤ 256 && inSram (leAt d 24 4) (64 * leAt d 34 2))
  && (if op = 1 then
        fl < 4 && leAt d 40 4 = 0 && pow2In sh 8 2048 && inSram (leAt d 12 4) (128 * n) && inSram src (ceilDiv n 8)
        && src % 64 = 0 && outOk (128 * (leAt d 34 2 * ceilDiv n sh))
      else if op = 2 then
        fl < 2 && 1 ≤ cut && cut ≤ 16777216 && leAt d 40 4 = 0 && sh = 0 && inSram (leAt d 12 4) (16 * n) && src < 0x7E00000000
        && src % 128 = 0 && outOk (16 * n)
      else if op = 3 then
        bit fl 1 = false && distBits (bits fl 7 4) != 0 && bits fl 3 2 != 3 && sh % 32 = 0 && 32 ≤ sh && sh ≤ 1024
        && leAt d 40 4 % 64 = 0 && inSram (leAt d 12 4) (16 * n) && src % 64 = 0 && inSram src (n * leAt d 40 4) && outOk (16 * n)
      else
        op = 4 && fl = 0 && 1 ≤ cut && cut ≤ 16777216 && leAt d 40 4 = 0 && sh % 64 = 0 && 64 ≤ sh && sh ≤ 4096
        && inSram (leAt d 12 4) (8 * n) && src % 64 = 0 && inSram src 512 && out % 64 = 0
        && inSram out (n * sh + 64 + 16 * n))

/-- Whether a job's query blocks are in order (10 R300, R302). -/
def blocksOk (s : State) (t : Nat) (d : Bytes) : Bool :=
  let op := leAt d 0 1
  op = 4 || (List.range (leAt d 34 2)).all (fun q =>
    let b := sramBytes s t (queryBlock d q) 64
    let tab := if op = 2 then 32768 else if bit (leAt d 1 1) 1 then 16384 else 1024
    leAt b 32 32 = 0 && goodScale (leAt b 16 4)
    && (if op = 3 then leAt b 0 8 = 0 && leAt b 12 4 = 0 && leAt b 24 8 = 0 && inSram (leAt b 8 4) 64
        else goodScale (leAt b 20 4) && inSram (leAt b 8 4) tab && inSram (leAt b 12 4) tab)
    && (op != 2 || leAt b 0 8 = 0 && leAt b 24 8 = 0)
    && (op != 1 || inSram (leAt b 24 4) (4 * leAt d 8 4) && inSram (leAt b 28 4) 64))

/-- Whether an engine takes a job (10 R302). -/
def jobOk (s : State) (k lt t m : Nat) (d : Bytes) : Bool :=
  jobEncoded d && 1 ≤ leAt d 2 2 && leAt d 2 2 ≤ engineShare s k lt m && signalOk s k (leAt d 4 2) && blocksOk s t d

/-- The items of a job (10 R299, R307): one for each query and chunk of a SIDESCAN, else one for each record or key. -/
def jobItems (d : Bytes) : Nat :=
  if leAt d 0 1 = 1 then leAt d 34 2 * ceilDiv (leAt d 8 4) (max 1 (leAt d 32 2)) else leAt d 8 4

/-- A message of an engine to the job's Sedge target: format 1 records (11 R325). -/
def packMessage (n own : Nat) (d : Bytes) (recs : List Bytes) (s : State) : State :=
  let _ := n
  s.modUnits (fun u => { u with msgs := u.msgs ++ [⟨leAt d 28 4, 2 ^ 18 + recs.length, padTo 64 recs.flatten, own⟩] })

/-- A candidate record emitted for an item: to its place in tile SRAM, or packed toward the Sedge target (10 R299, R301; 11 R336). A
NaN score is dropped and counted (R305). -/
def emitRecord (t n own place : Nat) (r : Bytes) (s : State) : State :=
  match (engineAt s n).job with
  | none => s
  | some j =>
    if isNan32 (leAt r 8 4) then bump (mereObj t) 0x0B 1 s
    else if !bit (leAt j.desc 1 1) 0 then tilePut own t (leAt j.desc 28 4 + 16 * place) r s
    else
      let packs := j.packs ++ [r]
      if 4 ≤ packs.length then packMessage n own j.desc packs (modJob n (fun j => { j with packs := [] }) s)
      else modJob n (fun j => { j with packs := packs }) s

/-- A candidate record (10 R301). -/
def mereRecord (hand score q flags : Nat) : Bytes := toLE 8 hand ++ toLE 4 score ++ toLE 1 q ++ toLE 1 flags ++ toLE 2 0

/-- The end of a job: what is left is packed, a GATHER's remote list is written, and the job's cell is signalled (10 R299, R312; 14
R399). -/
def endJob (t n k : Nat) (s : State) : State :=
  match (engineAt s n).job with
  | none => s
  | some j =>
    let own := k / 4
    let s := if j.packs.isEmpty then s else packMessage n own j.desc j.packs s
    let s := if leAt j.desc 0 1 = 4 then
        let n := leAt j.desc 8 4
        let w := leAt j.desc 32 2
        let out := leAt j.desc 28 4
        let l := out + n * w
        let tab := leAt (sramBytes s t (leAt j.desc 16 4) 64) 4 1 % 64
        let s := tilePut own t l (padTo 64 (toLE 4 j.remote.length) ++ j.remote.flatMap (fun e => toLE 8 e.1 ++ toLE 8 e.2)) s
        if j.remote.isEmpty then s
        else s.modFab (fun f => { f with lists := f.lists ++ [(k, tab, tileKey t l, tileKey t out, w)] })
      else s
    raiseField own (leAt j.desc 4 2) (modEngine n (fun e => { e with job := none }) s)

/-- The job ends when every item has begun and every context is IDLE. -/
def settleJob (t n k : Nat) (s : State) : State :=
  match (engineAt s n).job with
  | some j => if j.items ≤ j.next && j.ctxs.isEmpty then endJob t n k s else s
  | none => s

/-- A context that has finished its item takes the next one, or becomes IDLE (10 R296). -/
def nextItem (n c : Nat) (s : State) : State :=
  modJob n (fun j =>
    if j.next < j.items then { j with next := j.next + 1, ctxs := KMap.put j.ctxs c { item := j.next } }
    else { j with ctxs := KMap.del j.ctxs c }) s

/-- The header of a HOT area passes when its magic and table match (14 R397, R398). -/
def headerOk (s : State) (k : Nat) (h : Bytes) : Bool :=
  leAt h 0 4 = 0x52484F54 && ((tableAt s (64 * (k / 4) + leAt h 4 1)).isSome && leAt h 4 1 < 64)

/-- The first job of an engine's queue starts, when its operation is the given one: refused, or its items handed to contexts (10 R296,
R298, R302). -/
def startJob (op t m win until_ : Nat) (s : State) : State :=
  let n := 4 * t + m % 4
  match (engineAt s n).queue, tileRole s t with
  | d :: r, some (k, lt, _, _) =>
    if leAt d 0 1 != op || (engineAt s n).job.isSome then s
    else if !jobOk s k lt t (m % 4) d then bump (mereObj t) 0x09 1 (modEngine n (fun e => { e with queue := r }) s)
    else
      let items := jobItems d
      let c := min (leAt d 2 2) items
      let h := if op = 4 then tileGet (k / 4) t (leAt d 16 4) 512 s else ([], s)
      let j : Job := { desc := d, items := items, next := c, ctxs := (List.range c).map (fun i => (i, { item := i })), window := win,
                       until_ := until_, headed := op != 4 || headerOk s k h.1 }
      let s := modEngine n (fun e => { e with queue := r, job := some j }) h.2
      let waiting := (List.range 4).foldl (fun a i => a + (((engineAt s (4 * t + i)).job.map (·.ctxs.length)).getD 0)) 0
      settleJob t n k (raiseTo (mereObj t) 0x0A waiting s)
  | _, _ => s

/-- An unknown operation at the head of an engine's queue is refused by whichever job command meets it (10 R302). -/
def refuseUnknown (t m : Nat) (s : State) : State :=
  let n := 4 * t + m % 4
  match (engineAt s n).queue with
  | d :: r =>
    if (engineAt s n).job.isNone && (leAt d 0 1 = 0 || 4 < leAt d 0 1) then bump (mereObj t) 0x09 1 (modEngine n (fun e => { e with queue := r }) s)
    else s
  | [] => s

/-- A SIDESCAN starts when its stage's SCAN window is open (10 R307). -/
def execSidescan (tile engine : Nat) (s : State) : Host.Outcome State Fault Refusal :=
  let s := refuseUnknown tile engine s
  match tileRole s tile with
  | none => .next s
  | some (k, _, st, _) =>
    match s.carr.windows.find? (fun w => w.slot = k && w.stage = st && w.kind = 1) with
    | none => .next s
    | some w => .next (startJob 1 tile engine w.id (w.opened + w.length) s)

/-- A REFINE starts (10 R310). -/
def execRefine (tile engine : Nat) (s : State) : Host.Outcome State Fault Refusal :=
  .next (startJob 2 tile engine 0 0 (refuseUnknown tile engine s))

/-- A DIST starts (10 R304). -/
def execDist (tile engine : Nat) (s : State) : Host.Outcome State Fault Refusal :=
  .next (startJob 3 tile engine 0 0 (refuseUnknown tile engine s))

/-- A GATHER starts: it reads the header of its HOT area once (14 R398). -/
def execGather (tile engine : Nat) (s : State) : Host.Outcome State Fault Refusal :=
  .next (startJob 4 tile engine 0 0 (refuseUnknown tile engine s))

/-- A job descriptor enqueued, unless the queue is full (10 R298). -/
def enqueueJob (n : Nat) (d : Bytes) (s : State) : Option State :=
  (putQueue (engineAt s n).queue d).map (fun q => modEngine n (fun e => { e with queue := q }) s)

/-- A 64-byte write to an engine's command window (10 R298): held while the queue is full. -/
def execMereJobEnqueue (tile engine : Nat) (data : Bytes) (s : State) : Host.Outcome State Fault Refusal :=
  .next ((enqueueJob (4 * tile + engine % 4) (slice data 0 64) s).getD s)

/-- The sum of n lookups of signed 8-bit entries in a table in tile SRAM (10 R300, R307, R310). -/
def lookups (s : State) (t tab step n : Nat) (code : Nat → Nat) : Int :=
  (List.range n).foldl (fun a j => a + signedOf 8 (Memory.read s.mem.tile (tileKey t (tab + step * j + code j))).toNat) 0

/-- One position of a SIDESCAN chunk: the entry's score and handle, where the query sees it (10 R307; 06 R190, R192). -/
def sidePosition (s : State) (t : Nat) (d : Bytes) (q e : Nat) : Option (Nat × Nat) :=
  let b := sramBytes s t (queryBlock d q) 64
  let en := sramBytes s t (leAt d 12 4 + 128 * e) 128
  let snap := leAt b 0 8
  let pq := bit (leAt d 1 1) 1
  let keep : Bool := leAt b 28 4 = 0 || filterValue (sramBytes s t (leAt b 28 4) 64) (leAt en 24 8) = some true
  if leAt en 8 8 ≤ snap && snap < leAt en 16 8 && keep then
    let g := b2n (bit (leAt (sramBytes s t (leAt d 16 8 + e / 8) 1) 0 1) (e % 8))
    let sum := lookups s t (leAt b (8 + 4 * g) 4) (if pq then 256 else 16) 64 (subcode pq (slice en 32 64))
    let bias := leAt (sramBytes s t (leAt b 24 4 + 4 * e) 4) 0 4
    some (fmaF32 (intF32 sum) (leAt b (16 + 4 * g) 4) bias, leAt en 0 8)
  else none

/-- Up to n positions of the chunk of a context scanned; at the chunk's end the local list is emitted, best first (10 R307, R315; 22
R599). `lost` drops the entry of the first position. -/
def scanPositions (fuel t n k c : Nat) (lost : Bool) (s : State) : State :=
  match fuel with
  | 0 => s
  | f + 1 =>
    match (engineAt s n).job with
    | none => s
    | some j =>
      match KMap.find j.ctxs c with
      | none => s
      | some x =>
        let d := j.desc
        let total := leAt d 8 4
        let sh := max 1 (leAt d 32 2)
        let per := max 1 (ceilDiv total sh)
        let q := x.item / per
        let first := x.item % per * sh
        let last := min total (first + sh)
        let e := first + x.pos
        let hit := if lost then none else sidePosition s t d q e
        let s := match hit with
          | some h => if isNan32 h.1 then bump (mereObj t) 0x0B 1 s else s
          | none => s
        let list := match hit with
          | some h => if isNan32 h.1 then x.list else insert8 x.list h
          | none => x.list
        let s := charge (k / 4) 0x0F 128 s
        let s := modJob n (fun j => { j with ctxs := KMap.put j.ctxs c { x with pos := x.pos + 1, list := list } }) s
        if e + 1 < last then scanPositions f t n k c false s
        else
          let s := (List.range list.length).foldl (fun s i =>
            let h := nth list i (0, 0)
            emitRecord t n (k / 4) (8 * x.item + i) (mereRecord h.2 h.1 q 0) s) s
          scanPositions f t n k c false (nextItem n c s)

/-- Whether a candidate record's item can be scored now, and its refine code (10 R310). A read of a failed stack or a poisoned burst
counts as a refine miss. -/
def refineCodeAt (s : State) (own : Nat) (d r : Bytes) : Got :=
  carrGet 2 s own (leAt d 16 8 + 128 * (leAt r 0 8 % 2 ^ 32)) 128

/-- A refine item ends: the record with its new score, or with refine missed (10 R310, R311). -/
def refineItem (t n k item : Nat) (lost : Bool) (s : State) : Option State :=
  match (engineAt s n).job with
  | none => none
  | some j =>
    let d := j.desc
    let rr := tileGet (k / 4) t (leAt d 12 4 + 16 * item) 16 s
    let r := rr.1
    let q := leAt r 12 1
    let fl := leAt r 13 1
    let b := sramBytes s t (queryBlock d q) 64
    let g := fl % 2
    let score (code : Bytes) : Nat :=
      fmaF32 (intF32 (lookups s t (leAt b (8 + 4 * g) 4) 256 128 (fun i => leAt code i 1))) (leAt b (16 + 4 * g) 4) (leAt r 8 4)
    let out (sc fl : Nat) (s : State) : State := emitRecord t n (k / 4) item (mereRecord (leAt r 0 8) sc q fl) s
    let miss (s : State) : State := out (leAt r 8 4) (fl ||| 2) (bump (0x4000 + k) 0x18 1 s)
    if lost then some (out 0x7FC00000 fl rr.2)
    else match refineCodeAt s (k / 4) d r with
      | .wait => none
      | .data c => some (out (score c) fl rr.2)
      | .fire => some (out (score (List.replicate 128 0)) fl (firewallHit (k / 4) (srcTile t) (leAt d 16 8) rr.2))
      | _ => some (miss rr.2)

/-- Element i of a vector of a DIST format (10 R303; 06 R172). -/
def distElem (f : Nat) (v : Bytes) (i : Nat) : Fl :=
  if f = 0 then ofScaled (signedOf 8 (leAt v i 1)) 0
  else if f = 1 then ofScaled (signedOf 4 (if i % 2 = 0 then leAt v (i / 2) 1 % 16 else leAt v (i / 2) 1 / 16)) 0
  else if f = 4 then fmtBf16.decode (leAt v (2 * i) 2)
  else if f = 6 then fmt16.decode (leAt v (2 * i) 2)
  else ofScaled (if bit (leAt v (i / 8) 1) (i % 8) then 1 else -1) 0

/-- A sum of products as F32: exact and converted once for integer formats, else rounded at every step (10 R304). -/
def distSum (f d : Nat) (x y : Nat → Fl) : Nat :=
  if f = 4 || f = 6 then (List.range d).foldl (fun a i => addF32 a (toF32 ((x i).mul (y i)))) 0
  else toF32 ((List.range d).foldl (fun a i => a.add ((x i).mul (y i))) (.fin false 0 0))

/-- The exact score of a vector (10 R304). -/
def distScore (f kind d sq q2 : Nat) (qv v : Bytes) : Nat :=
  let base := d * distBits f / 8
  let p := distSum f d (distElem f qv) (distElem f v)
  let sx := if f = 0 then leAt v (base + 4) 4 else 0x3F800000
  let ip := mulF32 p (mulF32 sq sx)
  if kind = 0 then ip
  else if kind = 1 then divF32 ip (leAt v base 4)
  else
    let n := distSum f d (distElem f v) (distElem f v)
    subF32 (subF32 (addF32 ip ip) (mulF32 n (mulF32 sx sx))) q2

/-- A DIST item ends (10 R304). -/
def distItem (t n k item : Nat) (lost : Bool) (s : State) : State :=
  match (engineAt s n).job with
  | none => s
  | some j =>
    let d := j.desc
    let own := k / 4
    let rr := tileGet own t (leAt d 12 4 + 16 * item) 16 s
    let r := rr.1
    let q := leAt r 12 1
    let fl := leAt r 13 1
    let out (sc : Nat) (s : State) : State := emitRecord t n own item (mereRecord (leAt r 0 8) sc q fl) s
    if bit fl 2 then out (leAt r 8 4) rr.2
    else if lost then out 0x7FC00000 rr.2
    else
      let f := bits (leAt d 1 1) 7 4
      let dim := leAt d 32 2
      let b := sramBytes s t (queryBlock d q) 64
      let v := tileGet own t (leAt d 16 4 + item * leAt d 40 4) (dim * distBits f / 8 + 8) rr.2
      let qv := tileGet own t (leAt b 8 4) (dim * distBits f / 8) v.2
      out (distScore f (bits (leAt d 1 1) 3 2) dim (leAt b 16 4) (leAt b 20 4) qv.1 v.1) qv.2

/-- The fallback row of a table for a key: zeros, or its class's default row in the HOT area (14 R400). -/
def fallbackRow (s : State) (t area k key : Nat) : Bytes :=
  match tableAt s k with
  | none => []
  | some tb =>
    if rwVal s (tabObj k) 0x08 0 = 0 then []
    else match locateRow tb key with
      | none => []
      | some (c, _, _, _) => sramBytes s t (area + 512 + 64 * hotBuckets tb + c * widestRow tb) (widestRow tb)

/-- The slot of a key in a HOT area, read from its bucket (14 R397, R398). -/
def hotSlotOf (s : State) (t area : Nat) (tb : Table) (key : Nat) : Option Nat :=
  ((List.range 4).find? (fun i =>
    let e := sramBytes s t (area + bucketOff tb key + 16 * i) 16
    leAt e 0 8 = key && leAt e 8 4 != 0xFFFFFFFF)).map (fun i => leAt (sramBytes s t (area + bucketOff tb key + 16 * i + 8) 4) 0 4)

/-- A pair put into a list in order of its second part. -/
def insertBySnd (e : Nat × Nat) (l : List (Nat × Nat)) : List (Nat × Nat) :=
  match l with
  | [] => [e]
  | f :: r => if e.2 < f.2 then e :: l else f :: insertBySnd e r

/-- A GATHER item ends, unless its record's pseudo-channel keeps it waiting (14 R398). -/
def gatherItem (t n k item : Nat) (s : State) : Option State :=
  match (engineAt s n).job with
  | none => none
  | some j =>
    let d := j.desc
    let own := k / 4
    let w := leAt d 32 2
    let kk := tileGet own t (leAt d 12 4 + 8 * item) 8 s
    let key := leAt kk.1 0 8
    let area := leAt d 16 4
    let h := sramBytes s t area 64
    let tk := 64 * own + leAt h 4 1 % 64
    let row (b : Bytes) (s : State) : State := tilePut own t (leAt d 28 4 + item * w) (slice b 0 w) s
    let far (s : State) : State := modJob n (fun j => { j with remote := insertBySnd (key, item) j.remote }) s
    if !j.headed then some (bump (tabObj tk) 0x1A 1 (row (fallbackRow s t area tk key) kk.2))
    else match (tableAt s tk).filter (·.ready) with
      | none => some (row [] kk.2)
      | some tb =>
        match locateRow tb key with
        | none => some (row [] kk.2)
        | some (_, c, sh, _) =>
          match hotSlotOf s t area tb key with
          | some sl => some (row (slice (sramBytes s t (area + hotSlotOff tb sl) w) 0 (2 ^ c.log2)) kk.2)
          | none =>
            if tb.owns sh || (c.replicated && bit (leAt h 6 1) 0) then
              match recordAddr s tb key with
              | none => some (far kk.2)
              | some (a, _) =>
                match carrGet 3 s own (a + 64) (2 ^ c.log2) with
                | .wait => none
                | .data b => some (row b kk.2)
                | .fire => some (row [] (firewallHit own (srcTile t) a kk.2))
                | _ => some (far kk.2)
            else some (far kk.2)

/-- The query that an item of a job serves. (log 85, DEDUCED.) -/
def itemQuery (s : State) (t : Nat) (j : Job) (item : Nat) : Nat :=
  if leAt j.desc 0 1 = 1 then item / max 1 (ceilDiv (leAt j.desc 8 4) (max 1 (leAt j.desc 32 2)))
  else leAt (sramBytes s t (leAt j.desc 12 4 + 16 * item + 12) 1) 0 1

/-- A logical engine whose physical engine is declared dead: the spare takes it at the next slot boundary, or the tile is lost (10 R316,
R317; 19 R532, R538). -/
def killEngine (t m cause : Nat) (s : State) : State :=
  let g := mereAt s t
  if g.swap.any (fun e => e.1 = m) then s
  else if g.bad.contains (nth g.map 4 4) || !g.swap.isEmpty then loseTile t (bump (mereObj t) 0x08 1 s)
  else bump (mereObj t) 0x08 1 (modMere t (fun g => { g with swap := g.swap ++ [(m, cause)] }) s)

/-- The replacement of an engine that waits takes effect at a slot boundary with its queue empty and its contexts IDLE (10 R316, R317; 19
R535). -/
def mereBoundary (t : Nat) (s : State) : State :=
  match (mereAt s t).swap with
  | [] => s
  | (m, cause) :: r =>
    let e := engineAt s (4 * t + m)
    if e.queue.isEmpty && e.job.isNone then
      let old := nth (mereAt s t).map m 0
      let new := nth (mereAt s t).map 4 4
      let gen := (nth (mereAt s t).gens m 0 + 1) % 256
      let s := modMere t (fun g => { g with map := setAt (setAt g.map m new) 4 old, gens := setAt g.gens m gen,
                                            bad := if cause = 0 then g.bad else g.bad ++ [old], swap := r,
                                            since := KMap.put g.since new s.clock.now }) s
      spareSwitch 3 m old new cause gen (srcTile t) (modEngine (4 * t + m) (fun e => { e with hits := [] }) s)
    else s

/-- A detected error of an engine: counted, traced, and weighed for retirement (10 R315; 19 R532). Whether the item is lost. -/
def mereError (t n k st : Nat) (errs : List Nat) (ids : List Nat) (s : State) : Bool × State :=
  if errs.isEmpty then (false, s)
  else
    let again := s.units.erred.contains (16 * k + st)
    let lost := again || 2 ≤ errs.length
    let s := errs.foldl (fun s e => traceCheck (k / 4) (srcTile t) 1 (n % 4) (b2n (!lost)) (bump (mereObj t) (if e = 1 then 0x04 else 0x05) 1 s)) s
    let s := bump (mereObj t) 0x06 1 (markError k st s).2
    let now := s.clock.now
    let win := 1000000 * rwVal s 0xA001 0x02 1000
    let hits := (engineAt s n).hits.filter (fun x => now < x + win) ++ errs.map (fun _ => now)
    let inSlot := (engineAt s n).inSlot + errs.length
    let s := modEngine n (fun e => { e with hits := hits, inSlot := inSlot }) s
    let s := if lost then lostWork (k / 4) (k % 4) st (if 2 ≤ errs.length then 6 else 1) (srcTile t) ids s else s
    let s := if 2 ≤ inSlot || rwVal s 0xA001 0x01 4 ≤ hits.length then killEngine t (n % 4) 1 s else s
    (lost, s)

/-- Data returns to a waiting context, which works on its item: up to n positions of a SIDESCAN chunk, or the whole item. `errs` are the
detected errors, 1 of the residue and 2 of the duplicate (10 R296, R307 to R312, R315; 19 R537). -/
def execContextDataReturn (tile engine ctx n : Nat) (errs : List Nat) (s : State) : Host.Outcome State Fault Refusal :=
  let e := 4 * tile + engine % 4
  match (engineAt s e).job, tileRole s tile with
  | some j, some (k, _, st, _) =>
    match KMap.find j.ctxs ctx with
    | none => .next s
    | some x =>
      let op := leAt j.desc 0 1
      let q := itemQuery s tile j x.item
      let ids := if op = 4 then [] else ((stageQueries s (k / 4) (k % 4) st)[q]?).toList
      let r := if op = 4 then (false, s) else mereError tile e k st errs ids s
      if op = 1 then .next (settleJob tile e k (scanPositions n tile e k ctx r.1 r.2))
      else
        let done := if op = 2 then refineItem tile e k x.item r.1 r.2
          else if op = 3 then some (distItem tile e k x.item r.1 r.2)
          else gatherItem tile e k x.item r.2
        match done with
        | none => .next s
        | some s => .next (settleJob tile e k (nextItem e ctx s))
  | _, _ => .next s

/-- An item abandoned at the cutoff (10 R311); the score of an abandoned DIST is a free value. (log 123, DESIGN CHOICE.) -/
def abandonItem (t n k item : Nat) (s : State) : State :=
  match (engineAt s n).job with
  | none => s
  | some j =>
    let d := j.desc
    let own := k / 4
    if leAt d 0 1 = 2 then
      let r := tileGet own t (leAt d 12 4 + 16 * item) 16 s
      emitRecord t n own item (mereRecord (leAt r.1 0 8) (leAt r.1 8 4) (leAt r.1 12 1) (leAt r.1 13 1 ||| 2)) (bump (0x4000 + k) 0x18 1 r.2)
    else if leAt d 0 1 = 3 then
      let r := tileGet own t (leAt d 12 4 + 16 * item) 16 s
      drawn (emitRecord t n own item (mereRecord (leAt r.1 0 8) (freeVal r.2 32) (leAt r.1 12 1) (leAt r.1 13 1)) r.2)
    else
      let key := leAt (sramBytes s t (leAt d 12 4 + 8 * item) 8) 0 8
      let area := leAt d 16 4
      let tk := 64 * own + leAt (sramBytes s t area 64) 4 1 % 64
      tilePut own t (leAt d 28 4 + item * leAt d 32 2) (slice (fallbackRow s t area tk key) 0 (leAt d 32 2)) (bump (0x4000 + k) 0x19 1 s)

/-- A SIDESCAN that still runs when its window reaches t_win: each context emits its local list, and the positions not scanned count as
probes skipped (10 R309). -/
def stopScan (n : Nat) (s : State) : State :=
  match (engineAt s n).job, tileRole s (n / 4) with
  | some j, some (k, _, _, sg) =>
    let t := n / 4
    let total := leAt j.desc 8 4
    let sh := max 1 (leAt j.desc 32 2)
    let per := max 1 (ceilDiv total sh)
    let size (item : Nat) : Nat := min total (item % per * sh + sh) - item % per * sh
    let skipped := j.ctxs.foldl (fun a c => a + (size c.2.item - c.2.pos)) 0
      + (List.range (j.items - j.next)).foldl (fun a i => a + size (j.next + i)) 0
    let s := j.ctxs.foldl (fun s c => (List.range c.2.list.length).foldl (fun s i =>
      let h := nth c.2.list i (0, 0)
      emitRecord t n (k / 4) (8 * c.2.item + i) (mereRecord h.2 h.1 (c.2.item / per) 0) s) s) s
    let s := if skipped = 0 || 16 ≤ sg.index then s else bump (indexStatus (k / 4) sg.index) 0x09 skipped s
    endJob t n k s
  | _, _ => s

/-- At its cutoff a job abandons the items that wait and those not begun (10 R311); a SIDESCAN stops as at t_win (10 R309).
(log 123, DESIGN CHOICE.) -/
def execJobCutoff (tile engine : Nat) (s : State) : Host.Outcome State Fault Refusal :=
  let n := 4 * tile + engine % 4
  match (engineAt s n).job, tileRole s tile with
  | some j, some (k, _, _, _) =>
    if leAt j.desc 36 4 = 0 then .next s
    else if leAt j.desc 0 1 = 1 then .next (stopScan n s)
    else
      let left := j.ctxs.map (fun c => c.2.item) ++ (List.range (j.items - j.next)).map (fun i => j.next + i)
      let s := left.foldl (fun s i => abandonItem tile n k i s) s
      .next (endJob tile n k s)
  | _, _ => .next s

/-- A window that reaches t_win closes on each pseudo-channel that has not posted DONE, and the SIDESCANs of its stage stop (08 R244; 10
R309). -/
def execWindowTimeout (id : Nat) (s : State) : Host.Outcome State Fault Refusal :=
  let late := s.units.engines.filter (fun e => match e.2.job with
    | some j => leAt j.desc 0 1 = 1 && j.window = id && j.until_ ≤ s.clock.now
    | none => false)
  .next (settle (late.foldl (fun s e => stopScan e.1 s) (windowTimeout id s)))

/-- What a cut drops in an engine: its queue and its job. -/
def cutEngine (n : Nat) (s : State) : State := modEngine n (fun e => { e with queue := [], job := none }) s

end Sys2Proof.Machine
end

