-- ==== Sys2Proof/Machine/Sluice.lean ====
section
/-! DEFINITION. The Sluice channels: programs, segments, units, errors, redirects and replay (13; 12 R351 to R356). -/

namespace Sys2Proof.Machine

open Sys2Proof

/-- A channel, by 16 × block + channel; blocks 0 to 39 are the tiles, 40 and 41 the hubs. -/
def chanAt (s : State) (c : Nat) : Chan := KMap.getD s.units.chans c {}

/-- The state with one channel changed. -/
def modChan (c : Nat) (f : Chan → Chan) (s : State) : State :=
  s.modUnits (fun u => { u with chans := KMap.upd u.chans c {} f })

/-- The object of a channel's block (13 OD 0xA600 + t and 0xA628 + h). -/
def sluiceObj (c : Nat) : Nat := 0xA600 + c / 16

/-- Whether a channel is a hub's (13 R357). -/
def hubChan (c : Nat) : Bool := 640 ≤ c

/-- The key of the slot whose image a tile channel belongs to. -/
def chanSlot (s : State) (c : Nat) : Option (Nat × Nat) :=
  if hubChan c then none else (tileRole s (c / 16)).map (fun r => (r.1, r.2.2.1))

/-- The owner field of a channel's transactions (13 R357). (log 79, DEDUCED.) -/
def chanOwner (s : State) (c : Nat) : Nat := match chanSlot s c with | some (k, _) => k / 4 | none => ownSystem

/-- Whether the image of a channel's tile places channels there; hub channels hold the whole program store. (log 78, DESIGN CHOICE.) -/
def chanLength (c : Nat) (ch : Chan) : Nat := if hubChan c then 4096 else ch.length

/-- An instruction of a channel (13 R366). -/
inductive SInstr where
  | move (x tile : Bool) (count addr : Nat)
  | loop (n : Nat)
  | endl
  | wait (timeout cell : Nat)
  | signal (cell : Nat)
  | jump (w : Nat)
  | nop
  | halt
  | bad
deriving DecidableEq, Repr

/-- A word decoded: a reserved opcode, a nonzero reserved field or a count of 0 is bad (13 R366, R367). -/
def sluiceDecode (w : Nat) : SInstr :=
  let op := bits w 63 56
  let n := bits w 51 32
  if op = 1 || op = 2 then (if bits w 54 52 != 0 || n = 0 then .bad else .move (op = 2) (bit w 55) n (bits w 31 0))
  else if op = 3 then (if bits w 55 52 != 0 || bits w 31 0 != 0 || n = 0 then .bad else .loop n)
  else if op = 4 then (if bits w 55 0 != 0 then .bad else .endl)
  else if op = 5 then (if bits w 31 11 != 0 then .bad else .wait (bits w 55 32) (bits w 10 0))
  else if op = 6 then (if bits w 55 11 != 0 then .bad else .signal (bits w 10 0))
  else if op = 7 then (if bits w 55 12 != 0 then .bad else .jump (bits w 11 0))
  else if op = 8 then (if bits w 55 0 != 0 then .bad else .nop)
  else if op = 9 then (if bits w 55 0 != 0 then .bad else .halt)
  else .bad

/-- A program word of a channel. -/
def sluiceWord (s : State) (c : Nat) (ch : Chan) (w : Nat) : Nat :=
  Memory.readLE s.mem.sluice (0x10000 * (c / 16) + 8 * ((ch.base + w) % 4096)) 8

/-- A channel at the next word, with a new instruction. -/
def Chan.goTo (ch : Chan) (w : Nat) : Chan := { ch with word := w % 4096, seg := none, issued := 0, done := 0, inst := ch.inst + 1, signal := false }

/-- The cells that the rest of a program would still signal (13 R378, 19 R537). (log 92, DEDUCED.) -/
def restSignals (fuel : Nat) (s : State) (c : Nat) (ch : Chan) : List Nat :=
  match fuel with
  | 0 => []
  | f + 1 =>
    match sluiceDecode (sluiceWord s c ch ch.word) with
    | .halt => []
    | .bad => []
    | .signal n => n :: restSignals f s c (ch.goTo (ch.word + 1))
    | .jump w => restSignals f s c (ch.goTo w)
    | .loop n => restSignals f s c ({ ch with loops := (ch.word + 1, n, 0) :: ch.loops }.goTo (ch.word + 1))
    | .endl =>
      match ch.loops with
      | [] => []
      | (b, r, i) :: q =>
        if r ≤ 1 then restSignals f s c ({ ch with loops := q }.goTo (ch.word + 1))
        else restSignals f s c ({ ch with loops := (b, r - 1, i + 1) :: q }.goTo b)
    | _ => restSignals f s c (ch.goTo (ch.word + 1))

/-- A channel halts with an error at a word (13 R378). BUS, FAILED and REPLAY are lost work: the batch's queries are flagged and the
signals still to come are raised (19 R537); a hub channel's halt is recorded. -/
def haltChan (c code word addr : Nat) (s : State) : State :=
  let ch := chanAt s c
  let s := modChan c (fun ch => { ch with state := 3, error := code, word := word, errAddr := if code = 3 || code = 4 then addr else ch.errAddr,
                                          redirect := none, seg := none, signal := false }) s
  let s := if ch.redirect.isSome then bump (sluiceObj c) 0x22 1 s else s
  match chanSlot s c with
  | none => annal 0x0305 2 ownSystem (srcHub (c / 16 - 40)) (toLE 1 1 ++ toLE 1 (c % 16) ++ toLE 1 code ++ toLE 2 word) s
  | some (k, st) =>
    let s := bump (0x4000 + k) 0x1E 1 s
    if code = 3 || code = 4 || code = 9 then
      let s := lostWork (k / 4) (k % 4) st (if code = 3 then 2 else if code = 4 then 3 else 4) (srcTile (c / 16)) (runningQueries s k st) s
      settle ((restSignals 65536 s c ch).foldl (fun s n => signalCell (k / 4) n s) s)
    else s

/-- An address with its weight binding resolved by the buffer the batch runs on (14 R391). -/
def resolveBinding (s : State) (k st a : Nat) : Nat :=
  if bits a 63 60 = 2 && bits a 40 37 = 15 then
    match (KMap.getD s.slots k {}).image with
    | none => a
    | some im =>
      let w := nth im.weights (bits a 36 27) {}
      let buf := ((runningBatch s k st).map (·.buffer)).getD (KMap.getD s.slots k {}).buffer
      match KMap.find s.data.tiers.objs (weightObj w buf) with
      | some o => tierSluice o + bits a 26 0
      | none => a
  else a

/-- A signed 32-bit step times an iteration count (13 R364). -/
def stepBytes (v i : Nat) : Int := signedOf 32 v * i

/-- An address moved by a signed amount, modulo 2^64 (13 R364). -/
def moveAddr (a : Nat) (d : Int) : Nat := (((a : Int) + d) % (2 ^ 64 : Nat)).toNat

/-- The bytes that unit j of a segment reads and where it reads and writes them (13 R362, R364, R365). -/
def Seg.unit (g : Seg) (j : Nat) : Nat × Nat × Nat :=
  let add (a d : Nat) : Nat := (a + d) % 2 ^ 64
  let lines := if g.tile then 256 else 1
  if !g.movex then (add g.src (j * g.sstr), add g.dst (j * g.dstr), 64 * lines)
  else if g.fmt < 0x20 then (add g.src (8704 * j), if bit g.flags 1 then g.dst else add g.dst (j * g.dstr), 8704)
  else if bit g.flags 0 then (add g.src (64 * lines * j), add g.dst (peatBlock g.fmt * lines * j), 64 * lines)
  else (add g.src (peatBlock g.fmt * lines * j), add g.dst (64 * lines * j), peatBlock g.fmt * lines)

/-- Whether a segment's format, flags, unit and count are an allowed combination (13 R363, R365; 12 R352). -/
def segFormat (d : Bytes) (tileC : Nat) (g : Seg) : Bool :=
  let port := 0x14010000
  leAt d 42 22 = 0 && g.flags < 4
  && (if !g.movex then g.fmt = 0 && g.flags = 0
      else if peatW g.fmt then
        g.tile && !bit g.flags 0 && g.sstr = 0 &&
        (if bit g.flags 1 then bits g.src 63 60 = 0 && (g.dst = port || g.dst = port + 0x4000) && g.dstr = 0 && g.count ≤ 63
         else (bits g.dst 63 60 ≤ 1) && g.dst % 16384 = 0 && g.dst % 0x100000000 < tileSram && g.dstr % 16384 = 0 && (0x8000 ≤ g.dstr || g.count = 1))
      else peatA g.fmt && !bit g.flags 1 && g.sstr = 0 && g.dstr = 0 && (g.tile || g.count % 8 = 0))
  && tileC = tileC

/-- Whether an address has the alignment of one side of a segment: `packed` is the side that holds Peat data (13 R373). -/
def sideAligned (g : Seg) (packed : Bool) (a : Nat) : Bool :=
  let sp := bits a 63 60
  if g.tile && !packed && sp != 6 && !(sp = 0 && tileSram ≤ a) then a % 16384 = 0 else a % 64 = 0

/-- Whether a segment keeps the alignment rules (13 R373). -/
def segAligned (d : Bytes) (g : Seg) : Bool :=
  let packSrc := g.movex && !bit g.flags 0
  let packDst := g.movex && bit g.flags 0
  let f := g.unit 0
  let l := g.unit (g.count - 1)
  let step (a k : Nat) (packed : Bool) : Bool := sideAligned g packed (a / 2 ^ 60 * 2 ^ 60 + leAt d k 4 % 2 ^ 28)
  let exch := bits g.dst 63 60 = 6
  sideAligned g packSrc f.1 && sideAligned g packDst f.2.1 && (packSrc && !g.tile || sideAligned g packSrc l.1 || g.fmt != 0)
  && (packDst && !g.tile || sideAligned g packDst l.2.1 || g.fmt != 0)
  && step g.src 16 packSrc && step g.src 24 packSrc && step g.src 32 packSrc
  && step g.dst 20 packDst && step g.dst 28 packDst && (exch || step g.dst 36 packDst)
  && !(bits g.dst 63 60 = 7 && !(g.tile && !packDst))

/-- The segment that a MOVE or MOVEX starts, or the code that halts it (13 R363 to R365, R373). The codebook of a Peat-W tensor is that
of the header 64 bytes before the descriptor's source (12 R339, R341). (log 89, DEDUCED.) -/
def startSeg (s : State) (c : Nat) (ch : Chan) (x tile : Bool) (count : Nat) (d : Bytes) : Except Nat Seg :=
  let it (n : Nat) : Nat := match ch.loops[n]? with | some l => l.2.2 | none => 0
  let base (a : Nat) : Nat := match chanSlot s c with
    | some (k, st) => resolveBinding s k st a
    | none => a
  let s0 := base (leAt d 0 8)
  let d0 := base (leAt d 8 8)
  let exch := bits d0 63 60 = 6
  let src := moveAddr s0 (stepBytes (leAt d 24 4) (it 0) + stepBytes (leAt d 32 4) (it 1))
  let dst := moveAddr d0 (stepBytes (leAt d 28 4) (it 0) + (if exch then 0 else stepBytes (leAt d 36 4) (it 1)))
  let book := if x && peatW (leAt d 40 1) && bits s0 63 60 = 0 then sramBytes s (c / 16) (s0 - 64 + 16) 16
    else if x && peatW (leAt d 40 1) && bits s0 63 60 = 2 then
      (match carrGet 2 { s with carr := { s.carr with pcs := [] } } ownSystem ((s0 - 48) % 2 ^ 41) 16 with | .data b => b | _ => List.replicate 16 0)
    else List.replicate 16 0
  let g : Seg := { src := src, dst := dst, sstr := leAt d 16 4, dstr := leAt d 20 4, tile := tile, count := count, movex := x, fmt := leAt d 40 1,
                   flags := leAt d 41 1, book := book, batch := leAt d 36 4 }
  if !segFormat d 0 g then .error 5
  else if !x && bits dst 63 60 = 0 && 0x14010000 ≤ dst && dst < 0x14018000 then .error 5
  else if !segAligned d g then .error 1
  else if bits src 63 60 != bits s0 63 60 || bits dst 63 60 != bits d0 63 60 then .error 2
  else .ok g

/-- The physical tile that an address of space 1 names for a channel (13 R360). -/
def otherTile (s : State) (c a : Nat) : Option Nat :=
  let t := bits a 37 32
  if hubChan c then (if t < 40 then some t else none)
  else match chanSlot s c with
    | some (k, _) => (let m := (KMap.getD s.slots k {}).tileMap; if t < m.length && nth m t 255 < 40 then some (nth m t 255) else none)
    | none => none

/-- The code that refuses a unit's address as it is issued, 0 for none (13 R360, R361, R374, R377). -/
def unitRefused (s : State) (c a n : Nat) (write at_use : Bool) : Nat :=
  let top := a + n
  match bits a 63 60 with
  | 0 =>
    if hubChan c || bits a 59 32 != 0 then 2
    else if bits a 31 0 + n ≤ tileSram then 0
    else if !write then 2
    else if at_use then (if a = 0x14010000 || a = 0x14014000 then 0 else 2)
    else if 0x14000000 ≤ a && top ≤ 0x14008000 then 0 else 2
  | 1 =>
    if bits a 59 38 != 0 then 2
    else match otherTile s c a with
      | none => 2
      | some t => if tileSram < bits a 31 0 + n then 2 else if s.units.lost.contains t then 4 else 0
  | 2 => if bits a 59 41 != 0 then 2 else if carrPopulated (a % 2 ^ 41) n (!write) then 0 else 2
  | 3 => if bits a 59 33 != 0 || bits a 31 26 != 0 || 0x4000000 < bits a 25 0 + n then 2 else 0
  | 4 => if bits a 59 56 != 0 then 2 else 0
  | 5 => if bits a 59 56 != 0 then 2 else 0
  | 6 =>
    if bits a 59 56 != 0 || bits a 38 32 != 0 then 2
    else if !write && bits a 55 39 != nodeId s then 2 else 0
  | 7 => if bits a 59 56 != 0 then 2 else if flashCheck s (chanOwner s c) (bits a 55 48) (bits a 47 0) n = 4 then 2 else 0
  | _ => 2

/-- Whether two ranges of the same space meet. -/
def meets (a n b m : Nat) : Bool := a < b + m && b < a + n

/-- The bytes that a unit writes. -/
def SUnit.wrote (u : SUnit) : Nat :=
  match u.data with
  | some d => d.length
  | none =>
    if u.fmt = 0 then u.len
    else if u.fmt < 0x20 then 16896
    else if bit u.flags 0 then u.len / 64 * peatBlock u.fmt else u.len / peatBlock u.fmt * 64

/-- Whether a lane of the expander is free for a segment: at use a pair, else one lane (12 R352, R353). -/
def lanesFree (s : State) (c : Nat) (g : Seg) : Bool :=
  if !g.movex then true
  else
    let busy (k : Nat) : Option (Bool × Nat) :=
      let ch := chanAt s k
      match ch.seg with
      | some h => if h.movex && k != c then some (peatW h.fmt && bit h.flags 1, h.dst) else none
      | none => match ch.flight.find? (fun u => u.fmt != 0) with
        | some u => if k != c then some (peatW u.fmt && bit u.flags 1, u.dst) else none
        | none => none
    let on := (List.range 16).filterMap (fun i => busy (c / 16 * 16 + i))
    let used := on.foldl (fun a e => a + if e.1 then 2 else 1) 0
    if peatW g.fmt && bit g.flags 1 then used ≤ 2 && !on.contains (true, g.dst) else used < 4

/-- A host read leaves on a port (13 R360; 05 R163). -/
def askHost (c : Nat) (u : SUnit) (s : State) : SUnit × State :=
  let port := bits u.src 63 60 - 4
  let tag := s.host.nextTag
  let s := s.modHost (fun h => { h with nextTag := tag + 1, reads := h.reads ++ [⟨tag, port, c, u.id⟩] })
  ({ u with tag := tag }, emit (.hostRead port tag (bits u.src 55 0) u.len) s)

/-- One unit issued (13 R370, R371). -/
def issueUnit (c : Nat) (g : Seg) (s : State) : State :=
  let ch := chanAt s c
  let p := g.unit ch.issued
  let atUse := peatW g.fmt && g.movex && bit g.flags 1
  let wlen := if !g.movex then p.2.2 else if peatW g.fmt then (if atUse then 0 else 16896)
    else if bit g.flags 0 then p.2.2 / 64 * peatBlock g.fmt else p.2.2 / peatBlock g.fmt * 64
  let bad := if bits p.1 63 60 != bits g.src 63 60 || bits p.2.1 63 60 != bits g.dst 63 60 then 2
    else max (unitRefused s c p.1 p.2.2 false false) (unitRefused s c p.2.1 wlen true atUse)
  if bad != 0 then haltChan c bad ch.word p.1 s
  else
    let u : SUnit := { id := ch.nextId, inst := ch.inst, word := ch.word, index := ch.issued, src := p.1, dst := p.2.1, len := p.2.2,
                       fmt := if g.movex then g.fmt else 0, flags := g.flags, book := g.book, batch := g.batch, data := none, tries := 0,
                       acks := 0, tag := 0, flash := false }
    let port := bits p.1 63 60
    let down (q : Nat) : Bool := (q = 4 || q = 5) && !linkUp (linkAt s (q - 4))
    let last : Bool := ch.issued + 1 = g.count
    let adv (s : State) : State := modChan c (fun ch =>
      if last then { ch with word := (ch.word + 1) % 4096, seg := none, issued := 0, nextId := ch.nextId + 1 }
      else { ch with issued := ch.issued + 1, nextId := ch.nextId + 1 }) s
    if down port || down (bits p.2.1 63 60) then
      adv (modChan c (fun ch => { ch with done := ch.done + 1 }) (bump (sluiceObj c) 0x26 1 s))
    else if port = 4 || port = 5 then
      let r := askHost c u s
      adv (modChan c (fun ch => { ch with flight := ch.flight ++ [r.1] }) r.2)
    else
      let exact : Bool := match tileRole s (c / 16) with
        | some (_, _, _, st) => st.kind = 7 && !hubChan c
        | none => false
      if port = 7 && exact && bits p.2.1 63 60 = 0 && !g.movex then
        match chanSlot s c with
        | some (k, st) =>
          let s := queryRead 3 (k / 4) (k % 4) st (c / 16) (c % 16) ch.issued (bits p.1 55 48) (bits p.1 47 0) p.2.2 (bits p.2.1 31 0) s
          adv (modChan c (fun ch => { ch with flight := ch.flight ++ [{ u with data := some [], flash := true }] }) s)
        | none => s
      else
        let s := if port = 2 then noteCarrWait (p.1 % 2 ^ 41) s else s
        adv (modChan c (fun ch => { ch with flight := ch.flight ++ [u] }) s)

/-- Up to n units issued, while at most 32 are in flight (13 R370). -/
def issueUnits (n c : Nat) (s : State) : State :=
  match n with
  | 0 => s
  | k + 1 =>
    let ch := chanAt s c
    match ch.seg with
    | some g => if ch.state = 1 && ch.flight.length < 32 then issueUnits k c (issueUnit c g s) else s
    | none => s

/-- A redirect taken at a unit boundary (13 R380). -/
def takeRedirect (c w : Nat) (s : State) : State :=
  bump (sluiceObj c) 0x21 1 (modChan c (fun ch => { ch.goTo w with loops := [], redirect := none, state := 1 }) s)

/-- Whether a replay waits for a channel's unit boundary (13 R382). -/
def replayWaits (s : State) (c : Nat) : Bool :=
  (chanAt s c).replay || (!hubChan c && (List.range 2).any (fun a =>
    let u := arrayAt s (2 * (c / 16) + a)
    u.replay.isSome && (u.log.getLast?.map (·.chan)) = some c))

/-- One instruction of a running channel: a waiting replay comes first, then a redirect, then the word (13 R366, R380). (log 10, DESIGN CHOICE.) -/
def sluiceStep (c : Nat) (f : Chan → SInstr → State → State) (s : State) : State :=
  let ch := chanAt s c
  if ch.state != 1 || replayWaits s c then s
  else match ch.redirect, ch.signal with
    | some w, false => takeRedirect c w s
    | _, _ =>
      match sluiceDecode (sluiceWord s c ch ch.word) with
      | .bad => haltChan c 0xA ch.word 0 s
      | i => f ch i s

/-- A MOVE or MOVEX starts after its checks and issues up to n units (13 R364 to R366, R373). -/
def runMove (x : Bool) (n c : Nat) (ch : Chan) (i : SInstr) (s : State) : State :=
  match i with
  | .move y tile count addr =>
    if x != y then s
    else match ch.seg with
      | some _ => issueUnits n c s
      | none =>
        let hub := hubChan c
        if addr % 64 != 0 then haltChan c 1 ch.word addr s
        else if (if hub then 0x4000000 else tileSram) < addr + 64 then haltChan c 2 ch.word addr s
        else if ch.flight.any (fun u => bits u.dst 63 60 = (if hub then 3 else 0) && meets (u.dst % 0x100000000) u.wrote addr 64) then s
        else
          let r := if hub then (Memory.readN s.mem.hub (0x100000000 * (c / 16 - 40) + addr) 64, s)
            else tileGet (chanOwner s c) (c / 16) addr 64 s
          match startSeg s c ch x tile count r.1 with
          | .error e => haltChan c e ch.word addr r.2
          | .ok g =>
            if lanesFree s c g then
              issueUnits n c (modChan c (fun ch => { ch with seg := some g, issued := 0, done := 0, inst := ch.inst + 1 }) r.2)
            else s
  | _ => s

/-- A channel issues up to n units of a MOVE (13 R366). -/
def execSluiceMove (block chan n : Nat) (s : State) : Host.Outcome State Fault Refusal :=
  .next (sluiceStep (16 * block + chan % 16) (runMove false n (16 * block + chan % 16)) s)

/-- A channel issues up to n units of a Peat expand or encode segment (13 R365). -/
def execSluiceMovex (block chan n : Nat) (s : State) : Host.Outcome State Fault Refusal :=
  .next (sluiceStep (16 * block + chan % 16) (runMove true n (16 * block + chan % 16)) s)

/-- LOOP pushes its count; a fifth level halts with LOOP (13 R366, R378). -/
def execSluiceLoop (block chan : Nat) (s : State) : Host.Outcome State Fault Refusal :=
  let c := 16 * block + chan % 16
  .next (sluiceStep c (fun ch i s =>
    match i with
    | .loop n =>
      if 4 ≤ ch.loops.length then haltChan c 6 ch.word 0 s
      else modChan c (fun ch => { ch.goTo (ch.word + 1) with loops := (ch.word + 1, n, 0) :: ch.loops }) s
    | _ => s) s)

/-- ENDL decrements the top count and goes back to the word after its LOOP, or pops; on an empty stack it halts with LOOP (13 R366,
R378). -/
def execSluiceEndl (block chan : Nat) (s : State) : Host.Outcome State Fault Refusal :=
  let c := 16 * block + chan % 16
  .next (sluiceStep c (fun ch i s =>
    match i with
    | .endl =>
      match ch.loops with
      | [] => haltChan c 6 ch.word 0 s
      | (b, r, n) :: q =>
        if r ≤ 1 then modChan c (fun ch => { ch.goTo (ch.word + 1) with loops := q }) s
        else modChan c (fun ch => { ch.goTo b with loops := (b, r - 1, n + 1) :: q }) s
    | _ => s) s)

/-- The number of the cell that a channel names, where it may use it (13 R366, R378; 15 R418). -/
def chanCell (s : State) (c n : Nat) : Option Nat :=
  match chanSlot s c with
  | some (k, _) => if cellInRun s k n then some (cellNo (k / 4) n) else none
  | none => if hubChan c then some (systemCell n) else none

/-- A grant of a cell to a channel taken up (15 R422). -/
def takeGrant (c n : Nat) (s : State) : State := s.modCells (fun u => { u with granted := u.granted.erase (c, n) })

/-- A WAIT consumes one count of its cell, or parks (13 R366; 15 R423). -/
def execSluiceWait (block chan : Nat) (s : State) : Host.Outcome State Fault Refusal :=
  let c := 16 * block + chan % 16
  .next (sluiceStep c (fun ch i s =>
    match i with
    | .wait t n =>
      match chanCell s c n with
      | none => haltChan c 8 ch.word 0 s
      | some g =>
        let s := issueCell g (.wait c) s
        if s.cells.granted.contains (c, g) then modChan c (fun ch => ch.goTo (ch.word + 1)) (takeGrant c g s)
        else modChan c (fun ch => { ch with state := 2, cell := g, timeout := t }) s
    | _ => s) s)

/-- A SIGNAL raises its cell once every earlier write of the channel is acknowledged (13 R369). -/
def execSluiceSignal (block chan : Nat) (s : State) : Host.Outcome State Fault Refusal :=
  let c := 16 * block + chan % 16
  .next (sluiceStep c (fun ch i s =>
    match i with
    | .signal n =>
      match chanCell s c n with
      | none => haltChan c 8 ch.word 0 s
      | some g =>
        if ch.flight.isEmpty then issueCell g (.signal 1) (modChan c (fun ch => ch.goTo (ch.word + 1)) s)
        else modChan c (fun ch => { ch with signal := true }) s
    | _ => s) s)

/-- JUMP continues at its target (13 R366). -/
def execSluiceJump (block chan : Nat) (s : State) : Host.Outcome State Fault Refusal :=
  let c := 16 * block + chan % 16
  .next (sluiceStep c (fun _ i s =>
    match i with
    | .jump w => modChan c (fun ch => ch.goTo w) s
    | _ => s) s)

/-- NOP does nothing (13 R366). -/
def execSluiceNop (block chan : Nat) (s : State) : Host.Outcome State Fault Refusal :=
  let c := 16 * block + chan % 16
  .next (sluiceStep c (fun _ i s =>
    match i with
    | .nop => modChan c (fun ch => ch.goTo (ch.word + 1)) s
    | _ => s) s)

/-- HALT ends the program; the channel becomes IDLE (13 R366). -/
def execSluiceHalt (block chan : Nat) (s : State) : Host.Outcome State Fault Refusal :=
  let c := 16 * block + chan % 16
  .next (sluiceStep c (fun _ i s =>
    match i with
    | .halt => modChan c (fun ch => { ch with state := 0, seg := none, loops := [], signal := false }) s
    | _ => s) s)

/-- A unit of a channel, by its issue number. -/
def unitAt (s : State) (c id : Nat) : Option SUnit := (chanAt s c).flight.find? (fun u => u.id = id)

/-- A unit in flight changed. -/
def modUnit (c id : Nat) (f : SUnit → SUnit) (s : State) : State :=
  modChan c (fun ch => { ch with flight := ch.flight.map (fun u => if u.id = id then f u else u) }) s

/-- A unit that has ended: it leaves the channel and counts as completed (13 R381). -/
def endUnit (c : Nat) (u : SUnit) (s : State) : State :=
  modChan c (fun ch => { ch with flight := ch.flight.filter (fun v => v.id != u.id), done := if u.inst = ch.inst then ch.done + 1 else ch.done }) s

/-- The bytes at a destination left undefined: a free value (13 R375; log 2). -/
def undefineAt (c a n : Nat) (s : State) : State :=
  let v := toLE n (freeVal s (8 * n))
  let own := chanOwner s c
  match bits a 63 60 with
  | 0 => if bits a 31 0 + n ≤ tileSram then drawn (tilePut own (c / 16) (bits a 31 0) v s) else s
  | 1 => match otherTile s c a with
    | some t => drawn (tilePut own t (bits a 31 0) v s)
    | none => s
  | 2 => drawn (carrPut (n / 4096 + 2) (a % 2 ^ 41) v s)
  | 3 => drawn (s.modMem (fun m => { m with hub := Memory.writeN m.hub (a % 2 ^ 33) v }))
  | _ => s

/-- A bus error of a unit: reissued up to the retry count in force, then the channel halts with BUS (13 R375, R376). -/
def busError (c : Nat) (u : SUnit) (s : State) : State :=
  let lim := match chanSlot s c with
    | some (k, _) => rwVal s (0x3000 + 0x10 * (k / 4)) 0x13 3
    | none => rwVal s 0xA62A 0x01 3
  let a := if u.data.isSome then u.dst else u.src
  if u.tries < lim then
    let s := bump (sluiceObj c) 0x24 1 (modUnit c u.id (fun u => { u with tries := u.tries + 1 }) s)
    let s := modChan c (fun ch => { ch with retries := u.tries + 1 }) s
    let s := match chanSlot s c with
      | some (k, _) => bump (0x4000 + k) 0x1F 1 s
      | none => s
    if u.data.isNone && (bits u.src 63 60 = 4 || bits u.src 63 60 = 5) then
      let r := askHost c u s
      modUnit c u.id (fun v => { v with tag := r.1.tag }) r.2
    else s
  else
    let s := if u.data.isSome then undefineAt c u.dst u.wrote s else s
    haltChan c 3 u.word a (modChan c (fun ch => { ch with flight := ch.flight.filter (fun v => v.id != u.id), retries := u.tries }) s)

/-- The data of a source that is not host memory (13 R360, R361, R375, R377). -/
def unitSource (s : State) (c : Nat) (u : SUnit) : Got :=
  let own := chanOwner s c
  let a := u.src
  let fromTile (t : Nat) : Got :=
    if s.units.lost.contains t then .failed
    else if tileAllowed s own t (bits a 31 0) u.len then .data (sramBytes s t (bits a 31 0) u.len) else .fire
  match bits a 63 60 with
  | 0 => fromTile (c / 16)
  | 1 => match otherTile s c a with
    | some t => fromTile t
    | none => .bus
  | 2 => carrGet (u.len / 4096 + 3) s own (a % 2 ^ 41) u.len
  | 3 =>
    if own = ownSystem || (granules (bits a 25 0) u.len).all (fun g => hubOwner s (bits a 32 32) (max (bits a 25 0) (4096 * g)) = own) then
      .data (Memory.readN s.mem.hub (a % 2 ^ 33) u.len) else .fire
  | 6 =>
    match chanSlot s c with
    | some (k, st) =>
      let sl := KMap.getD s.slots k {}
      let w := rwVal s (0x7200 + k) 0x02 0
      let t := nth sl.tileMap (bits w 31 26) 0
      let b := ((runningBatch s k st).map (·.id)).getD 0
      let x := bits w 25 0 + b % exchangeAreas s k * rwVal s (0x7200 + k) 0x03 0 + bits a 31 0
      if tileAllowed s own t x u.len then .data (sramBytes s t x u.len) else .fire
    | none => .bus
  | 7 =>
    let ck := flashCheck s own (bits a 55 48) (bits a 47 0) u.len
    if ck = 5 then .fire
    else if ck != 0 then .bus
    else
      let g := unitOf s (bits a 55 48) (bits a 47 0)
      if (KMap.find s.mire.map g).any (fun e => e < discardedEntry && (targetAt s (targetOf g e)).failed) then .bus
      else .data (spaceBytes 3 s (bits a 55 48) (bits a 47 0) u.len).1
  | _ => .wait

/-- What a unit writes, from what it read, with its malformed and overflowing blocks (12 R342 to R347, R352, R353). -/
def unitData (u : SUnit) (b : Bytes) : Bytes × Nat × Nat :=
  if u.fmt = 0 then (b, 0, 0)
  else if u.fmt < 0x20 then
    let gs := (List.range 256).map (fun m => expandGroup u.book (slice b (34 * m) 34))
    ((List.range 128).flatMap (fun k => (List.range 128).map (fun j => nth (nth gs (128 * (k / 64) + j) []) (k % 64) 0))
      ++ (List.range 256).flatMap (fun m => slice b (34 * m + 32) 2), 0, 0)
  else if bit u.flags 0 then
    let r := encodeBlocks (u.len / 64) u.fmt b
    (r.1, 0, r.2)
  else
    let r := decodeBlocks (u.len / peatBlock u.fmt) u.fmt b
    (r.1, r.2, 0)

/-- A read has returned: the unit's write issues; Peat work is counted (13 R369, R370; 12 R356). -/
def unitRead (c : Nat) (u : SUnit) (b : Bytes) (s : State) : State :=
  let d := unitData u b
  let s := modUnit c u.id (fun u => { u with data := some d.1 }) s
  let k := match chanSlot s c with | some (k, _) => 0x4000 + k | none => 0
  let t := 0xA500 + c / 16
  if u.fmt = 0 || k = 0 then s
  else
    let s := if d.2.1 = 0 then s else bump k 0x1D d.2.1 (bump t 0x02 d.2.1 s)
    let s := if d.2.2 = 0 then s else bump k 0x1C d.2.2 (bump t 0x01 d.2.2 s)
    if bit u.flags 0 && 0x20 ≤ u.fmt then bump t 0x05 (u.len / 64) s
    else bump t 0x04 (if u.fmt < 0x20 then 256 else u.len / peatBlock u.fmt) s

/-- Whether an earlier write of a channel to a unit's lines is not yet acknowledged (13 R370). -/
def behindWrite (s : State) (c : Nat) (u : SUnit) (a n : Nat) : Bool :=
  (chanAt s c).flight.any (fun v => v.id < u.id && bits v.dst 63 60 = bits a 63 60 && bits v.dst 63 60 != 4 && meets v.dst v.wrote a n)

/-- A unit's read returns and its write issues; with `err`, it meets a bus error (13 R370, R375). A read of host memory returns by its own
commands. -/
def execUnitReadReturn (block chan unit : Nat) (err : Bool) (s : State) : Host.Outcome State Fault Refusal :=
  let c := 16 * block + chan % 16
  match unitAt s c unit with
  | none => .next s
  | some u =>
    if u.data.isSome || bits u.src 63 60 = 4 || bits u.src 63 60 = 5 || behindWrite s c u u.src u.len then .next s
    else if err then .next (busError c u s)
    else match unitSource s c u with
      | .wait => .next s
      | .bus => .next (busError c u s)
      | .failed => .next (haltChan c 4 u.word u.src (endUnit c u s))
      | .fire => .next (unitRead c u (List.replicate u.len 0) (firewallHit (chanOwner s c) (srcTile (c / 16)) u.src s))
      | .data b =>
        let s := if bits u.src 63 60 = 7 then charge (chanOwner s c) 0x11 u.len (afterRead (unitBytes s (unitOf s (bits u.src 55 48) (bits u.src 47 0)) (bits u.src 47 0 % 16384) u.len).2.2 s) else s
        .next (unitRead c u b s)

/-- A host completion for a device read arrives: the unit's write issues, or an error status is a bus error (05 R163; 13 R375). -/
def execHostReadCompletion (port tag : Nat) (ok : Bool) (data : Bytes) (s : State) : Host.Outcome State Fault Refusal :=
  match s.host.reads.find? (fun r => r.tag = tag && r.port = port) with
  | none => .next s
  | some r =>
    let s := s.modHost (fun h => { h with reads := h.reads.filter (fun x => x.tag != tag) })
    match unitAt s r.chan r.unit with
    | none => .next s
    | some u =>
      if u.data.isSome || u.tag != tag then .next s
      else if ok then .next (unitRead r.chan u (slice data 0 u.len) s)
      else .next (busError r.chan u s)

/-- An unanswered device read ends in a completion timeout, a bus error of its reader (05 R163; 13 R375). -/
def execCompletionTimeout (port tag : Nat) (s : State) : Host.Outcome State Fault Refusal :=
  match s.host.reads.find? (fun r => r.tag = tag && r.port = port) with
  | none => .next s
  | some r =>
    let s := s.modHost (fun h => { h with reads := h.reads.filter (fun x => x.tag != tag) })
    match unitAt s r.chan r.unit with
    | some u => if u.data.isSome || u.tag != tag then .next s else .next (busError r.chan u s)
    | none => .next s

/-- What a write at its destination answers. -/
inductive Put where
  | wait
  | failed
  | bus
  | part (n : Nat) (s : State)
  | done (s : State)

/-- A line enqueued in the command window that an address names (07 R207; 10 R298; 11 R330). -/
def windowWrite (t a : Nat) (d : Bytes) (s : State) : Option State :=
  let w := (a - 0x14000000) / 0x1000
  if w < 2 then enqueuePass (2 * t + w) d s
  else if w < 6 then enqueueJob (4 * t + w - 2) d s
  else enqueueSedge (2 * t + w - 6) d s

/-- A weight tile handed to the shadow buffer of the array of a pair, and logged (12 R352; 13 R382). -/
def feedArray (c : Nat) (u : SUnit) (d : Bytes) (s : State) : Option State :=
  let n := 2 * (c / 16) + (if u.dst = 0x14010000 then 0 else 1)
  if (arrayAt s n).shadow.isEmpty then
    let e : Sent8 := ⟨c, u.src, u.book⟩
    some (modArray n (fun a => { a with shadow := [d], sent := a.sent + 1, log := (a.log ++ [e]).drop (a.log.length + 1 - 64) }) s)
  else none

/-- The exchange round of a slot and stage that collects this batch's messages; a new one where none stands yet (16 R466). -/
def roundFor (s : State) (k st b : Nat) : State :=
  if s.fab.rounds.any (fun r => r.slot = k && r.stage = st && r.batch = b) then s
  else s.modFab (fun f => { f with rounds := f.rounds ++ [{ slot := k, stage := st, batch := b, issued := s.clock.now }] })

/-- Flit bytes counted in the exchange round of a slot, stage and batch; whether they stay within V (16 R468). -/
def roundBytes (k st b n : Nat) (s : State) : Bool × State :=
  let s := roundFor s k st b
  let v := rwVal s 0x7000 0x08 4194304
  match s.fab.rounds.find? (fun r => r.slot = k && r.stage = st && r.batch = b) with
  | some r =>
    if v < r.bytes + n then (false, s)
    else (true, s.modFab (fun f => { f with rounds := f.rounds.map (fun r =>
      if r.slot = k && r.stage = st && r.batch = b then { r with bytes := r.bytes + n } else r) }))
  | none => (true, s)

/-- A write of the exchange area sent: WRITE flits of up to three lines, or a SIGNAL for a signal line (16 R464, R465). -/
def exchangeSend (c : Nat) (u : SUnit) (d : Bytes) (s : State) : State :=
  match chanSlot s c with
  | none => endUnit c u s
  | some (k, st) =>
    let node := bits u.dst 55 39
    let off := bits u.dst 31 0
    if 0xF0000000 ≤ off && off < 0xF0008000 && d.length = 64 then
      let cell := (off - 0xF0000000) / 64
      endUnit c u (sendFlit 6 0 node (k / 4) 0 true (toLE 2 cell ++ slice d 0 2) s)
    else
      let tg := freshTag s
      let n := ceilDiv d.length 192
      let r := roundBytes k st u.batch (256 * n) tg.2
      if r.1 then
        let s := (List.range n).foldl (fun s i =>
          let b := (d.drop (192 * i)).take 192
          sendFlit 2 0 node (k / 4) tg.1 (i + 1 = n)
            (toLE 4 (rwVal s (0x7200 + k) 0x01 0) ++ toLE 4 u.batch ++ toLE 4 (off + 192 * i) ++ toLE 2 b.length ++ toLE 2 0 ++ b) s) r.2
        let s := s.modFab (fun f => { f with rounds := f.rounds.map (fun r =>
          if r.slot = k && r.stage = st && r.batch = u.batch then { r with writes := r.writes ++ [tg.1] } else r) })
        modUnit c u.id (fun u => { u with acks := n, tag := tg.1 }) s
      else endUnit c u (bump (0x7200 + k) 0x08 1 r.2)

/-- A unit's write to the SRAM of a tile: a lost tile answers nothing (13 R369). -/
def tileWrite (own t a : Nat) (d : Bytes) (s : State) : Put :=
  if s.units.lost.contains t then .failed else .done (tilePut own t (bits a 31 0) d s)

/-- A unit's write at its destination (13 R369). (log 91, DEDUCED.) -/
def unitWrite (c : Nat) (u : SUnit) (d : Bytes) (s : State) : Put :=
  let own := chanOwner s c
  let a := u.dst
  match bits a 63 60 with
  | 0 =>
    if bits a 31 0 < 0x14000000 then tileWrite own (c / 16) a d s
    else if bits a 31 0 < 0x14010000 then
      match windowWrite (c / 16) (bits a 31 0) (d.take 64) s with
      | none => .wait
      | some s => if d.length ≤ 64 then .done s else .part 64 s
    else match feedArray c u d s with
      | none => .wait
      | some s => .done s
  | 1 => match otherTile s c a with
    | some t => tileWrite own t a d s
    | none => .bus
  | 2 =>
    match carrPutReady (d.length / 4096 + 3) s own (a % 2 ^ 41) d.length with
    | .wait => .wait
    | .failed => .failed
    | .fire => .done (firewallHit own (srcTile (c / 16)) a s)
    | .bus => .bus
    | .data _ => .done (carrPut (d.length / 4096 + 3) (a % 2 ^ 41) d s)
  | 3 =>
    if own = ownSystem || (granules (bits a 25 0) d.length).all (fun g => hubOwner s (bits a 32 32) (max (bits a 25 0) (4096 * g)) = own) then
      .done (s.modMem (fun m => { m with hub := Memory.writeN m.hub (a % 2 ^ 33) d }))
    else .done (firewallHit own (srcTile (c / 16)) a s)
  | 7 =>
    let ck := flashCheck s own (bits a 55 48) (bits a 47 0) d.length
    if ck = 5 then .done (firewallHit own (srcTile (c / 16)) a s)
    else if ck != 0 || s.mire.dumping then .bus
    else .done (charge own 0x12 d.length (writeSpace (d.length / 16384 + 2) (bits a 55 48) (bits a 47 0) d s))
  | _ => .wait

/-- Whether bulk bytes of a unit still wait in their egress queue (13 R369). -/
def bulkWaits (s : State) (own port addr n : Nat) : Bool :=
  (egressAt s own port 1).units.any (fun e => match e.load with
    | .bulk x b => meets x b.length addr n
    | _ => false)

/-- A unit's write is acknowledged at its destination; with `err`, it meets a bus error (13 R369, R375, R377). A host write is posted to
the BULK queue at the first command and acknowledged once its port has transmitted it. An exchange write is sent at the first command and
acknowledged by its responses. A query read of flash is acknowledged when Mire has ended it (18 R523). -/
def execUnitWriteAck (block chan unit : Nat) (err : Bool) (s : State) : Host.Outcome State Fault Refusal :=
  let c := 16 * block + chan % 16
  match unitAt s c unit with
  | none => .next s
  | some u =>
    match u.data with
    | none => .next s
    | some d =>
      let sp := bits u.dst 63 60
      if u.flash then
        match chanSlot s c with
        | some (k, _) =>
          let open_ : Bool := match roundAt s k with
            | some r => r.reads.any (fun q => q.chan = c % 16 && q.index = u.index && q.tile = c / 16 && q.status.isNone)
            | none => false
          if open_ then .next s else .next (endUnit c u s)
        | none => .next (endUnit c u s)
      else if behindWrite s c u u.dst d.length then .next s
      else if err then .next (busError c u s)
      else if sp = 6 then (if u.acks = 0 then .next (exchangeSend c u d s) else .next s)
      else if sp = 4 || sp = 5 then
        let port := sp - 4
        let a := bits u.dst 55 0
        if !linkUp (linkAt s port) then .next (endUnit c u (bump (sluiceObj c) 0x26 1 s))
        else if u.acks = 0 then
          let s := postBulk port (chanOwner s c) a d s
          if bulkWaits s (chanOwner s c) port a d.length then .next (modUnit c u.id (fun u => { u with acks := 1 }) s)
          else .next (endUnit c u s)
        else if bulkWaits s (chanOwner s c) port a d.length then .next s
        else .next (endUnit c u s)
      else match unitWrite c u d s with
        | .wait => .next s
        | .bus => .next (busError c u s)
        | .failed => .next (haltChan c 4 u.word u.dst (endUnit c u s))
        | .part n s => .next (modUnit c u.id (fun u => { u with data := some (d.drop n), dst := u.dst + n }) s)
        | .done s => .next (endUnit c u s)

/-- The response to an exchange write acknowledges its lines (16 R462, R465). -/
def execWriteRsp (s : State) : Host.Outcome State Fault Refusal :=
  match takeInbox 3 s with
  | none => .next s
  | some (f, s) =>
    let hit (u : SUnit) : Bool := bits u.dst 63 60 = 6 && 0 < u.acks && u.tag = f.tag
    match s.units.chans.find? (fun e => e.2.flight.any hit) with
    | none => .next s
    | some (c, ch) =>
      match ch.flight.find? hit with
      | none => .next s
      | some u =>
        if 1 < u.acks then .next (modUnit c u.id (fun u => { u with acks := u.acks - 1 }) s)
        else
          let s := s.modFab (fun g => { g with rounds := g.rounds.map (fun r => { r with writes := r.writes.filter (· != f.tag) }) })
          .next (endUnit c u s)

/-- A WAIT that reaches its timeout cancels its park; a grant made before that completes the WAIT, else the channel halts with TIMEOUT (13
R368; 15 R423). -/
def execWaitTimeout (block chan : Nat) (s : State) : Host.Outcome State Fault Refusal :=
  let c := 16 * block + chan % 16
  let ch := chanAt s c
  if ch.state != 2 || ch.timeout = 0 then .next s
  else if s.cells.granted.contains (c, ch.cell) then .next s
  else
    let s := issueCell ch.cell (.cancel c) s
    if s.cells.cancelled.contains (c, ch.cell) then
      let s := s.modCells (fun u => { u with cancelled := u.cancelled.erase (c, ch.cell) })
      let s := match chanSlot s c with
        | some (k, _) => bump (0x3000 + 0x10 * (k / 4)) 0x16 1 s
        | none => s
      .next (haltChan c 7 ch.word 0 s)
    else .next s

/-- A grant from the cell's home completes a parked WAIT (15 R422). -/
def execParkGrant (block chan : Nat) (s : State) : Host.Outcome State Fault Refusal :=
  let c := 16 * block + chan % 16
  let ch := chanAt s c
  if ch.state = 2 && s.cells.granted.contains (c, ch.cell) then
    .next (modChan c (fun ch => { ch.goTo (ch.word + 1) with state := 1 }) (takeGrant c ch.cell s))
  else .next s

/-- A channel's parked wait cancelled; a grant made before returns its count to the cell (15 R423). -/
def dropPark (c : Nat) (s : State) : State :=
  let ch := chanAt s c
  if ch.state != 2 then s
  else if s.cells.granted.contains (c, ch.cell) then issueCell ch.cell (.signal 1) (takeGrant c ch.cell s)
  else (issueCell ch.cell (.cancel c) s).modCells (fun u => { u with cancelled := u.cancelled.filter (fun e => e.1 != c) })

/-- A redirect moves a channel to a word at its next unit boundary (13 R380). -/
def redirectChan (c w : Nat) (s : State) : State :=
  let ch := chanAt s c
  if ch.state = 3 || ch.state = 4 || chanLength c ch ≤ w then bump (sluiceObj c) 0x22 1 s
  else if ch.state = 0 then takeRedirect c w s
  else if ch.state = 2 then
    let s := if s.cells.granted.contains (c, ch.cell) then takeGrant c ch.cell s else dropPark c s
    takeRedirect c w s
  else
    let s := if ch.redirect.isSome then bump (sluiceObj c) 0x22 1 s else s
    modChan c (fun ch => { ch with redirect := some w }) s

/-- A redirect requested for a channel (13 R380). -/
def execRedirect (block chan w : Nat) (s : State) : Host.Outcome State Fault Refusal :=
  .next (redirectChan (16 * block + chan % 16) w s)

/-- Disable drops everything in flight (13 R379): a write in flight lands or not by a free value; the units-done and retries fields become
undefined. (log 90, DESIGN CHOICE.) -/
def disableChan (c : Nat) (s : State) : State :=
  let ch := chanAt s c
  if ch.state = 4 then s
  else
    let s := dropPark c s
    let s := ch.flight.foldl (fun s u =>
      match u.data with
      | some d =>
        let s := drawn s
        if u.flash || Config.freeValue (s.free - 1) % 2 = 0 then s
        else match unitWrite c u d s with
          | .done s => s
          | .part _ s => s
          | _ => s
      | none => s) s
    let v := freeVal s 24
    drawn (modChan c (fun ch => { ch with state := 4, flight := [], loops := [], seg := none, redirect := none, signal := false, replay := false,
                                          issued := 0, done := v % 2 ^ 20, retries := v / 2 ^ 20 }) s)

/-- A channel disabled (13 R379). -/
def execChannelDisable (block chan : Nat) (s : State) : Host.Outcome State Fault Refusal :=
  .next (disableChan (16 * block + chan % 16) s)

/-- A disabled channel becomes IDLE (13 R379). -/
def enableChan (c : Nat) (s : State) : State :=
  if (chanAt s c).state = 4 then modChan c (fun ch => { ch with state := 0, error := 0 }) s else s

/-- A channel enabled (13 R379). -/
def execChannelEnable (block chan : Nat) (s : State) : Host.Outcome State Fault Refusal :=
  .next (enableChan (16 * block + chan % 16) s)

/-- A logged weight tile read again and expanded (13 R382). -/
def replayTile (s : State) (t : Nat) (e : Sent8) : Bytes :=
  (unitData { id := 0, inst := 0, word := 0, index := 0, src := e.src, dst := 0, len := 8704, fmt := 0x10, flags := 2, book := e.book, batch := 0,
              data := none, tries := 0, acks := 0, tag := 0, flash := false } (sramBytes s t (e.src % 0x100000000) 8704)).1

/-- After a detected error, the lane pair re-sends the logged tiles of the chain, from its first to the last delivered; a second error in the
replay halts the channel with REPLAY (13 R382). -/
def execAtUseReplay (block chan : Nat) (ok : Bool) (s : State) : Host.Outcome State Fault Refusal :=
  let c := 16 * block + chan % 16
  let hit := (List.range 2).find? (fun a =>
    let u := arrayAt s (2 * block + a)
    u.replay.isSome && (u.log.getLast?.map (·.chan)) = some c)
  match hit with
  | none => .next s
  | some a =>
    let n := 2 * block + a
    let u := arrayAt s n
    let s := bump (sluiceObj c) 0x23 1 (modArray n (fun a => { a with replay := none }) s)
    if ok then
      let first := u.log.length - (u.sent - u.replay.getD 0)
      let tiles := (u.log.drop first).map (replayTile s block)
      .next (modArray n (fun a => { a with shadow := tiles }) s)
    else .next (haltChan c 9 (chanAt s c).word 0 s)

/-- A lane parity error of a segment at load or an encoding: it runs again from unit 0 at its next unit boundary; a second detected error of
the stage and slot halts the channel with REPLAY, and a second lane error within 1 s loses the tile (12 R355; 13 R382; 19 R532). -/
def execSegmentReplay (block chan : Nat) (s : State) : Host.Outcome State Fault Refusal :=
  let c := 16 * block + chan % 16
  let ch := chanAt s c
  match ch.seg with
  | none => .next s
  | some g =>
    if !g.movex || (peatW g.fmt && bit g.flags 1) then .next s
    else
      let now := s.clock.now
      let again : Bool := match KMap.find s.units.laneAt block with | some t0 => now < t0 + 1000000000 | none => false
      let s := s.modUnits (fun u => { u with laneAt := KMap.put u.laneAt block now })
      let s := bump (0xA500 + block) 0x03 1 s
      let s := match chanSlot s c with
        | some (k, st) =>
          let e := markError k st s
          let s := traceCheck (k / 4) (srcTile block) 2 0 (b2n (!e.1)) e.2
          if e.1 then haltChan c 9 ch.word 0 s
          else bump (sluiceObj c) 0x23 1 (modChan c (fun ch =>
            { ch with issued := 0, done := 0, inst := ch.inst + 1, flight := ch.flight.filter (fun u => u.inst != ch.inst) }) s)
        | none => s
      .next (if again then loseTile block s else s)

/-- A channel's status word (13 R381). -/
def chanStatus (ch : Chan) : Nat :=
  2 ^ 52 * ch.word + 2 ^ 48 * ch.state + 2 ^ 40 * ch.error + 2 ^ 36 * (ch.retries % 16) + 2 ^ 32 * ch.loops.length + ch.done % 2 ^ 20

/-- A channel started at word 0 with an empty loop stack (13 R359). -/
def startChan (c : Nat) (s : State) : State :=
  if (chanAt s c).state = 0 then modChan c (fun ch => { ch.goTo 0 with state := 1, loops := [], redirect := none }) s else s

/-- What a cut does to a channel: disabled, and enabled again before the next slot (13 R359, R379). -/
def cutChan (c : Nat) (s : State) : State := enableChan c (disableChan c s)

end Sys2Proof.Machine
end

