-- ==== Sys2Proof/Machine/Exchange.lean ====
section
/-! DEFINITION. Exchange rounds: the requests for remote rows, the end of a round, and the partner's extra round (14 R399, R400; 16 R466,
R468). -/

namespace Sys2Proof.Machine

open Sys2Proof

/-- The keys of a list of asks cut into requests of at most 14 (16 R462). -/
def askGroups (fuel i : Nat) (l : List Ask) : List (Nat × List Ask) :=
  match fuel with
  | 0 => []
  | k + 1 => if l.isEmpty then [] else (i, l.take 14) :: askGroups k (i + 14) (l.drop 14)

/-- Whether an exchange round is that of a slot, stage and batch. -/
def isRound (k st b : Nat) (r : ExRound) : Bool := r.slot = k && r.stage = st && r.batch = b

/-- The state with one exchange round changed. -/
def modExRound (k st b : Nat) (f : ExRound → ExRound) (s : State) : State :=
  s.modFab (fun x => { x with rounds := x.rounds.map (fun r => if isRound k st b r then f r else r) })

/-- One request message to a node for the asks of one table: sent within V, else dropped and counted (16 R462, R468). -/
def sendAsks (k st b node tab : Nat) (asks : List Ask) (s : State) : State :=
  let tg := freshTag s
  let gs := askGroups (asks.length / 14 + 1) 0 asks
  let r := roundBytes k st b (256 * gs.length) tg.2
  if r.1 then
    let s := (List.range gs.length).foldl (fun s i =>
      let g := nth gs i (0, [])
      sendFlit 4 0 node (k / 4) tg.1 (i + 1 = gs.length)
        (toLE 4 (rwVal s (0x7200 + k) 0x01 0) ++ toLE 4 b ++ toLE 4 g.1 ++ toLE 2 (16 * g.2.length) ++ toLE 1 0 ++ toLE 1 tab
          ++ g.2.flatMap (fun a => toLE 8 a.key ++ toLE 4 a.item ++ toLE 4 0)) s) r.2
    modExRound k st b (fun x => { x with asks := x.asks ++ asks.map (fun a => { a with tag := tg.1 }) }) s
  else
    modExRound k st b (fun x => { x with asks := x.asks ++ asks.map (fun a => { a with dead := true }) }) (bump (0x7200 + k) 0x08 1 r.2)

/-- The asks of one table sent, one message to each node that `node` names; those with no node, or this one, are left unasked (14 R399). -/
def sendTable (k st b tab : Nat) (node : Ask → Option Nat) (asks : List Ask) (s : State) : State :=
  let here := nodeId s
  let far := asks.filter (fun a => match node a with | some n => n != here | none => false)
  let near := asks.filter (fun a => match node a with | some n => n = here | none => true)
  let s := modExRound k st b (fun x => { x with asks := x.asks ++ near.map (fun a => { a with dead := true }) }) s
  ((far.filterMap node).eraseDups).foldl (fun s n => sendAsks k st b n tab (far.filter (fun a => node a = some n)) s) s

/-- The node that the shard map names for a key: its owner, or its partner (14 R393, R399, R400). -/
def shardNode (s : State) (k tab : Nat) (partner : Bool) (a : Ask) : Option Nat :=
  let t := 64 * (k / 4) + tab
  (tableAt s t).bind (fun x => (locateRow x a.key).map (fun r =>
    if partner then partnerNode s t x r.2.2.1 else ownerNode s t x r.2.2.1))

/-- The entries of a remote list that a GATHER wrote (14 R399). -/
def listAsks (s : State) (e : Nat × Nat × Nat × Nat × Nat) : List Ask :=
  let l := e.2.2.1
  let n := Memory.readLE s.mem.tile l 4
  (List.range n).map (fun i =>
    let b := Memory.readN s.mem.tile (l + 64 + 16 * i) 16
    let item := leAt b 8 4
    let a : Ask := { table := e.2.1, key := leAt b 0 8, item := item, tile := e.2.2.2.1 / 0x100000000,
                     dest := e.2.2.2.1 % 0x100000000 + item * e.2.2.2.2, width := e.2.2.2.2, tag := 0 }
    a)

/-- The exchange round of a batch opens at the end of its issue slot; after an EMBED stage it asks for the listed rows (14 R399; 16
R466). -/
def openRound (k st b : Nat) (embed : Bool) (s : State) : State :=
  let now := s.clock.now
  let s := modExRound k st b (fun r => { r with issued := now, open_ := true }) (roundFor s k st b)
  if embed then
    let mine := s.fab.lists.filter (fun e => e.1 = k)
    let s := s.modFab (fun f => { f with lists := f.lists.filter (fun e => e.1 != k) })
    (mine.map (·.2.1)).eraseDups.foldl (fun s tab =>
      sendTable k st b tab (shardNode s k tab false) ((mine.filter (fun e => e.2.1 = tab)).flatMap (listAsks s)) s) s
  else s

/-- The writes of a round with no response count as acknowledged and lost (16 R465). -/
def endWrites (k : Nat) (tags : List Nat) (s : State) : State :=
  tags.foldl (fun s t =>
    let hit (u : SUnit) : Bool := bits u.dst 63 60 = 6 && 0 < u.acks && u.tag = t
    match s.units.chans.find? (fun e => e.2.flight.any hit) with
    | none => s
    | some (c, ch) =>
      match ch.flight.find? hit with
      | some u => endUnit c u (bump (0x7200 + k) 0x07 1 s)
      | none => s) s

/-- A missed row replaced: zeros, or its class's default row from the HOT area of the tile, and counted (14 R400). -/
def replaceRow (k : Nat) (a : Ask) (s : State) : State :=
  let t := 64 * (k / 4) + a.table
  let area : Option Nat := (tableAt s t).bind (fun x => x.areas.findSome? (fun h => (KMap.find s.data.tiers.objs h.obj).bind (fun o =>
    if o.tier = 1 && o.base / 0x100000000 = a.tile then some (o.base % 0x100000000) else none)))
  let row := match area with
    | some ar => fallbackRow s a.tile ar t a.key
    | none => []
  bump (tabObj t) 0x1A 1 (tilePut (k / 4) a.tile a.dest (slice row 0 a.width) s)

/-- The partner asked in the extra round for what the round missed (14 R400; 16 R468). (log 95, DEDUCED.) -/
def startExtra (k st b : Nat) (ids : List Nat) (miss : List Ask) (s : State) : State :=
  let now := s.clock.now
  let s := modExRound k st b (fun r => { r with issued := now, bytes := 0, asks := [], writes := [], extra := true, ids := ids }) s
  let s := s.modSlots (fun m => KMap.upd m k {} (fun x =>
    { x with batches := x.batches.map (fun c => if c.id % 2 ^ 32 = b then { c with extra := true } else c) }))
  (miss.map (·.table)).eraseDups.foldl (fun s tab =>
    sendTable k st b tab (shardNode s k tab true) ((miss.filter (fun a => a.table = tab)).map (fun a => { a with done := false, dead := false, got := 0 })) s) s

/-- An exchange round ends t_xch after the end of its issue slot; `missed` names the queries whose rows or results have not all come. What
is missing takes the cheaper paths (14 R400; 16 R465, R466; 04 R125). -/
def execExchangeRoundEnd (part slot stage : Nat) (missed : List Nat) (s : State) : Host.Outcome State Fault Refusal :=
  let k := 4 * part + slot
  match s.fab.rounds.find? (fun r => r.slot = k && r.stage = stage && r.open_) with
  | none => .next s
  | some r =>
    if s.clock.now < r.issued + 1000 * rwVal s 0x7000 0x0A 90 then .next s
    else
      let b := r.batch
      let sl := KMap.getD s.slots k {}
      let im := sl.image.getD {}
      let embed : Bool := (nth im.stages stage {}).kind = 1
      let miss := r.asks.filter (fun a => !a.done)
      let used : Bool := sl.batches.any (fun c => c.id % 2 ^ 32 = b && c.extra)
      let s := endWrites k r.writes s
      if !r.extra && !used && bit im.flags 0 && (!miss.isEmpty || !missed.isEmpty) then .next (startExtra k stage b missed miss s)
      else
        let s := miss.foldl (fun s a => replaceRow k a s) s
        let s := flagQueries missed (if embed then 8 else 16) s
        let s := if r.extra then flagQueries (r.ids.filter (fun i => !missed.contains i)) 2 s else s
        .next (s.modFab (fun f => { f with
          rounds := f.rounds.filter (fun x => !isRound k stage b x),
          ended := if embed then f.ended else KMap.upd f.ended k 0 (fun e => max e (b + 1)) }))

end Sys2Proof.Machine
end

