-- ==== Sys2Proof/Machine/Image.lean ====
section
/-! DEFINITION. The image file: its layout, and the checks of the fit check that need no free resource (03 R87 to R95, R99; 09 R274 to R276;
13 R367; 14 R391; 15 R418). -/

namespace Sys2Proof.Machine

open Sys2Proof

/-- A stage entry read (03 R91). -/
def parseStage (f : Bytes) (o : Nat) : Stage :=
  let b := slice f o 32
  { kind := leAt b 0 1, flags := leAt b 1 1, firstTile := leAt b 2 1, tiles := leAt b 3 1, cWork := leAt b 4 4, cRetry := leAt b 8 4,
    producers := leAt b 12 2, index := leAt b 14 2, flash := leAt b 16 1, exchange := leAt b 17 1, firstProg := leAt b 18 2,
    progs := leAt b 20 2, firstW := leAt b 22 2, weights := leAt b 24 2 }

/-- A claims entry read (03 R92). -/
def parseClaim (f : Bytes) (o : Nat) : Claim :=
  { resource := leAt f o 2, tile := leAt f (o + 2) 1, amount := leAt f (o + 8) 8 }

/-- A weight reference read (03 R93). -/
def parseWeight (f : Bytes) (o : Nat) : WeightRef :=
  let b := slice f o 32
  { tensor := leAt b 0 2, format := leAt b 2 1, major := leAt b 3 1 / 16, minor := leAt b 3 1 % 16, objA := leAt b 4 4, objB := leAt b 8 4,
    size := leAt b 16 8 }

/-- A program-table entry read (03 R94). -/
def parseProg (f : Bytes) (o : Nat) : Prog :=
  let b := slice f o 16
  { target := leAt b 0 1, kind := leAt b 1 1, addr := leAt b 4 4, offset := leAt b 8 4, length := leAt b 12 4 }

/-- The header and tables of an image file (03 R90). -/
def parseImage (f : Bytes) : Image :=
  let tab {α : Type} (g : Bytes → Nat → α) (at_ n size : Nat) : List α := (List.range n).map (fun i => g f (at_ + size * i))
  { major := leAt f 4 1, minor := leAt f 5 1, flags := leAt f 6 2, id := leAt f 8 8, partition := leAt f 16 1, bq := leAt f 18 2,
    roleMask := leAt f 20 1, total := leAt f 24 4, sigOff := leAt f 48 4,
    stages := tab parseStage (leAt f 28 4) (leAt f 17 1) 32, claims := tab parseClaim (leAt f 32 4) (leAt f 21 1) 16,
    weights := tab parseWeight (leAt f 36 4) (leAt f 22 2) 32, progs := tab parseProg (leAt f 40 4) (leAt f 44 2) 16 }

/-- Some bytes of a file taken as zero. -/
def blankAt (f : Bytes) (off n : Nat) : Bytes := f.take off ++ List.replicate (min n (f.length - off)) 0 ++ f.drop (off + n)

/-- Whether a version lies in the range that edition 1.0 supports (02 R71). -/
def editionOne (major minor : Nat) : Bool := major = 1 && minor = 0

/-- The first number below n that breaks a rule. -/
def firstBad (n : Nat) (bad : Nat → Bool) : Option Nat := (List.range n).find? bad

/-- The signature of a file against the partition's key (03 R95). -/
def signatureOk (s : State) (p : Nat) (f : Bytes) (im : Image) : Bool :=
  if bit im.flags 1 then
    Config.ecdsaVerify (rwDom s (0x3000 + 0x10 * p) 0x07 []) (Config.sha384 (blankAt (blankAt f 52 4) im.sigOff 96)) (slice f im.sigOff 96)
  else lifeCycle s != 2 && lifeCycle s != 3

/-- The sections of a file: header, tables and signature (03 R90, R99). -/
def imageSections (f : Bytes) (im : Image) : List (Nat × Nat) :=
  [(0, 64), (leAt f 28 4, 32 * im.stages.length), (leAt f 32 4, 16 * im.claims.length), (leAt f 36 4, 32 * im.weights.length),
   (leAt f 40 4, 16 * im.progs.length), (im.sigOff, if bit im.flags 1 then 96 else 0)].filter (fun e => e.2 != 0)

/-- Whether two ranges meet. -/
def rangesMeet (a b : Nat × Nat) : Bool := a.1 < b.1 + b.2 && b.1 < a.1 + a.2

/-- Check LENGTH of the fit check (03 R94, R99): the detail number where it fails. A program may share bytes with another program (DEDUCED,
log 40). -/
def lengthBad (f : Bytes) (im : Image) : Option Nat :=
  let secs := imageSections f im
  if f.length < 64 || im.total != f.length || leAt f 28 4 % 8 != 0 || leAt f 32 4 % 8 != 0 || leAt f 36 4 % 8 != 0 || leAt f 40 4 % 8 != 0
      || secs.any (fun e => im.total < e.1 + e.2)
      || (List.range secs.length).any (fun i => (List.range i).any (fun j => rangesMeet (nth secs i (0, 0)) (nth secs j (0, 0)))) then some 0xFFFF
  else firstBad im.progs.length (fun i =>
    let g := nth im.progs i {}
    g.offset % 8 != 0 || im.total < g.offset + g.length || (g.length != 0 && secs.any (rangesMeet (g.offset, g.length))))

/-- Whether a claims entry is out of the form of 03 R92 in a way that no later code names (03 R99). (log 122, DEDUCED.) -/
def claimBad (f : Bytes) (at_ i : Nat) (c : Claim) : Bool :=
  let perTile : Bool := 1 ≤ c.resource && c.resource ≤ 3
  c.resource = 0 || 8 < c.resource || leAt f (at_ + 16 * i + 3) 5 != 0 || (perTile && c.tile = 0xFF) || (!perTile && c.tile != 0xFF)
  || ((c.resource = 1 || c.resource = 4 || c.resource = 6) && c.amount % 4096 != 0) || (c.resource = 2 && 1024 < c.amount)
  || (c.resource = 3 && 16 < c.amount)

/-- Whether a stage entry is out of the form of 03 R91. -/
def stageBad (f : Bytes) (at_ i : Nat) (g : Stage) : Bool :=
  g.kind = 0 || 10 < g.kind || 8 ≤ g.flags || leAt f (at_ + 32 * i + 26) 6 != 0
  || (bit g.flags 0 && g.kind != 1) || (if g.kind = 7 then 4 < g.flash else g.flash != 0)
  || g.exchange != b2n ((g.kind = 1 && bit g.flags 0) || g.kind = 9)

/-- Check RESERVED_ENCODING of the fit check (03 R99): the detail number where it fails. -/
def reservedBad (f : Bytes) (im : Image) : Option Nat :=
  if 4 ≤ im.flags || 4 ≤ im.roleMask || leAt f 46 2 != 0 || leAt f 56 8 != 0 || im.claims.isEmpty || 1024 < im.weights.length
      || 4096 < im.progs.length || (!bit im.flags 1 && im.sigOff != 0) then some 0xFFFF
  else
    match firstBad im.stages.length (fun i => stageBad f (leAt f 28 4) i (nth im.stages i {})) with
    | some i => some i
    | none =>
      match firstBad im.claims.length (fun i => claimBad f (leAt f 32 4) i (nth im.claims i {})) with
      | some i => some i
      | none =>
        match firstBad im.weights.length (fun i =>
            let w := nth im.weights i {}
            let o := leAt f 36 4 + 32 * i
            !(peatW w.format || peatA w.format) || leAt f (o + 12) 4 != 0 || leAt f (o + 24) 8 != 0) with
        | some i => some i
        | none => firstBad im.progs.length (fun i =>
            let g := nth im.progs i {}
            g.target = 0 || 3 < g.target || leAt f (leAt f 40 4 + 16 * i + 2) 2 != 0 || (g.target = 3 && (g.kind = 0 || 4 < g.kind)))

/-- The logical tiles that the stages use, in ascending order (03 R91). -/
def usedTiles (im : Image) : List Nat :=
  (List.range 40).filter (fun t => im.stages.any (fun g => g.firstTile ≤ t && t < g.firstTile + g.tiles))

/-- Whether a stage meets the requirement of its kind in its place (03 R87). -/
def stageOrdered (im : Image) (i : Nat) : Bool :=
  let g := nth im.stages i {}
  let before := im.stages.take i
  let has (k : Nat) : Bool := before.any (fun e => e.kind = k)
  let routed : Bool := before.any (fun e => e.kind = 3 && e.index = g.index)
  (g.kind = 10) == (i + 1 = im.stages.length)
  && (if g.kind = 2 then has 1
      else if g.kind = 3 then (has 2 || bit g.flags 1) && g.index < 16
      else if g.kind = 4 || g.kind = 5 then routed
      else if g.kind = 6 then has 5
      else if g.kind = 7 then has 5 || has 6
      else if g.kind = 8 then (has 5 || has 6 || has 7 || bit g.flags 2) && g.weights != 0
      else if g.kind = 9 || g.kind = 10 then i != 0
      else true)

/-- Check ORDER of the fit check (03 R87, R99): the detail number where it fails. -/
def orderBad (im : Image) : Option Nat :=
  match firstBad im.stages.length (fun i =>
      let g := nth im.stages i {}
      g.tiles = 0 || 40 < g.firstTile + g.tiles || !stageOrdered im i
      || (im.stages.take i).any (fun e => rangesMeet (e.firstTile, e.tiles) (g.firstTile, g.tiles))) with
  | some i => some i
  | none => firstBad im.claims.length (fun i =>
      let c := nth im.claims i {}
      1 ≤ c.resource && c.resource ≤ 3 && !(usedTiles im).contains c.tile)

/-- Check ROLE of the fit check (03 R87, R99; 02 R76): the detail number where it fails. -/
def roleBad (s : State) (im : Image) : Option Nat :=
  let role := rwVal s 0x2001 0x01 3
  if role = 1 && bit im.roleMask 0 then none
  else if role = 2 && bit im.roleMask 1 then firstBad im.stages.length (fun i => let k := (nth im.stages i {}).kind; 3 ≤ k && k ≤ 7)
  else some 0xFFFF

/-- Whether the tensor in an object passes its check: the header of R340 for Peat-W, a size of whole 64 bytes for Peat-A (12 R340, R348). -/
def tensorOk (s : State) (w : WeightRef) (o : TierObj) : Bool :=
  if peatW w.format then peatHeaderOk (readObj o 0 64 s).1 w.format w.size else w.size % 64 = 0

/-- Check WEIGHTS of the fit check (03 R93, R99; 14 R387, R391): the detail number where it fails. (log 66, DEDUCED.) -/
def weightsBad (s : State) (p : Nat) (im : Image) : Option Nat :=
  match firstBad im.stages.length (fun i => let g := nth im.stages i {}; im.weights.length < g.firstW + g.weights) with
  | some i => some i
  | none => firstBad im.weights.length (fun i =>
      let w := nth im.weights i {}
      let fits (id : Nat) : Bool := match tierOf s p id with | some o => o.tier != 1 && w.size ≤ o.size | none => false
      134217728 < w.size || !fits w.objA || !fits w.objB || !(match tierOf s p w.objA with | some o => tensorOk s w o | none => false))

/-- The form of a Carr instruction (09 R274 to R276): its unused fields zero and its vector fields at most 3. -/
def carrWordOk (w : Nat) : Bool :=
  let op := bits w 31 26
  let d := bits w 25 22
  let a := bits w 21 18
  let b := bits w 17 14
  let fn := bits w 13 0
  let imm := bits w 17 0
  let v (x : Nat) : Bool := x < 4
  if 1 ≤ op && op ≤ 0x0B then fn = 0
  else if 0x0C ≤ op && op ≤ 0x0F || 0x18 ≤ op && op ≤ 0x1D || 0x28 ≤ op && op ≤ 0x2D || op = 0x2F then true
  else if 0x10 ≤ op && op ≤ 0x12 then imm < 32
  else if op = 0x13 then true
  else if op = 0x14 then a = 0 && imm < 8
  else if op = 0x15 then b = 0 && (fn = 0 || fn = 1 && v a)
  else if op = 0x1E || op = 0x1F then v d
  else if op = 0x20 then v d && v a && v b && fn < 4
  else if op = 0x21 then v a && fn = 0
  else if op = 0x22 then v d && fn = 0
  else if op = 0x2E then a = 0
  else if op = 0x30 || op = 0x3C then d = 0 && b = 0 && fn = 0
  else if op = 0x31 || op = 0x33 then d = 0 && fn = 0
  else if op = 0x32 || op = 0x39 || op = 0x3F then d = 0 && a = 0 && b = 0 && fn = 0
  else if op = 0x34 then a = 0 && v b && fn = 0
  else if op = 0x38 then 1 ≤ fn && fn ≤ 5 && (fn ≤ 3 || b = 0)
  else if op = 0x3A then v d && fn = 0
  else if op = 0x3B then d = 0 && b = 0 && fn < 2
  else if op = 0x3D then b = 0 && fn = 0
  else if op = 0x3E then (fn = 0 && a = 0 && v b) || (fn = 1 && d = 0 && v a && b = 0)
  else false

/-- The words of a program of some width. -/
def progWordsOf (b : Bytes) (width : Nat) : List Nat := (List.range (b.length / width)).map (fun i => leAt b (width * i) width)

/-- The loop nest around each word of a Sluice program, innermost first, or none where LOOP and ENDL do not match or nest deeper than 4
(13 R367). An ENDL stands inside its loop. -/
def loopNest (i : Nat) (open_ : List Nat) (ws : List Nat) : Option (List (List Nat)) :=
  match ws with
  | [] => if open_.isEmpty then some [] else none
  | w :: r =>
    match sluiceDecode w with
    | .loop _ => if 4 ≤ open_.length then none else (loopNest (i + 1) (i :: open_) r).map (fun l => open_ :: l)
    | .endl => if open_.isEmpty then none else (loopNest (i + 1) (open_.drop 1) r).map (fun l => open_ :: l)
    | _ => (loopNest (i + 1) open_ r).map (fun l => open_ :: l)

/-- Whether a Sluice program passes the loader's checks (13 R366, R367; 15 R418). -/
def sluiceProgOk (b : Bytes) (cells : Nat) : Bool :=
  let ws := progWordsOf b 8
  match loopNest 0 [] ws with
  | none => false
  | some nest => (List.range ws.length).all (fun i =>
      match sluiceDecode (nth ws i 0) with
      | .bad => false
      | .jump t => t < ws.length && nth nest t [] == nth nest i []
      | .wait _ c => c < cells
      | .signal c => c < cells
      | _ => true)

/-- Whether an address that may be a weight binding names a reference and an offset inside it (14 R391). -/
def bindingOk (im : Image) (a : Nat) : Bool :=
  !(bits a 63 60 = 2 && bits a 40 37 = 15)
  || (bits a 36 27 < im.weights.length && bits a 26 0 < (nth im.weights (bits a 36 27) {}).size)

/-- Whether a segment descriptor passes the loader's checks for an instruction that names it (13 R363, R365, R367, R373): the instruction's
opcode, unit and count. (log 67, DEDUCED.) -/
def segmentFits (d : Bytes) (x tile : Bool) (count : Nat) : Bool :=
  let g : Seg := { src := leAt d 0 8, dst := leAt d 8 8, sstr := leAt d 16 4, dstr := leAt d 20 4, tile := tile, count := count, movex := x,
                   fmt := leAt d 40 1, flags := leAt d 41 1, book := [], batch := 0 }
  segFormat d 0 g && segAligned d g

/-- Whether an address lies in a space of 13 R360 with its reserved fields 0. -/
def sluiceAddress (a : Nat) : Bool :=
  match bits a 63 60 with
  | 0 => bits a 59 32 = 0
  | 1 => bits a 59 38 = 0
  | 2 => bits a 59 41 = 0
  | 3 => bits a 59 33 = 0 && bits a 31 26 = 0
  | 4 => bits a 59 56 = 0
  | 5 => bits a 59 56 = 0
  | 6 => bits a 59 56 = 0
  | 7 => bits a 59 56 = 0
  | _ => false

/-- Whether a segment descriptor passes the loader's checks whoever names it: its addresses are Sluice addresses and some MOVE or MOVEX
of few units could name it (13 R363, R365, R367, R373; 12 R337). (log 67, DEDUCED.) -/
def segmentForm (d : Bytes) : Bool :=
  sluiceAddress (leAt d 0 8) && sluiceAddress (leAt d 8 8)
  && [(false, false, 1), (false, true, 1), (true, false, 8), (true, true, 1)].any (fun m => segmentFits d m.1 m.2.1 m.2.2)

/-- Where a descriptor keeps its signal field, by kind (07 R208; 10 R299; 11 R331). -/
def signalAt (kind : Nat) : Nat := if kind = 3 then 4 else 10

/-- Whether a signal field is reserved-free and names a cell of the claim, where enabled (15 R418). -/
def signalFits (cells v : Nat) : Bool := bits v 14 11 = 0 && (!bit v 15 || v % 2048 < cells)

/-- Whether a descriptor sends to a Sedge target, and the byte of its target field: a Mere job to a unit, an OPEN with FORWARD (10 R299; 11
R331). -/
def targetAt_ (kind : Nat) (d : Bytes) : Option Nat :=
  if kind = 3 then (if leAt d 0 1 != 4 && bit (leAt d 1 1) 0 then some 28 else none)
  else if kind = 4 then (if leAt d 0 1 = 1 && bits (leAt d 1 1) 7 6 = 1 then some 12 else none)
  else none

/-- The file's bytes of a program entry. -/
def progBytes (f : Bytes) (g : Prog) : Bytes := slice f g.offset g.length

/-- The 64-byte descriptors of a block. -/
def blockDescs (f : Bytes) (g : Prog) : List Bytes := (List.range (g.length / 64)).map (fun i => slice f (g.offset + 64 * i) 64)

/-- The stages whose program range includes an entry. -/
def stagesOf (im : Image) (i : Nat) : List Stage := im.stages.filter (fun g => g.firstProg ≤ i && i < g.firstProg + g.progs)

/-- The logical tiles that take a descriptor block (03 R94). -/
def blockTiles (im : Image) (i : Nat) : List Nat :=
  (List.range 40).filter (fun t => (stagesOf im i).any (fun g => g.firstTile ≤ t && t < g.firstTile + g.tiles))

/-- The MOVE and MOVEX instructions of a stage's Sluice programs: opcode, unit, count, descriptor address. -/
def stageMoves (f : Bytes) (im : Image) (g : Stage) : List (Bool × Bool × Nat × Nat) :=
  ((im.progs.drop g.firstProg).take g.progs).flatMap (fun e =>
    if e.target = 2 then (progWordsOf (progBytes f e) 8).filterMap (fun w => match sluiceDecode w with
      | .move x t n a => some (x, t, n, a)
      | _ => none)
    else [])

/-- The OPEN descriptors that lie on a logical tile. (log 68, DEDUCED.) -/
def opensOn (f : Bytes) (im : Image) (t : Nat) : List Bytes :=
  (List.range im.progs.length).flatMap (fun i =>
    let g := nth im.progs i {}
    if g.target = 3 && g.kind = 4 && (blockTiles im i).contains t then (blockDescs f g).filter (fun d => leAt d 0 1 = 1) else [])

/-- Whether no chain of a block's passes takes weights from the expander in more than 63 passes (13 R367). -/
def chainsFit (n : Nat) (ds : List Bytes) : Bool :=
  match ds with
  | [] => true
  | d :: r =>
    let p := passOf d
    let n := (if p.init = 2 then n else 0) + b2n p.exp
    n ≤ 63 && chainsFit (if p.last then 0 else n) r

/-- Whether a descriptor of a block passes the loader's checks (03 R94; 07 R209; 10 R302; 11 R330; 13 R367; 14 R391; 15 R418). -/
def descriptorOk (f : Bytes) (im : Image) (i j : Nat) (d : Bytes) : Bool :=
  let g := nth im.progs i {}
  let cells := claimSum im 8
  let toTile : Bool := match targetAt_ g.kind d with
    | none => true
    | some o =>
      let t := bits (leAt d o 4) 31 26
      let opens := opensOn f im t
      (usedTiles im).contains t && (g.kind != 4 || opens.isEmpty || opens.any (fun e => leAt e 8 2 ≤ leAt d 8 2))
  if g.kind = 1 then
    segmentForm d && bindingOk im (leAt d 0 8) && bindingOk im (leAt d 8 8)
    && (stagesOf im i).all (fun st => (stageMoves f im st).all (fun m =>
        m.2.2.2 != g.addr + 64 * j || segmentFits d m.1 m.2.1 m.2.2.1))
  else
    signalFits cells (leAt d (signalAt g.kind) 2) && toTile
    && (if g.kind = 2 then passEncoded d else if g.kind = 3 then jobEncoded d && 1 ≤ leAt d 2 2 && leAt d 2 2 ≤ 256 else sedgeEncoded d)

/-- Whether a program-table entry breaks a rule of its kind (03 R94; 09 R276; 13 R367). -/
def progBad (f : Bytes) (im : Image) (i : Nat) : Bool :=
  let g := nth im.progs i {}
  let b := progBytes f g
  if g.target = 3 then
    g.length = 0 || g.length % 64 != 0 || g.addr % 64 != 0
    || (blockTiles im i).any (fun t => tileClaim im t < g.addr + g.length)
    || (g.kind = 2 && !chainsFit 0 (blockDescs f g))
    || (List.range (g.length / 64)).any (fun j => !descriptorOk f im i j (slice f (g.offset + 64 * j) 64))
  else
    g.kind != 0 || g.addr != 0 || g.length = 0
    || (if g.target = 1 then g.length % 4 != 0 || 16384 < g.length || !(progWordsOf b 4).all carrWordOk
        else g.length % 8 != 0 || !sluiceProgOk b (claimSum im 8))

/-- The Sluice programs of a stage: number in the program table, entry. -/
def sluiceProgs (im : Image) (g : Stage) : List (Nat × Prog) :=
  ((List.range g.progs).map (fun i => (g.firstProg + i, nth im.progs (g.firstProg + i) {}))).filter (fun e => e.2.target = 2)

/-- The Sluice channel claim of a logical tile. -/
def chanClaim (im : Image) (t : Nat) : Nat :=
  (im.claims.filter (fun c => c.resource = 3 && c.tile = t)).foldl (fun a c => a + c.amount) 0

/-- The lowest free run below a limit for each of some numbered sizes, one after another: number, place, size; or the number of the first that
does not fit. -/
def placeRuns (lo hi : Nat) (used : List (Nat × Nat)) (ps : List (Nat × Nat)) : Except Nat (List (Nat × Nat × Nat)) :=
  match ps with
  | [] => .ok []
  | (i, n) :: r =>
    match fitRun (used.length + 1) used lo n 1 hi with
    | none => .error i
    | some a => match placeRuns lo hi ((a, n) :: used) r with
      | .ok l => .ok ((i, a, n) :: l)
      | .error e => .error e

/-- The places, or none where one did not fit. -/
def placed (r : Except Nat (List (Nat × Nat × Nat))) : List (Nat × Nat × Nat) := match r with | .ok l => l | .error _ => []

/-- The first number that did not fit. -/
def unplaced (r : Except Nat (List (Nat × Nat × Nat))) : Option Nat := match r with | .ok _ => none | .error i => some i

/-- The instruction words that resident images hold (09 R292). -/
def usedWords (s : State) : List (Nat × Nat) := (residents s).flatMap (fun r => r.2.1.words.map (·.2))

/-- The Carr programs of an image: number and length in words. -/
def carrProgs (im : Image) : List (Nat × Nat) :=
  (List.range im.progs.length).filterMap (fun i => let g := nth im.progs i {}; if g.target = 1 then some (i, g.length / 4) else none)

/-- Check PROGRAM of the fit check (03 R94, R99; 09 R292; 13 R358): the detail number where it fails. -/
def programsBad (s : State) (f : Bytes) (im : Image) : Option Nat :=
  match firstBad im.stages.length (fun i =>
      let g := nth im.stages i {}
      im.progs.length < g.firstProg + g.progs) with
  | some i => some i
  | none =>
    match firstBad im.progs.length (progBad f im) with
    | some i => some i
    | none =>
      match firstBad im.stages.length (fun i =>
          let g := nth im.stages i {}
          let ps := sluiceProgs im g
          (List.range g.tiles).any (fun t => chanClaim im (g.firstTile + t) < ps.length)
          || 4096 < (ps.map (fun e => e.2.length / 8)).foldl (· + ·) 0) with
      | some i => some i
      | none => unplaced (placeRuns 512 4096 (usedWords s) (carrProgs im))

end Sys2Proof.Machine
end

