-- ==== Sys2Proof/Machine/Power.lean ====
section
/-! DEFINITION. The power cap and the points it guarantees (21 R587 to R593). -/

namespace Sys2Proof.Machine

open Sys2Proof

/-- The CLK_T in MHz that a cap guarantees (21 R588). -/
def guaranteedMhz (cap : Nat) : Nat := if 1938 ≤ cap then 2000 else if 1481 ≤ cap then 1600 else 1200

/-- The worst-case package power in W of a point (21 R587). -/
def pointPower (mhz : Nat) : Nat := if mhz = 2000 then 1928 else if mhz = 1600 then 1471 else 1139

/-- The power cap in W (21 R588). -/
def powerCap (s : State) : Nat := rwVal s 0x2010 0x01 2000

/-- The effective cap: the cap less the thermal reduction (21 R593). -/
def effectiveCap (s : State) : Nat := powerCap s - countVal s 0x2020 0x03 0

/-- The planning cap (21 R589). -/
def planningCap (s : State) : Nat := min (powerCap s) (rwVal s 0x2010 0x02 2000)

/-- Every slot that holds resources and whose point lies above the one guaranteed becomes restricted (21 R590, R592). -/
def restrictSlots (s : State) : State :=
  let g := guaranteedMhz (effectiveCap s)
  s.modSlots (fun m => m.map (fun e => if e.2.state.holds && g < e.2.fg then (e.1, { e.2 with restricted := true }) else e))

/-- What a slot boundary does to a slot's point and slot length (21 R588, R591, R592): a restricted slot whose point is allowed again is
free, one with no accepted query drops to the guaranteed point, and a new slot length takes effect once no query accepted under a
shorter one remains. -/
def boundaryPoint (k : Nat) (s : State) : State :=
  let g := guaranteedMhz (effectiveCap s)
  let mine := s.levee.queries.filter (fun q => 4 * q.part + q.slot = k)
  s.modSlots (fun m => KMap.upd m k {} (fun x =>
    if x.restricted && g < x.fg then (if mine.isEmpty then { x with capWait := some (g, x.tSlot) } else x)
    else
      let x := { x with restricted := false }
      if mine.all (fun q => x.tSlot ≤ q.tSlot) then { x with capWait := none } else x))

/-- The slot length in µs that a slot runs at. -/
def runningSlot (x : Slot) : Nat := match x.capWait with | some (_, t) => t | none => x.tSlot

/-- The CLK_T in MHz that a slot's tiles run at. -/
def runningPoint (x : Slot) : Nat := match x.capWait with | some (f, _) => f | none => x.fg

/-- The bytes of the restricted slots (21 OD 0x2010.08). -/
def restrictedBytes (s : State) : Bytes :=
  toLE 16 ((List.range 128).foldl (fun a k => if (KMap.getD s.slots k {}).restricted then a + 2 ^ k else a) 0)

/-- A write of the cap by an owner class: 0 HOST, 1 SIDE, 2 FABRIC; a write of the cap in force changes nothing
and records nothing (21 R590; 22 R612 code 0x0603). -/
def writeCap (cls v : Nat) (s : State) : Status × State :=
  let old := powerCap s
  let tooFar : Bool := (residents s).any (fun r => guaranteedMhz (v - countVal s 0x2020 0x03 0) < r.2.1.fg)
  if v < old && cls != 1 && tooFar then (.range, s)
  else
    let s := setRw 0x2010 0x01 v s
    let s := if v < old && cls = 1 then
        restrictSlots (if v < rwVal s 0x2010 0x02 2000 then setRw 0x2010 0x02 v s else s)
      else s
    (.ok, settle (if v = old then s else annal 0x0603 1 ownDevice srcDevice (toLE 1 cls ++ toLE 1 0 ++ toLE 2 old ++ toLE 2 v) s))

end Sys2Proof.Machine
end

