-- ==== Sys2Proof/Machine/Load.lean ====
section
/-! DEFINITION. The fit check, the load and the unload of an image (03 R80, R84, R96, R99 to R101; 08 R242, R249, R251; 09 R269, R292; 13
R358; 15 R418, R421; 16 R463; 20 R570). -/

namespace Sys2Proof.Machine

open Sys2Proof

/-- The CLK_T cycles that a stage's slot needs (03 R96; 11 R336). -/
def stageCycles (bq : Nat) (g : Stage) : Nat := g.cWork + g.cRetry + ceilDiv (g.producers * bq) 4 + 128

/-- c_max of an image (03 R96). -/
def maxCycles (im : Image) : Nat := (im.stages.map (stageCycles im.bq)).foldl max 0

/-- The slot length in µs of an image at a CLK_T in MHz (03 R96). -/
def slotLength (im : Image) (fg : Nat) : Nat := ceilDiv (maxCycles im) fg

/-- The stage that sets the slot length. -/
def longestStage (im : Image) : Nat :=
  ((List.range im.stages.length).find? (fun i => stageCycles im.bq (nth im.stages i {}) = maxCycles im)).getD 0xFFFF

/-- The code format of the index a stage names. -/
def stageFmt (s : State) (p : Nat) (g : Stage) : Nat := match liveIndex s p g.index with | some x => x.fmt | none => 1

/-- The stage-store claims of an image: stage and bytes (09 R269). -/
def storeNeeds (s : State) (p tSlot : Nat) (im : Image) : List (Nat × Nat) :=
  (List.range im.stages.length).filterMap (fun i =>
    let g := nth im.stages i {}
    let a := storeArea s (g.kind = 5) (stageFmt s p g) im.bq tSlot
    if g.kind = 4 || g.kind = 5 then some (i, roundUp (a.1 * a.2) 4096) else none)

/-- The allowed-ring claims of an image: stage and bytes (08 R251). -/
def ringNeeds (s : State) (p tSlot : Nat) (im : Image) : List (Nat × Nat) :=
  (List.range im.stages.length).filterMap (fun i =>
    let g := nth im.stages i {}
    let a := ringArea s im i (stageFmt s p g) tSlot
    if g.kind = 4 then some (i, a.1 * a.2) else none)

/-- The resident images but for one slot. -/
def otherResidents (s : State) (k : Nat) : List (Nat × Slot × Image) := (residents s).filter (fun r => r.1 != k)

/-- Where the stage-store claims of an image go (09 R269). -/
def placeStores (s : State) (k tSlot : Nat) (im : Image) : Except Nat (List (Nat × Nat × Nat)) :=
  placeRuns 0 0x100000 ((otherResidents s k).flatMap (fun r => r.2.1.stores.map (·.2))) (storeNeeds s (k / 4) tSlot im)

/-- Where the ring claims of an image go (08 R251). -/
def placeRings (s : State) (k tSlot : Nat) (im : Image) : Except Nat (List (Nat × Nat × Nat)) :=
  placeRuns 0 0x8000 ((otherResidents s k).flatMap (fun r => r.2.1.rings.map (·.2))) (ringNeeds s (k / 4) tSlot im)

/-- Check INDEX of the fit check (03 R99; 06 R195; 08 R251; 09 R269): the stage where it fails. (log 73, DEDUCED.) -/
def indexBad (s : State) (k fg tSlot : Nat) (im : Image) : Option Nat :=
  firstBad im.stages.length (fun i =>
    let g := nth im.stages i {}
    g.index != 0xFFFF && (match liveIndex s (k / 4) g.index with
      | none => true
      | some x => g.kind = 5 && x.sideMode
          && 4 * g.tiles * rwVal s 0x6100 0x01 40 * fg < im.bq * x.sideCap * (if x.fmt = 2 then 4 else 2))
    || unplaced (placeStores s k tSlot im) = some i || unplaced (placeRings s k tSlot im) = some i)

/-- The window id values that an image's stages hold (08 R249). (log 69, DEDUCED.) -/
def windowValues (s : State) (tSlot : Nat) (im : Image) : Nat :=
  (im.stages.filter (fun g => g.kind = 4 || g.kind = 5)).length * (ceilDiv (rwVal s 0x6100 0x01 40) tSlot + 1)

/-- Whether the window values would pass 60 (08 R249). -/
def windowsBad (s : State) (k tSlot : Nat) (im : Image) : Bool :=
  60 < windowValues s tSlot im + ((otherResidents s k).map (fun r => windowValues s r.2.1.tSlot r.2.2)).foldl (· + ·) 0

/-- The sum of one resource over resident images, of a partition or of all. -/
def residentSum (s : State) (k : Nat) (part : Option Nat) (res : Nat) : Nat :=
  ((otherResidents s k).filter (fun r => part.all (fun p => r.1 / 4 = p))).foldl (fun a r => a + claimSum r.2.2 res) 0

/-- The free physical tiles, in ascending order (03 R101): in no slot, and not lost. -/
def freeTiles (s : State) : List Nat :=
  (List.range 40).filter (fun t => (KMap.find s.claims.tileOwner t).isNone && !s.units.lost.contains t)

/-- The first claim of a resource on a logical tile whose claims pass a limit together. -/
def tileOver (im : Image) (res limit : Nat) : Option Nat :=
  firstBad im.claims.length (fun i =>
    let c := nth im.claims i {}
    c.resource = res && limit < (im.claims.filter (fun d => d.resource = res && d.tile = c.tile)).foldl (fun a d => a + d.amount) 0)

/-- The lowest free run of partition cells for an image (15 R418). -/
def placeCells (s : State) (k n : Nat) : Option Nat :=
  let used := ((otherResidents s k).filter (fun r => r.1 / 4 = k / 4 && r.2.1.cellCount != 0)).map (fun r => (r.2.1.cellBase, r.2.1.cellCount))
  if n = 0 then some 0 else fitRun (used.length + 1) used 0 n 1 2048

/-- The lowest free run of the hub SRAM image area (03 R92, R99). -/
def placeHub (s : State) (n : Nat) : Option Nat :=
  let used := (s.claims.regions.filter (fun r => r.space = 2)).map (fun r => (r.base, r.size))
  fitRun (used.length + 1) used 0x3000000 n 4096 0x3800000

/-- Whether some Causeway link is trained (03 R99). -/
def linkTrained (s : State) : Bool := s.fab.ports.any (fun e => e.2.state = 3)

/-- Whether the exchange receive window of a slot lies outside its claim (16 R463). -/
def windowOutside (s : State) (k tSlot : Nat) (im : Image) : Bool :=
  let w := rwVal s (0x7200 + k) 0x02 0
  let size := rwVal s (0x7200 + k) 0x03 0
  let t := w / 2 ^ 26
  let a := ceilDiv (rwVal s 0x7000 0x0A 90) tSlot + 1
  !(usedTiles im).contains t || tileClaim im t < w % 2 ^ 26 + a * size

/-- A check of the fit check that a condition breaks, without a detail. -/
def badIf (c : Bool) : Option Nat := if c then some 0xFFFF else none

/-- The checks of a LOAD in the order of their codes (03 R99): each the detail number where it fails. -/
def fitChecks (s : State) (k : Nat) (f : Bytes) : List (Nat × Option Nat) :=
  let im := parseImage f
  let p := k / 4
  let quota (sub : Nat) : Nat := rwVal s (0x3000 + 0x10 * p) sub 0
  let fg := guaranteedMhz (planningCap s)
  let tSlot := slotLength im fg
  let (_, _, _, x) := imageTerms im
  let carr := claimSum im 4
  [(1, badIf (f.length < 56 || crc32 (blankAt f 52 4) != leAt f 52 4)),
   (2, badIf (leAt f 0 4 != 0x4D495354)),
   (3, if !editionOne im.major im.minor then some 0xFFFF
       else firstBad im.weights.length (fun i => let w := nth im.weights i {}
              leAt f 36 4 + 32 * (i + 1) ≤ f.length && !editionOne w.major w.minor)),
   (4, badIf (!signatureOk s p f im)),
   (5, badIf (im.partition != p)),
   (6, lengthBad f im),
   (7, reservedBad f im),
   (8, badIf (im.stages.isEmpty || 16 < im.stages.length)),
   (9, badIf (im.bq = 0 || 256 < im.bq)),
   (10, orderBad im),
   (11, roleBad s im),
   (12, indexBad s k fg tSlot im),
   (13, weightsBad s p im),
   (14, programsBad s f im),
   (15, badIf (quota 2 < (usedTiles im).length + ((s.claims.tileOwner.filter (fun e => e.2 / 4 = p)).length)
        || (freeTiles s).length < (usedTiles im).length)),
   (16, match tileOver im 1 tileSram with
        | some i => some i
        | none => badIf (1048576 * quota 3 < claimSum im 1 + residentSum s k (some p) 1)),
   (17, badIf (1048576 * quota 4 < partCarr s p + carr || carrAllocatable s < carrCommitted s + carr
        || (carr != 0 && (carrPlace s carr 4096).isNone))),
   (18, match tileOver im 2 1024 with
        | some i => some i
        | none => badIf (quota 5 < claimSum im 2 + residentSum s k (some p) 2)),
   (19, match tileOver im 3 16 with
        | some i => some i
        | none => badIf (quota 6 < claimSum im 3 + residentSum s k (some p) 3)),
   (20, badIf (128 < claimSum im 5 + residentSum s k none 5 || (claimSum im 5 = 0 && im.stages.any (fun g => g.kind = 4))
        || windowsBad s k tSlot im)),
   (21, badIf (placeCells s k (claimSum im 8)).isNone),
   (22, badIf (1264 < claimSum im 7 + residentSum s k none 7)),
   (23, if 1000 < tSlot then some (longestStage im) else none),
   (24, badIf (promiseOf s p < lmaxOf s p tSlot im)),
   (25, badIf (x != 0 && (!linkTrained s || windowOutside s k tSlot im) || bit im.flags 0 && rwVal s 0x7000 0x04 0xFFFFFFFF = 0xFFFFFFFF)),
   (26, badIf (8388608 < claimSum im 6 + residentSum s k none 6 || (claimSum im 6 != 0 && (placeHub s (claimSum im 6)).isNone)))]

/-- The checks of a REVALIDATE: those that the slot length decides (03 R105; 06 R195; 08 R249, R251; 09 R269). -/
def revalidateChecks (s : State) (k : Nat) (im : Image) : List (Nat × Option Nat) :=
  let p := k / 4
  let fg := guaranteedMhz (planningCap s)
  let tSlot := slotLength im fg
  [(12, indexBad s k fg tSlot im), (20, badIf (windowsBad s k tSlot im)), (23, if 1000 < tSlot then some (longestStage im) else none),
   (24, badIf (promiseOf s p < lmaxOf s p tSlot im))]

/-- The first check that fails: its code and detail, or NONE (03 R99). -/
def fitResult (cs : List (Nat × Option Nat)) : Nat × Nat :=
  match cs.find? (fun c => c.2.isSome) with
  | some c => (c.1, c.2.getD 0xFFFF)
  | none => (0, 0xFFFF)

/-- The refusal code and detail of a slot set (03 R99; 02 R624). -/
def setRefusal (p sl : Nat) (r : Nat × Nat) (s : State) : State :=
  setCount (0x4000 + 4 * p + sl) 0x05 r.2 (setCount (0x4000 + 4 * p + sl) 0x04 r.1 s)

/-- A byte string with a little-endian field replaced. -/
def patchLE (b : Bytes) (off n v : Nat) : Bytes := b.take off ++ toLE n v ++ b.drop (off + n)

/-- The logical tiles of an image laid on physical tiles: one byte a logical tile, 0xFF where unused (03 R101). -/
def layTiles (used free : List Nat) : List Nat :=
  (List.range ((used.foldl max 0) + 1)).map (fun l => match (List.range used.length).find? (fun i => nth used i 99 = l) with
    | some i => nth free i 0xFF
    | none => 0xFF)

/-- A descriptor with its cell field and its tile translated (15 R418; 11 R330; 03 R94). -/
def layDescriptor (map : List Nat) (cellBase kind : Nat) (d : Bytes) : Bytes :=
  let d := if kind = 1 then d
    else
      let o := signalAt kind
      let v := leAt d o 2
      if bit v 15 then patchLE d o 2 (v + cellBase) else d
  match targetAt_ kind d with
  | some o =>
    let v := leAt d o 4
    patchLE d o 4 (2 ^ 26 * nth map (v / 2 ^ 26) 0 + v % 2 ^ 26)
  | none => d

/-- A Sluice word with its cell translated (15 R418). -/
def layWord (cellBase w : Nat) : Nat :=
  match sluiceDecode w with
  | .wait _ _ => w + cellBase
  | .signal _ => w + cellBase
  | _ => w

/-- The Sluice programs of a stage placed from word 0 of a tile's program store, program i for channel i (13 R358). -/
def layPrograms (f : Bytes) (cellBase tile : Nat) (ps : List (Nat × Prog)) (at_ i : Nat) (s : State) : State :=
  match ps with
  | [] => s
  | e :: r =>
    let ws := (progWordsOf (progBytes f e.2) 8).map (layWord cellBase)
    let s := s.modMem (fun m => { m with sluice := Memory.writeN m.sluice (0x10000 * tile + 8 * at_) (ws.flatMap (toLE 8)) })
    layPrograms f cellBase tile r (at_ + ws.length) (i + 1) (modChan (16 * tile + i) (fun _ => { base := at_, length := ws.length }) s)

/-- The regions of memory that an image claims (03 R100): SRAM of each tile, Carr DRAM and the hub SRAM image area. -/
def imageRegions (s : State) (k : Nat) (im : Image) (map : List Nat) : List Region :=
  let tiles : List Region := (usedTiles im).filterMap (fun l =>
    if tileClaim im l = 0 then none
    else some { space := 0, unit := nth map l 0, base := 0, size := tileClaim im l, owner := k / 4, use := .image k })
  let one (space n : Nat) (b : Option Nat) : List Region := match b with
    | some b => if n = 0 then [] else [{ space := space, unit := 0, base := b, size := n, owner := k / 4, use := .image k }]
    | none => []
  tiles ++ one 1 (claimSum im 4) (carrPlace s (claimSum im 4) 4096) ++ one 2 (claimSum im 6) (placeHub s (claimSum im 6))

/-- A loaded image written to its tiles, its cores and its channels (03 R94; 09 R292; 13 R358). -/
def writeImage (k : Nat) (s : State) : State :=
  let x := KMap.getD s.slots k {}
  let im := x.image.getD {}
  let f := x.file
  let s := x.words.foldl (fun s w => s.modMem (fun m => { m with imem := Memory.writeN m.imem (4 * w.2.1) (progBytes f (nth im.progs w.1 {})) })) s
  let s := (List.range im.progs.length).foldl (fun s i =>
    let g := nth im.progs i {}
    if g.target = 3 then
      let b := (blockDescs f g).flatMap (layDescriptor x.tileMap x.cellBase g.kind)
      (blockTiles im i).foldl (fun s t => s.modMem (fun m => { m with tile := Memory.writeN m.tile (tileKey (nth x.tileMap t 0) g.addr) b })) s
    else s) s
  let s := im.stages.foldl (fun s g => (List.range g.tiles).foldl (fun s t =>
    layPrograms f x.cellBase (nth x.tileMap (g.firstTile + t) 0) (sluiceProgs im g) 0 0 s) s) s
  (im.stages.filter (fun g => g.kind = 5)).foldl (fun s g => copySides (16 * (k / 4) + g.index) s) s

/-- A LOAD that fits: every resource claimed at once, tagged and filled (03 R100, R101; 20 R570). -/
def claimImage (k : Nat) (s : State) : State :=
  let f := (KMap.getD s.slots k {}).file
  let im := parseImage f
  let fg := guaranteedMhz (planningCap s)
  let tSlot := slotLength im fg
  let map := layTiles (usedTiles im) (freeTiles s)
  let regions := imageRegions s k im map
  let cells := (placeCells s k (claimSum im 8)).getD 0
  let stores := placed (placeStores s k tSlot im)
  let rings := placed (placeRings s k tSlot im)
  let words := placed (placeRuns 512 4096 (usedWords s) (carrProgs im))
  let s := s.modClaims (fun c => { c with
    tileOwner := (map.filter (· != 0xFF)).foldl (fun m t => KMap.put m t k) c.tileOwner, regions := c.regions ++ regions })
  let s := s.modSlots (fun m => KMap.put m k
    { state := .resident, file := f, image := some im, tileMap := map, tSlot := tSlot, fg := fg, cellBase := cells,
      cellCount := claimSum im 8, words := words, stores := stores, rings := rings })
  measure 7 (Config.sha384 f) (writeImage k s)

/-- The LOAD command of a slot in STAGED (03 R99, R105; 02 R624). -/
def slotLoad (p sl : Nat) (s : State) : Status × State :=
  let k := 4 * p + sl
  let r := fitResult (fitChecks s k (slotAt s p sl).file)
  let s := setRefusal p sl r s
  if r.1 = 0 then (.ok, settle (claimImage k s)) else (.range, s)

/-- An array with no work left of an image: its columns and their spares stay (07 R202; 19 R533). -/
def ArrayUnit.rest (a : ArrayUnit) : ArrayUnit :=
  { cols := a.cols, bad := a.bad, search := a.search, swap := a.swap, since := a.since, broken := a.broken }

/-- A tile's units after its image has gone: channels, arrays, Sedge units and engines at rest, their queues empty. -/
def clearTile (t : Nat) (s : State) : State :=
  let s := (List.range 16).foldl (fun s c => dropPark (16 * t + c) s) s
  s.modUnits (fun u => { u with
    chans := KMap.delRange u.chans (16 * t) (16 * t + 16),
    arrays := u.arrays.map (fun e => if e.1 / 2 = t then (e.1, e.2.rest) else e),
    sedges := KMap.delRange u.sedges (2 * t) (2 * t + 2),
    engines := u.engines.map (fun e => if e.1 / 4 = t then (e.1, { e.2 with queue := [], job := none }) else e) })

/-- The stage-store and ring areas of a slot zeroed in every core (03 R84; 08 R251; 09 R269). -/
def zeroAreas (x : Slot) (s : State) : State :=
  let hit (areas : List (Nat × Nat × Nat)) (o : Nat) : Bool := areas.any (fun a => a.2.1 ≤ o && o < a.2.1 + a.2.2)
  let st (k : Nat) : Bool := hit x.stores (k % 0x100000)
  let rg (k : Nat) : Bool := hit x.rings (k % 0x10000)
  (s.modMem (fun m => { m with stage := m.stage.filter (fun e => !st e.1), scratch := m.scratch.filter (fun e => !rg e.1) })).modCarr
    (fun c => { c with stageBad := c.stageBad.filter (fun w => !st (4 * w)), scratchBad := c.scratchBad.filter (fun w => !rg (4 * w)) })

/-- The resources of an image released and zeroed (03 R84; 09 R292; 13 R358): its TILE objects destroyed (14 R387), its regions, its cells
left with their counts (15 R421), its tiles, instruction words, program stores, stage store and ring. -/
def releaseImage (k : Nat) (s : State) : State :=
  let x := KMap.getD s.slots k {}
  let tiles := x.tileMap.filter (· != 0xFF)
  let ids := (s.data.tiers.objs.filter (fun e => e.2.tier = 1 && e.1 / 65536 = k / 4 && bits e.2.place 15 8 = k % 4)).map (·.1)
  let s := ids.foldl (fun s i => dropObject i s) s
  let s := releaseRegions (.image k) s
  let s := tiles.foldl (fun s t => clearTile t s) s
  let s := zeroAreas x s
  let s := s.modMem (fun m => { m with
    sluice := tiles.foldl (fun a t => Memory.zero a (0x10000 * t) 0x8000) m.sluice,
    imem := x.words.foldl (fun a w => Memory.zero a (4 * w.2.1) (4 * w.2.2)) m.imem })
  let s := s.modClaims (fun c => { c with tileOwner := c.tileOwner.filter (fun e => e.2 != k) })
  s.modUnits (fun u => { u with erred := u.erred.filter (fun e => e / 16 != k) })

end Sys2Proof.Machine
end

