-- ==== Sys2Proof/Machine/Slots.lean ====
section
/-! DEFINITION. The slot commands, the activations and swaps, and the slot boundary (03 R86, R97, R98, R104 to R110; 13 R359; 19 R539,
R540; 21 R591). -/

namespace Sys2Proof.Machine

open Sys2Proof

/-- The object of a slot. -/
def slotObj (p sl : Nat) : Nat := 0x4000 + 4 * p + sl

/-- The waiting batches of a slot closed (03 R86). -/
def closeBatches (x : Slot) : Slot :=
  { x with batches := x.batches.map (fun b => if b.at_ = .waiting then { b with closed := true } else b) }

/-- Why an activation of a slot is refused, 0 for none (03 R106; 22 R627). -/
def activationBar (s : State) (p sl : Nat) : Nat :=
  let svc := rwVal s (slotObj p sl) 0x07 0
  let rep := rwVal s (slotObj p sl) 0x08 0xFF
  let serves (o : Nat) : Bool := (slotAt s p o).state = .active && (slotAt s p o).service = svc
  if rep = 0xFF then (if (List.range 4).any serves then 1 else 0)
  else if rep < 4 && rep != sl && serves rep then 0 else 2

/-- A slot made ACTIVE, and the slot it replaces retired, at one instant (03 R86, R106). -/
def makeActive (p sl : Nat) (atOnce : Bool) (s : State) : State :=
  let now := s.clock.now
  let svc := rwVal s (slotObj p sl) 0x07 0
  let rep := rwVal s (slotObj p sl) 0x08 0xFF
  let s := modSlot p sl (fun x => { closeBatches x with state := .active, service := svc, activeAt := now }) s
  if rep = 0xFF then s
  else
    let s := modSlot p rep (fun x => { closeBatches x with state := if atOnce then .resident else .retiring, retiredAt := now }) s
    retireDone p rep s

/-- The device chain entry of a slot placed at an instant; refused with RANGE where it has passed under LATE_REFUSE (03 R105; 17 R471, R494,
R497). -/
def placeSlotEntry (n action p sl v : Nat) (s : State) : Option State :=
  let t := instantTick s v
  let pol := slotPolicy s n
  if pol = 2 && tickPassed s t then none else some (placeShot n action (256 * p + sl) t p pol s)

/-- ACTIVATE of a RESIDENT slot (03 R105, R106). -/
def slotActivate (p sl : Nat) (s : State) : Status × State :=
  if s.dev.state = .config then
    if activationBar s p sl = 0 then (.ok, setRefusal p sl (0, 0xFFFF) (makeActive p sl true s)) else (.state, s)
  else match placeSlotEntry (activateNo p sl) 0x02 p sl (rwVal s (slotObj p sl) 0x06 0) s with
    | none => (.range, s)
    | some s => (.ok, setRefusal p sl (0, 0xFFFF) (modSlot p sl (fun x => { x with state := .pending }) s))

/-- RETIRE of an ACTIVE or PENDING slot (03 R105). -/
def slotRetire (p sl : Nat) (s : State) : Status × State :=
  if (slotAt s p sl).state = .pending then
    (.ok, setRefusal p sl (0, 0xFFFF) (modSlot p sl (fun x => { x with state := .resident }) (cancelEntry (activateNo p sl) s)))
  else (.ok, setRefusal p sl (0, 0xFFFF) (retireDone p sl (modSlot p sl (fun x => { x with state := .retiring, retiredAt := 0 }) s)))

/-- UNLOAD of a RESIDENT or STAGED slot (03 R84, R105). -/
def slotUnload (p sl : Nat) (s : State) : Status × State :=
  let s := if (slotAt s p sl).state = .resident then releaseImage (4 * p + sl) s else s
  (.ok, settle (setCount (slotObj p sl) 0x24 0 (setRefusal p sl (0, 0xFFFF) (s.modSlots (fun m => KMap.del m (4 * p + sl))))))

/-- SWAP of an ACTIVE slot (03 R105, R109). -/
def slotSwap (p sl : Nat) (s : State) : Status × State :=
  if (slotAt s p sl).prevLocked || (entryAt s (swapNo p sl)).isSome then (.state, s)
  else match placeSlotEntry (swapNo p sl) 0x03 p sl (rwVal s (slotObj p sl) 0x09 0) s with
    | none => (.range, s)
    | some s => (.ok, setRefusal p sl (0, 0xFFFF) s)

/-- REVALIDATE of a RESIDENT or ACTIVE slot: the slot length under the planning cap, in force for queries accepted from now on; the slot runs
as before until a boundary of 21 R591 (03 R105, R107; 21 R589). -/
def slotRevalidate (p sl : Nat) (s : State) : Status × State :=
  let k := 4 * p + sl
  let im := (slotAt s p sl).image.getD {}
  let r := fitResult (revalidateChecks s k im)
  let s := setRefusal p sl r s
  if r.1 != 0 then (.range, s)
  else
    let fg := guaranteedMhz (planningCap s)
    let tSlot := slotLength im fg
    let stores := placed (placeStores s k tSlot im)
    let rings := placed (placeRings s k tSlot im)
    (.ok, modSlot p sl (fun x => { x with fg := fg, tSlot := tSlot, stores := stores, rings := rings,
                                          capWait := some (runningPoint x, runningSlot x) }) s)

/-- Whether a slot command may be given in a device state (03 R105). -/
def slotCommandOpen (st : DevState) (code : Nat) : Bool :=
  st = .config || st = .serving || ((code = 3 || code = 4) && (st = .draining || st = .recovery))

/-- Whether a slot command may be given in a slot state (03 R105). -/
def slotCommandFrom (st : SlotState) (code : Nat) : Bool :=
  if code = 1 then st = .staged
  else if code = 2 then st = .resident
  else if code = 3 then st = .active || st = .pending
  else if code = 4 then st = .resident || st = .staged
  else if code = 5 then st = .active
  else st = .resident || st = .active

/-- A write of the slot command (03 R78, R105; 02 R624). -/
def slotCommand (p sl code : Nat) (s : State) : Status × State :=
  if code = 0 || 6 < code then (.reserved, s)
  else if !partEnabled s p || !slotCommandOpen s.dev.state code || !slotCommandFrom (slotAt s p sl).state code then (.state, s)
  else if code = 1 then slotLoad p sl s
  else if code = 2 then slotActivate p sl s
  else if code = 3 then slotRetire p sl s
  else if code = 4 then slotUnload p sl s
  else if code = 5 then slotSwap p sl s
  else slotRevalidate p sl s

/-- An image file written to a slot (03 R105). -/
def slotFile (p sl : Nat) (f : Bytes) (s : State) : Status × State :=
  if (slotAt s p sl).state = .empty || (slotAt s p sl).state = .staged then
    (.ok, modSlot p sl (fun x => { x with state := .staged, file := f }) s)
  else (.state, s)

/-- An ACTIVATE entry fires (03 R106, R110). -/
def execActivateFiring (part slot : Nat) (s : State) : Host.Outcome State Fault Refusal :=
  match firingOf s (activateNo part slot) with
  | none => .next s
  | some f =>
    let s := actedFiring (activateNo part slot) s
    if (slotAt s part slot).state != .pending then .next s
    else
      let r := activationBar s part slot
      if r != 0 then .next (slotAction part slot 0x02 2 r (modSlot part slot (fun x => { x with state := .resident }) s))
      else .next (slotAction part slot 0x02 (b2n f.late) 0 (makeActive part slot false s))

/-- Why the swap of a slot does not take place, 0 for none (03 R109; 22 R627). (log 70, DEDUCED.) -/
def swapBar (s : State) (p : Nat) (x : Slot) : Nat :=
  let inc := 1 - x.buffer
  let im := x.image.getD {}
  let ready (w : WeightRef) : Bool := match tierOf s p (weightObj w inc) with | some o => w.size ≤ o.size && !o.writing | none => false
  if !im.weights.all ready then 3
  else if !im.weights.all (fun w => match tierOf s p (weightObj w inc) with | some o => tensorOk s w o | none => false) then 4
  else 0

/-- A SWAP entry fires (03 R86, R108 to R110; 17 R492). -/
def execSwapFiring (part slot : Nat) (s : State) : Host.Outcome State Fault Refusal :=
  match firingOf s (swapNo part slot) with
  | none => .next s
  | some f =>
    let s := actedFiring (swapNo part slot) s
    let x := slotAt s part slot
    if x.state != .active then .next (slotAction part slot 0x03 3 7 s)
    else
      let r := swapBar s part x
      if r != 0 then .next (slotAction part slot 0x03 2 r s)
      else
        let now := s.clock.now
        let ids := (s.levee.queries.filter (fun q => q.part = part && q.slot = slot && q.buffer = x.buffer)).map (·.id)
        .next (slotAction part slot 0x03 (b2n f.late) 0 (modSlot part slot (fun x =>
          { closeBatches x with buffer := 1 - x.buffer, locked := ids, prevLocked := !ids.isEmpty, swapAt := now }) s))

/-- What an ACTIVATE or SWAP entry that ends unfired leaves (03 R110; 22 R627): late policy 1 SKIP, 2 REFUSE. -/
def slotUnfired (e : Entry) (s : State) : State :=
  let p := e.target / 256
  let sl := e.target % 4
  let s := if e.action = 2 && (slotAt s p sl).state = .pending then modSlot p sl (fun x => { x with state := .resident }) s else s
  slotAction p sl e.action 2 (if e.policy = 1 then 5 else 6) s

/-- The physical tiles of a stage. -/
def stageTiles (x : Slot) (g : Stage) : List Nat := (List.range g.tiles).map (fun t => nth x.tileMap (g.firstTile + t) 0xFF)

/-- Whether a channel keeps its stage from finishing: it runs or waits, or it halted with a code that loses no work in flight (13 R359,
R375 to R378). A halt with BUS, FAILED or REPLAY is lost work and no overrun (19 R537). -/
def chanOpen (c : Chan) : Bool := c.state = 1 || c.state = 2 || (c.state = 3 && c.error != 3 && c.error != 4 && c.error != 9)

/-- Whether some unit of a stage has work left at the boundary (03 R98; 07 R229; 13 R359). -/
def stageBusy (s : State) (x : Slot) (g : Stage) : Bool :=
  (stageTiles x g).any (fun t =>
    (List.range 16).any (fun c => chanOpen (chanAt s (16 * t + c)))
    || (List.range 2).any (fun a => let u := arrayAt s (2 * t + a); !u.queue.isEmpty || !u.chain.isEmpty)
    || (List.range 4).any (fun m => let e := engineAt s (4 * t + m); !e.queue.isEmpty || e.job.isSome)
    || (List.range 2).any (fun a => let u := sedgeAt s (2 * t + a); !u.queue.isEmpty || u.batch.isSome))

/-- The units of a tile cut: queues, chains, jobs, lists and channels dropped (03 R98; 07 R229; 13 R359). (log 72, DESIGN CHOICE.) -/
def cutTile (t : Nat) (s : State) : State :=
  let s := (List.range 16).foldl (fun s c => cutChan (16 * t + c) s) s
  let s := (List.range 2).foldl (fun s a => cutSedge (2 * t + a) (cutArray (2 * t + a) s)) s
  (List.range 4).foldl (fun s m => cutEngine (4 * t + m) s) s

/-- The completion of the queries of a cut batch (03 R98; 05 R157 code 0x0B). -/
def cutQueries (ids : List Nat) (s : State) : State :=
  ids.foldl (fun s i => match s.levee.queries.find? (fun q => q.id = i) with
    | some q => composeQuery q 3 0x0B 0 0 [] s
    | none => s) s

/-- A stage that has not finished is cut with its batch (03 R98; 15 R424). -/
def cutStage (p sl : Nat) (b : Batch) (i : Nat) (s : State) : State :=
  let x := slotAt s p sl
  let g := nth (x.image.getD {}).stages i {}
  let s := (stageTiles x g).foldl (fun s t => cutTile t s) s
  let s := cutQueries b.queries (bump (slotObj p sl) 0x10 1 (cutReset p sl s))
  modSlot p sl (fun x => { x with batches := x.batches.filter (fun c => c.id != b.id) }) s

/-- A slot with a lost tile halts (19 R539, R540): its queues dropped, its channels disabled, its cells undefined, its queries completed. -/
def haltSlot (p sl : Nat) (s : State) : State :=
  let x := slotAt s p sl
  let s := (x.tileMap.filter (· != 0xFF)).foldl (fun s t =>
    let s := cutTile t s
    (List.range 16).foldl (fun s c => disableChan (16 * t + c) s) s) s
  let s := (List.range x.cellCount).foldl (fun s i =>
    let v := freeVal s 32
    drawn (modCell (cellNo p (x.cellBase + i)) (fun c => { c with count := v % 65536, ovf := bit v 16, parks := [] }) s)) s
  let s := setCount (slotObj p sl) 0x24 1 (slotAction p sl 0x10 0 8 s)
  let s := modSlot p sl (fun x => { x with halted := true, batches := [] }) s
  (s.levee.queries.filter (fun q => q.part = p && q.slot = sl)).foldl (fun s q => faultCompletion q s) s

/-- Whether what a batch waits for after a stage has ended: its window, its flash round, its exchange round (03, The spatial pipeline). -/
def waitEnded (s : State) (k i : Nat) (b : Batch) : Bool :=
  !s.carr.windows.any (fun w => w.slot = k && w.stage = i && w.batch = b.id)
  && !s.mire.rounds.any (fun r => r.slot = k && r.stage = i)
  && !s.fab.rounds.any (isRound k i (b.id % 2 ^ 32))

/-- Whether a window, flash round or exchange round lies after a stage (03 R89). -/
def stageWaits (g : Stage) : Bool := g.kind = 4 || g.kind = 5 || (g.kind = 7 && g.flash != 0) || g.exchange != 0

/-- The batches of a slot handed on at a boundary (03, The spatial pipeline): each stage takes the batch of the stage before it, or the oldest
whose wait after that stage has ended; the first stage takes the oldest waiting batch. -/
def advance (s : State) (k : Nat) (im : Image) (bs : List Batch) : List Batch :=
  let ready (i : Nat) : Option Nat := (bs.find? (fun b => b.at_ = .after i && waitEnded s k i b)).map (·.id)
  let first : Option Nat := (bs.find? (fun b => b.at_ = .waiting)).map (·.id)
  bs.map (fun b => match b.at_ with
    | .waiting => if first = some b.id then { b with at_ := .inStage 0 } else b
    | .inStage i =>
      { b with at_ := if i + 1 = im.stages.length then .out else if stageWaits (nth im.stages i {}) then .after i else .inStage (i + 1) }
    | .after i => if ready i = some b.id then { b with at_ := .inStage (i + 1) } else b
    | .out => b)

/-- The exchange rounds that open at the end of a stage (16 R466). -/
def openRounds (k : Nat) (im : Image) (bs : List Batch) (s : State) : State :=
  bs.foldl (fun s b => match b.at_ with
    | .inStage i =>
      let g := nth im.stages i {}
      if g.exchange != 0 && i + 1 != im.stages.length then openRound k i (b.id % 2 ^ 32) (g.kind = 1) s else s
    | _ => s) s

/-- The tiles of a slot at the start of a slot: the arrays' delivery counts restart, what waits for a boundary takes effect, and retired units
switch; a Vigil visit whose switch-in is over ends (07 R202; 13 R382; 19 R535, R548). -/
def tileBoundary (t : Nat) (s : State) : State :=
  let s := (List.range 2).foldl (fun s a =>
    arrayBoundary (2 * t + a) (modArray (2 * t + a) (fun u => { u with sent := 0, fed := 0, start := 0, log := [], replay := none }) s)) s
  let s := (List.range 4).foldl (fun s m => modEngine (4 * t + m) (fun e => { e with inSlot := 0 }) s) s
  let s := mereBoundary t s
  match KMap.find s.vigil.visits t with
  | some v =>
    if v.step = 4 && (arrayAt s (2 * t)).swap.isEmpty && (arrayAt s (2 * t + 1)).swap.isEmpty && (mereAt s t).swap.isEmpty then
      visitDone v.entry (s.modVigil (fun g => { g with visits := KMap.del g.visits t }))
    else s
  | none => s

/-- The channels of a stage that takes a batch are started at word 0 (13 R359). -/
def startStage (x : Slot) (g : Stage) (im : Image) (s : State) : State :=
  let n := (sluiceProgs im g).length
  (stageTiles x g).foldl (fun s t => (List.range n).foldl (fun s c =>
    let ch := 16 * t + c
    startChan ch (if (chanAt s ch).state = 3 then cutChan ch s else s)) s) s

/-- The slot time charged for the stages that ended a slot holding a batch (22 R599). -/
def chargeSlots (p : Nat) (x : Slot) (im : Image) (s : State) : State :=
  x.batches.foldl (fun s b => match b.at_ with
    | .inStage i => charge p 0x0C (runningSlot x * (nth im.stages i {}).tiles) s
    | _ => s) s

/-- The first part of a slot boundary: the slot's point and length, the slot time, and the stages cut (03 R98; 21 R591; 22 R599). (log 71, DEDUCED.) -/
def endSlot (p sl : Nat) (im : Image) (unfinished : List Nat) (s : State) : State :=
  let s := chargeSlots p (slotAt s p sl) im s
  (slotAt s p sl).batches.foldl (fun s b => match b.at_ with
    | .inStage i =>
      if unfinished.contains i || stageBusy s (slotAt s p sl) (nth im.stages i {}) then cutStage p sl b i s else s
    | _ => s) (boundaryPoint (4 * p + sl) s)

/-- The second part of a slot boundary: batches handed on and the next slot begun (03 R86; 13 R359; 14 R404; 19 R535; 22 R604). -/
def beginSlot (p sl : Nat) (im : Image) (s : State) : State :=
  let k := 4 * p + sl
  let before := (closeBatches (slotAt s p sl)).batches
  let after := advance s k im before
  let s := openRounds k im before (modSlot p sl (fun x => { x with batches := after }) s)
  let x := slotAt s p sl
  let entering := match after.find? (fun b => b.at_ = .inStage 0) with | some b => b.queries.length | none => 0
  let s := trace 0x03 p srcDevice (toLE 1 sl ++ toLE 2 entering ++ toLE 5 0 ++ toLE 4 (runningSlot x)) s
  let s := (x.tileMap.filter (· != 0xFF)).foldl (fun s t => tileBoundary t s) s
  let s := freeRetired p sl (s.modUnits (fun u => { u with erred := u.erred.filter (fun e => e / 16 != k) }))
  after.foldl (fun s b => match b.at_ with
    | .inStage i => startStage x (nth im.stages i {}) im s
    | _ => s) s

/-- A slot boundary of an image; `unfinished` names stages whose work outside the modelled units has not ended (03 R86, R98). -/
def execSlotBoundary (part slot : Nat) (unfinished : List Nat) (s : State) : Host.Outcome State Fault Refusal :=
  let x := slotAt s part slot
  match x.image with
  | none => .next s
  | some im =>
    if !x.state.holds || x.halted then .next s
    else if x.tileMap.any (fun t => s.units.lost.contains t) then .next (settle (haltSlot part slot s))
    else .next (settle (beginSlot part slot im (endSlot part slot im unfinished s)))

end Sys2Proof.Machine
end

