-- ==== Sys2Proof/Machine/AlmanacRun.lean ====
section
/-! DEFINITION. The Almanac at work: the entries due in a tick, their late policies, the end of a firing, and the host's commands (17 R486
to R497, R552). -/

namespace Sys2Proof.Machine

open Sys2Proof

/-- Whether an entry is due in tick t: placed, not held, with no firing in flight (17 R489, R491, R493). -/
def Entry.due (e : Entry) (t : Nat) : Bool := !e.held && !e.flight && decide (e.fire ≤ t)

/-- Whether entry (n, e) fires before entry (m, f) in a tick: passed entries first by fire tick, then by action code and number, a HANDOVER
after every other (17 R492). -/
def firesBefore (x y : Nat × Entry) : Bool :=
  let hx := x.2.action = 7
  let hy := y.2.action = 7
  if hx != hy then !hx
  else if x.2.fire != y.2.fire then x.2.fire < y.2.fire
  else if x.2.action != y.2.action then x.2.action < y.2.action
  else x.1 < y.1

/-- An entry put in the order of firing. -/
def insertDue (x : Nat × Entry) (l : List (Nat × Entry)) : List (Nat × Entry) :=
  match l with
  | [] => [x]
  | y :: r => if firesBefore x y then x :: l else y :: insertDue x r

/-- How an entry due in tick t fires: as due, LATE with the periods passed over, or not at all (17 R479, R492, R494). -/
inductive Due where
  | fires (late : Bool) (missed : Nat)
  | skipped (missed : Nat)
  | refused (missed : Nat)
deriving DecidableEq, Repr

/-- How an entry due in tick t fires. (log 74, DESIGN CHOICE.) -/
def dueOf (unset : Bool) (t : Nat) (e : Entry) : Due :=
  let passed := if e.period = 0 then 0 else min 0xFFFF (gridCount e (t - 1))
  if e.deferred then (match e.owed with | some m => .fires true m | none => .fires false 0)
  else if e.fire = t then .fires false 0
  else if unset then .fires false 0
  else if e.policy = 0 then .fires true passed
  else if e.policy = 1 then .skipped passed
  else .refused passed

/-- An ALMANAC_SKIP record, with its count (17 R494; 22 R612). -/
def skipRecord (n : Nat) (e : Entry) (missed : Nat) (s : State) : State :=
  annal 0x0205 1 e.owner (srcHub ((primaryHub s).getD 0)) (toLE 2 n ++ toLE 1 e.action ++ toLE 1 e.policy ++ toLE 2 missed)
    (bump 0x9011 (if e.policy = 1 then 5 else 6) 1 s)

/-- The late policies applied before the entries of a tick fire: those skipped move to their grid or end, those refused end (17 R494). -/
def passLate (unset : Bool) (t n : Nat) (e : Entry) (s : State) : State :=
  match dueOf unset t e with
  | .fires _ _ => s
  | .skipped m =>
    let s := skipRecord n e m s
    if e.period = 0 then endEntry n true (if e.action = 2 || e.action = 3 then slotUnfired e s else s)
    else putEntry n { e with fire := nextOnGrid e (t - 1), missed := m } s
  | .refused m =>
    let s := skipRecord n e m s
    endEntry n false (if e.action = 2 || e.action = 3 then slotUnfired e s else s)

/-- The unit that a Vigil chain visits: firing n visits unit n mod u (19 R547; firings counted from 0, log 43). -/
def vigilUnit (n firings : Nat) : Nat :=
  if n = 2 then firings % 20 else if n = 3 then 20 + firings % 20 else if n = 4 then firings % 8 else firings % 64

/-- Whether Vigil runs (19 R552, R553). -/
def vigilRuns (s : State) : Bool := rwVal s 0xA000 0x01 1 = 1 && (s.dev.state = .config || s.dev.state = .serving) && rwVal s 0x2001 0x01 3 != 4

/-- The end of a firing: what waited on it takes effect, a chain goes on, anything else ends (17 R493, R496). -/
def endFiring (n : Nat) (s : State) : State :=
  let s := s.modAlm (fun a => { a with flight := a.flight.filter (fun f => f.entry != n) })
  match entryAt s n with
  | none => s
  | some e =>
    let e := { e with flight := false }
    match KMap.find s.alm.waiting n with
    | some .cancel => dropEntry n s
    | some (.redirect new) => putEntry n (redirected e new) (s.modAlm (fun a => { a with waiting := KMap.del a.waiting n }))
    | none =>
      if e.period != 0 && e.count != 1 then putEntry n { e with count := e.count - 1 } s
      else endEntry n true s

/-- The number of step boundaries that a STEP firing stands for (17 R487). -/
def boundaries (e : Entry) (t : Nat) : Nat := gridCount e t

/-- The first condition that bars the admission of a node, 0 where none does (19 R554). -/
def admitBar (s : State) : Nat :=
  let role := rwVal s 0x2001 0x01 3
  if s.dev.state != .config || !(role = 1 || role = 2) || !(s.slots.any (fun e => e.2.state = .active)) || lifeCycle s = 0 then 1
  else if s.clock.state != .locked then 2
  else if !(s.data.tables.all (fun e => !e.2.ready || tableCurrent s e.1 e.2)) then 3
  else if countVal s 0xA002 0x01 0 != 0 then 4
  else 0

/-- A scheduled admission judged at the STEP firing of tick t (19 R554). -/
def admitNode (t : Nat) (s : State) : State :=
  match s.dev.serveAt with
  | some a =>
    if a ≤ t then
      let r := admitBar s
      let s := setCount 0xA030 0x02 r (s.modDev (fun d => { d with serveAt := none }))
      if r = 0 then setDevState .serving 0 s else s
    else s
  | none => s

/-- An entry fires in tick t (17 R487, R489 to R493; 19 R547, R552; 15 R415; 22 R604). STEP and SIGNAL act at once and end; the others are in
flight until their target reports. -/
def fireEntry (unset : Bool) (t n : Nat) (s : State) : State :=
  match entryAt s n with
  | none => s
  | some e =>
    let (late, missed) := match dueOf unset t e with
      | .fires l m => (l, m)
      | _ => (false, 0)
    let instant := 1024 * t
    let unit := if e.action = 6 then vigilUnit n e.firings else e.target
    let e1 := { e with carried := e.deferred, deferred := false, owed := none, late := late, missed := missed, firings := e.firings + 1, flight := true,
                       fire := if e.period = 0 then e.fire else nextOnGrid e t }
    let s := traceFiring n e1 late instant (putEntry n e1 s)
    let s := bump 0x9011 3 1 s
    let s := if late then bump 0x9011 4 1 s else s
    let s := if e.deferred then bump 0x9011 7 1 s else s
    if e.action = 1 then endFiring n (admitNode t (bump 0x9000 0x11 (boundaries e t) s))
    else if e.action = 8 then endFiring n (issueCell (cellNo e.owner (e.target % 2048)) (.signal 1) s)
    else if e.action = 6 && !vigilRuns s then endFiring n (bump 0xA000 0x06 1 s)
    else s.modAlm (fun a => { a with flight := a.flight ++ [⟨n, e.action, e.owner, unit, instant, late, false⟩] })

/-- An entry carried to the next tick, late there if it is late here (17 R492, R494). -/
def carryEntry (unset : Bool) (t n : Nat) (s : State) : State :=
  match entryAt s n with
  | some x => putEntry n { x with deferred := true, owed := match dueOf unset t x with | .fires true m => some m | _ => none } s
  | none => s

/-- The next tick is fired: up to 64 due entries in order, the rest carried (17 R479, R491, R492, R494). It waits for its instant and for a
hub that decides. -/
def execAlmanacTick (s : State) : Host.Outcome State Fault Refusal :=
  let t := s.alm.lastTick + 1
  if !mainOn s || (decidingHub s).isNone || s.clock.state = .unset || s.clock.ft < 1024 * t then .next s
  else
    let unset := s.clock.unsetStep
    let s := (s.alm.entries.filter (fun e => e.2.due t)).foldl (fun s e => passLate unset t e.1 e.2 s) s
    let due := (s.alm.entries.filter (fun e => e.2.due t)).foldr insertDue []
    let s := (due.take 64).foldl (fun s e => fireEntry unset t e.1 s) s
    let s := (due.drop 64).foldl (fun s e => carryEntry unset t e.1 s) s
    .next (settle ((s.modAlm (fun a => { a with lastTick := t })).modClock (fun c => { c with unsetStep := false })))

/-- The target's report ends a firing in flight that has acted (17 R493). -/
def execFiringReport (entry : Nat) (s : State) : Host.Outcome State Fault Refusal :=
  if s.alm.flight.any (fun f => f.entry = entry && f.acted) then .next (endFiring entry s) else .next s

/-- An entry read from its 32 bytes (17 R489): the read-only fields as zero. -/
def parseEntry (b : Bytes) : Entry :=
  let f := leAt b 17 1
  { fire := leAt b 0 8, period := leAt b 8 4, count := leAt b 12 4, action := leAt b 16 1, policy := f % 4, held := bit f 5,
    owner := leAt b 18 1, target := leAt b 20 4, link := leAt b 24 2 }

/-- The 32 bytes of an entry (17 R489). -/
def entryBytes (e : Entry) : Bytes :=
  toLE 8 e.fire ++ toLE 4 e.period ++ toLE 4 e.count ++ toLE 1 e.action
  ++ toLE 1 (e.policy + 4 * b2n e.late + 8 * b2n e.carried + 16 * b2n e.flight + 32 * b2n e.held) ++ toLE 1 e.owner ++ toLE 1 0
  ++ toLE 4 e.target ++ toLE 2 e.link ++ toLE 2 e.missed ++ toLE 4 (min e.firings 0xFFFFFFFF)

/-- The entry table (17 OD 0x9011.01): an entry not placed reads as zeros but for the policy of a slot entry. -/
def entryTable (s : State) : Bytes :=
  (List.range 4096).flatMap (fun n => match entryAt s n with
    | some e => entryBytes e
    | none => toLE 17 0 ++ toLE 1 (slotPolicy s n) ++ toLE 14 0)

/-- The SIGNAL entries placed for a partition (17 R488). -/
def signalEntries (s : State) (p : Nat) : Nat := (s.alm.entries.filter (fun e => 2832 ≤ e.1 && e.2.owner = p)).length

/-- The lowest free number of the free pool (17 R495). -/
def freeEntry (s : State) : Option Nat := ((List.range 1264).map (· + 2832)).find? (fun n => (entryAt s n).isNone)

/-- The free entries not placed (17 OD 0x9011.02). -/
def freeEntries (s : State) : Nat := 1264 - (s.alm.entries.filter (fun e => 2832 ≤ e.1)).length

/-- The staged entry's own faults: an action other than SIGNAL, a reserved encoding, or owner 0x20 (17 R497 ACTION); a cell above 2,047 or a
link of another pool (TARGET). -/
def stagedCode (b : Bytes) (place : Bool) : Nat :=
  let e := parseEntry b
  if e.policy = 3 || bits (leAt b 17 1) 7 6 != 0 || leAt b 19 1 != 0 || (place && (e.action != 8 || 31 < e.owner)) then 2
  else if 2047 < e.target || (e.link != 0xFFFF && (e.link < 2832 || 4095 < e.link)) then 6
  else 0

/-- The result of an entry command: its code, the entry number, and the state after it where it is done (17 R495 to R497). -/
def entryResult (code n : Nat) (s : State) : State := setCount 0x9010 0x05 n (setCount 0x9010 0x04 code s)

/-- The response status of a result code (17 R497). -/
def entryStatus (code : Nat) : Status := if code = 0 then .ok else if code = 3 || code = 5 then .state else .range

/-- The staged entry of OD 0x9010.03. -/
def stagedEntry (s : State) : Bytes :=
  slice ((KMap.find s.dict.stagedDoms (okey 0x9010 0x03)).getD (rwDom s 0x9010 0x03 (List.replicate 32 0))) 0 32

/-- The entry number that a command names. -/
def entryNumber (s : State) : Nat := rwVal s 0x9010 0x02 0xFFFF

/-- The code that refuses a PLACE, with the number it would take (17 R495, R497). -/
def placeCode (s : State) : Nat × Nat :=
  let n := entryNumber s
  let b := stagedEntry s
  let e := parseEntry b
  let m := if n = 0xFFFF then (freeEntry s).getD 0xFFFF else n
  if n != 0xFFFF && (n < 2832 || 4095 < n || (entryAt s n).isSome) then (1, n)
  else if stagedCode b true != 0 then (stagedCode b true, n)
  else if residentSum s 128 (some e.owner) 7 ≤ signalEntries s e.owner || m = 0xFFFF then (3, n)
  else if e.policy = 2 && tickPassed s e.fire then (4, m)
  else (0, m)

/-- The code that refuses a REDIRECT or CANCEL (17 R495, R497). -/
def changeCode (s : State) (redirect : Bool) : Nat :=
  let n := entryNumber s
  let b := stagedEntry s
  let e := parseEntry b
  if n < 2832 then 5
  else if 4095 < n || (entryAt s n).isNone then 1
  else if redirect && stagedCode b false != 0 then stagedCode b false
  else if redirect && e.policy = 2 && tickPassed s e.fire then 4
  else 0

/-- The entry command (17 R495 to R497; 02 R41, R624): 1 PLACE, 2 REDIRECT, 3 CANCEL, 4 SETPOLICY. A done command takes the staged entry into
force. -/
def entryCommand (code : Nat) (s : State) : Status × State :=
  let n := entryNumber s
  let b := stagedEntry s
  let e := parseEntry b
  if code = 1 then
    let r := placeCode s
    if r.1 != 0 then (entryStatus r.1, entryResult r.1 r.2 (if r.1 = 4 then bump 0x9011 6 1 s else s))
    else (.ok, entryResult 0 r.2 (putEntry r.2 e (commitStaged 0x9010 s)))
  else if code = 2 then
    let r := changeCode s true
    if r != 0 then (entryStatus r, entryResult r n (if r = 4 then bump 0x9011 6 1 s else s))
    else (.ok, entryResult 0 n (redirectEntry n e (commitStaged 0x9010 s)))
  else if code = 3 then
    let r := changeCode s false
    if r != 0 then (entryStatus r, entryResult r n s) else (.ok, entryResult 0 n (cancelEntry n (commitStaged 0x9010 s)))
  else if code = 4 then
    if n < 16 || 271 < n then (.state, entryResult 5 n s)
    else if e.policy = 3 then (.range, entryResult 2 n s)
    else
      let s := commitStaged 0x9010 (s.modAlm (fun a => { a with policies := KMap.put a.policies n e.policy }))
      (.ok, entryResult 0 n (match entryAt s n with | some x => putEntry n { x with policy := e.policy } s | none => s))
  else (.reserved, s)

end Sys2Proof.Machine
end

