-- ==== Sys2Proof/Machine/Cxl.lean ====
section
/-! DEFINITION. The CXL window of each host port (05 R144 to R146). -/

namespace Sys2Proof.Machine

open Sys2Proof

/-- The owner tag of a port's window (05 OD 0x1070 + port .05). -/
def windowOwner (s : State) (port : Nat) : Nat := rwVal s (0x1070 + port) 0x05 0x20

/-- The window of a port claimed at a size in MiB, or none where Carr DRAM is short: its granules are zeroed and take the owner tag (05
R145; 03 R84). -/
def claimWindow (port v : Nat) (s : State) : Option State :=
  let s := releaseRegions (.window port) (setRw (0x1070 + port) 0x04 0 s)
  if v = 0 then some (modLink port (fun l => { l with winSize := 0, winBase := 0 }) s)
  else if carrAllocatable s < carrCommitted s + 1048576 * v then none
  else match carrPlace s (1048576 * v) 4096 with
    | none => none
    | some b =>
      some (setRw (0x1070 + port) 0x04 v (modLink port (fun l => { l with winSize := v, winBase := b })
        (addRegion ⟨1, 0, b, 1048576 * v, windowOwner s port, .window port⟩ s)))

/-- A write of a window's size, in CONFIG only (05 R145). -/
def writeWindowSize (port v : Nat) (s : State) : Status × State :=
  if s.dev.state != .config then (.state, s)
  else if 32768 < v then (.range, s)
  else if v = (linkAt s port).winSize then (.ok, setRw (0x1070 + port) 0x04 v s)
  else match claimWindow port v s with
    | some s' => (.ok, setRw (0x1070 + port) 0x04 v s')
    | none => (.range, s)

/-- A write of a window's owner, in CONFIG only: the granules are zeroed before their tag changes (05 R145; 03 R84). (log 60, DEDUCED.) -/
def writeWindowOwner (port v : Nat) (s : State) : Status × State :=
  if s.dev.state != .config then (.state, s)
  else
    let mine (r : Region) : Bool := r.use = .window port
    let s := if v = windowOwner s port then s else (s.claims.regions.filter mine).foldl (fun s r => zeroRegion r s) s
    (.ok, setRw (0x1070 + port) 0x05 v (s.modClaims (fun c => { c with regions := c.regions.map (fun r => if mine r then { r with owner := v } else r) })))

/-- Whether a range lies in the window that a port presents: a link in CXL mode (05 R144). -/
def inWindowOf (s : State) (port addr len : Nat) : Bool :=
  let l := linkAt s port
  mainOn s && l.state = .upCxl && addr + len ≤ 1048576 * l.winSize

/-- A CXL.mem read at an offset of the window: it waits for windows as a normal request, and an uncorrectable error returns poison (05
R146). -/
def execCxlMemRead (port addr len : Nat) (bad : Bool) (s : State) : Host.Outcome State Fault Refusal :=
  if inWindowOf s port addr len then
    .next (normalAccess ⟨0, port + 1, addr, windowOwner s port, false, (linkAt s port).winBase + addr, len, [], false, if bad then 3 else 0, s.clock.now⟩ s)
  else .next s

/-- A CXL.mem write at an offset of the window: data with poison marks its granule (05 R146). -/
def execCxlMemWrite (port addr : Nat) (data : Bytes) (poison : Bool) (s : State) : Host.Outcome State Fault Refusal :=
  if inWindowOf s port addr data.length then
    .next (normalAccess ⟨0, port + 1, addr, windowOwner s port, true, (linkAt s port).winBase + addr, data.length, data, poison, 0, s.clock.now⟩ s)
  else .next s

end Sys2Proof.Machine
end

