-- ==== Sys2Proof/Machine/FabricTime.lean ====
section
/-! DEFINITION. Fabric Time: exchanges with the parent, corrections, and the states of the FT unit (17 R469 to R485). -/

namespace Sys2Proof.Machine

open Sys2Proof

/-- The FT in units of 2^-16 ns (17 R469). -/
def Clock.units (c : Clock) : Nat := 65536 * c.ft + c.frac

/-- A clock whose FT has moved by some units of 2^-16 ns, with every kept offset net of it (17 R477). -/
def Clock.moved (c : Clock) (d : Int) : Clock :=
  let u := ((c.units : Int) + d).toNat
  { c with ft := u / 65536, frac := u % 65536, samples := c.samples.map (fun x => { x with theta := x.theta - d }) }

/-- The units of 2^-16 ns that slewing may move FT by in the ns after a local time: 500 ppm (17 R480). -/
def slewRoom (now : Nat) : Nat := (now + 1) * 4096 / 125 - now * 4096 / 125

/-- What of an offset is slewed out in that ns. -/
def slewPart (slew : Int) (now : Nat) : Int :=
  if slew < 0 then max slew (-(slewRoom now : Int)) else min slew (slewRoom now : Int)

/-- A nanosecond of local time, in which FT counts once the device has booted and slews its offset out (17 R479, R480). -/
def Clock.tickNs (c : Clock) (counts : Bool) : Clock :=
  if counts then
    let d := slewPart c.slew c.now
    { c.moved (65536 + d) with now := c.now + 1, slew := c.slew - d, samples := c.samples.map (fun x => { x with theta := x.theta - d }) }
  else { c with now := c.now + 1 }

/-- The role of the node in time: 0 FOLLOWER, 1 MASTER (17 R473). -/
def timeRole (s : State) : Nat := rwVal s 0x9000 0x02 0

/-- The exchange interval in ns (17 R474). -/
def exchangeNs (s : State) : Nat := 1024 * rwVal s 0x9000 0x05 1024

/-- Whether a port is UP. -/
def portUp (s : State) (n : Nat) : Bool := n < 64 && (portAt s n).state = 3

/-- The port that a follower exchanges on, if any (17 R473). -/
def parentPort (s : State) : Option Nat :=
  let a := rwVal s 0x9000 0x03 0xFF
  let b := rwVal s 0x9000 0x04 0xFF
  if portUp s a then some a else if portUp s b then some b else none

/-- The master that a TIME flit of this node names; before a response, the expected one (17 R475; log 41). -/
def namedMaster (s : State) : Nat :=
  if timeRole s = 1 then nodeId s else s.clock.master.getD (rwVal s 0x9000 0x0F 0xFFFFFFFF)

/-- The steps field and flags of a TIME flit of this node (17 R475; log 41). -/
def timeSteps (s : State) : Nat := if timeRole s = 1 then 0 else s.clock.steps + 1
/-- The flags of a TIME flit of this node (17 R475). -/
def timeFlags (s : State) : Nat := b2n (s.clock.state = .holdover) + 2 * b2n (timeRole s = 1)

/-- A TIME flit sent on a port under its next time counter (17 R475, R476). -/
def sendTime (port kind sq t1 t2 t3 : Nat) (s : State) : State :=
  let n := KMap.getD s.clock.sent port 0
  emit (.time port kind (timeFlags s) sq (namedMaster s) (timeSteps s) t1 t2 t3 (2 ^ 63 + n))
    (s.modClock (fun c => { c with sent := KMap.put c.sent port (n + 1) }))

/-- The arrival stamp of a TIME flit on a port: the FT of arrival less the port's asymmetry in ps (17 R474; log 41). -/
def arrivalStamp (s : State) (port : Nat) : Int :=
  (s.clock.units : Int) - signedOf 32 (rwVal s (0x9080 + port) 0x01 0) * 65536 / 1000

/-- An offset in ns as an I32 that saturates. -/
def satNs (theta : Int) : Nat := ((max (-2147483648) (min 2147483647 (theta / 65536))) % 4294967296).toNat

/-- An FT alarm raised: its bit set and recorded (17 R478; 22 R612). -/
def ftAlarm (b : Nat) (theta : Int) (s : State) : State :=
  let s := s.modClock (fun c => { c with alarms := setBit c.alarms b true })
  annal 0x0401 3 ownDevice (srcHub ((primaryHub s).getD 0)) (toLE 1 s.clock.alarms ++ toLE 3 0 ++ toLE 4 (satNs theta)) s

/-- A TIME flit discarded (17 R476). -/
def discardTime (s : State) : State :=
  let s := bump 0x9000 0x12 1 s
  if bit s.clock.alarms 3 then s else ftAlarm 3 0 s

/-- Whether a TIME flit is taken: its tag verifies, its counter is new, it names the expected master and fewer than 31 steps (17 R476). -/
def timeTaken (s : State) (port master steps counter : Nat) (tagOk : Bool) : Bool :=
  let want := rwVal s 0x9000 0x0F 0xFFFFFFFF
  tagOk && counter.testBit 63 && !s.clock.seen.contains (port, counter) && (want = 0xFFFFFFFF || want = master) && steps < 31

/-- A follower sends a TIME request every exchange interval (17 R473, R474). -/
def execTimeExchangeTimer (s : State) : Host.Outcome State Fault Refusal :=
  if !mainOn s || timeRole s != 0 || s.clock.now < s.clock.lastAsk + exchangeNs s then .next s
  else match parentPort s with
    | none => .next s
    | some n =>
      let q := (s.clock.askSeq + 1) % 65536
      let t1 := s.clock.units
      let now := s.clock.now
      .next (sendTime n 1 q t1 0 0 (s.modClock (fun c => { c with lastAsk := now, askSeq := q, ask := some ⟨n, q, t1⟩ })))

/-- A TIME request is answered on the same link (17 R474 to R476). -/
def execTimeRequest (port sq master steps counter t1 : Nat) (tagOk : Bool) (s : State) : Host.Outcome State Fault Refusal :=
  if !mainOn s || !portUp s port then .next s
  else if !timeTaken s port master steps counter tagOk then .next (settle (discardTime s))
  else
    let t2 := (arrivalStamp s port).toNat
    .next (sendTime port 2 sq t1 t2 s.clock.units (s.modClock (fun c => { c with seen := (port, counter) :: c.seen })))

/-- The sample that the follower uses: the least delay, the most recent of equals; samples come newest first (17 R477). (log 75, DEDUCED.) -/
def bestSample (l : List FtSample) : FtSample :=
  match l with
  | [] => ⟨0, 0⟩
  | x :: r => let y := bestSample r; if r.isEmpty || x.delta ≤ y.delta then x else y

/-- 1 µs in units of 2^-16 ns. -/
def oneUs : Int := 65536000

/-- Entry to HOLDOVER for a cause (17 R478, R482). -/
def enterHoldover (cause alarm : Nat) (theta : Int) (s : State) : State :=
  ftAlarm alarm theta (setCount 0x9000 0x14 cause (bump 0x9000 0x13 1
    (s.modClock (fun c => { c with state := .holdover, slew := 0, good := 0 }))))

/-- A forward step of FT by some units (17 R481): the ticks passed over count as fired. -/
def stepForward (d : Int) (s : State) : State :=
  let s := s.modClock (fun c => { c.moved d with slew := 0 })
  let ft := s.clock.ft
  let ns := (d / 65536).toNat
  let s := s.modAlm (fun a => { a with lastTick := max a.lastTick (ft / 1024) })
  let s := setCount 0x9000 0x0C ft (setCount 0x9000 0x0B ns s)
  annal 0x0402 1 ownDevice (srcHub ((primaryHub s).getD 0)) (toLE 8 ns ++ toLE 8 ft) s

/-- The step out of UNSET (17 R479): no step of R481. -/
def stepUnset (d : Int) (st : FtState) (s : State) : State :=
  let s := s.modClock (fun c => { (if 0 < d then c.moved d else c) with state := st, unsetStep := true, good := 0 })
  let ft := s.clock.ft
  s.modAlm (fun a => { a with lastTick := max a.lastTick (ft / 1024) })

/-- The entry to LOCKED clears the alarms (17 OD 0x9000.0A). -/
def enterLocked (s : State) : State := s.modClock (fun c => { c with state := .locked, alarms := 0 })

/-- What a filtered offset does in TRACKING or LOCKED (17 R478, R480, R481). A negative offset that a relock still slews out is no new
BACKWARD (DEDUCED, log 42). -/
def correct (theta : Int) (s : State) : State :=
  let relocking : Bool := s.clock.slew < -(50 * oneUs)
  if 50 * oneUs < theta then
    ftAlarm 2 theta (stepForward theta (s.modClock (fun c => { c with state := .tracking, good := 0 })))
  else if theta < -(50 * oneUs) && !relocking then enterHoldover 1 0 theta s
  else
    let close : Bool := -oneUs ≤ theta && theta ≤ oneUs
    let s := s.modClock (fun c => { c with slew := theta, good := if close then c.good + 1 else 0 })
    if s.clock.state = .tracking && 8 ≤ s.clock.good then enterLocked s
    else if s.clock.state = .locked && !close then s.modClock (fun c => { c with state := .tracking })
    else s

/-- A TIME response (17 R476 to R479). One that answers no request of this node is ignored. -/
def execTimeResponse (port sq master steps counter t1 t2 t3 : Nat) (tagOk : Bool) (s : State) : Host.Outcome State Fault Refusal :=
  if !mainOn s || !portUp s port || timeRole s != 0 then .next s
  else if !timeTaken s port master steps counter tagOk then .next (settle (discardTime s))
  else
    let now := s.clock.now
    let s := s.modClock (fun c => { c with seen := (port, counter) :: c.seen })
    if s.clock.ask != some ⟨port, sq, t1⟩ then .next s
    else
      let t4 := arrivalStamp s port
      let a : Int := (t2 : Int) - t1
      let b : Int := t4 - t3
      let smp : FtSample := ⟨(a - b) / 2, (a + b) / 2⟩
      let s := s.modClock (fun c => { c with ask := none, lastResp := now, master := some master, steps := steps, samples := (smp :: c.samples).take 8 })
      let u := bestSample s.clock.samples
      let s := setCount 0x9000 0x08 ((u.delta / 65536).toNat % 4294967296) (setCount 0x9000 0x07 (satNs u.theta) s)
      .next (settle (match s.clock.state with
        | .unset => stepUnset u.theta .tracking s
        | .tracking => correct u.theta s
        | .locked => correct u.theta s
        | .holdover =>
          let s := s.modClock (fun c => { c with good := if -(50 * oneUs) ≤ u.theta then c.good + 1 else 0 })
          if 8 ≤ s.clock.good then correct u.theta (s.modClock (fun c => { c with state := .tracking, good := 0 })) else s))

/-- No valid response for 16 intervals (17 R478). -/
def execMasterLostTimeout (s : State) : Host.Outcome State Fault Refusal :=
  if mainOn s && timeRole s = 0 && (s.clock.state = .tracking || s.clock.state = .locked)
      && s.clock.lastResp + 16 * exchangeNs s ≤ s.clock.now then
    .next (settle (enterHoldover 2 1 (bestSample s.clock.samples).theta s))
  else .next s

/-- A write of set FT (17 R473, R478, R479, R481). -/
def setFt (v : Nat) (s : State) : Status × State :=
  let c := s.clock
  if timeRole s = 0 then (.state, s)
  else if v ≤ c.ft then (.range, s)
  else
    let d : Int := (65536 * v : Nat) - (c.units : Int)
    if c.state = .unset then (.ok, settle (enterLocked (stepUnset d .locked s)))
    else (.ok, settle (ftAlarm 2 d (stepForward d s)))

/-- A write of relock (17 R478). -/
def relock (v : Nat) (s : State) : Status × State :=
  if v = 1 && s.clock.state = .holdover then
    let th := (bestSample s.clock.samples).theta
    (.ok, settle (s.modClock (fun c => { c with state := .tracking, good := 0, slew := min 0 th })))
  else (.ok, s)

/-- A write of the time role: a master is in UNSET or LOCKED only (17 R478). -/
def writeTimeRole (v : Nat) (s : State) : Status × State :=
  let s := setRw 0x9000 0x02 v s
  if v = 1 && s.clock.state != .unset then (.ok, settle (enterLocked (s.modClock (fun c => { c with slew := 0 })))) else (.ok, s)

/-- The primary refreshes FT to the units every 256 ns, and to the passive hub (17 R484, R485). -/
def execFtDistribute (s : State) : Host.Outcome State Fault Refusal :=
  if mainOn s && (decidingHub s).isSome && s.clock.lastHeld + 256 ≤ s.clock.now then
    .next (s.modClock (fun c => { c with held := max c.held c.ft, lastHeld := c.now, mirrored := max c.mirrored c.ft }))
  else .next s

end Sys2Proof.Machine
end

