-- ==== Sys2Proof/Machine/Vigil.lean ====
section
/-! DEFINITION. Fault tolerance and Vigil: resigning hubs, units declared dead, the self-test visits, admission of a node and firmware
updates (19). -/

namespace Sys2Proof.Machine

open Sys2Proof

/-- A hub whose lockstep comparison fails stops its control complex and resigns; with both hubs gone the device fails (19 R531, R538; 02
R73). -/
def execLockstepMismatch (hub : Nat) (s : State) : Host.Outcome State Fault Refusal :=
  if hub < 2 && mainOn s && (hubSide s hub).present then
    let s := modHub hub (fun u => { u with present := false, primary := false, deciding := false, due := none, fault := true }) s
    let s := emit (.resign hub) (bump 0xA002 0x06 1 s)
    let s := unitLost 0x14 0 (srcHub hub) (some (58 + hub)) s
    .next (settle (if (hubSide s (otherHub hub)).present then s else setDevState .failed 5 s))
  else .next s

/-- A received resign: a passive peer becomes primary whatever the preference, a primary peer enters solo mode (19 R531). -/
def execResignReceive (hub _path : Nat) (s : State) : Host.Outcome State Fault Refusal :=
  let u := hubSide s hub
  let o := hubSide s (otherHub hub)
  if hub < 2 && u.present && o.fault && !o.present then
    if u.primary then .next (settle (resumeCells (s.modHubs (fun v => { v with solo := true }))))
    else .next (settle (takePrimacy hub true (max u.epoch s.hubs.unitEpoch + 1) 2 s))
  else .next s

/-- An optical engine is lost: its ports go DOWN (19 R538; 16 R451). -/
def loseEngine (e : Nat) (s : State) : State :=
  if e < 8 && !(countVal s 0xA002 0x01 0).testBit (48 + e) then
    unitLost 0x12 0 (srcEngine e) (some (48 + e)) (loseLight e (setCount (0x7180 + e) 0x02 0 s))
  else s

/-- A stack (kind 0x11), optical engine (0x12) or storage die (0x13) silent for 10 µs to its hub is declared dead (19 R532, R538). -/
def execUnitTimeout (kind unit : Nat) (s : State) : Host.Outcome State Fault Refusal :=
  if mainOn s then
    if kind = 0x11 then .next (settle (failStack unit s))
    else if kind = 0x12 then .next (settle (loseEngine unit s))
    else if kind = 0x13 then .next (settle (loseDie unit s))
    else .next s
  else .next s

/-- The lockstepped pair of a tile sequencer disagrees: the tile is lost (19 R532, R538). -/
def execTileSequencerMismatch (tile : Nat) (s : State) : Host.Outcome State Fault Refusal :=
  if tile < 40 && mainOn s then .next (loseTile tile s) else .next s

/-- A stopped tile is woken: its clock runs again (15 R433). -/
def wakeTile (t : Nat) (s : State) : State :=
  s.modTiles (fun c => { c with stopped := c.stopped.filter (· != t), lastUse := KMap.put c.lastUse t s.clock.now })

/-- A wake level starts a stopped tile's clock (15 R433). -/
def execTileWake (tile : Nat) (s : State) : Host.Outcome State Fault Refusal :=
  if tile < 40 && s.tiles.stopped.contains tile then .next (wakeTile tile s) else .next s

/-- A tile that no resident image holds, and that is not under test, stops CLK_T after its idle time (15 R433). -/
def execTileClockStop (tile : Nat) (s : State) : Host.Outcome State Fault Refusal :=
  if tile < 40 && mainOn s && (KMap.find s.claims.tileOwner tile).isNone && (KMap.find s.vigil.visits tile).isNone
      && !s.tiles.stopped.contains tile
      && KMap.getD s.tiles.lastUse tile 0 + 1000 * rwVal s 0x2008 0x01 10000 ≤ s.clock.now then
    .next (s.modTiles (fun c => { c with stopped := c.stopped ++ [tile] }))
  else .next s

/-- The period in ticks of a Vigil chain: of the rotation, or of the sweep while one runs (19 R547, R557). -/
def vigilPeriod (s : State) (n : Nat) : Nat :=
  if n != 5 && s.island.sweep.isSome then max 1 (rwVal s 0xA000 0x03 1000 * 1000000 / 1024)
  else max 1 (rotationNs s / 1024 / (if n = 4 then 264 else if n = 5 then 256 else 400))

/-- The Vigil chains placed at boot (19 R547; 17 R626). -/
def placeVigil (s : State) : State :=
  [2, 3, 4, 5].foldl (fun s n => placeChain n 0x06 0 (vigilPeriod s n) ownSystem 1 s) s

/-- The Vigil chains moved to the grid of their period, when a period object is written or a sweep starts or ends (17 R626, R495). -/
def rechainVigil (s : State) : State := [2, 3, 4, 5].foldl (fun s n => rechain n (vigilPeriod s n) s) s

/-- Whether the sweep has updated every tile and every stack that is not lost (19 R557). -/
def sweepDone (s : State) : Bool :=
  match s.island.sweep with
  | some l => (List.range 40).all (fun t => l.contains t || s.units.lost.contains t) 
    && (List.range 8).all (fun k => l.contains (64 + k) || s.carr.deadStacks.contains k)
  | none => false

/-- A unit updated by the sweep, which ends with the last one: the staged slot becomes active, and the chains return to their rotation
periods (19 R557, 20 R566). Units are numbered tile t as t and stack k as 64 + k. -/
def sweepUnit (n : Nat) (s : State) : State :=
  match s.island.sweep with
  | none => s
  | some l =>
    let s := s.modIsland (fun i => { i with sweep := some (if l.contains n then l else l ++ [n]) })
    if sweepDone s then
      rechainVigil (setFirmware 0 0 (finishRecord (s.modIsland (fun i => { i with sweep := none, staged := false }))))
    else s

/-- The firing of a Vigil entry in flight on a unit. -/
def vigilFiring (s : State) (entry unit : Nat) : Bool := match firingOf s entry with | some f => f.target = unit | none => false

/-- The highest point in use on any tile, in MHz: 1,200 in TRIP (21 R588, R594). -/
def pointInUse (s : State) : Nat := if 2 ≤ countVal s 0x2020 0x02 0 then 1200 else (residents s).foldl (fun a r => max a (runningPoint r.2.1)) (guaranteedMhz (effectiveCap s))

/-- Whether the cap leaves Vigil its reserve of 10 W (19 R549, 21 R593). -/
def vigilReserve (s : State) : Bool := pointPower (pointInUse s) + 10 ≤ effectiveCap s

/-- A tile visit starts: the tile is woken, and the spare-role units' state is saved (19 R548 steps 1 and 2, R549). A lost tile is skipped
(R539). -/
def execVigilTileVisit (tile : Nat) (s : State) : Host.Outcome State Fault Refusal :=
  let entry := if tile < 20 then 2 else 3
  if tile < 40 && vigilFiring s entry tile && (KMap.find s.vigil.visits tile).isNone then
    if s.units.lost.contains tile then .next (actedFiring entry (visitSkipped s))
    else if 2 ≤ s.tiles.underTest.length || !vigilReserve s then .next s
    else
      let s := (wakeTile tile s).modTiles (fun c => { c with underTest := c.underTest ++ [tile] })
      let cols (a : Nat) : List (Nat × Nat) :=
        if (arrayAt s (2 * tile + a)).search.isSome then [] else (spareCols (arrayAt s (2 * tile + a))).map (fun c => (1 + a, c))
      let m := nth (mereAt s tile).map 4 4
      let eng : List (Nat × Nat) := if (mereAt s tile).bad.contains m then [] else [(3, m)]
      let v : Visit := { entry := entry, step := 1, units := eng ++ cols 0 ++ cols 1 }
      .next (s.modVigil (fun g => { g with visits := KMap.put g.visits tile v }))
  else .next s

/-- The visit of a tile in some step. -/
def visitIn (s : State) (tile step : Nat) : Option Visit := (KMap.find s.vigil.visits tile).filter (fun v => v.step = step)

/-- The state with a tile's visit replaced. -/
def putVisit (tile : Nat) (v : Visit) (s : State) : State := s.modVigil (fun g => { g with visits := KMap.put g.visits tile v })

/-- The save is done: `data` are the saved bytes, at most 64 KiB, and BIST starts (19 R548 step 2). -/
def execVigilSaveDone (tile : Nat) (data : Bytes) (s : State) : Host.Outcome State Fault Refusal :=
  match visitIn s tile 1 with
  | some v => .next (putVisit tile { v with step := 2, saved := data.take 65536 } s)
  | none => .next s

/-- A unit that fails BIST is marked failed, counted and recorded (19 R548). -/
def bistFailed (tile : Nat) (u : Nat × Nat) (s : State) : State :=
  let s := if u.1 = 3 then modMere tile (fun g => { g with bad := if g.bad.contains u.2 then g.bad else g.bad ++ [u.2] }) s
    else failColumn (2 * tile + (u.1 - 1)) u.2 s
  annal 0x0303 2 ownDevice (srcTile tile) (toLE 1 u.1 ++ toLE 1 u.2) (bump 0xA000 0x07 1 s)

/-- Units that passed their test, stamped (19 R552). -/
def stampTests (die : Nat) (us : List (Nat × Nat)) (s : State) : State :=
  s.modVigil (fun g => { g with tested := us.foldl (fun m u => KMap.put m (testKey u.1 die u.2) s.clock.now) g.tested })

/-- BIST ends: the units that failed, as unit kind and physical number, are marked; the restore starts (19 R548 steps 3 and 4). -/
def execVigilBistDone (tile : Nat) (failed : List (Nat × Nat)) (s : State) : Host.Outcome State Fault Refusal :=
  match visitIn s tile 2 with
  | some v =>
    let bad := v.units.filter (fun u => failed.contains u)
    let good := v.units.filter (fun u => !failed.contains u)
    let s := stampTests tile good (bad.foldl (fun s u => bistFailed tile u s) s)
    .next (settle (sweepUnit tile (putVisit tile { v with step := 3, passed := good } s)))
  | none => .next s

/-- The in-service columns of an array in the order in which they leave service: longest-serving first, then the lower physical number (19
R548 step 5). -/
def leavingOrder (a : ArrayUnit) : List (Nat × Nat) :=
  let rec ins (e : Nat × Nat × Nat) (l : List (Nat × Nat × Nat)) : List (Nat × Nat × Nat) :=
    match l with
    | [] => [e]
    | f :: r => if e.1 < f.1 || (e.1 = f.1 && e.2.1 < f.2.1) then e :: l else f :: ins e r
  (((List.range 129).map (fun c => (KMap.getD a.since (nth a.cols c 0) 0, nth a.cols c 0, c))).foldl (fun l e => ins e l) []).map
    (fun e => (e.2.2, e.2.1))

/-- The logical engine whose physical engine has served longest (19 R548 step 5). -/
def longestEngine (g : MereTile) : Nat :=
  (List.range 4).foldl (fun b m => if KMap.getD g.since (nth g.map m 0) 0 < KMap.getD g.since (nth g.map b 0) 0 then m else b) 0

/-- The moves of a visit's switch-in placed for the next slot boundary (19 R548 step 5). -/
def placeSwitch (tile : Nat) (v : Visit) (s : State) : State :=
  let s := (List.range 2).foldl (fun s a =>
    let n := 2 * tile + a
    let sp := ((v.passed.filter (fun u => u.1 = 1 + a)).map (·.2)).filter (fun c => (spareCols (arrayAt s n)).contains c)
    let used := (arrayAt s n).swap.map (fun w => w.2.1)
    let free := (sp.filter (fun c => !used.contains c)).take 7
    let moves := ((leavingOrder (arrayAt s n)).map (·.1)).zip free
    modArray n (fun u => { u with swap := u.swap ++ moves.map (fun m => (m.1, m.2, 0)) }) s) s
  if v.passed.any (fun u => u.1 = 3) && (mereAt s tile).swap.isEmpty then
    let m := longestEngine (mereAt s tile)
    modMere tile (fun g => { g with swap := [(m, 0)] }) s
  else s

/-- The restore ends with what was read back: when its CRC-32 is that of the saved bytes the switch-in waits for the next slot boundary, at
once on a tile of no image. A restore that fails its check ends the visit without a switch-in (19 R548 steps 4 and 5, log 45). -/
def execVigilRestoreDone (tile : Nat) (data : Bytes) (s : State) : Host.Outcome State Fault Refusal :=
  match visitIn s tile 3 with
  | some v =>
    let s := s.modTiles (fun c => { c with underTest := c.underTest.filter (· != tile) })
    if crc32 data = crc32 v.saved then
      let s := placeSwitch tile v (putVisit tile { v with step := 4 } s)
      .next (settle (if (KMap.find s.claims.tileOwner tile).isNone then tileBoundary tile s else s))
    else .next (settle (visitDone v.entry (s.modVigil (fun g => { g with visits := KMap.del g.visits tile }))))
  | none => .next s

/-- The pseudo-channels of a stack in the order in which their cores leave service: longest-serving first (19 R550). -/
def leavingCores (s : State) (k : Nat) : List Nat :=
  let rec ins (e : Nat × Nat) (l : List (Nat × Nat)) : List (Nat × Nat) :=
    match l with
    | [] => [e]
    | f :: r => if e.1 < f.1 then e :: l else f :: ins e r
  ((((List.range 64).filter (fun p => !(pcAt s (64 * k + p)).failed && (KMap.find s.carr.swap (64 * k + p)).isNone)).map
    (fun p => (KMap.getD s.carr.served (64 * k + p) 0, 64 * k + p))).foldl (fun l e => ins e l) []).map (·.2)

/-- A stack visit: the spare-role cores are tested, and the pseudo-channels whose cores have served longest move onto those that passed (19
R550). A lost stack is skipped. -/
def execVigilStackVisit (stack : Nat) (failed : List Nat) (s : State) : Host.Outcome State Fault Refusal :=
  if stack < 8 && vigilFiring s 4 stack && (KMap.find s.vigil.stackAt stack).isNone then
    if s.carr.deadStacks.contains stack then .next (actedFiring 4 (visitSkipped s))
    else if !vigilReserve s then .next s
    else
      let sp := spareCores s stack
      let bad := sp.filter (fun c => failed.contains c)
      let good := sp.filter (fun c => !failed.contains c)
      let s := bad.foldl (fun s c => annal 0x0303 2 ownDevice (srcStack stack) (toLE 1 7 ++ toLE 1 c)
        (bump 0xA000 0x07 1 (s.modCarr (fun r => { r with failed := r.failed ++ [66 * stack + c] })))) s
      let s := stampTests stack (good.map (fun c => (7, c))) s
      let s := sweepUnit (64 + stack) s
      let moves := (leavingCores s stack).zip good
      if moves.isEmpty then .next (settle (visitDone 4 s))
      else
        let s := moves.foldl (fun s m => s.modCarr (fun r => { r with swap := KMap.put r.swap m.1 (m.2, 0) })) s
        .next (settle (s.modVigil (fun g => { g with stackAt := KMap.put g.stackAt stack (s.clock.now, moves.map (·.1)) })))
  else .next s

/-- A pseudo-channel not in NORMAL mode within 100 ms is skipped for its visit (19 R550). -/
def execStackVisitSkip (pc : Nat) (s : State) : Host.Outcome State Fault Refusal :=
  match KMap.find s.vigil.stackAt (pc / 64) with
  | some (at_, pcs) =>
    if pcs.contains pc && at_ + 100000000 ≤ s.clock.now then
      .next (settle (stackMoved pc (visitSkipped (s.modCarr (fun r => { r with swap := KMap.del r.swap pc })))))
    else .next s
  | none => .next s

/-- A port visit (19 R551). -/
def execVigilPortVisit (port : Nat) (s : State) : Host.Outcome State Fault Refusal :=
  if port < 64 && vigilFiring s 5 port && (portAt s port).vigil = 0 then .next (settle (rotatePort port s)) else .next s

end Sys2Proof.Machine
end

