-- ==== Sys2Proof/Machine/Firmware.lean ====
section
/-! DEFINITION. Firmware packages and the live updates of hubs, tiles and stacks (19 R555 to R557; 20 R561 to R566). -/

namespace Sys2Proof.Machine

open Sys2Proof

/-- The NOR slot that the boot record does not name as active (20 R566). -/
def idleSlot (s : State) : Nat := 1 - activeSlot s

/-- Whether an update runs. -/
def updating (s : State) : Bool := s.island.update.isSome || s.island.sweep.isSome

/-- A firmware package written whole: verified, and placed in the idle slot (19 R555, 20 R566). A package that fails verification changes
nothing but the result. -/
def writePackage (f : Bytes) (s : State) : Status × State :=
  if updating s || !(s.dev.state = .config || s.dev.state = .serving) then (.state, s)
  else
    let w := parseFw f
    if fwOk s w then
      let s := s.modIsland (fun i => if idleSlot s = 0 then { i with slotA := w, staged := true } else { i with slotB := w, staged := true })
      (.ok, setFirmware 1 0 s)
    else (.range, setCount 0xA010 0x04 1 s)

/-- The result code that refuses a firmware command, 0 where it is accepted: STATE, NO_PACKAGE, SIGNATURE, NOT_LIVE in that order (19
R555; the order is in no rule, log 46). -/
def firmwareBar (code : Nat) (s : State) : Nat :=
  let w := fwSlot s (idleSlot s)
  let run := fwSlot s s.island.running
  let has (c : Nat) : Bool := w.comps.any (fun x => x.1 = c)
  if updating s || !(s.dev.state = .config || s.dev.state = .serving) || (code = 1 && (handoverBar s).isSome) then 3
  else if !s.island.staged || (code = 1 && !has 2) || (code = 2 && !(has 3 || has 4)) then 4
  else if !fwOk s w then 1
  else if !w.live || w.mirror != run.mirror || w.visible != run.visible then 2
  else 0

/-- UPDATE_HUBS begins: the staged slot becomes the trial slot, and the passive hub resets while the primary goes on in solo mode (19 R556,
20 R566). -/
def startHubUpdate (s : State) : State :=
  match primaryHub s with
  | none => s
  | some h =>
    let s := match bootRecord s with
      | some r => writeBoot { r with trial := idleSlot s, count := 0 } s
      | none => s
    let s := s.modIsland (fun i => { i with update := some { hub := otherHub h, second := false } })
    let s := modHub (otherHub h) (fun v => { v with present := false }) s
    setFirmware 2 0 (resumeCells (s.modHubs (fun v => { v with solo := true })))

/-- The firmware command: 1 UPDATE_HUBS, 2 UPDATE_TILES (19 R555 to R557; 02 R624). -/
def firmwareCommand (code : Nat) (s : State) : Status × State :=
  if code = 1 || code = 2 then
    let r := firmwareBar code s
    if r != 0 then (if r = 3 then .state else .range, setCount 0xA010 0x04 r s)
    else if code = 1 then (.ok, startHubUpdate s)
    else (.ok, rechainVigil (setFirmware 5 0 (s.modIsland (fun i => { i with sweep := some [] }))))
  else (.reserved, s)

/-- The version that a hub reports after it booted a package: the package states none, so it is open (19 OD 0xA010.05, log 47). -/
def newHubVersion (hub : Nat) (s : State) : State :=
  let v := countVal s 0xA010 0x05 0
  let n := freeVal s 16
  drawn (setCount 0xA010 0x05 (if hub = 0 then v % 65536 + 65536 * n else v / 65536 * 65536 + n) s)

/-- The updating hub finishes its boot: with a good image it is measured and rejoins the mirror; with one that failed verification it runs
its previous image and the update has failed (19 R556). With no hub primary it takes primacy in solo mode. -/
def execHubUpdateBooted (ok : Bool) (s : State) : Host.Outcome State Fault Refusal :=
  match s.island.update with
  | none => .next s
  | some u =>
    if u.booted then .next s
    else
      let s := modHub u.hub (fun v => { v with present := true, primary := false, deciding := false, failedA := false, failedB := false,
                                               silent := false, alarm := false, due := none, lastA := s.clock.now, lastB := s.clock.now }) s
      let s := if ok then
          newHubVersion u.hub (measure (1 + u.hub) (compDigest (fwSlot s (idleSlot s)) 2)
            (s.modIsland (fun i => { i with update := some { u with booted := true } })))
        else failUpdate s
      match primaryHub s with
      | some _ => .next (settle (s.modHubs (fun v => { v with resync := true })))
      | none => .next (settle (takePrimacy u.hub true (max (hubSide s u.hub).epoch s.hubs.unitEpoch + 1) 1 s))

end Sys2Proof.Machine
end

