-- ==== Sys2Proof/Machine/Supply.lean ====
section
/-! DEFINITION. Supply, thermal and clock supervision by the standby island (21 R583 to R597), and the power-failure sequence (18 R515). -/

namespace Sys2Proof.Machine

open Sys2Proof

/-- A POWER record kept in the standby staging, which outlives the main domain (22 R612, R615). -/
def powerRecord (rail word : Nat) (s : State) : State :=
  let e : Event := { ft := s.clock.ft, code := 0x0601, severity := 3, owner := ownDevice, source := srcStandby,
                     data := toLE 1 rail ++ toLE 2 word }
  let r := stageEvent (stagingCap 2) e s.tele.annals.standby
  let s := s.modTele (fun t => { t with annals := { t.annals with standby := r.1 } })
  if r.2 then s else bump 0xE010 0x05 1 s

/-- An assertion of PWRFAIL_N, or an internal power failure: Mire runs its sequence and Annals stops staging (18 R515; 21 R586, R597; 22
R615). -/
def assertPwrfail (s : State) : State :=
  if mainOn s && !s.mire.dumping then
    (powerFail s).modTele (fun t => { t with annals := { t.annals with stopped := true } })
  else s

/-- PWRFAIL_N is asserted (18 R515; 21 R595). -/
def execPwrfailNAssert (s : State) : Host.Outcome State Fault Refusal := .next (assertPwrfail s)

/-- A main rail that is up loses power-good, or its VRM reports a fault: an internal power failure (21 R586). -/
def execRailFault (rail : Nat) (s : State) : Host.Outcome State Fault Refusal :=
  if s.island.good.contains rail then
    let s := s.modIsland (fun i => { i with waiting := if i.waiting.contains rail then i.waiting else i.waiting ++ [rail] })
    .next (settle (assertPwrfail (bump 0x2030 0x03 1 s)))
  else .next s

/-- The readings of a PMBus poll (21 R585): mV and A of each of the ten rails in the order of R583, and the STATUS_WORD of each, 65,536
where the read fails. The package power is the sum of the products in W, rounded down; a rail that waits has its record. -/
def execPmbusPoll (mv amps words : List Nat) (s : State) : Host.Outcome State Fault Refusal :=
  if s.island.alive then
    let v (i : Nat) : Nat := nth mv i 0 % 65536
    let a (i : Nat) : Nat := nth amps i 0 % 65536
    let w := (List.range 10).foldl (fun t i => t + v i * a i) 0 / 1000
    let s := setBlob 0x2030 0x02 ((List.range 10).flatMap (fun i => toLE 2 (a i) ++ toLE 2 (v i))) s
    let s := raiseTo 0x2010 0x07 w (setCount 0x2010 0x06 w s)
    let s := s.island.waiting.foldl (fun s r => powerRecord r (min (nth words r 65536) 0xFFFF) s) s
    .next (settle (s.modIsland (fun i => { i with waiting := [] })))
  else .next s

/-- The thermal state (21 OD 0x2020.02). -/
def thermalState (s : State) : Nat := countVal s 0x2020 0x02 0

/-- The next thermal state for a hottest reading in 0.01 °C (21 R594). SHUTDOWN stays, and TRIP ends below 103 °C. (log 110, DEDUCED.) -/
def nextThermal (old : Nat) (hot : Int) : Nat :=
  if old = 3 || 11000 ≤ hot then 3
  else if 10500 ≤ hot then 2
  else if old = 2 then (if hot < 10300 then 1 else 2)
  else if 10000 ≤ hot then 1
  else 0

/-- What the thermal reduction does in a state: 0 falls, 1 holds, 2 rises (21 R594). -/
def thermalBand (st : Nat) (hot : Int) : Nat := if st = 1 then 2 else if st = 0 && hot < 9700 then 0 else 1

/-- The hottest junction as last read, in 0.01 °C. -/
def hottest (s : State) : Int :=
  let v := countVal s 0x2020 0x01 0
  if v < 2 ^ 31 then (v : Int) else (v : Int) - 2 ^ 32

/-- A two's complement number of n bytes. -/
def toLEInt (n : Nat) (v : Int) : Bytes := toLE n (v % ((256 : Int) ^ n)).toNat

/-- A change of thermal state: counted, recorded, and acted on (21 R594; 22 R612). -/
def enterThermal (st : Nat) (hot : Int) (s : State) : State :=
  if thermalState s = st then s
  else
    let s := setCount 0x2020 0x02 st s
    let s := if st = 1 then bump 0x2020 0x04 1 s else if st = 2 then bump 0x2020 0x05 1 s else s
    let s := annal 0x0602 2 ownDevice srcDevice (toLE 1 st ++ toLE 1 0 ++ toLEInt 4 hot) s
    if st = 3 then assertPwrfail (s.modIsland (fun i => { i with thermTrip := true })) else s

/-- The sensors are read (21 R594): 108 readings in 0.1 °C in the order of OD 0x2020.06. -/
def execThermalSample (readings : List Int) (s : State) : Host.Outcome State Fault Refusal :=
  if mainOn s then
    let hot : Int := 10 * (readings.foldl max (readings.headD 0))
    let before := thermalBand (thermalState s) (hottest s)
    let s := setBlob 0x2020 0x06 ((List.range 108).flatMap (fun i => toLEInt 2 (nth readings i 0))) s
    let s := setCount 0x2020 0x01 (hot % 2 ^ 32).toNat s
    let s := enterThermal (nextThermal (thermalState s) hot) hot s
    .next (settle (if thermalBand (thermalState s) hot = before then s
      else s.modIsland (fun i => { i with lastStep := s.clock.now })))
  else .next s

/-- A step of the thermal reduction: up by 50 W every 10 ms in THROTTLE until the effective cap reaches 1,150 W, down by 50 W every 100 ms
below 97 °C (21 R594, R592, R593). -/
def execThermalReductionStep (s : State) : Host.Outcome State Fault Refusal :=
  let band := thermalBand (thermalState s) (hottest s)
  let red := countVal s 0x2020 0x03 0
  let stamp (s : State) : State := s.modIsland (fun i => { i with lastStep := s.clock.now })
  if !mainOn s then .next s
  else if band = 2 && s.island.lastStep + 10000000 ≤ s.clock.now then
    .next (settle (restrictSlots (stamp (setCount 0x2020 0x03 (max red (min (red + 50) (powerCap s - 1150))) s))))
  else if band = 0 && 0 < red && s.island.lastStep + 100000000 ≤ s.clock.now then
    .next (settle (stamp (setCount 0x2020 0x03 (red - 50) s)))
  else .next s

/-- The standby island's check of the reference clock: 0 good, 1 lost, 2 out of tolerance (21 R597). -/
def execRefclkCheck (status : Nat) (s : State) : Host.Outcome State Fault Refusal :=
  let old := countVal s 0x2040 0x02 0
  if !s.island.alive || 2 < status then .next s
  else if status = 0 then
    if old = 0 then .next s
    else .next (settle ((setCount 0x2040 0x02 0 s).modIsland (fun i => { i with refHold := s.clock.now + 10000000 })))
  else
    let s := setCount 0x2040 0x02 status s
    if old = 0 && mainOn s then .next (settle (assertPwrfail (powerRecord 0xFF 0 s))) else .next (settle s)

/-- Whether the reference clock lets the main domain come up (21 R597). -/
def refclkGood (s : State) : Bool := countVal s 0x2040 0x02 0 = 0 && s.island.refHold ≤ s.clock.now

end Sys2Proof.Machine
end

