-- ==== Sys2Proof/Machine/Drop.lean ====
section
/-! DEFINITION. What the main domain keeps through a start: the state left when the main rails go down or the main domain is reset (20 R567 to
R569). -/

namespace Sys2Proof.Machine

open Sys2Proof

/-- Whether an object that the device sets outlives the main domain: it is held by the standby island, in fuses or in flash. -/
def keptIndex (i sub : Nat) : Bool :=
  i = 0x1040 || i = 0x2030 || i = 0x2040 || (0xC000 ≤ i && i ≤ 0xC003) || i = 0xC020 || (i = 0x2010 && sub = 6)
  || (i = 0x8000 && (sub = 8 || sub = 9 || sub = 0xC || sub = 0xD || sub = 0xF)) || (i = 0xA010 && sub = 5)

/-- The counts kept. -/
def keptCounts (m : KMap Nat) : KMap Nat := m.filter (fun e => keptIndex (e.1 / 256) (e.1 % 256))

/-- The measurement log with the entries of register 0 alone (20 R570): each is a register number and a digest. -/
def logOfZero (l : Bytes) : Bytes :=
  (List.range (l.length / 52)).flatMap (fun i => if leAt l (52 * i) 4 = 0 then slice l (52 * i) 52 else [])

/-- The byte strings kept: rail readings, the identity certificate, register 0 and its part of the measurement log. -/
def keptBlobs (m : KMap Bytes) : KMap Bytes :=
  m.filterMap (fun e =>
    if e.1 = okey 0x2030 0x02 || e.1 = okey 0xC001 0x04 || e.1 = okey 0xC010 0x01 then some e
    else if e.1 = okey 0xC010 0x09 then some (e.1, logOfZero e.2)
    else none)

/-- Whether a written object describes an index or table that is not EMPTY: its attributes come back with it (06 R184, 14 R411; log 48). -/
def keptAttribute (s : State) (k : Nat) : Bool :=
  let i := k / 256
  let sub := k % 256
  if 0x5000 ≤ i && i < 0x5400 then i % 2 = 0 && 3 ≤ sub && sub ≤ 0x14 && (indexAt s ((i - 0x5000) / 2)).isSome
  else if 0x6400 ≤ i && i < 0x6C00 then
    (sub = 3 || (9 ≤ sub && sub ≤ 0xD) || sub = 0x13 || sub = 0x14) && (tableAt s (i - 0x6400)).isSome
  else false

/-- The dictionary kept: the store copies, the sessions, and what is above. -/
def keptDict (s : State) : Dict :=
  { written := s.dict.written.filter (fun e => keptAttribute s e.1), domains := s.dict.domains.filter (fun e => keptAttribute s e.1),
    counts := keptCounts s.dict.counts, blobs := keptBlobs s.dict.blobs, sessions := s.dict.sessions,
    storeA := s.dict.storeA, storeB := s.dict.storeB, storeGen := s.dict.storeGen }

/-- Mire kept in flash: the namespaces and the map, with every operation ended and every record in flash (18 R504, R516). The keys are kept by
the key store. -/
def keptMire (m : Mire) : Mire :=
  let die (d : Die) : Die := { d with journal := [], waiting := [], lost := false }
  { spaces := m.spaces, map := m.map, targets := m.targets.map (fun e => (e.1, { e.2 with ops := [], writeBusy := false })),
    dieN := die m.dieN, dieS := die m.dieS, blocks := m.blocks, retired := m.retired, nextSeq := m.nextSeq, nextRead := m.nextRead,
    lastDump := m.lastDump }

/-- Whether a tier object comes back: the regions of indices and the records of tables, and objects in flash (log 48). -/
def keptObject (o : TierObj) : Bool := o.role = 2 || o.role = 3 || o.tier = 4

/-- An index as its persistent copy gives it back: its live items with no history; a BUILDING index comes back empty (06 R184). -/
def keptIndexOf (x : SearchIndex) : SearchIndex :=
  { x with items := if x.state = .building then [] else x.saved, saved := if x.state = .building then [] else x.saved,
           rings := [], sides := [], stalled := false, horizon := 0, last := 0, top := 0 }

/-- A table as its persistent copy gives it back: no row of another owner is current (14 R408, R411). -/
def keptTable (t : Table) : Table := { t with hotSet := [], areas := [], marks := [], resync := [] }

/-- The data kept. -/
def keptData (d : Data) : Data :=
  { tiers := { objs := d.tiers.objs.filter (fun e => keptObject e.2) }, indices := d.indices.map (fun e => (e.1, keptIndexOf e.2)),
    tables := d.tables.map (fun e => (e.1, keptTable e.2)) }

/-- The regions of memory kept claimed. -/
def keptClaims (c : Claims) : Claims :=
  { regions := c.regions.filter (fun r => match r.use with | .index _ => true | .table _ => true | _ => false) }

/-- Telemetry kept: the persisted Annals and the standby staging (22 R615). -/
def keptTele (t : Tele) : Tele := { annals := { standby := t.annals.standby, kept := t.annals.kept } }

/-- The state once the main domain has lost its volatile state (20 R568, R569). (log 35, DEDUCED.) (log 98, DEDUCED.) -/
def dropMain (s : State) : State :=
  { State.reset with
    clock := { now := s.clock.now }, dict := keptDict s, dev := { s.dev with serveAt := none }, claims := keptClaims s.claims,
    mire := keptMire s.mire, data := keptData s.data, tele := keptTele s.tele,
    island := { s.island with update := none, sweep := none, nonce := none, test := none, token := none, armed := 0 },
    vigil := {}, mem := { flash := s.mem.flash }, outs := s.outs, free := s.free, pending := s.pending }

/-- The main rails disabled (21 R584): groups go off in descending order. -/
def railsOff (s : State) : State := s.modIsland (fun i => { i with phase := 0, groups := 0, good := [], railAt := [] })

/-- The main domain goes off and the device is in STANDBY (20 R569). -/
def toStandby (cause : Nat) (s : State) : State := setDevState .standby cause (railsOff (dropMain s))

/-- The rails of a sequence group, by their index of R583 (21 R583, R584). -/
def groupRails (g : Nat) : List Nat :=
  if g = 1 then [1, 2] else if g = 2 then [3, 4, 5, 6] else if g = 3 then [7] else if g = 4 then [8, 9] else []

/-- A sequence group enabled (21 R584). -/
def enableGroup (g : Nat) (s : State) : State :=
  let now := s.clock.now
  s.modIsland (fun i => { i with groups := g, railAt := (groupRails g).foldl (fun m r => KMap.put m r now) i.railAt })

/-- Phase M1 begins (20 R567, 21 R584). -/
def powerOn (cause : Nat) (s : State) : State :=
  enableGroup 1 ((setDevState .booting cause s).modIsland (fun i => { i with phase := 1, good := [], railAt := [] }))

/-- The main domain restarts from phase M2, or from M1 where its rails are not up (20 R569). -/
def rebootMain (cause : Nat) (s : State) : State :=
  let up := s.island.groups = 4 && [1, 2, 3, 4, 5, 6, 7, 8, 9].all (fun r => s.island.good.contains r)
  let s := dropMain s
  if up then (setDevState .booting cause s).modIsland (fun i => { i with phase := 2 }) else powerOn cause (railsOff s)

/-- The dump ends: how many journal records of each die reached flash, and how many pages were found after the first missing one; the device
enters STANDBY (18 R515 to R517; 02 R74). -/
def execDumpComplete (keptN foundN keptS foundS : Nat) (s : State) : Host.Outcome State Fault Refusal :=
  if s.mire.dumping then
    let whole := s.mire.dieN.journal.length ≤ keptN && s.mire.dieS.journal.length ≤ keptS
    let s := endDump 1 keptS foundS (endDump 0 keptN foundN s)
    let s := s.modMire (fun m => { m with lastDump := if whole then 1 else 2 })
    .next ((toStandby 4 s).modIsland (fun i => { i with lastFail := true, thermTrip := false }))
  else .next s

end Sys2Proof.Machine
end

