-- ==== Sys2Proof/Machine/LifeCycle.lean ====
section
/-! DEFINITION. Life cycle, keys and quotes (20 R563, R571 to R579). -/

namespace Sys2Proof.Machine

open Sys2Proof

/-- An image verified in full, whatever the life-cycle state forgives (20 R562, R577). -/
def fwVerified (s : State) (w : FwImage) : Bool :=
  w.sound && w.signed && !bit (countVal s 0xC003 0x03 0) w.key && countVal s 0xC003 0x02 0 ≤ w.svn

/-- Whether the staged token is well formed for a target and the challenge in force (20 R577). The serial and the signature are judged
apart. -/
def tokenForm (s : State) (target : Nat) : Bool :=
  match s.island.token with
  | none => false
  | some t =>
    leAt t 0 4 = 0x4E4B4C55 && leAt t 4 1 = 1 && leAt t 5 1 = target && leAt t 6 1 ≤ 1 && leAt t 7 1 = 0
    && leAt t 24 8 = countVal s 0xC000 0x03 0 && leAt t 32 32 = 0

/-- Whether the staged token names this part and its signature verifies (20 R577). -/
def tokenVerdict (s : State) : Bool :=
  match s.island.token with
  | none => false
  | some t =>
    decide (slice t 8 16 = padTo 16 Config.serial)
    && Config.ecdsaVerify (Config.lifeCycleKey (leAt t 6 1)) (Config.sha384 (slice t 0 64)) (slice t 64 96)

/-- A new challenge: a free value (20 R577, log 2). -/
def newChallenge (s : State) : State := drawn (setCount 0xC000 0x03 (freeVal s 64) s)

/-- The first steps of clearing secrets, as many as are done before a power failure or reset ends it (20 R578, R579): 1 the epoch fuse, unless
it has advanced for the pending transition; 2 the key and configuration stores erased; 3 memories and key registers zeroed; 4 Mire's
journal, dump region and checkpoints erased. -/
def clearSteps (steps : Nat) (s : State) : State :=
  let s := if 1 ≤ steps && !clearPending s then setCount 0xC000 0x07 (128 + (fuseEpoch s + 1)) s else s
  let s := if 2 ≤ steps then
      (s.modIsland (fun i => { i with keyA := {}, keyB := {} })).modDict (fun d => { d with storeA := {}, storeB := {} }) else s
  let s := if 3 ≤ steps then
      ((s.modMem (fun m => { flash := m.flash })).modIsland (fun i => { i with keys := [] })).modMire (fun m => { m with keys := [] }) else s
  if 4 ≤ steps then
    setCount 0x8000 0x0F 0 ((s.modMire (fun m => { m with map := [], spaces := [], dieN := { m.dieN with journal := [] },
                                                           dieS := { m.dieS with journal := [] } })).modData (fun _ => {}))
  else s

/-- The transition fuse blown and the new state in force (20 R577; 22 R612): the record outlives the reboot in the standby staging. -/
def enterLife (target : Nat) (s : State) : State :=
  let old := lifeCycle s
  let s := setCount 0xC000 0x08 (countVal s 0xC000 0x08 24 - 1) (setCount 0xC000 0x01 target s)
  let s := setCount 0xC000 0x07 (if target = 5 then 15 else fuseEpoch s) s
  annal 0x0801 1 ownDevice srcStandby (toLE 1 old ++ toLE 1 target)
    (newChallenge (s.modIsland (fun i => { i with token := none, armed := 0 })))

/-- Step 5 of a clear: the fuse, and the reboot; a SCRAPPED device goes to STANDBY and stays there (20 R576, R578). -/
def finishClear (target : Nat) (s : State) : State :=
  let s := enterLife target s
  if target = 5 then toStandby 0 s else rebootMain 0 s

/-- A transition that clears secrets; with no epoch fuse left it goes to SCRAPPED instead (20 R578). The life cycle stays where a failure
ends the steps early (R579). (log 107, DEDUCED.) -/
def clearTo (target steps : Nat) (s : State) : State :=
  let target := if fuseEpoch s = 15 && !clearPending s then 5 else target
  if 5 ≤ steps then finishClear target (clearSteps 4 s) else clearSteps steps s

/-- The transitions of R577 with their demands: whether it is one, whether it needs the token, and whether it clears secrets. -/
def lifeRow (old target : Nat) : Option (Bool × Bool) :=
  if old != 5 && target = 5 then some (false, true)
  else if old = 0 && target = 1 then some (false, false)
  else if old = 1 && target = 2 then some (false, false)
  else if old = 2 && target = 3 then some (false, false)
  else if old = 2 && target = 1 then some (true, true)
  else if old = 3 && target = 4 then some (true, true)
  else if old = 4 && target = 1 then some (true, false)
  else none

/-- Whether the path may command a transition (20 R577): BLANK to MANUF by the test port, RETURN to MANUF by either, others by the
side-band, SECURED to DEPLOYED in a session under another key than the factory key. -/
def lifePath (s : State) (pa : Path) (old target : Nat) : Bool :=
  match pa with
  | .test => target = 1 && (old = 0 || old = 4)
  | .side port id =>
    if old = 0 && target = 1 then false
    else if old = 2 && target = 3 then s.dict.sessions.any (fun x => x.port = port && x.id = id && !x.factory)
    else true
  | _ => false

/-- What else a transition needs (20 R577). -/
def lifeReady (s : State) (old target : Nat) : Bool :=
  if target = 5 then 2 ≤ s.island.armed
  else if old = 1 && target = 2 then
    fwVerified s s.island.slotA && fwVerified s s.island.slotB && rwDom s 0xC001 0x04 (KMap.getD s.dict.blobs (okey 0xC001 0x04) []) != []
  else true

/-- The life-cycle command (20 R577 to R579). `steps` is 5 unless a power failure or reset ends a clear after fewer of its steps. -/
def lifeCommand (pa : Path) (target : Nat) (tokenOk : Bool) (steps : Nat) (s : State) : Status × State :=
  let old := lifeCycle s
  if !(s.dev.state = .config || s.dev.state = .recovery) then (.state, s)
  else match lifeRow old target with
    | none => (.range, s)
    | some (token, clears) =>
      if countVal s 0xC000 0x08 24 = 0 && target != 5 then (.range, s)
      else if !lifePath s pa old target || !lifeReady s old target then (.state, s)
      else if token && !(tokenForm s target && tokenOk) then (.state, bump 0xC000 0x06 1 s)
      else if clears then (.ok, clearTo target steps s)
      else (.ok, enterLife target s)

/-- A scrap arm write: only 0x5C, and twice (20 R577). -/
def scrapArm (v : Nat) (s : State) : Status × State :=
  if v = 0x5C then (.ok, s.modIsland (fun i => { i with armed := i.armed + 1 }))
  else (.range, s.modIsland (fun i => { i with armed := 0 }))

/-- The minimum SVN raised: not below the fused value and not above the running image's (20 R563). -/
def writeMinSvn (v : Nat) (s : State) : Status × State :=
  if v < countVal s 0xC003 0x02 0 || countVal s 0xC003 0x01 0 < v then (.range, s) else (.ok, setCount 0xC003 0x02 v s)

/-- Revocation bits blown; the write that would leave no usable key is refused (20 R563). -/
def revokeKeys (v : Nat) (s : State) : Status × State :=
  let n := countVal s 0xC003 0x03 0 ||| v
  if 15 < v || n = 15 then (.range, s) else (.ok, setCount 0xC003 0x03 n s)

/-- The side-band key installed (20 R575): in MANUF it is the factory key; once another has been installed in SECURED or DEPLOYED the factory
key is never accepted again. -/
def writeSideKey (key : Bytes) (s : State) : Status × State :=
  let l := lifeCycle s
  let inForce := countVal s 0xC020 0x02 1 = 1
  if !inForce && key = s.island.factory && s.island.factory != [] then (.range, s)
  else
    let s := installKeyAt 0 key s
    if l = 1 then (.ok, setCount 0xC020 0x02 1 (s.modIsland (fun i => { i with factory := key })))
    else if (l = 2 || l = 3) && key != s.island.factory then (.ok, setCount 0xC020 0x02 0 s)
    else (.ok, s)

/-- The nonce of the quote to be formed; a later one replaces it (20 R571). -/
def writeNonce (n : Bytes) (s : State) : State := s.modIsland (fun i => { i with nonce := some n })

/-- The first 448 bytes of a quote (20 R571). -/
def quoteBody (s : State) (nonce : Bytes) : Bytes :=
  padTo 16 Config.serial ++ toLE 1 (lifeCycle s) ++ toLE 1 (fuseEpoch s) ++ toLE 2 0 ++ toLE 4 (countVal s 0xC003 0x02 0)
  ++ toLE 4 (countVal s 0xC003 0x01 0) ++ toLE 4 0 ++ (List.range 8).flatMap (fun r => measureReg s r) ++ nonce

/-- The quote is formed and signed (20 R571). -/
def execQuoteReady (s : State) : Host.Outcome State Fault Refusal :=
  match s.island.nonce with
  | some n =>
    let b := quoteBody s n
    .next (setBlob 0xC010 0x0B (b ++ Config.ecdsaSign (fuseEpoch s) (Config.sha384 b)) (s.modIsland (fun i => { i with nonce := none })))
  | none => .next s

end Sys2Proof.Machine
end

