-- ==== Sys2Proof/Machine/Objects.lean ====
section
/-! DEFINITION. The objects of the dictionary: the definition of each object the index tables of spec/ list, and the search for the
object that an index and subindex name (02 R31 to R35, 23 R619, R620). -/

namespace Sys2Proof.Machine

/-- The types of 02 R33. -/
inductive Ty where
  | bool | u8 | u16 | u32 | u64 | i32 | f32 | ft64 | str | domain
deriving DecidableEq, Repr

/-- The access rights of 02 R34. -/
inductive Access where
  | ro | rw | wo | rws
deriving DecidableEq, Repr

/-- The owner and port classes of 02 R35. -/
inductive Cls where
  | host | side | fabric | device
deriving DecidableEq, Repr

/-- The values an object takes: a range that refuses with RANGE, or codes that refuse with RESERVED_ENCODING (00 R6,
02 R33). -/
inductive Valid where
  | any
  | range (lo hi : Nat)
  | rangeOr (lo hi other : Nat)
  | codes (l : List Nat)
  | pow2 (lo hi : Nat)
  | steps (lo hi step : Nat)
  | aligned (n : Nat)
  | reserved (hi lo : Nat)
  | tenBits
deriving DecidableEq, Repr

/-- The lengths a DOMAIN takes (02 R33). -/
inductive DLen where
  | any
  | exact (n : Nat)
  | upTo (n : Nat)
  | emptyOr (n : Nat)
  | units (size most : Nat)
deriving DecidableEq, Repr

/-- What reading or writing an object does. `plain` and `plainDomain` keep the value written, `count` and `blob` are
values the device sets, `fixed` always reads its default; every other kind has an operation of its own. -/
inductive Kind where
  | activeAlarms | annalsRecords | arrayValue | blob | bootCount | boundTerm | bufferInForce | carrAllocatable 
  | carrAllocated | carrClaimed | cellBase | cellCount | cellStates | certificate | chanAddress | chanStatus 
  | clearLocks | clearOverflows | columnMap | contextsClaimed | coreGens | coreMap | count | curveTable | cutMask 
  | cxlBase | cxlOwner | cxlSize | devCause | devChange | devCommand | devState | driverRange | effectiveCap 
  | engineGens | engineMap | enginesFailed | entryCommand | entryTable | epoch | exchangeAreas | exchangeLeast 
  | exchangeTerm | fallbackRole | filterBudget | fixed | flashKey | fmOut | freeEntries | freeProgram | freeRing 
  | freeStore | freeWords | ftAlarms | ftNow | ftState | fwCommand | groupMap | guaranteed | handoverAt 
  | harvestPeriod | heartbeatPaths | hotSet | identityKey | imageFile | imageId | indexAttr | indexBook 
  | indexCommand | indexState | indexValue | keyPresent | laneMap | lanternCapture | lanternCommand 
  | lanternConfig | lanternMarker | lanternState | lanternWatched | lastDump | latchedAlarms | lifeCommand 
  | linkKey | linkRate | linkState | linkWidth | lockTable | mac | mapRegion | minSvn | mireCommand | mirrorTerm 
  | movesPending | nextSequence | nonce | oldestAge | oldestKept | overdue | package | partCounter | partEnable 
  | plain | plainDomain | planning | plcaNode | policerCommit | portCause | portEnable | portPartner | portState 
  | portVersion | powerCap | preferred | primary | protectedBuffer | queueSample | rateAdjust | readBound 
  | refreshPeriod | refusalCounters | relock | resetPeaks | restrictedSlots | revocations | role | routeTable 
  | scrapArm | serial | serveAt | sessionsOpen | setFt | shaperCommit | sideKey | slack | slotBq | slotCommand 
  | slotFg | slotInstant | slotState | slotTerms | snapshot | spaceCommand | spaceFirst | spaceState 
  | spaceWritten | sramClaimed | stackValue | stepExponent | stagingOccupancy | staleBound | staleness | stepping | stoppedTiles 
  | storeClaim | storeGen | straps | suspendBound | sweepProgress | tSlot | tUpd | tableAttr | tableCommand 
  | tableCommit | tableState | testProgress | testStart | tierCommand | tierTable | tileMap | tilesClaimed 
  | timeRole | token | unpersisted | updateBacklog | updateState | vendor | vigilPeriod | vrmMap | weightCommit 
  | yellowReserve | zeroBlob | zeroDomain
deriving DecidableEq, Repr

/-- The definition of an object: the index at parameters zero, the step and count of each parameter, whether the first
parameter is a partition, the subindex, type, access, owner, default, whether it is storable, a recovery object,
staged (02 R41), written in CONFIG only, closed to partition mailboxes (03 R79, 04 R116), its kind and its values. -/
structure ObjDef where
  base     : Nat
  params   : List (Nat × Nat)
  byPart   : Bool
  sub      : Nat
  ty       : Ty
  acc      : Access
  owner    : Cls
  dflt     : Nat
  storable : Bool
  recovery : Bool
  staged   : Bool
  configOnly : Bool
  adminOnly : Bool
  kind     : Kind
  valid    : Valid
  dlen     : DLen
deriving DecidableEq, Repr

/-- The object HA driver range (chapter 02). -/
def objHaRange : ObjDef :=
  ⟨0x1011, [], false, 0x01, .u32, .rw, .host, 0, false, false, false, false, false, .driverRange, .any, .any⟩

/-- The object HB driver range (chapter 02). -/
def objHbRange : ObjDef :=
  ⟨0x1011, [], false, 0x02, .u32, .rw, .host, 0, false, false, false, false, false, .driverRange, .any, .any⟩

/-- The object preferred primary (chapter 02). -/
def objPreferred : ObjDef :=
  ⟨0x1020, [], false, 0x03, .u8, .rws, .host, 0, true, true, false, false, false, .preferred, .codes [0, 1], .any⟩

/-- The object handover at (chapter 02). -/
def objHandoverAt : ObjDef :=
  ⟨0x1020, [], false, 0x04, .ft64, .rws, .host, 0, false, true, false, false, false, .handoverAt, .any, .any⟩

/-- The object clear locks (chapter 02). -/
def objClearLocks : ObjDef :=
  ⟨0x1030, [], false, 0x02, .bool, .rws, .side, 0, false, true, false, false, false, .clearLocks, .any, .any⟩

/-- The object device command (chapter 02). -/
def objDevCommand : ObjDef :=
  ⟨0x2000, [], false, 0x02, .u8, .rws, .host, 0, false, true, false, false, false, .devCommand, .any, .any⟩

/-- The object enabled (chapter 03). -/
def objPartEnable : ObjDef :=
  ⟨0x3000, [(0x10, 32)], true, 0x01, .bool, .rw, .host, 0, true, false, false, false, true, .partEnable, .any, .any⟩

/-- The object slot command (chapter 03). -/
def objSlotCommand : ObjDef :=
  ⟨0x4000, [(0x4, 32), (0x1, 4)], true, 0x02, .u8, .rw, .host, 0, false, false, false, false, false, .slotCommand, .any, .any⟩

/-- The object reset peaks (chapter 04). -/
def objResetPeaks : ObjDef :=
  ⟨0x3002, [(0x10, 32)], true, 0x0A, .bool, .wo, .host, 0, false, false, false, false, true, .resetPeaks, .any, .any⟩

/-- The object shaper commit (chapter 04). -/
def objShaperCommit : ObjDef :=
  ⟨0x3003, [(0x10, 32)], true, 0x05, .bool, .wo, .host, 0, false, false, false, false, true, .shaperCommit, .any, .any⟩

/-- The object policer commit (chapter 04). -/
def objPolicerCommit : ObjDef :=
  ⟨0x3004, [(0x10, 32), (0x1, 4)], true, 0x06, .bool, .wo, .host, 0, false, false, false, false, true, .policerCommit, .any, .any⟩

/-- The object CXL window size (chapter 05). -/
def objCxlSize : ObjDef :=
  ⟨0x1070, [(0x1, 2)], false, 0x04, .u32, .rw, .host, 0, true, false, false, true, false, .cxlSize, .range 0 32768, .any⟩

/-- The object index command (chapter 06). -/
def objIndexCommand : ObjDef :=
  ⟨0x5000, [(0x20, 32), (0x2, 16)], true, 0x02, .u8, .rw, .host, 0, false, false, false, false, false, .indexCommand, .any, .any⟩

/-- The object tier command (chapter 14). -/
def objTierCommand : ObjDef :=
  ⟨0x6010, [(0x1, 32)], true, 0x01, .u8, .rw, .host, 0, false, false, false, false, false, .tierCommand, .any, .any⟩

/-- The object table command (chapter 14). -/
def objTableCommand : ObjDef :=
  ⟨0x6400, [(0x40, 32), (0x1, 64)], true, 0x02, .u8, .rw, .host, 0, false, false, false, false, false, .tableCommand, .any, .any⟩

/-- The object hot set (chapter 14). -/
def objHotSet : ObjDef :=
  ⟨0x6400, [(0x40, 32), (0x1, 64)], true, 0x0E, .domain, .rw, .host, 0, false, false, false, false, false, .hotSet, .any, .units 8 4294967295⟩

/-- The object clear overflows (chapter 15). -/
def objClearOverflows : ObjDef :=
  ⟨0x3009, [(0x10, 32)], true, 0x02, .domain, .wo, .host, 0, false, false, false, false, false, .clearOverflows, .any, .exact 256⟩

/-- The object cut-reset mask (chapter 15). -/
def objCutMask : ObjDef :=
  ⟨0x4000, [(0x4, 32), (0x1, 4)], true, 0x22, .domain, .rw, .host, 0, false, false, false, false, false, .cutMask, .any, .exact 256⟩

/-- The object table commit (chapter 16). -/
def objTableCommit : ObjDef :=
  ⟨0x7001, [], false, 0x03, .bool, .wo, .fabric, 0, false, false, false, false, false, .tableCommit, .any, .any⟩

/-- The object FM frame out (chapter 16). -/
def objFmOut : ObjDef :=
  ⟨0x7002, [], false, 0x01, .domain, .wo, .host, 0, false, false, false, false, false, .fmOut, .any, .any⟩

/-- The object port enable (chapter 16). -/
def objPortEnable : ObjDef :=
  ⟨0x7100, [(0x1, 64)], false, 0x13, .bool, .rws, .fabric, 1, true, false, false, false, false, .portEnable, .any, .any⟩

/-- The object relock (chapter 17). -/
def objRelock : ObjDef :=
  ⟨0x9000, [], false, 0x0D, .bool, .wo, .host, 0, false, false, false, false, false, .relock, .any, .any⟩

/-- The object set FT (chapter 17). -/
def objSetFt : ObjDef :=
  ⟨0x9000, [], false, 0x0E, .ft64, .wo, .side, 0, false, false, false, false, false, .setFt, .any, .any⟩

/-- The object entry command (chapter 17). -/
def objEntryCommand : ObjDef :=
  ⟨0x9010, [], false, 0x01, .u8, .rw, .host, 0, false, false, false, false, false, .entryCommand, .any, .any⟩

/-- The object Mire command (chapter 18). -/
def objMireCommand : ObjDef :=
  ⟨0x8000, [], false, 0x0E, .u8, .rw, .host, 0, false, false, false, false, false, .mireCommand, .any, .any⟩

/-- The object namespace command (chapter 18). -/
def objSpaceCommand : ObjDef :=
  ⟨0x8040, [(0x1, 256)], false, 0x02, .u8, .rw, .host, 0, false, false, false, false, false, .spaceCommand, .any, .any⟩

/-- The object flash key (chapter 18). -/
def objFlashKey : ObjDef :=
  ⟨0x8200, [(0x1, 32)], true, 0x01, .domain, .wo, .host, 0, false, false, false, false, false, .flashKey, .any, .exact 64⟩

/-- The object firmware command (chapter 19). -/
def objFwCommand : ObjDef :=
  ⟨0xA010, [], false, 0x02, .u8, .rw, .host, 0, false, false, false, false, false, .fwCommand, .any, .any⟩

/-- The object serve at (chapter 19). -/
def objServeAt : ObjDef :=
  ⟨0xA030, [], false, 0x01, .ft64, .wo, .host, 0, false, false, false, false, false, .serveAt, .any, .any⟩

/-- The object life-cycle command (chapter 20). -/
def objLifeCommand : ObjDef :=
  ⟨0xC000, [], false, 0x02, .u8, .rw, .side, 255, false, false, false, false, false, .lifeCommand, .any, .any⟩

/-- The object unlock token (chapter 20). -/
def objToken : ObjDef :=
  ⟨0xC000, [], false, 0x04, .domain, .wo, .side, 0, false, false, false, false, false, .token, .any, .exact 160⟩

/-- The object scrap arm (chapter 20). -/
def objScrapArm : ObjDef :=
  ⟨0xC000, [], false, 0x05, .u8, .wo, .side, 0, false, false, false, false, false, .scrapArm, .any, .any⟩

/-- The object minimum SVN (chapter 20). -/
def objMinSvn : ObjDef :=
  ⟨0xC003, [], false, 0x02, .u32, .rw, .side, 0, false, false, false, false, false, .minSvn, .any, .any⟩

/-- The object key revocations (chapter 20). -/
def objRevocations : ObjDef :=
  ⟨0xC003, [], false, 0x03, .u8, .rw, .side, 0, false, false, false, false, false, .revocations, .any, .any⟩

/-- The object quote nonce (chapter 20). -/
def objNonce : ObjDef :=
  ⟨0xC010, [], false, 0x0A, .domain, .wo, .host, 0, false, false, false, false, false, .nonce, .any, .exact 32⟩

/-- The object side-band key (chapter 20). -/
def objSideKey : ObjDef :=
  ⟨0xC020, [], false, 0x01, .domain, .wo, .side, 0, false, false, false, false, false, .sideKey, .any, .exact 32⟩

/-- The object test start (chapter 20). -/
def objTestStart : ObjDef :=
  ⟨0xD000, [], false, 0x01, .u8, .rw, .host, 0, false, false, false, false, false, .testStart, .any, .any⟩

/-- The object power cap (chapter 21). -/
def objPowerCap : ObjDef :=
  ⟨0x2010, [], false, 0x01, .u16, .rws, .host, 2000, true, true, false, false, false, .powerCap, .range 1150 2000, .any⟩

/-- The object planned cap (chapter 21). -/
def objPlannedCap : ObjDef :=
  ⟨0x2010, [], false, 0x02, .u16, .rw, .host, 2000, true, false, false, false, false, .plain, .range 1150 2000, .any⟩

/-- The object latched alarms (chapter 22). -/
def objLatchedAlarms : ObjDef :=
  ⟨0xA040, [], false, 0x02, .u32, .rws, .host, 0, false, false, false, false, false, .latchedAlarms, .any, .any⟩

/-- The object Lantern command (chapter 22). -/
def objLanternCommand : ObjDef :=
  ⟨0xE000, [(0x1, 2)], false, 0x01, .u8, .rw, .host, 0, false, false, false, false, false, .lanternCommand, .any, .any⟩

/-- The object marker (chapter 22). -/
def objLanternMarker : ObjDef :=
  ⟨0xE000, [(0x1, 2)], false, 0x0F, .u64, .wo, .host, 0, false, false, false, false, false, .lanternMarker, .any, .any⟩

/-- Objects of range 0x1000. -/
def objects1_0 : List ObjDef := [
  ⟨0x1000, [], false, 0x01, .str, .ro, .device, 0, false, false, false, false, false, .vendor, .any, .any⟩,
  ⟨0x1000, [], false, 0x02, .u32, .ro, .device, 28992, false, false, false, false, false, .fixed, .any, .any⟩,
  ⟨0x1000, [], false, 0x03, .u16, .ro, .device, 0, false, false, false, false, false, .stepping, .any, .any⟩,
  ⟨0x1000, [], false, 0x04, .str, .ro, .device, 0, false, false, false, false, false, .serial, .any, .any⟩,
  ⟨0x1010, [], false, 0x01, .u32, .ro, .device, 16777472, false, false, false, false, false, .fixed, .any, .any⟩,
  ⟨0x1010, [], false, 0x02, .u32, .ro, .device, 16777472, false, false, false, false, false, .fixed, .any, .any⟩,
  ⟨0x1010, [], false, 0x03, .u32, .ro, .device, 16777472, false, false, false, false, false, .fixed, .any, .any⟩,
  ⟨0x1010, [], false, 0x04, .u32, .ro, .device, 16777472, false, false, false, false, false, .fixed, .any, .any⟩,
  ⟨0x1010, [], false, 0x05, .u32, .ro, .device, 16777472, false, false, false, false, false, .fixed, .any, .any⟩,
  ⟨0x1010, [], false, 0x06, .u32, .ro, .device, 16777472, false, false, false, false, false, .fixed, .any, .any⟩,
  objHaRange,
  objHbRange,
  ⟨0x1011, [], false, 0x03, .u16, .ro, .device, 0, false, false, false, false, false, .count, .any, .any⟩,
  ⟨0x1011, [], false, 0x04, .u16, .ro, .device, 0, false, false, false, false, false, .count, .any, .any⟩,
  ⟨0x1020, [], false, 0x01, .u8, .ro, .device, 0, false, false, false, false, false, .primary, .any, .any⟩,
  ⟨0x1020, [], false, 0x02, .u32, .ro, .device, 0, false, false, false, false, false, .epoch, .any, .any⟩,
  objPreferred,
  objHandoverAt,
  ⟨0x1020, [], false, 0x05, .u8, .ro, .device, 3, false, false, false, false, false, .heartbeatPaths, .any, .any⟩,
  ⟨0x1020, [], false, 0x06, .u32, .ro, .device, 0, false, false, false, false, false, .count, .any, .any⟩,
  ⟨0x1020, [], false, 0x07, .u32, .ro, .device, 0, false, false, false, false, false, .count, .any, .any⟩,
  ⟨0x1030, [], false, 0x01, .domain, .ro, .device, 0, false, false, false, false, false, .lockTable, .any, .any⟩,
  objClearLocks,
  ⟨0x1040, [], false, 0x01, .u8, .rws, .host, 0, true, false, false, false, false, .plcaNode, .any, .any⟩,
  ⟨0x1040, [], false, 0x02, .u8, .rws, .host, 0, true, false, false, false, false, .plcaNode, .any, .any⟩,
  ⟨0x1040, [], false, 0x03, .u8, .rws, .host, 8, true, false, false, false, false, .plain, .any, .any⟩,
  ⟨0x1040, [], false, 0x04, .u16, .rws, .host, 47110, true, false, false, false, false, .plain, .any, .any⟩,
  ⟨0x1040, [], false, 0x05, .u64, .ro, .device, 0, false, false, false, false, false, .mac, .any, .any⟩,
  ⟨0x1040, [], false, 0x06, .domain, .rws, .host, 0, true, false, false, false, false, .plainDomain, .any, .emptyOr 16⟩,
  ⟨0x1040, [], false, 0x07, .u8, .ro, .device, 0, false, false, false, false, false, .sessionsOpen, .any, .any⟩,
  ⟨0x1040, [], false, 0x08, .u32, .ro, .device, 0, false, false, false, false, false, .count, .any, .any⟩,
  ⟨0x1050, [], false, 0x01, .u16, .rw, .host, 65535, false, false, false, false, false, .plain, .any, .any⟩,
  ⟨0x1050, [], false, 0x02, .u32, .ro, .device, 0, false, false, false, false, false, .count, .any, .any⟩,
  ⟨0x1060, [], false, 0x01, .u32, .ro, .device, 0, false, false, false, false, false, .storeGen, .any, .any⟩,
  ⟨0x1070, [(0x1, 2)], false, 0x01, .u8, .ro, .device, 0, false, false, false, false, false, .linkState, .any, .any⟩,
  ⟨0x1070, [(0x1, 2)], false, 0x02, .u8, .ro, .device, 0, false, false, false, false, false, .linkWidth, .any, .any⟩,
  ⟨0x1070, [(0x1, 2)], false, 0x03, .u8, .ro, .device, 0, false, false, false, false, false, .linkRate, .any, .any⟩,
  objCxlSize,
  ⟨0x1070, [(0x1, 2)], false, 0x05, .u8, .rw, .host, 32, true, false, false, true, false, .cxlOwner, .range 0 32, .any⟩,
  ⟨0x1070, [(0x1, 2)], false, 0x06, .u64, .ro, .device, 0, false, false, false, false, false, .cxlBase, .any, .any⟩]

/-- Objects of range 0x1000. -/
def objects1_1 : List ObjDef := [
  ⟨0x1070, [(0x1, 2)], false, 0x07, .u64, .ro, .device, 0, false, false, false, false, false, .count, .any, .any⟩,
  ⟨0x1070, [(0x1, 2)], false, 0x08, .u64, .ro, .device, 0, false, false, false, false, false, .count, .any, .any⟩,
  ⟨0x1070, [(0x1, 2)], false, 0x09, .u64, .ro, .device, 0, false, false, false, false, false, .count, .any, .any⟩,
  ⟨0x1070, [(0x1, 2)], false, 0x0A, .u64, .ro, .device, 0, false, false, false, false, false, .count, .any, .any⟩,
  ⟨0x1070, [(0x1, 2)], false, 0x0B, .u32, .ro, .device, 0, false, false, false, false, false, .count, .any, .any⟩,
  ⟨0x1070, [(0x1, 2)], false, 0x0C, .u32, .ro, .device, 0, false, false, false, false, false, .count, .any, .any⟩,
  ⟨0x1070, [(0x1, 2)], false, 0x0D, .u32, .ro, .device, 0, false, false, false, false, false, .count, .any, .any⟩,
  ⟨0x1070, [(0x1, 2)], false, 0x0E, .u32, .ro, .device, 0, false, false, false, false, false, .count, .any, .any⟩,
  ⟨0x1060, [], false, 0x02, .u32, .ro, .device, 0, false, false, false, false, false, .count, .any, .any⟩]

/-- Objects of range 0x2000. -/
def objects2_0 : List ObjDef := [
  ⟨0x2000, [], false, 0x01, .u8, .ro, .device, 0, false, false, false, false, false, .devState, .any, .any⟩,
  objDevCommand,
  ⟨0x2000, [], false, 0x03, .u8, .ro, .device, 0, false, false, false, false, false, .devCause, .any, .any⟩,
  ⟨0x2000, [], false, 0x04, .ft64, .ro, .device, 0, false, false, false, false, false, .devChange, .any, .any⟩,
  ⟨0x2001, [], false, 0x01, .u8, .rw, .host, 3, true, false, false, false, false, .role, .codes [1, 2, 3, 4], .any⟩,
  ⟨0x2008, [], false, 0x01, .u32, .rw, .host, 10000, true, false, false, false, false, .plain, .any, .any⟩,
  ⟨0x2008, [], false, 0x02, .u64, .ro, .device, 0, false, false, false, false, false, .stoppedTiles, .any, .any⟩,
  objPowerCap,
  objPlannedCap,
  ⟨0x2010, [], false, 0x03, .u16, .ro, .device, 2000, false, false, false, false, false, .guaranteed, .any, .any⟩,
  ⟨0x2010, [], false, 0x04, .u16, .ro, .device, 2000, false, false, false, false, false, .planning, .any, .any⟩,
  ⟨0x2010, [], false, 0x05, .domain, .ro, .device, 0, false, false, false, false, false, .curveTable, .any, .any⟩,
  ⟨0x2010, [], false, 0x06, .u16, .ro, .device, 0, false, false, false, false, false, .count, .any, .any⟩,
  ⟨0x2010, [], false, 0x07, .u16, .ro, .device, 0, false, false, false, false, false, .count, .any, .any⟩,
  ⟨0x2010, [], false, 0x08, .domain, .ro, .device, 0, false, false, false, false, false, .restrictedSlots, .any, .any⟩,
  ⟨0x2010, [], false, 0x09, .u16, .ro, .device, 2000, false, false, false, false, false, .effectiveCap, .any, .any⟩,
  ⟨0x2020, [], false, 0x01, .i32, .ro, .device, 0, false, false, false, false, false, .count, .any, .any⟩,
  ⟨0x2020, [], false, 0x02, .u8, .ro, .device, 0, false, false, false, false, false, .count, .any, .any⟩,
  ⟨0x2020, [], false, 0x03, .u16, .ro, .device, 0, false, false, false, false, false, .count, .any, .any⟩,
  ⟨0x2020, [], false, 0x04, .u32, .ro, .device, 0, false, false, false, false, false, .count, .any, .any⟩,
  ⟨0x2020, [], false, 0x05, .u32, .ro, .device, 0, false, false, false, false, false, .count, .any, .any⟩,
  ⟨0x2020, [], false, 0x06, .domain, .ro, .device, 0, false, false, false, false, false, .zeroBlob, .any, .exact 216⟩,
  ⟨0x2030, [], false, 0x01, .domain, .rw, .host, 0, true, false, false, false, false, .vrmMap, .any, .exact 20⟩,
  ⟨0x2030, [], false, 0x02, .domain, .ro, .device, 0, false, false, false, false, false, .zeroBlob, .any, .exact 40⟩,
  ⟨0x2030, [], false, 0x03, .u32, .ro, .device, 0, false, false, false, false, false, .count, .any, .any⟩,
  ⟨0x2040, [], false, 0x01, .u16, .ro, .device, 0, false, false, false, false, false, .straps, .any, .any⟩,
  ⟨0x2040, [], false, 0x02, .u8, .ro, .device, 0, false, false, false, false, false, .count, .any, .any⟩]

/-- Objects of range 0x3000. -/
def objects3_0 : List ObjDef := [
  objPartEnable,
  ⟨0x3000, [(0x10, 32)], true, 0x02, .u8, .rw, .host, 0, true, false, false, false, true, .plain, .range 0 40, .any⟩,
  ⟨0x3000, [(0x10, 32)], true, 0x03, .u32, .rw, .host, 0, true, false, false, false, true, .plain, .any, .any⟩,
  ⟨0x3000, [(0x10, 32)], true, 0x04, .u32, .rw, .host, 0, true, false, false, false, true, .plain, .any, .any⟩,
  ⟨0x3000, [(0x10, 32)], true, 0x05, .u16, .rw, .host, 0, true, false, false, false, true, .plain, .range 0 40960, .any⟩,
  ⟨0x3000, [(0x10, 32)], true, 0x06, .u16, .rw, .host, 0, true, false, false, false, true, .plain, .range 0 640, .any⟩,
  ⟨0x3000, [(0x10, 32)], true, 0x07, .domain, .rw, .host, 0, true, false, false, false, true, .plainDomain, .any, .exact 97⟩,
  ⟨0x3000, [(0x10, 32)], true, 0x08, .u32, .ro, .device, 0, false, false, false, false, false, .count, .any, .any⟩,
  ⟨0x3000, [(0x10, 32)], true, 0x09, .u8, .ro, .device, 0, false, false, false, false, false, .tilesClaimed, .any, .any⟩,
  ⟨0x3000, [(0x10, 32)], true, 0x0A, .u32, .ro, .device, 0, false, false, false, false, false, .sramClaimed, .any, .any⟩,
  ⟨0x3000, [(0x10, 32)], true, 0x0B, .u32, .ro, .device, 0, false, false, false, false, false, .carrClaimed, .any, .any⟩,
  ⟨0x3000, [(0x10, 32)], true, 0x0C, .u16, .ro, .device, 0, false, false, false, false, false, .contextsClaimed, .any, .any⟩,
  ⟨0x3000, [(0x10, 32)], true, 0x0F, .u16, .rw, .host, 65535, false, false, false, false, false, .plain, .any, .any⟩,
  ⟨0x3000, [(0x10, 32)], true, 0x0D, .u32, .rw, .host, 1000, true, false, false, false, true, .boundTerm, .range 100 100000, .any⟩,
  ⟨0x3000, [(0x10, 32)], true, 0x0E, .u8, .rw, .host, 4, true, false, false, false, true, .boundTerm, .range 1 16, .any⟩,
  ⟨0x3001, [(0x10, 32)], true, 0x01, .u32, .rw, .host, 1000000, true, false, false, false, true, .staleness, .any, .any⟩,
  ⟨0x3001, [(0x10, 32)], true, 0x02, .u32, .rw, .host, 1000, true, false, false, false, true, .plain, .range 100 1000000, .any⟩,
  ⟨0x3001, [(0x10, 32)], true, 0x03, .u8, .rw, .host, 1, true, false, false, false, true, .yellowReserve, .any, .any⟩,
  ⟨0x3001, [(0x10, 32)], true, 0x04, .u8, .ro, .device, 0, false, false, false, false, false, .updateState, .any, .any⟩,
  ⟨0x3001, [(0x10, 32)], true, 0x05, .u32, .ro, .device, 0, false, false, false, false, false, .updateBacklog, .any, .any⟩,
  ⟨0x3001, [(0x10, 32)], true, 0x06, .i32, .ro, .device, 2147483647, false, false, false, false, false, .slack, .any, .any⟩,
  ⟨0x3001, [(0x10, 32)], true, 0x07, .u32, .ro, .device, 0, false, false, false, false, false, .tUpd, .any, .any⟩,
  ⟨0x3001, [(0x10, 32)], true, 0x08, .u32, .ro, .device, 0, false, false, false, false, false, .count, .any, .any⟩,
  ⟨0x3002, [(0x10, 32)], true, 0x01, .u64, .ro, .device, 0, false, false, false, false, false, .queueSample, .any, .any⟩,
  ⟨0x3002, [(0x10, 32)], true, 0x02, .u64, .ro, .device, 0, false, false, false, false, false, .queueSample, .any, .any⟩,
  ⟨0x3002, [(0x10, 32)], true, 0x03, .u64, .ro, .device, 0, false, false, false, false, false, .queueSample, .any, .any⟩,
  ⟨0x3002, [(0x10, 32)], true, 0x04, .u64, .ro, .device, 0, false, false, false, false, false, .queueSample, .any, .any⟩,
  ⟨0x3002, [(0x10, 32)], true, 0x05, .u64, .ro, .device, 0, false, false, false, false, false, .queueSample, .any, .any⟩,
  ⟨0x3002, [(0x10, 32)], true, 0x06, .u64, .ro, .device, 0, false, false, false, false, false, .queueSample, .any, .any⟩,
  ⟨0x3002, [(0x10, 32)], true, 0x07, .u64, .ro, .device, 0, false, false, false, false, false, .queueSample, .any, .any⟩,
  ⟨0x3002, [(0x10, 32)], true, 0x08, .u64, .ro, .device, 0, false, false, false, false, false, .queueSample, .any, .any⟩,
  ⟨0x3002, [(0x10, 32)], true, 0x09, .u64, .ro, .device, 0, false, false, false, false, false, .queueSample, .any, .any⟩,
  objResetPeaks,
  ⟨0x3003, [(0x10, 32)], true, 0x01, .u32, .rw, .host, 0, true, false, true, false, true, .plain, .any, .any⟩,
  ⟨0x3003, [(0x10, 32)], true, 0x02, .u32, .rw, .host, 65536, true, false, true, false, true, .plain, .any, .any⟩,
  ⟨0x3003, [(0x10, 32)], true, 0x03, .u32, .rw, .host, 0, true, false, true, false, true, .plain, .any, .any⟩,
  ⟨0x3003, [(0x10, 32)], true, 0x04, .u32, .rw, .host, 65536, true, false, true, false, true, .plain, .any, .any⟩,
  objShaperCommit,
  ⟨0x3003, [(0x10, 32)], true, 0x06, .u32, .ro, .device, 0, false, false, false, false, false, .count, .any, .any⟩,
  ⟨0x3004, [(0x10, 32), (0x1, 4)], true, 0x01, .u8, .rw, .host, 0, true, false, true, false, true, .plain, .codes [0, 1], .any⟩]

/-- Objects of range 0x3000. -/
def objects3_1 : List ObjDef := [
  ⟨0x3004, [(0x10, 32), (0x1, 4)], true, 0x02, .u32, .rw, .host, 0, true, false, true, false, true, .plain, .any, .any⟩,
  ⟨0x3004, [(0x10, 32), (0x1, 4)], true, 0x03, .u32, .rw, .host, 0, true, false, true, false, true, .plain, .any, .any⟩,
  ⟨0x3004, [(0x10, 32), (0x1, 4)], true, 0x04, .u32, .rw, .host, 0, true, false, true, false, true, .plain, .any, .any⟩,
  ⟨0x3004, [(0x10, 32), (0x1, 4)], true, 0x05, .u32, .rw, .host, 0, true, false, true, false, true, .plain, .any, .any⟩,
  objPolicerCommit,
  ⟨0x3004, [(0x10, 32), (0x1, 4)], true, 0x07, .u64, .ro, .device, 0, false, false, false, false, false, .count, .any, .any⟩,
  ⟨0x3004, [(0x10, 32), (0x1, 4)], true, 0x08, .u64, .ro, .device, 0, false, false, false, false, false, .count, .any, .any⟩,
  ⟨0x3004, [(0x10, 32), (0x1, 4)], true, 0x09, .u64, .ro, .device, 0, false, false, false, false, false, .count, .any, .any⟩,
  ⟨0x3004, [(0x10, 32), (0x1, 4)], true, 0x0A, .u64, .ro, .device, 0, false, false, false, false, false, .count, .any, .any⟩,
  ⟨0x3008, [(0x10, 32)], true, 0x01, .bool, .rw, .host, 1, true, false, false, false, false, .plain, .any, .any⟩,
  ⟨0x3000, [(0x10, 32)], true, 0x10, .u32, .rw, .host, 100, true, false, false, false, false, .plain, .range 0 1000000, .any⟩,
  ⟨0x3000, [(0x10, 32)], true, 0x11, .u64, .rw, .host, 0, true, false, false, false, false, .plain, .any, .any⟩,
  ⟨0x3000, [(0x10, 32)], true, 0x12, .u64, .ro, .device, 0, false, false, false, false, false, .count, .any, .any⟩,
  ⟨0x3000, [(0x10, 32)], true, 0x13, .u8, .rw, .host, 3, true, false, false, false, false, .plain, .range 0 15, .any⟩,
  ⟨0x3000, [(0x10, 32)], true, 0x14, .u64, .ro, .device, 0, false, false, false, false, false, .count, .any, .any⟩,
  ⟨0x3000, [(0x10, 32)], true, 0x15, .bool, .rw, .host, 0, true, false, false, false, false, .plain, .any, .any⟩,
  ⟨0x3000, [(0x10, 32)], true, 0x16, .u64, .ro, .device, 0, false, false, false, false, false, .count, .any, .any⟩,
  ⟨0x3000, [(0x10, 32)], true, 0x17, .u64, .ro, .device, 0, false, false, false, false, false, .count, .any, .any⟩,
  ⟨0x3009, [(0x10, 32)], true, 0x01, .domain, .ro, .device, 0, false, false, false, false, false, .cellStates, .any, .any⟩,
  objClearOverflows,
  ⟨0x3000, [(0x10, 32)], true, 0x18, .bool, .rw, .host, 0, true, false, false, false, false, .plain, .any, .any⟩]

/-- Objects of range 0x4000. -/
def objects4_0 : List ObjDef := [
  ⟨0x4000, [(0x4, 32), (0x1, 4)], true, 0x01, .domain, .wo, .host, 0, false, false, false, false, false, .imageFile, .any, .upTo 67108864⟩,
  objSlotCommand,
  ⟨0x4000, [(0x4, 32), (0x1, 4)], true, 0x03, .u8, .ro, .device, 0, false, false, false, false, false, .slotState, .any, .any⟩,
  ⟨0x4000, [(0x4, 32), (0x1, 4)], true, 0x04, .u8, .ro, .device, 0, false, false, false, false, false, .count, .any, .any⟩,
  ⟨0x4000, [(0x4, 32), (0x1, 4)], true, 0x05, .u16, .ro, .device, 65535, false, false, false, false, false, .count, .any, .any⟩,
  ⟨0x4000, [(0x4, 32), (0x1, 4)], true, 0x06, .ft64, .rw, .host, 0, false, false, false, false, false, .slotInstant, .any, .any⟩,
  ⟨0x4000, [(0x4, 32), (0x1, 4)], true, 0x07, .u8, .rw, .host, 0, false, false, false, false, false, .plain, .range 0 3, .any⟩,
  ⟨0x4000, [(0x4, 32), (0x1, 4)], true, 0x08, .u8, .rw, .host, 255, false, false, false, false, false, .plain, .rangeOr 0 3 255, .any⟩,
  ⟨0x4000, [(0x4, 32), (0x1, 4)], true, 0x09, .ft64, .rw, .host, 0, false, false, false, false, false, .slotInstant, .any, .any⟩,
  ⟨0x4000, [(0x4, 32), (0x1, 4)], true, 0x0A, .u8, .ro, .device, 0, false, false, false, false, false, .bufferInForce, .any, .any⟩,
  ⟨0x4000, [(0x4, 32), (0x1, 4)], true, 0x0B, .u16, .ro, .device, 0, false, false, false, false, false, .tSlot, .any, .any⟩,
  ⟨0x4000, [(0x4, 32), (0x1, 4)], true, 0x0C, .u16, .ro, .device, 0, false, false, false, false, false, .slotFg, .any, .any⟩,
  ⟨0x4000, [(0x4, 32), (0x1, 4)], true, 0x0D, .u32, .ro, .device, 0, false, false, false, false, false, .slotTerms, .any, .any⟩,
  ⟨0x4000, [(0x4, 32), (0x1, 4)], true, 0x0E, .u16, .ro, .device, 0, false, false, false, false, false, .slotBq, .any, .any⟩,
  ⟨0x4000, [(0x4, 32), (0x1, 4)], true, 0x0F, .u64, .ro, .device, 0, false, false, false, false, false, .imageId, .any, .any⟩,
  ⟨0x4000, [(0x4, 32), (0x1, 4)], true, 0x10, .u32, .ro, .device, 0, false, false, false, false, false, .count, .any, .any⟩,
  ⟨0x4080, [(0x4, 32), (0x1, 4)], true, 0x01, .domain, .ro, .device, 0, false, false, false, false, false, .tileMap, .any, .any⟩,
  ⟨0x4100, [(0x4, 32), (0x1, 4)], true, 0x01, .u32, .ro, .device, 2, false, false, false, false, false, .mirrorTerm, .any, .any⟩,
  ⟨0x4100, [(0x4, 32), (0x1, 4)], true, 0x02, .u8, .ro, .device, 4, false, false, false, false, false, .mirrorTerm, .any, .any⟩,
  ⟨0x4100, [(0x4, 32), (0x1, 4)], true, 0x03, .u8, .ro, .device, 0, false, false, false, false, false, .mirrorTerm, .any, .any⟩,
  ⟨0x4100, [(0x4, 32), (0x1, 4)], true, 0x04, .u32, .ro, .device, 0, false, false, false, false, false, .mirrorTerm, .any, .any⟩,
  ⟨0x4100, [(0x4, 32), (0x1, 4)], true, 0x05, .u8, .ro, .device, 0, false, false, false, false, false, .mirrorTerm, .any, .any⟩,
  ⟨0x4100, [(0x4, 32), (0x1, 4)], true, 0x06, .u32, .ro, .device, 40, false, false, false, false, false, .mirrorTerm, .any, .any⟩,
  ⟨0x4100, [(0x4, 32), (0x1, 4)], true, 0x07, .u8, .ro, .device, 0, false, false, false, false, false, .mirrorTerm, .any, .any⟩,
  ⟨0x4100, [(0x4, 32), (0x1, 4)], true, 0x08, .u32, .ro, .device, 70, false, false, false, false, false, .mirrorTerm, .any, .any⟩,
  ⟨0x4100, [(0x4, 32), (0x1, 4)], true, 0x09, .u8, .ro, .device, 2, false, false, false, false, false, .mirrorTerm, .any, .any⟩,
  ⟨0x4100, [(0x4, 32), (0x1, 4)], true, 0x0A, .u32, .ro, .device, 30, false, false, false, false, false, .mirrorTerm, .any, .any⟩,
  ⟨0x4100, [(0x4, 32), (0x1, 4)], true, 0x0B, .u8, .ro, .device, 0, false, false, false, false, false, .mirrorTerm, .any, .any⟩,
  ⟨0x4100, [(0x4, 32), (0x1, 4)], true, 0x0C, .u32, .ro, .device, 90, false, false, false, false, false, .mirrorTerm, .any, .any⟩,
  ⟨0x4100, [(0x4, 32), (0x1, 4)], true, 0x0D, .u32, .ro, .device, 2, false, false, false, false, false, .mirrorTerm, .any, .any⟩,
  ⟨0x4100, [(0x4, 32), (0x1, 4)], true, 0x0E, .u32, .ro, .device, 0, false, false, false, false, false, .mirrorTerm, .any, .any⟩,
  ⟨0x4000, [(0x4, 32), (0x1, 4)], true, 0x11, .u64, .ro, .device, 0, false, false, false, false, false, .count, .any, .any⟩,
  ⟨0x4000, [(0x4, 32), (0x1, 4)], true, 0x12, .u64, .ro, .device, 0, false, false, false, false, false, .count, .any, .any⟩,
  ⟨0x4000, [(0x4, 32), (0x1, 4)], true, 0x13, .u64, .ro, .device, 0, false, false, false, false, false, .count, .any, .any⟩,
  ⟨0x4000, [(0x4, 32), (0x1, 4)], true, 0x14, .u64, .ro, .device, 0, false, false, false, false, false, .count, .any, .any⟩,
  ⟨0x4000, [(0x4, 32), (0x1, 4)], true, 0x15, .u32, .ro, .device, 0, false, false, false, false, false, .filterBudget, .any, .any⟩,
  ⟨0x4000, [(0x4, 32), (0x1, 4)], true, 0x16, .u32, .ro, .device, 0, false, false, false, false, false, .count, .any, .any⟩,
  ⟨0x4000, [(0x4, 32), (0x1, 4)], true, 0x17, .u32, .ro, .device, 0, false, false, false, false, false, .storeClaim, .any, .any⟩,
  ⟨0x4000, [(0x4, 32), (0x1, 4)], true, 0x18, .u64, .ro, .device, 0, false, false, false, false, false, .count, .any, .any⟩,
  ⟨0x4000, [(0x4, 32), (0x1, 4)], true, 0x19, .u64, .ro, .device, 0, false, false, false, false, false, .count, .any, .any⟩]

/-- Objects of range 0x4000. -/
def objects4_1 : List ObjDef := [
  ⟨0x4000, [(0x4, 32), (0x1, 4)], true, 0x1A, .u64, .ro, .device, 0, false, false, false, false, false, .count, .any, .any⟩,
  ⟨0x4000, [(0x4, 32), (0x1, 4)], true, 0x1B, .u64, .ro, .device, 0, false, false, false, false, false, .count, .any, .any⟩,
  ⟨0x4000, [(0x4, 32), (0x1, 4)], true, 0x1C, .u64, .ro, .device, 0, false, false, false, false, false, .count, .any, .any⟩,
  ⟨0x4000, [(0x4, 32), (0x1, 4)], true, 0x1D, .u64, .ro, .device, 0, false, false, false, false, false, .count, .any, .any⟩,
  ⟨0x4000, [(0x4, 32), (0x1, 4)], true, 0x1E, .u32, .ro, .device, 0, false, false, false, false, false, .count, .any, .any⟩,
  ⟨0x4000, [(0x4, 32), (0x1, 4)], true, 0x1F, .u64, .ro, .device, 0, false, false, false, false, false, .count, .any, .any⟩,
  ⟨0x4000, [(0x4, 32), (0x1, 4)], true, 0x20, .u16, .ro, .device, 0, false, false, false, false, false, .cellBase, .any, .any⟩,
  ⟨0x4000, [(0x4, 32), (0x1, 4)], true, 0x21, .u16, .ro, .device, 0, false, false, false, false, false, .cellCount, .any, .any⟩,
  objCutMask,
  ⟨0x4000, [(0x4, 32), (0x1, 4)], true, 0x23, .u32, .rw, .host, 0, false, false, false, false, false, .plain, .any, .any⟩,
  ⟨0x4000, [(0x4, 32), (0x1, 4)], true, 0x24, .u8, .ro, .device, 0, false, false, false, false, false, .count, .any, .any⟩,
  ⟨0x4000, [(0x4, 32), (0x1, 4)], true, 0x25, .u8, .rw, .host, 0, false, false, false, false, false, .fallbackRole, .codes [0, 1], .any⟩]

/-- Objects of range 0x5000. -/
def objects5_0 : List ObjDef := [
  ⟨0x5000, [(0x20, 32), (0x2, 16)], true, 0x01, .u8, .ro, .device, 0, false, false, false, false, false, .indexState, .any, .any⟩,
  objIndexCommand,
  ⟨0x5000, [(0x20, 32), (0x2, 16)], true, 0x03, .u8, .rw, .host, 0, true, false, false, false, false, .indexAttr, .codes [0, 1, 2], .any⟩,
  ⟨0x5000, [(0x20, 32), (0x2, 16)], true, 0x04, .u16, .rw, .host, 256, true, false, false, false, false, .indexAttr, .steps 128 1024 128, .any⟩,
  ⟨0x5000, [(0x20, 32), (0x2, 16)], true, 0x05, .u8, .rw, .host, 1, true, false, false, false, false, .indexAttr, .codes [1, 2], .any⟩,
  ⟨0x5000, [(0x20, 32), (0x2, 16)], true, 0x06, .bool, .rw, .host, 1, true, false, false, false, false, .indexAttr, .any, .any⟩,
  ⟨0x5000, [(0x20, 32), (0x2, 16)], true, 0x07, .u8, .rw, .host, 1, true, false, false, false, false, .indexAttr, .codes [0, 1, 2, 3], .any⟩,
  ⟨0x5000, [(0x20, 32), (0x2, 16)], true, 0x08, .u8, .rw, .host, 0, true, false, false, false, false, .indexAttr, .codes [0, 1], .any⟩,
  ⟨0x5000, [(0x20, 32), (0x2, 16)], true, 0x09, .u32, .rw, .host, 1, true, false, false, false, false, .indexAttr, .range 1 1048576, .any⟩,
  ⟨0x5000, [(0x20, 32), (0x2, 16)], true, 0x0A, .u16, .rw, .host, 1, true, false, false, false, false, .indexAttr, .range 1 512, .any⟩,
  ⟨0x5000, [(0x20, 32), (0x2, 16)], true, 0x0B, .u16, .rw, .host, 2048, true, false, false, false, false, .indexAttr, .range 64 16384, .any⟩,
  ⟨0x5000, [(0x20, 32), (0x2, 16)], true, 0x0C, .u16, .rw, .host, 128, true, false, false, false, false, .indexAttr, .range 1 1024, .any⟩,
  ⟨0x5000, [(0x20, 32), (0x2, 16)], true, 0x0D, .f32, .rw, .host, 1065353216, true, false, false, false, false, .plain, .any, .any⟩,
  ⟨0x5000, [(0x20, 32), (0x2, 16)], true, 0x0E, .u32, .rw, .host, 0, true, false, false, false, false, .indexAttr, .any, .any⟩,
  ⟨0x5000, [(0x20, 32), (0x2, 16)], true, 0x0F, .u32, .rw, .host, 0, true, false, false, false, false, .indexAttr, .any, .any⟩,
  ⟨0x5000, [(0x20, 32), (0x2, 16)], true, 0x10, .u32, .rw, .host, 0, true, false, false, false, false, .indexBook, .any, .any⟩,
  ⟨0x5000, [(0x20, 32), (0x2, 16)], true, 0x11, .u32, .rw, .host, 0, true, false, false, false, false, .indexBook, .any, .any⟩,
  ⟨0x5000, [(0x20, 32), (0x2, 16)], true, 0x12, .u32, .rw, .host, 0, true, false, false, false, false, .indexBook, .any, .any⟩,
  ⟨0x5000, [(0x20, 32), (0x2, 16)], true, 0x13, .u32, .rw, .host, 0, true, false, false, false, false, .indexBook, .any, .any⟩,
  ⟨0x5000, [(0x20, 32), (0x2, 16)], true, 0x14, .u32, .rw, .host, 0, true, false, false, false, false, .indexAttr, .any, .any⟩,
  ⟨0x5000, [(0x20, 32), (0x2, 16)], true, 0x15, .u32, .rw, .host, 16384, true, false, false, false, false, .harvestPeriod, .any, .any⟩,
  ⟨0x5000, [(0x20, 32), (0x2, 16)], true, 0x16, .u32, .rw, .host, 1024, true, false, false, false, false, .plain, .any, .any⟩,
  ⟨0x5000, [(0x20, 32), (0x2, 16)], true, 0x17, .u8, .ro, .device, 0, false, false, false, false, false, .count, .any, .any⟩,
  ⟨0x5001, [(0x20, 32), (0x2, 16)], true, 0x01, .u32, .ro, .device, 0, false, false, false, false, false, .indexValue, .any, .any⟩,
  ⟨0x5001, [(0x20, 32), (0x2, 16)], true, 0x02, .u32, .ro, .device, 0, false, false, false, false, false, .indexValue, .any, .any⟩,
  ⟨0x5001, [(0x20, 32), (0x2, 16)], true, 0x03, .u32, .ro, .device, 0, false, false, false, false, false, .indexValue, .any, .any⟩,
  ⟨0x5001, [(0x20, 32), (0x2, 16)], true, 0x04, .u32, .ro, .device, 0, false, false, false, false, false, .indexValue, .any, .any⟩,
  ⟨0x5001, [(0x20, 32), (0x2, 16)], true, 0x05, .u16, .ro, .device, 0, false, false, false, false, false, .indexValue, .any, .any⟩,
  ⟨0x5001, [(0x20, 32), (0x2, 16)], true, 0x06, .ft64, .ro, .device, 0, false, false, false, false, false, .indexValue, .any, .any⟩,
  ⟨0x5001, [(0x20, 32), (0x2, 16)], true, 0x07, .ft64, .ro, .device, 0, false, false, false, false, false, .indexValue, .any, .any⟩,
  ⟨0x5001, [(0x20, 32), (0x2, 16)], true, 0x08, .u16, .ro, .device, 0, false, false, false, false, false, .indexValue, .any, .any⟩,
  ⟨0x5001, [(0x20, 32), (0x2, 16)], true, 0x09, .u64, .ro, .device, 0, false, false, false, false, false, .count, .any, .any⟩,
  ⟨0x5001, [(0x20, 32), (0x2, 16)], true, 0x0A, .u64, .ro, .device, 0, false, false, false, false, false, .count, .any, .any⟩,
  ⟨0x5001, [(0x20, 32), (0x2, 16)], true, 0x0B, .u64, .ro, .device, 0, false, false, false, false, false, .count, .any, .any⟩,
  ⟨0x5001, [(0x20, 32), (0x2, 16)], true, 0x0C, .u8, .ro, .device, 0, false, false, false, false, false, .indexValue, .any, .any⟩,
  ⟨0x5001, [(0x20, 32), (0x2, 16)], true, 0x0D, .u32, .ro, .device, 0, false, false, false, false, false, .indexValue, .any, .any⟩,
  ⟨0x5001, [(0x20, 32), (0x2, 16)], true, 0x0E, .u64, .ro, .device, 0, false, false, false, false, false, .indexValue, .any, .any⟩,
  ⟨0x5001, [(0x20, 32), (0x2, 16)], true, 0x0F, .u32, .ro, .device, 0, false, false, false, false, false, .count, .any, .any⟩,
  ⟨0x5001, [(0x20, 32), (0x2, 16)], true, 0x10, .u64, .ro, .device, 0, false, false, false, false, false, .count, .any, .any⟩,
  ⟨0x5001, [(0x20, 32), (0x2, 16)], true, 0x11, .u32, .ro, .device, 0, false, false, false, false, false, .count, .any, .any⟩]

/-- Objects of range 0x6000. -/
def objects6_0 : List ObjDef := [
  ⟨0x6100, [], false, 0x01, .u32, .rw, .host, 40, true, false, false, true, false, .boundTerm, .range 10 200, .any⟩,
  ⟨0x6100, [], false, 0x02, .u64, .ro, .device, 541165879296, false, false, false, false, false, .count, .any, .any⟩,
  ⟨0x6100, [], false, 0x03, .u32, .rw, .host, 64, true, false, false, false, false, .plain, .range 16 1024, .any⟩,
  ⟨0x6100, [], false, 0x04, .u32, .ro, .device, 2, false, false, false, false, false, .count, .any, .any⟩,
  ⟨0x6100, [], false, 0x05, .u64, .ro, .device, 0, false, false, false, false, false, .count, .any, .any⟩,
  ⟨0x6100, [], false, 0x06, .u64, .ro, .device, 0, false, false, false, false, false, .count, .any, .any⟩,
  ⟨0x6100, [], false, 0x07, .u64, .ro, .device, 0, false, false, false, false, false, .count, .any, .any⟩,
  ⟨0x6100, [], false, 0x08, .u32, .ro, .device, 0, false, false, false, false, false, .count, .any, .any⟩,
  ⟨0x6100, [], false, 0x09, .u32, .ro, .device, 0, false, false, false, false, false, .count, .any, .any⟩,
  ⟨0x6100, [], false, 0x0E, .u16, .ro, .device, 32768, false, false, false, false, false, .freeRing, .any, .any⟩,
  ⟨0x6110, [(0x10, 32), (0x1, 16)], true, 0x01, .domain, .ro, .device, 0, false, false, false, false, false, .groupMap, .any, .any⟩,
  ⟨0x6100, [], false, 0x0A, .u16, .ro, .device, 3584, false, false, false, false, false, .freeWords, .any, .any⟩,
  ⟨0x6100, [], false, 0x0B, .u32, .ro, .device, 1048576, false, false, false, false, false, .freeStore, .any, .any⟩,
  ⟨0x6100, [], false, 0x0C, .u64, .ro, .device, 0, false, false, false, false, false, .count, .any, .any⟩,
  ⟨0x6100, [], false, 0x0D, .u32, .ro, .device, 0, false, false, false, false, false, .count, .any, .any⟩,
  ⟨0x6000, [], false, 0x01, .u64, .ro, .device, 0, false, false, false, false, false, .carrAllocatable, .any, .any⟩,
  ⟨0x6000, [], false, 0x02, .u64, .ro, .device, 2147483648, false, false, false, false, false, .count, .any, .any⟩,
  ⟨0x6000, [], false, 0x03, .u64, .ro, .device, 0, false, false, false, false, false, .mapRegion, .any, .any⟩,
  ⟨0x6000, [], false, 0x04, .u32, .rw, .host, 16, true, false, false, false, false, .plain, .range 1 64, .any⟩,
  ⟨0x6000, [], false, 0x05, .u64, .ro, .device, 0, false, false, false, false, false, .carrAllocated, .any, .any⟩,
  objTierCommand,
  ⟨0x6010, [(0x1, 32)], true, 0x02, .u16, .rw, .host, 0, false, false, false, false, false, .plain, .any, .any⟩,
  ⟨0x6010, [(0x1, 32)], true, 0x03, .u8, .rw, .host, 3, false, false, false, false, false, .plain, .any, .any⟩,
  ⟨0x6010, [(0x1, 32)], true, 0x04, .u64, .rw, .host, 0, false, false, false, false, false, .plain, .any, .any⟩,
  ⟨0x6010, [(0x1, 32)], true, 0x05, .u32, .rw, .host, 0, false, false, false, false, false, .plain, .any, .any⟩,
  ⟨0x6010, [(0x1, 32)], true, 0x06, .u64, .rw, .host, 0, false, false, false, false, false, .plain, .any, .any⟩,
  ⟨0x6010, [(0x1, 32)], true, 0x07, .u32, .rw, .host, 0, false, false, false, false, false, .plain, .any, .any⟩,
  ⟨0x6010, [(0x1, 32)], true, 0x08, .u64, .rw, .host, 0, false, false, false, false, false, .plain, .any, .any⟩,
  ⟨0x6010, [(0x1, 32)], true, 0x09, .u8, .rw, .host, 0, false, false, false, false, false, .plain, .codes [0, 1], .any⟩,
  ⟨0x6010, [(0x1, 32)], true, 0x0A, .u64, .rw, .host, 0, false, false, false, false, false, .plain, .any, .any⟩,
  ⟨0x6010, [(0x1, 32)], true, 0x0B, .u32, .rw, .host, 1, false, false, false, false, false, .plain, .range 1 65536, .any⟩,
  ⟨0x6010, [(0x1, 32)], true, 0x0C, .u16, .rw, .host, 0, false, false, false, false, false, .plain, .reserved 14 11, .any⟩,
  ⟨0x6010, [(0x1, 32)], true, 0x0D, .u8, .ro, .device, 0, false, false, false, false, false, .count, .any, .any⟩,
  ⟨0x6010, [(0x1, 32)], true, 0x0E, .u32, .ro, .device, 0, false, false, false, false, false, .count, .any, .any⟩,
  ⟨0x6010, [(0x1, 32)], true, 0x0F, .domain, .ro, .device, 0, false, false, false, false, false, .tierTable, .any, .any⟩,
  ⟨0x6010, [(0x1, 32)], true, 0x10, .u8, .ro, .device, 0, false, false, false, false, false, .movesPending, .any, .any⟩,
  ⟨0x6400, [(0x40, 32), (0x1, 64)], true, 0x01, .u8, .ro, .device, 0, false, false, false, false, false, .tableState, .any, .any⟩,
  objTableCommand,
  ⟨0x6400, [(0x40, 32), (0x1, 64)], true, 0x03, .u8, .rw, .host, 1, true, false, false, false, false, .tableAttr, .codes [0, 1, 2], .any⟩,
  ⟨0x6400, [(0x40, 32), (0x1, 64)], true, 0x04, .f32, .rw, .host, 1008981770, true, false, false, false, false, .plain, .any, .any⟩]

/-- Objects of range 0x6000. -/
def objects6_1 : List ObjDef := [
  ⟨0x6400, [(0x40, 32), (0x1, 64)], true, 0x05, .f32, .rw, .host, 841731191, true, false, false, false, false, .plain, .any, .any⟩,
  ⟨0x6400, [(0x40, 32), (0x1, 64)], true, 0x06, .f32, .rw, .host, 1063675494, true, false, false, false, false, .plain, .any, .any⟩,
  ⟨0x6400, [(0x40, 32), (0x1, 64)], true, 0x07, .f32, .rw, .host, 1065336439, true, false, false, false, false, .plain, .any, .any⟩,
  ⟨0x6400, [(0x40, 32), (0x1, 64)], true, 0x08, .u8, .rw, .host, 0, true, false, false, false, false, .plain, .codes [0, 1], .any⟩,
  ⟨0x6400, [(0x40, 32), (0x1, 64)], true, 0x09, .domain, .rw, .host, 0, true, false, false, false, false, .tableAttr, .any, .any⟩,
  ⟨0x6400, [(0x40, 32), (0x1, 64)], true, 0x0A, .u32, .rw, .host, 0, true, false, false, false, false, .tableAttr, .any, .any⟩,
  ⟨0x6400, [(0x40, 32), (0x1, 64)], true, 0x0B, .u32, .rw, .host, 65536, true, false, false, false, false, .tableAttr, .reserved 15 0, .any⟩,
  ⟨0x6400, [(0x40, 32), (0x1, 64)], true, 0x0C, .u64, .rw, .host, 0, true, false, false, false, false, .tableAttr, .any, .any⟩,
  ⟨0x6400, [(0x40, 32), (0x1, 64)], true, 0x0D, .u32, .rw, .host, 0, true, false, false, false, false, .tableAttr, .any, .any⟩,
  objHotSet,
  ⟨0x6400, [(0x40, 32), (0x1, 64)], true, 0x0F, .u32, .rw, .host, 1024, true, false, false, false, false, .refreshPeriod, .any, .any⟩,
  ⟨0x6400, [(0x40, 32), (0x1, 64)], true, 0x10, .u32, .rw, .host, 5000, true, false, false, false, false, .staleBound, .any, .any⟩,
  ⟨0x6400, [(0x40, 32), (0x1, 64)], true, 0x11, .u32, .rw, .host, 50000, true, false, false, false, false, .plain, .any, .any⟩,
  ⟨0x6400, [(0x40, 32), (0x1, 64)], true, 0x12, .domain, .rw, .host, 0, true, false, false, false, false, .plainDomain, .any, .units 4 64⟩,
  ⟨0x6400, [(0x40, 32), (0x1, 64)], true, 0x13, .u32, .rw, .host, 0, true, false, false, false, false, .tableAttr, .any, .any⟩,
  ⟨0x6400, [(0x40, 32), (0x1, 64)], true, 0x14, .u32, .rw, .host, 0, true, false, false, false, false, .tableAttr, .any, .any⟩,
  ⟨0x6400, [(0x40, 32), (0x1, 64)], true, 0x15, .u64, .ro, .device, 0, false, false, false, false, false, .count, .any, .any⟩,
  ⟨0x6400, [(0x40, 32), (0x1, 64)], true, 0x16, .u64, .ro, .device, 0, false, false, false, false, false, .count, .any, .any⟩,
  ⟨0x6400, [(0x40, 32), (0x1, 64)], true, 0x17, .u8, .ro, .device, 0, false, false, false, false, false, .count, .any, .any⟩,
  ⟨0x6400, [(0x40, 32), (0x1, 64)], true, 0x18, .u64, .ro, .device, 0, false, false, false, false, false, .count, .any, .any⟩,
  ⟨0x6400, [(0x40, 32), (0x1, 64)], true, 0x19, .u64, .ro, .device, 0, false, false, false, false, false, .count, .any, .any⟩,
  ⟨0x6400, [(0x40, 32), (0x1, 64)], true, 0x1A, .u64, .ro, .device, 0, false, false, false, false, false, .count, .any, .any⟩,
  ⟨0x6400, [(0x40, 32), (0x1, 64)], true, 0x1B, .ft64, .ro, .device, 0, false, false, false, false, false, .count, .any, .any⟩,
  ⟨0x6400, [(0x40, 32), (0x1, 64)], true, 0x1C, .u64, .ro, .device, 0, false, false, false, false, false, .count, .any, .any⟩,
  ⟨0x6400, [(0x40, 32), (0x1, 64)], true, 0x1D, .u64, .ro, .device, 0, false, false, false, false, false, .count, .any, .any⟩,
  ⟨0x6400, [(0x40, 32), (0x1, 64)], true, 0x1E, .u8, .ro, .device, 0, false, false, false, false, false, .count, .any, .any⟩,
  ⟨0x6400, [(0x40, 32), (0x1, 64)], true, 0x1F, .u64, .ro, .device, 0, false, false, false, false, false, .count, .any, .any⟩]

/-- Objects of range 0x7000. -/
def objects7_0 : List ObjDef := [
  ⟨0x7000, [], false, 0x01, .u32, .rws, .fabric, 4294967295, true, false, false, false, false, .plain, .rangeOr 0 131071 4294967295, .any⟩,
  ⟨0x7000, [], false, 0x02, .u32, .rw, .side, 4294967295, true, false, false, false, false, .plain, .any, .any⟩,
  ⟨0x7000, [], false, 0x03, .bool, .rw, .side, 0, true, false, false, false, false, .plain, .any, .any⟩,
  ⟨0x7000, [], false, 0x04, .u32, .rws, .fabric, 4294967295, true, false, false, false, false, .plain, .any, .any⟩,
  ⟨0x7000, [], false, 0x05, .u8, .rws, .fabric, 4, true, false, false, false, false, .exchangeTerm, .range 1 31, .any⟩,
  ⟨0x7000, [], false, 0x06, .u32, .ro, .device, 5, false, false, false, false, false, .count, .any, .any⟩,
  ⟨0x7000, [], false, 0x07, .u32, .ro, .device, 20, false, false, false, false, false, .count, .any, .any⟩,
  ⟨0x7000, [], false, 0x08, .u32, .rws, .fabric, 4194304, true, false, false, false, false, .exchangeTerm, .any, .any⟩,
  ⟨0x7000, [], false, 0x09, .u32, .rws, .fabric, 160, true, false, false, false, false, .exchangeTerm, .any, .any⟩,
  ⟨0x7000, [], false, 0x0A, .u32, .rws, .fabric, 90, true, false, false, false, false, .exchangeTerm, .any, .any⟩,
  ⟨0x7000, [], false, 0x0B, .u32, .ro, .device, 90, false, false, false, false, false, .exchangeLeast, .any, .any⟩,
  ⟨0x7000, [], false, 0x0C, .u32, .ro, .device, 3, false, false, false, false, false, .count, .any, .any⟩,
  ⟨0x7000, [], false, 0x0D, .u64, .ro, .device, 0, false, false, false, false, false, .count, .any, .any⟩,
  ⟨0x7000, [], false, 0x0E, .u64, .ro, .device, 0, false, false, false, false, false, .count, .any, .any⟩,
  ⟨0x7000, [], false, 0x0F, .u32, .ro, .device, 0, false, false, false, false, false, .count, .any, .any⟩,
  ⟨0x7001, [], false, 0x01, .domain, .rws, .fabric, 0, true, false, true, false, false, .routeTable, .any, .exact 2048⟩,
  ⟨0x7001, [], false, 0x02, .domain, .rws, .fabric, 0, true, false, true, false, false, .routeTable, .any, .exact 1024⟩,
  objTableCommit,
  ⟨0x7001, [], false, 0x04, .u32, .ro, .device, 0, false, false, false, false, false, .count, .any, .any⟩,
  objFmOut,
  ⟨0x7002, [], false, 0x02, .domain, .ro, .device, 0, false, false, false, false, false, .blob, .any, .any⟩,
  ⟨0x7100, [(0x1, 64)], false, 0x01, .u8, .ro, .device, 0, false, false, false, false, false, .portState, .any, .any⟩,
  ⟨0x7100, [(0x1, 64)], false, 0x02, .u32, .rws, .fabric, 4294967295, true, false, false, false, false, .plain, .any, .any⟩,
  ⟨0x7100, [(0x1, 64)], false, 0x03, .u32, .ro, .device, 4294967295, false, false, false, false, false, .portPartner, .any, .any⟩,
  ⟨0x7100, [(0x1, 64)], false, 0x04, .u16, .ro, .device, 0, false, false, false, false, false, .portVersion, .any, .any⟩,
  ⟨0x7100, [(0x1, 64)], false, 0x05, .domain, .ro, .device, 0, false, false, false, false, false, .laneMap, .any, .any⟩,
  ⟨0x7100, [(0x1, 64)], false, 0x06, .u64, .ro, .device, 0, false, false, false, false, false, .count, .any, .any⟩,
  ⟨0x7100, [(0x1, 64)], false, 0x07, .u64, .ro, .device, 0, false, false, false, false, false, .count, .any, .any⟩,
  ⟨0x7100, [(0x1, 64)], false, 0x08, .u64, .ro, .device, 0, false, false, false, false, false, .count, .any, .any⟩,
  ⟨0x7100, [(0x1, 64)], false, 0x09, .u64, .ro, .device, 0, false, false, false, false, false, .count, .any, .any⟩,
  ⟨0x7100, [(0x1, 64)], false, 0x0A, .u64, .ro, .device, 0, false, false, false, false, false, .count, .any, .any⟩,
  ⟨0x7100, [(0x1, 64)], false, 0x0B, .u64, .ro, .device, 0, false, false, false, false, false, .count, .any, .any⟩,
  ⟨0x7100, [(0x1, 64)], false, 0x0C, .u32, .ro, .device, 0, false, false, false, false, false, .count, .any, .any⟩,
  ⟨0x7100, [(0x1, 64)], false, 0x0D, .u32, .ro, .device, 0, false, false, false, false, false, .count, .any, .any⟩,
  ⟨0x7100, [(0x1, 64)], false, 0x0E, .u64, .ro, .device, 0, false, false, false, false, false, .count, .any, .any⟩,
  ⟨0x7100, [(0x1, 64)], false, 0x0F, .u32, .ro, .device, 0, false, false, false, false, false, .count, .any, .any⟩,
  ⟨0x7100, [(0x1, 64)], false, 0x10, .u32, .rws, .fabric, 100000, true, false, false, false, false, .plain, .any, .any⟩,
  ⟨0x7100, [(0x1, 64)], false, 0x11, .domain, .wo, .side, 0, false, false, false, false, false, .linkKey, .any, .exact 32⟩,
  ⟨0x7100, [(0x1, 64)], false, 0x12, .domain, .wo, .side, 0, false, false, false, false, false, .linkKey, .any, .exact 32⟩,
  objPortEnable]

/-- Objects of range 0x7000. -/
def objects7_1 : List ObjDef := [
  ⟨0x7100, [(0x1, 64)], false, 0x14, .u8, .rw, .side, 0, false, false, false, false, false, .plain, .range 0 1, .any⟩,
  ⟨0x7100, [(0x1, 64)], false, 0x15, .u8, .ro, .device, 0, false, false, false, false, false, .portCause, .any, .any⟩,
  ⟨0x7180, [(0x1, 8)], false, 0x01, .u16, .rws, .fabric, 1023, true, false, false, true, false, .plain, .tenBits, .any⟩,
  ⟨0x7180, [(0x1, 8)], false, 0x02, .u8, .ro, .device, 0, false, false, false, false, false, .count, .any, .any⟩,
  ⟨0x7180, [(0x1, 8)], false, 0x03, .i32, .ro, .device, 0, false, false, false, false, false, .count, .any, .any⟩,
  ⟨0x7200, [(0x4, 32), (0x1, 4)], true, 0x01, .u32, .rw, .host, 0, false, false, false, false, false, .plain, .any, .any⟩,
  ⟨0x7200, [(0x4, 32), (0x1, 4)], true, 0x02, .u32, .rw, .host, 0, false, false, false, false, false, .plain, .aligned 64, .any⟩,
  ⟨0x7200, [(0x4, 32), (0x1, 4)], true, 0x03, .u32, .rw, .host, 0, false, false, false, false, false, .plain, .any, .any⟩,
  ⟨0x7200, [(0x4, 32), (0x1, 4)], true, 0x04, .u8, .ro, .device, 0, false, false, false, false, false, .exchangeAreas, .any, .any⟩,
  ⟨0x7200, [(0x4, 32), (0x1, 4)], true, 0x05, .u64, .ro, .device, 0, false, false, false, false, false, .count, .any, .any⟩,
  ⟨0x7200, [(0x4, 32), (0x1, 4)], true, 0x06, .u64, .ro, .device, 0, false, false, false, false, false, .count, .any, .any⟩,
  ⟨0x7200, [(0x4, 32), (0x1, 4)], true, 0x07, .u64, .ro, .device, 0, false, false, false, false, false, .count, .any, .any⟩,
  ⟨0x7200, [(0x4, 32), (0x1, 4)], true, 0x08, .u64, .ro, .device, 0, false, false, false, false, false, .count, .any, .any⟩]

/-- Objects of range 0x8000. -/
def objects8_0 : List ObjDef := [
  ⟨0x8000, [], false, 0x01, .u8, .rw, .host, 2, true, false, false, true, false, .boundTerm, .codes [1, 2, 3, 4], .any⟩,
  ⟨0x8000, [], false, 0x02, .u32, .rw, .host, 30, true, false, false, true, false, .boundTerm, .any, .any⟩,
  ⟨0x8000, [], false, 0x03, .u32, .rw, .host, 30, true, false, false, true, false, .boundTerm, .any, .any⟩,
  ⟨0x8000, [], false, 0x04, .u32, .ro, .device, 30, false, false, false, false, false, .suspendBound, .any, .any⟩,
  ⟨0x8000, [], false, 0x05, .u32, .ro, .device, 70, false, false, false, false, false, .readBound, .any, .any⟩,
  ⟨0x8000, [], false, 0x06, .u8, .rw, .host, 2, true, false, false, false, false, .boundTerm, .range 1 8, .any⟩,
  ⟨0x8000, [], false, 0x07, .u32, .rw, .host, 3000, true, false, false, false, false, .plain, .any, .any⟩,
  ⟨0x8000, [], false, 0x08, .u32, .ro, .device, 0, false, false, false, false, false, .count, .any, .any⟩,
  ⟨0x8000, [], false, 0x09, .u32, .ro, .device, 0, false, false, false, false, false, .count, .any, .any⟩,
  ⟨0x8000, [], false, 0x0A, .u32, .ro, .device, 0, false, false, false, false, false, .count, .any, .any⟩,
  ⟨0x8000, [], false, 0x0B, .u8, .ro, .device, 100, false, false, false, false, false, .count, .any, .any⟩,
  ⟨0x8000, [], false, 0x0C, .u64, .ro, .device, 0, false, false, false, false, false, .count, .any, .any⟩,
  ⟨0x8000, [], false, 0x0D, .u64, .ro, .device, 0, false, false, false, false, false, .count, .any, .any⟩,
  objMireCommand,
  ⟨0x8000, [], false, 0x0F, .u8, .ro, .device, 0, false, false, false, false, false, .count, .any, .any⟩,
  ⟨0x8000, [], false, 0x10, .u64, .ro, .device, 0, false, false, false, false, false, .count, .any, .any⟩,
  ⟨0x8000, [], false, 0x11, .u64, .ro, .device, 0, false, false, false, false, false, .count, .any, .any⟩,
  ⟨0x8000, [], false, 0x12, .u32, .ro, .device, 0, false, false, false, false, false, .count, .any, .any⟩,
  ⟨0x8000, [], false, 0x13, .u8, .ro, .device, 0, false, false, false, false, false, .lastDump, .any, .any⟩,
  ⟨0x8000, [], false, 0x14, .u32, .ro, .device, 0, false, false, false, false, false, .count, .any, .any⟩,
  ⟨0x8000, [], false, 0x16, .u16, .rw, .host, 64, true, false, false, false, false, .plain, .range 1 1024, .any⟩,
  ⟨0x8000, [], false, 0x17, .u64, .ro, .device, 0, false, false, false, false, false, .count, .any, .any⟩,
  ⟨0x8000, [], false, 0x18, .u8, .rw, .host, 7, true, false, false, false, false, .plain, .range 3 50, .any⟩,
  ⟨0x8000, [], false, 0x19, .u32, .rw, .host, 86400, true, false, false, false, false, .plain, .any, .any⟩,
  ⟨0x8000, [], false, 0x1A, .u32, .rw, .host, 200, true, false, false, false, false, .plain, .any, .any⟩,
  ⟨0x8000, [], false, 0x1B, .u8, .rw, .host, 2, true, false, false, false, false, .plain, .any, .any⟩,
  ⟨0x8000, [], false, 0x1C, .u32, .ro, .device, 33554432, false, false, false, false, false, .protectedBuffer, .any, .any⟩,
  ⟨0x8001, [], false, 0x01, .f32, .rw, .host, 1065353216, true, false, true, false, false, .plain, .any, .any⟩,
  ⟨0x8001, [], false, 0x02, .f32, .rw, .host, 1048576000, true, false, true, false, false, .plain, .any, .any⟩,
  ⟨0x8001, [], false, 0x03, .f32, .rw, .host, 1056964608, true, false, true, false, false, .plain, .any, .any⟩,
  ⟨0x8001, [], false, 0x04, .f32, .rw, .host, 1065353216, true, false, true, false, false, .plain, .any, .any⟩,
  ⟨0x8001, [], false, 0x05, .f32, .rw, .host, 0, true, false, true, false, false, .plain, .any, .any⟩,
  ⟨0x8001, [], false, 0x06, .f32, .rw, .host, 0, true, false, true, false, false, .plain, .any, .any⟩,
  ⟨0x8001, [], false, 0x07, .bool, .wo, .host, 0, false, false, false, false, false, .weightCommit, .any, .any⟩,
  ⟨0x8010, [(0x1, 32)], false, 0x01, .u8, .rw, .host, 1, true, false, false, true, false, .plain, .codes [0, 1, 2, 3], .any⟩,
  ⟨0x8010, [(0x1, 32)], false, 0x02, .u16, .rw, .host, 3600, true, false, false, false, false, .plain, .range 400 3600, .any⟩,
  ⟨0x8010, [(0x1, 32)], false, 0x03, .u16, .ro, .device, 0, false, false, false, false, false, .count, .any, .any⟩,
  ⟨0x8010, [(0x1, 32)], false, 0x04, .u8, .rw, .host, 255, true, false, false, true, false, .plain, .any, .any⟩,
  ⟨0x8010, [(0x1, 32)], false, 0x05, .u8, .ro, .device, 0, false, false, false, false, false, .count, .any, .any⟩,
  ⟨0x8010, [(0x1, 32)], false, 0x06, .u8, .ro, .device, 0, false, false, false, false, false, .count, .any, .any⟩]

/-- Objects of range 0x8000. -/
def objects8_1 : List ObjDef := [
  ⟨0x8010, [(0x1, 32)], false, 0x07, .domain, .rw, .host, 0, true, false, false, false, false, .plainDomain, .any, .units 8 16⟩,
  ⟨0x8010, [(0x1, 32)], false, 0x08, .u64, .ro, .device, 0, false, false, false, false, false, .count, .any, .any⟩,
  ⟨0x8010, [(0x1, 32)], false, 0x09, .u64, .ro, .device, 0, false, false, false, false, false, .count, .any, .any⟩,
  ⟨0x8010, [(0x1, 32)], false, 0x0A, .u64, .ro, .device, 0, false, false, false, false, false, .count, .any, .any⟩,
  ⟨0x8040, [(0x1, 256)], false, 0x01, .u8, .ro, .device, 0, false, false, false, false, false, .spaceState, .any, .any⟩,
  objSpaceCommand,
  ⟨0x8040, [(0x1, 256)], false, 0x03, .u8, .rw, .host, 0, true, false, true, false, false, .plain, .range 0 31, .any⟩,
  ⟨0x8040, [(0x1, 256)], false, 0x04, .u64, .rw, .host, 0, true, false, true, false, false, .plain, .any, .any⟩,
  ⟨0x8040, [(0x1, 256)], false, 0x05, .u64, .ro, .device, 0, false, false, false, false, false, .spaceFirst, .any, .any⟩,
  ⟨0x8040, [(0x1, 256)], false, 0x06, .u64, .ro, .device, 0, false, false, false, false, false, .spaceWritten, .any, .any⟩,
  ⟨0x8040, [(0x1, 256)], false, 0x07, .u64, .rw, .host, 0, false, false, false, false, false, .plain, .any, .any⟩,
  ⟨0x8040, [(0x1, 256)], false, 0x08, .u64, .rw, .host, 0, false, false, false, false, false, .plain, .any, .any⟩,
  ⟨0x8040, [(0x1, 256)], false, 0x09, .u8, .ro, .device, 0, false, false, false, false, false, .count, .any, .any⟩,
  objFlashKey,
  ⟨0x8200, [(0x1, 32)], true, 0x02, .bool, .ro, .device, 0, false, false, false, false, false, .keyPresent, .any, .any⟩,
  ⟨0x8200, [(0x1, 32)], true, 0x03, .u32, .ro, .device, 0, false, false, false, false, false, .count, .any, .any⟩]

/-- Objects of range 0x9000. -/
def objects9_0 : List ObjDef := [
  ⟨0x9000, [], false, 0x01, .ft64, .ro, .device, 0, false, false, false, false, false, .ftNow, .any, .any⟩,
  ⟨0x9000, [], false, 0x02, .u8, .rws, .fabric, 0, true, false, false, false, false, .timeRole, .codes [0, 1], .any⟩,
  ⟨0x9000, [], false, 0x03, .u8, .rws, .fabric, 255, true, false, false, false, false, .plain, .rangeOr 0 63 255, .any⟩,
  ⟨0x9000, [], false, 0x04, .u8, .rws, .fabric, 255, true, false, false, false, false, .plain, .rangeOr 0 63 255, .any⟩,
  ⟨0x9000, [], false, 0x05, .u32, .rws, .fabric, 1024, true, false, false, false, false, .plain, .range 16 65536, .any⟩,
  ⟨0x9000, [], false, 0x06, .u8, .ro, .device, 0, false, false, false, false, false, .ftState, .any, .any⟩,
  ⟨0x9000, [], false, 0x07, .i32, .ro, .device, 0, false, false, false, false, false, .count, .any, .any⟩,
  ⟨0x9000, [], false, 0x08, .u32, .ro, .device, 0, false, false, false, false, false, .count, .any, .any⟩,
  ⟨0x9000, [], false, 0x09, .i32, .ro, .device, 0, false, false, false, false, false, .rateAdjust, .any, .any⟩,
  ⟨0x9000, [], false, 0x0A, .u8, .ro, .device, 0, false, false, false, false, false, .ftAlarms, .any, .any⟩,
  ⟨0x9000, [], false, 0x0B, .u64, .ro, .device, 0, false, false, false, false, false, .count, .any, .any⟩,
  ⟨0x9000, [], false, 0x0C, .ft64, .ro, .device, 0, false, false, false, false, false, .count, .any, .any⟩,
  objRelock,
  objSetFt,
  ⟨0x9000, [], false, 0x0F, .u32, .rws, .fabric, 4294967295, true, false, false, false, false, .plain, .any, .any⟩,
  ⟨0x9000, [], false, 0x10, .u8, .rws, .fabric, 20, true, false, false, true, false, .stepExponent, .range 10 30, .any⟩,
  ⟨0x9000, [], false, 0x11, .u64, .ro, .device, 0, false, false, false, false, false, .count, .any, .any⟩,
  ⟨0x9000, [], false, 0x12, .u32, .ro, .device, 0, false, false, false, false, false, .count, .any, .any⟩,
  ⟨0x9000, [], false, 0x13, .u32, .ro, .device, 0, false, false, false, false, false, .count, .any, .any⟩,
  ⟨0x9000, [], false, 0x14, .u8, .ro, .device, 0, false, false, false, false, false, .count, .any, .any⟩,
  objEntryCommand,
  ⟨0x9010, [], false, 0x02, .u16, .rw, .host, 65535, false, false, false, false, false, .plain, .any, .any⟩,
  ⟨0x9010, [], false, 0x03, .domain, .rw, .host, 0, false, false, true, false, false, .zeroDomain, .any, .exact 32⟩,
  ⟨0x9010, [], false, 0x04, .u8, .ro, .device, 0, false, false, false, false, false, .count, .any, .any⟩,
  ⟨0x9010, [], false, 0x05, .u16, .ro, .device, 65535, false, false, false, false, false, .count, .any, .any⟩,
  ⟨0x9011, [], false, 0x01, .domain, .ro, .device, 0, false, false, false, false, false, .entryTable, .any, .any⟩,
  ⟨0x9011, [], false, 0x02, .u16, .ro, .device, 1264, false, false, false, false, false, .freeEntries, .any, .any⟩,
  ⟨0x9011, [], false, 0x03, .u64, .ro, .device, 0, false, false, false, false, false, .count, .any, .any⟩,
  ⟨0x9011, [], false, 0x04, .u64, .ro, .device, 0, false, false, false, false, false, .count, .any, .any⟩,
  ⟨0x9011, [], false, 0x05, .u64, .ro, .device, 0, false, false, false, false, false, .count, .any, .any⟩,
  ⟨0x9011, [], false, 0x06, .u64, .ro, .device, 0, false, false, false, false, false, .count, .any, .any⟩,
  ⟨0x9011, [], false, 0x07, .u64, .ro, .device, 0, false, false, false, false, false, .count, .any, .any⟩,
  ⟨0x9080, [(0x1, 64)], false, 0x01, .i32, .rws, .fabric, 0, true, false, false, false, false, .plain, .any, .any⟩]

/-- Objects of range 0xA000. -/
def objectsA_0 : List ObjDef := [
  ⟨0xA100, [(0x2, 40), (0x1, 2)], false, 0x01, .domain, .ro, .device, 0, false, false, false, false, false, .columnMap, .any, .any⟩,
  ⟨0xA100, [(0x2, 40), (0x1, 2)], false, 0x02, .u8, .ro, .device, 7, false, false, false, false, false, .arrayValue, .any, .any⟩,
  ⟨0xA100, [(0x2, 40), (0x1, 2)], false, 0x03, .u8, .ro, .device, 0, false, false, false, false, false, .arrayValue, .any, .any⟩,
  ⟨0xA100, [(0x2, 40), (0x1, 2)], false, 0x04, .u64, .ro, .device, 0, false, false, false, false, false, .count, .any, .any⟩,
  ⟨0xA100, [(0x2, 40), (0x1, 2)], false, 0x05, .u64, .ro, .device, 0, false, false, false, false, false, .count, .any, .any⟩,
  ⟨0xA100, [(0x2, 40), (0x1, 2)], false, 0x06, .u32, .ro, .device, 0, false, false, false, false, false, .count, .any, .any⟩,
  ⟨0xA100, [(0x2, 40), (0x1, 2)], false, 0x07, .u8, .ro, .device, 0, false, false, false, false, false, .arrayValue, .any, .any⟩,
  ⟨0xA100, [(0x2, 40), (0x1, 2)], false, 0x08, .u32, .ro, .device, 0, false, false, false, false, false, .count, .any, .any⟩,
  ⟨0xA100, [(0x2, 40), (0x1, 2)], false, 0x09, .u64, .ro, .device, 0, false, false, false, false, false, .count, .any, .any⟩,
  ⟨0xA200, [(0x1, 8)], false, 0x01, .domain, .ro, .device, 0, false, false, false, false, false, .coreMap, .any, .any⟩,
  ⟨0xA200, [(0x1, 8)], false, 0x02, .u8, .ro, .device, 2, false, false, false, false, false, .stackValue, .any, .any⟩,
  ⟨0xA200, [(0x1, 8)], false, 0x03, .u8, .ro, .device, 0, false, false, false, false, false, .stackValue, .any, .any⟩,
  ⟨0xA200, [(0x1, 8)], false, 0x04, .u64, .ro, .device, 0, false, false, false, false, false, .count, .any, .any⟩,
  ⟨0xA200, [(0x1, 8)], false, 0x05, .u64, .ro, .device, 0, false, false, false, false, false, .count, .any, .any⟩,
  ⟨0xA200, [(0x1, 8)], false, 0x06, .u64, .ro, .device, 0, false, false, false, false, false, .count, .any, .any⟩,
  ⟨0xA200, [(0x1, 8)], false, 0x07, .u8, .ro, .device, 0, false, false, false, false, false, .count, .any, .any⟩,
  ⟨0xA200, [(0x1, 8)], false, 0x08, .u8, .ro, .device, 0, false, false, false, false, false, .stackValue, .any, .any⟩,
  ⟨0xA200, [(0x1, 8)], false, 0x09, .u64, .ro, .device, 0, false, false, false, false, false, .stackValue, .any, .any⟩,
  ⟨0xA200, [(0x1, 8)], false, 0x0A, .u32, .ro, .device, 0, false, false, false, false, false, .stackValue, .any, .any⟩,
  ⟨0xA200, [(0x1, 8)], false, 0x0B, .u64, .ro, .device, 0, false, false, false, false, false, .count, .any, .any⟩,
  ⟨0xA200, [(0x1, 8)], false, 0x0C, .u64, .ro, .device, 0, false, false, false, false, false, .count, .any, .any⟩,
  ⟨0xA300, [(0x4, 40)], false, 0x01, .domain, .ro, .device, 0, false, false, false, false, false, .engineMap, .any, .any⟩,
  ⟨0xA300, [(0x4, 40)], false, 0x02, .domain, .ro, .device, 0, false, false, false, false, false, .engineGens, .any, .any⟩,
  ⟨0xA300, [(0x4, 40)], false, 0x03, .u8, .ro, .device, 0, false, false, false, false, false, .enginesFailed, .any, .any⟩,
  ⟨0xA300, [(0x4, 40)], false, 0x04, .u64, .ro, .device, 0, false, false, false, false, false, .count, .any, .any⟩,
  ⟨0xA300, [(0x4, 40)], false, 0x05, .u64, .ro, .device, 0, false, false, false, false, false, .count, .any, .any⟩,
  ⟨0xA300, [(0x4, 40)], false, 0x06, .u64, .ro, .device, 0, false, false, false, false, false, .count, .any, .any⟩,
  ⟨0xA300, [(0x4, 40)], false, 0x07, .u64, .ro, .device, 0, false, false, false, false, false, .count, .any, .any⟩,
  ⟨0xA300, [(0x4, 40)], false, 0x08, .u32, .ro, .device, 0, false, false, false, false, false, .count, .any, .any⟩,
  ⟨0xA300, [(0x4, 40)], false, 0x09, .u32, .ro, .device, 0, false, false, false, false, false, .count, .any, .any⟩,
  ⟨0xA300, [(0x4, 40)], false, 0x0A, .u16, .ro, .device, 0, false, false, false, false, false, .count, .any, .any⟩,
  ⟨0xA300, [(0x4, 40)], false, 0x0B, .u64, .ro, .device, 0, false, false, false, false, false, .count, .any, .any⟩,
  ⟨0xA400, [(0x2, 40), (0x1, 2)], false, 0x01, .u64, .ro, .device, 0, false, false, false, false, false, .count, .any, .any⟩,
  ⟨0xA400, [(0x2, 40), (0x1, 2)], false, 0x02, .u64, .ro, .device, 0, false, false, false, false, false, .count, .any, .any⟩,
  ⟨0xA400, [(0x2, 40), (0x1, 2)], false, 0x03, .u64, .ro, .device, 0, false, false, false, false, false, .count, .any, .any⟩,
  ⟨0xA400, [(0x2, 40), (0x1, 2)], false, 0x04, .u32, .ro, .device, 0, false, false, false, false, false, .count, .any, .any⟩,
  ⟨0xA400, [(0x2, 40), (0x1, 2)], false, 0x05, .u16, .ro, .device, 0, false, false, false, false, false, .count, .any, .any⟩,
  ⟨0xA400, [(0x2, 40), (0x1, 2)], false, 0x06, .u32, .ro, .device, 0, false, false, false, false, false, .count, .any, .any⟩,
  ⟨0xA400, [(0x2, 40), (0x1, 2)], false, 0x07, .u32, .ro, .device, 0, false, false, false, false, false, .count, .any, .any⟩,
  ⟨0xA400, [(0x2, 40), (0x1, 2)], false, 0x08, .u64, .ro, .device, 0, false, false, false, false, false, .count, .any, .any⟩]

/-- Objects of range 0xA000. -/
def objectsA_1 : List ObjDef := [
  ⟨0xA500, [(0x1, 40)], false, 0x01, .u64, .ro, .device, 0, false, false, false, false, false, .count, .any, .any⟩,
  ⟨0xA500, [(0x1, 40)], false, 0x02, .u64, .ro, .device, 0, false, false, false, false, false, .count, .any, .any⟩,
  ⟨0xA500, [(0x1, 40)], false, 0x03, .u32, .ro, .device, 0, false, false, false, false, false, .count, .any, .any⟩,
  ⟨0xA500, [(0x1, 40)], false, 0x04, .u64, .ro, .device, 0, false, false, false, false, false, .count, .any, .any⟩,
  ⟨0xA500, [(0x1, 40)], false, 0x05, .u64, .ro, .device, 0, false, false, false, false, false, .count, .any, .any⟩,
  ⟨0xA600, [(0x1, 40)], false, 0x01, .u64, .ro, .device, 0, false, false, false, false, false, .chanStatus, .any, .any⟩,
  ⟨0xA600, [(0x1, 40)], false, 0x02, .u64, .ro, .device, 0, false, false, false, false, false, .chanStatus, .any, .any⟩,
  ⟨0xA600, [(0x1, 40)], false, 0x03, .u64, .ro, .device, 0, false, false, false, false, false, .chanStatus, .any, .any⟩,
  ⟨0xA600, [(0x1, 40)], false, 0x04, .u64, .ro, .device, 0, false, false, false, false, false, .chanStatus, .any, .any⟩,
  ⟨0xA600, [(0x1, 40)], false, 0x05, .u64, .ro, .device, 0, false, false, false, false, false, .chanStatus, .any, .any⟩,
  ⟨0xA600, [(0x1, 40)], false, 0x06, .u64, .ro, .device, 0, false, false, false, false, false, .chanStatus, .any, .any⟩,
  ⟨0xA600, [(0x1, 40)], false, 0x07, .u64, .ro, .device, 0, false, false, false, false, false, .chanStatus, .any, .any⟩,
  ⟨0xA600, [(0x1, 40)], false, 0x08, .u64, .ro, .device, 0, false, false, false, false, false, .chanStatus, .any, .any⟩,
  ⟨0xA600, [(0x1, 40)], false, 0x09, .u64, .ro, .device, 0, false, false, false, false, false, .chanStatus, .any, .any⟩,
  ⟨0xA600, [(0x1, 40)], false, 0x0A, .u64, .ro, .device, 0, false, false, false, false, false, .chanStatus, .any, .any⟩,
  ⟨0xA600, [(0x1, 40)], false, 0x0B, .u64, .ro, .device, 0, false, false, false, false, false, .chanStatus, .any, .any⟩,
  ⟨0xA600, [(0x1, 40)], false, 0x0C, .u64, .ro, .device, 0, false, false, false, false, false, .chanStatus, .any, .any⟩,
  ⟨0xA600, [(0x1, 40)], false, 0x0D, .u64, .ro, .device, 0, false, false, false, false, false, .chanStatus, .any, .any⟩,
  ⟨0xA600, [(0x1, 40)], false, 0x0E, .u64, .ro, .device, 0, false, false, false, false, false, .chanStatus, .any, .any⟩,
  ⟨0xA600, [(0x1, 40)], false, 0x0F, .u64, .ro, .device, 0, false, false, false, false, false, .chanStatus, .any, .any⟩,
  ⟨0xA600, [(0x1, 40)], false, 0x10, .u64, .ro, .device, 0, false, false, false, false, false, .chanStatus, .any, .any⟩,
  ⟨0xA600, [(0x1, 40)], false, 0x11, .u64, .ro, .device, 0, false, false, false, false, false, .chanAddress, .any, .any⟩,
  ⟨0xA600, [(0x1, 40)], false, 0x12, .u64, .ro, .device, 0, false, false, false, false, false, .chanAddress, .any, .any⟩,
  ⟨0xA600, [(0x1, 40)], false, 0x13, .u64, .ro, .device, 0, false, false, false, false, false, .chanAddress, .any, .any⟩,
  ⟨0xA600, [(0x1, 40)], false, 0x14, .u64, .ro, .device, 0, false, false, false, false, false, .chanAddress, .any, .any⟩,
  ⟨0xA600, [(0x1, 40)], false, 0x15, .u64, .ro, .device, 0, false, false, false, false, false, .chanAddress, .any, .any⟩,
  ⟨0xA600, [(0x1, 40)], false, 0x16, .u64, .ro, .device, 0, false, false, false, false, false, .chanAddress, .any, .any⟩,
  ⟨0xA600, [(0x1, 40)], false, 0x17, .u64, .ro, .device, 0, false, false, false, false, false, .chanAddress, .any, .any⟩,
  ⟨0xA600, [(0x1, 40)], false, 0x18, .u64, .ro, .device, 0, false, false, false, false, false, .chanAddress, .any, .any⟩,
  ⟨0xA600, [(0x1, 40)], false, 0x19, .u64, .ro, .device, 0, false, false, false, false, false, .chanAddress, .any, .any⟩,
  ⟨0xA600, [(0x1, 40)], false, 0x1A, .u64, .ro, .device, 0, false, false, false, false, false, .chanAddress, .any, .any⟩,
  ⟨0xA600, [(0x1, 40)], false, 0x1B, .u64, .ro, .device, 0, false, false, false, false, false, .chanAddress, .any, .any⟩,
  ⟨0xA600, [(0x1, 40)], false, 0x1C, .u64, .ro, .device, 0, false, false, false, false, false, .chanAddress, .any, .any⟩,
  ⟨0xA600, [(0x1, 40)], false, 0x1D, .u64, .ro, .device, 0, false, false, false, false, false, .chanAddress, .any, .any⟩,
  ⟨0xA600, [(0x1, 40)], false, 0x1E, .u64, .ro, .device, 0, false, false, false, false, false, .chanAddress, .any, .any⟩,
  ⟨0xA600, [(0x1, 40)], false, 0x1F, .u64, .ro, .device, 0, false, false, false, false, false, .chanAddress, .any, .any⟩,
  ⟨0xA600, [(0x1, 40)], false, 0x20, .u64, .ro, .device, 0, false, false, false, false, false, .chanAddress, .any, .any⟩,
  ⟨0xA600, [(0x1, 40)], false, 0x21, .u64, .ro, .device, 0, false, false, false, false, false, .count, .any, .any⟩,
  ⟨0xA600, [(0x1, 40)], false, 0x22, .u32, .ro, .device, 0, false, false, false, false, false, .count, .any, .any⟩,
  ⟨0xA600, [(0x1, 40)], false, 0x23, .u32, .ro, .device, 0, false, false, false, false, false, .count, .any, .any⟩]

/-- Objects of range 0xA000. -/
def objectsA_2 : List ObjDef := [
  ⟨0xA600, [(0x1, 40)], false, 0x24, .u64, .ro, .device, 0, false, false, false, false, false, .count, .any, .any⟩,
  ⟨0xA600, [(0x1, 40)], false, 0x25, .u16, .ro, .device, 4096, false, false, false, false, false, .freeProgram, .any, .any⟩,
  ⟨0xA600, [(0x1, 40)], false, 0x26, .u64, .ro, .device, 0, false, false, false, false, false, .count, .any, .any⟩,
  ⟨0xA62A, [], false, 0x01, .u8, .rw, .host, 3, true, false, false, false, false, .plain, .range 0 15, .any⟩,
  ⟨0xA000, [], false, 0x01, .bool, .rw, .host, 1, true, false, false, false, false, .plain, .any, .any⟩,
  ⟨0xA000, [], false, 0x02, .u16, .rw, .host, 6, true, false, false, false, false, .vigilPeriod, .range 1 168, .any⟩,
  ⟨0xA000, [], false, 0x03, .u32, .rw, .host, 1000, true, false, false, false, false, .vigilPeriod, .range 100 60000, .any⟩,
  ⟨0xA000, [], false, 0x04, .u16, .ro, .device, 10, false, false, false, false, false, .count, .any, .any⟩,
  ⟨0xA000, [], false, 0x05, .u64, .ro, .device, 0, false, false, false, false, false, .count, .any, .any⟩,
  ⟨0xA000, [], false, 0x06, .u64, .ro, .device, 0, false, false, false, false, false, .count, .any, .any⟩,
  ⟨0xA000, [], false, 0x07, .u32, .ro, .device, 0, false, false, false, false, false, .count, .any, .any⟩,
  ⟨0xA000, [], false, 0x08, .u32, .ro, .device, 0, false, false, false, false, false, .oldestAge, .any, .any⟩,
  ⟨0xA000, [], false, 0x09, .u32, .ro, .device, 0, false, false, false, false, false, .overdue, .any, .any⟩,
  ⟨0xA001, [], false, 0x01, .u8, .rw, .host, 4, true, false, false, false, false, .plain, .any, .any⟩,
  ⟨0xA001, [], false, 0x02, .u32, .rw, .host, 1000, true, false, false, false, false, .plain, .any, .any⟩,
  ⟨0xA001, [], false, 0x03, .u16, .rw, .host, 8, true, false, false, false, false, .plain, .range 1 1024, .any⟩,
  ⟨0xA002, [], false, 0x01, .u64, .ro, .device, 0, false, false, false, false, false, .count, .any, .any⟩,
  ⟨0xA002, [], false, 0x02, .u32, .ro, .device, 0, false, false, false, false, false, .count, .any, .any⟩,
  ⟨0xA002, [], false, 0x03, .u64, .ro, .device, 0, false, false, false, false, false, .count, .any, .any⟩,
  ⟨0xA002, [], false, 0x04, .u64, .ro, .device, 0, false, false, false, false, false, .count, .any, .any⟩,
  ⟨0xA002, [], false, 0x05, .u64, .ro, .device, 0, false, false, false, false, false, .count, .any, .any⟩,
  ⟨0xA002, [], false, 0x06, .u32, .ro, .device, 0, false, false, false, false, false, .count, .any, .any⟩,
  ⟨0xA010, [], false, 0x01, .domain, .wo, .host, 0, false, false, false, false, false, .package, .any, .any⟩,
  objFwCommand,
  ⟨0xA010, [], false, 0x03, .u8, .ro, .device, 0, false, false, false, false, false, .count, .any, .any⟩,
  ⟨0xA010, [], false, 0x04, .u8, .ro, .device, 0, false, false, false, false, false, .count, .any, .any⟩,
  ⟨0xA010, [], false, 0x05, .u32, .ro, .device, 0, false, false, false, false, false, .count, .any, .any⟩,
  ⟨0xA010, [], false, 0x06, .u16, .ro, .device, 0, false, false, false, false, false, .sweepProgress, .any, .any⟩,
  objServeAt,
  ⟨0xA030, [], false, 0x02, .u8, .ro, .device, 0, false, false, false, false, false, .count, .any, .any⟩,
  ⟨0xA100, [(0x2, 40), (0x1, 2)], false, 0x0A, .u8, .ro, .device, 0, false, false, false, false, false, .arrayValue, .any, .any⟩,
  ⟨0xA100, [(0x2, 40), (0x1, 2)], false, 0x0B, .u32, .ro, .device, 0, false, false, false, false, false, .count, .any, .any⟩,
  ⟨0xA100, [(0x2, 40), (0x1, 2)], false, 0x0C, .u32, .ro, .device, 0, false, false, false, false, false, .arrayValue, .any, .any⟩,
  ⟨0xA200, [(0x1, 8)], false, 0x0D, .domain, .ro, .device, 0, false, false, false, false, false, .coreGens, .any, .any⟩,
  ⟨0xA200, [(0x1, 8)], false, 0x0E, .u64, .ro, .device, 0, false, false, false, false, false, .count, .any, .any⟩,
  ⟨0xA040, [], false, 0x01, .u32, .ro, .device, 0, false, false, false, false, false, .activeAlarms, .any, .any⟩,
  objLatchedAlarms,
  ⟨0xA040, [], false, 0x03, .u32, .rw, .host, 65535, true, false, false, false, false, .plain, .any, .any⟩,
  ⟨0xA040, [], false, 0x04, .u16, .rw, .host, 65535, true, false, false, false, false, .plain, .any, .any⟩,
  ⟨0xA040, [], false, 0x05, .u8, .rw, .host, 10, true, false, false, false, false, .plain, .any, .any⟩]

/-- Objects of range 0xA000. -/
def objectsA_3 : List ObjDef := [
  ⟨0xA628, [(0x1, 2)], false, 0x01, .u64, .ro, .device, 0, false, false, false, false, false, .chanStatus, .any, .any⟩,
  ⟨0xA628, [(0x1, 2)], false, 0x02, .u64, .ro, .device, 0, false, false, false, false, false, .chanStatus, .any, .any⟩,
  ⟨0xA628, [(0x1, 2)], false, 0x03, .u64, .ro, .device, 0, false, false, false, false, false, .chanStatus, .any, .any⟩,
  ⟨0xA628, [(0x1, 2)], false, 0x04, .u64, .ro, .device, 0, false, false, false, false, false, .chanStatus, .any, .any⟩,
  ⟨0xA628, [(0x1, 2)], false, 0x05, .u64, .ro, .device, 0, false, false, false, false, false, .chanStatus, .any, .any⟩,
  ⟨0xA628, [(0x1, 2)], false, 0x06, .u64, .ro, .device, 0, false, false, false, false, false, .chanStatus, .any, .any⟩,
  ⟨0xA628, [(0x1, 2)], false, 0x07, .u64, .ro, .device, 0, false, false, false, false, false, .chanStatus, .any, .any⟩,
  ⟨0xA628, [(0x1, 2)], false, 0x08, .u64, .ro, .device, 0, false, false, false, false, false, .chanStatus, .any, .any⟩,
  ⟨0xA628, [(0x1, 2)], false, 0x09, .u64, .ro, .device, 0, false, false, false, false, false, .chanStatus, .any, .any⟩,
  ⟨0xA628, [(0x1, 2)], false, 0x0A, .u64, .ro, .device, 0, false, false, false, false, false, .chanStatus, .any, .any⟩,
  ⟨0xA628, [(0x1, 2)], false, 0x0B, .u64, .ro, .device, 0, false, false, false, false, false, .chanStatus, .any, .any⟩,
  ⟨0xA628, [(0x1, 2)], false, 0x0C, .u64, .ro, .device, 0, false, false, false, false, false, .chanStatus, .any, .any⟩,
  ⟨0xA628, [(0x1, 2)], false, 0x0D, .u64, .ro, .device, 0, false, false, false, false, false, .chanStatus, .any, .any⟩,
  ⟨0xA628, [(0x1, 2)], false, 0x0E, .u64, .ro, .device, 0, false, false, false, false, false, .chanStatus, .any, .any⟩,
  ⟨0xA628, [(0x1, 2)], false, 0x0F, .u64, .ro, .device, 0, false, false, false, false, false, .chanStatus, .any, .any⟩,
  ⟨0xA628, [(0x1, 2)], false, 0x10, .u64, .ro, .device, 0, false, false, false, false, false, .chanStatus, .any, .any⟩,
  ⟨0xA628, [(0x1, 2)], false, 0x11, .u64, .ro, .device, 0, false, false, false, false, false, .chanAddress, .any, .any⟩,
  ⟨0xA628, [(0x1, 2)], false, 0x12, .u64, .ro, .device, 0, false, false, false, false, false, .chanAddress, .any, .any⟩,
  ⟨0xA628, [(0x1, 2)], false, 0x13, .u64, .ro, .device, 0, false, false, false, false, false, .chanAddress, .any, .any⟩,
  ⟨0xA628, [(0x1, 2)], false, 0x14, .u64, .ro, .device, 0, false, false, false, false, false, .chanAddress, .any, .any⟩,
  ⟨0xA628, [(0x1, 2)], false, 0x15, .u64, .ro, .device, 0, false, false, false, false, false, .chanAddress, .any, .any⟩,
  ⟨0xA628, [(0x1, 2)], false, 0x16, .u64, .ro, .device, 0, false, false, false, false, false, .chanAddress, .any, .any⟩,
  ⟨0xA628, [(0x1, 2)], false, 0x17, .u64, .ro, .device, 0, false, false, false, false, false, .chanAddress, .any, .any⟩,
  ⟨0xA628, [(0x1, 2)], false, 0x18, .u64, .ro, .device, 0, false, false, false, false, false, .chanAddress, .any, .any⟩,
  ⟨0xA628, [(0x1, 2)], false, 0x19, .u64, .ro, .device, 0, false, false, false, false, false, .chanAddress, .any, .any⟩,
  ⟨0xA628, [(0x1, 2)], false, 0x1A, .u64, .ro, .device, 0, false, false, false, false, false, .chanAddress, .any, .any⟩,
  ⟨0xA628, [(0x1, 2)], false, 0x1B, .u64, .ro, .device, 0, false, false, false, false, false, .chanAddress, .any, .any⟩,
  ⟨0xA628, [(0x1, 2)], false, 0x1C, .u64, .ro, .device, 0, false, false, false, false, false, .chanAddress, .any, .any⟩,
  ⟨0xA628, [(0x1, 2)], false, 0x1D, .u64, .ro, .device, 0, false, false, false, false, false, .chanAddress, .any, .any⟩,
  ⟨0xA628, [(0x1, 2)], false, 0x1E, .u64, .ro, .device, 0, false, false, false, false, false, .chanAddress, .any, .any⟩,
  ⟨0xA628, [(0x1, 2)], false, 0x1F, .u64, .ro, .device, 0, false, false, false, false, false, .chanAddress, .any, .any⟩,
  ⟨0xA628, [(0x1, 2)], false, 0x20, .u64, .ro, .device, 0, false, false, false, false, false, .chanAddress, .any, .any⟩,
  ⟨0xA628, [(0x1, 2)], false, 0x21, .u64, .ro, .device, 0, false, false, false, false, false, .count, .any, .any⟩,
  ⟨0xA628, [(0x1, 2)], false, 0x22, .u32, .ro, .device, 0, false, false, false, false, false, .count, .any, .any⟩,
  ⟨0xA628, [(0x1, 2)], false, 0x23, .u32, .ro, .device, 0, false, false, false, false, false, .count, .any, .any⟩,
  ⟨0xA628, [(0x1, 2)], false, 0x24, .u64, .ro, .device, 0, false, false, false, false, false, .count, .any, .any⟩,
  ⟨0xA628, [(0x1, 2)], false, 0x25, .u16, .ro, .device, 4096, false, false, false, false, false, .freeProgram, .any, .any⟩,
  ⟨0xA628, [(0x1, 2)], false, 0x26, .u64, .ro, .device, 0, false, false, false, false, false, .count, .any, .any⟩]

/-- Objects of range 0xB000. -/
def objectsB_0 : List ObjDef := [
  ⟨0xB000, [(0x10, 32)], true, 0x01, .u64, .ro, .device, 0, false, false, false, false, false, .partCounter, .any, .any⟩,
  ⟨0xB000, [(0x10, 32)], true, 0x02, .u64, .ro, .device, 0, false, false, false, false, false, .partCounter, .any, .any⟩,
  ⟨0xB000, [(0x10, 32)], true, 0x03, .u64, .ro, .device, 0, false, false, false, false, false, .partCounter, .any, .any⟩,
  ⟨0xB000, [(0x10, 32)], true, 0x04, .u64, .ro, .device, 0, false, false, false, false, false, .partCounter, .any, .any⟩,
  ⟨0xB000, [(0x10, 32)], true, 0x05, .u64, .ro, .device, 0, false, false, false, false, false, .partCounter, .any, .any⟩,
  ⟨0xB000, [(0x10, 32)], true, 0x06, .u64, .ro, .device, 0, false, false, false, false, false, .partCounter, .any, .any⟩,
  ⟨0xB000, [(0x10, 32)], true, 0x07, .u64, .ro, .device, 0, false, false, false, false, false, .partCounter, .any, .any⟩,
  ⟨0xB000, [(0x10, 32)], true, 0x08, .u64, .ro, .device, 0, false, false, false, false, false, .partCounter, .any, .any⟩,
  ⟨0xB000, [(0x10, 32)], true, 0x09, .u64, .ro, .device, 0, false, false, false, false, false, .partCounter, .any, .any⟩,
  ⟨0xB000, [(0x10, 32)], true, 0x0A, .domain, .ro, .device, 0, false, false, false, false, false, .refusalCounters, .any, .any⟩,
  ⟨0xB000, [(0x10, 32)], true, 0x0B, .u64, .ro, .device, 0, false, false, false, false, false, .partCounter, .any, .any⟩,
  ⟨0xB000, [(0x10, 32)], true, 0x0C, .u64, .ro, .device, 0, false, false, false, false, false, .partCounter, .any, .any⟩,
  ⟨0xB000, [(0x10, 32)], true, 0x0D, .u64, .ro, .device, 0, false, false, false, false, false, .partCounter, .any, .any⟩,
  ⟨0xB000, [(0x10, 32)], true, 0x0E, .u64, .ro, .device, 0, false, false, false, false, false, .partCounter, .any, .any⟩,
  ⟨0xB000, [(0x10, 32)], true, 0x0F, .u64, .ro, .device, 0, false, false, false, false, false, .partCounter, .any, .any⟩,
  ⟨0xB000, [(0x10, 32)], true, 0x10, .u64, .ro, .device, 0, false, false, false, false, false, .partCounter, .any, .any⟩,
  ⟨0xB000, [(0x10, 32)], true, 0x11, .u64, .ro, .device, 0, false, false, false, false, false, .partCounter, .any, .any⟩,
  ⟨0xB000, [(0x10, 32)], true, 0x12, .u64, .ro, .device, 0, false, false, false, false, false, .partCounter, .any, .any⟩,
  ⟨0xB000, [(0x10, 32)], true, 0x13, .u64, .ro, .device, 0, false, false, false, false, false, .partCounter, .any, .any⟩,
  ⟨0xB000, [(0x10, 32)], true, 0x14, .u64, .ro, .device, 0, false, false, false, false, false, .partCounter, .any, .any⟩,
  ⟨0xB800, [], false, 0x01, .domain, .ro, .device, 0, false, false, false, false, false, .snapshot, .any, .any⟩,
  ⟨0xB800, [], false, 0x02, .u32, .ro, .device, 0, false, false, false, false, false, .bootCount, .any, .any⟩]

/-- Objects of range 0xC000. -/
def objectsC_0 : List ObjDef := [
  ⟨0xC000, [], false, 0x01, .u8, .ro, .device, 0, false, false, false, false, false, .count, .any, .any⟩,
  objLifeCommand,
  ⟨0xC000, [], false, 0x03, .u64, .ro, .device, 0, false, false, false, false, false, .count, .any, .any⟩,
  objToken,
  objScrapArm,
  ⟨0xC000, [], false, 0x06, .u32, .ro, .device, 0, false, false, false, false, false, .count, .any, .any⟩,
  ⟨0xC000, [], false, 0x07, .u8, .ro, .device, 0, false, false, false, false, false, .count, .any, .any⟩,
  ⟨0xC000, [], false, 0x08, .u8, .ro, .device, 24, false, false, false, false, false, .count, .any, .any⟩,
  ⟨0xC001, [], false, 0x01, .u8, .ro, .device, 0, false, false, false, false, false, .count, .any, .any⟩,
  ⟨0xC001, [], false, 0x02, .u8, .ro, .device, 0, false, false, false, false, false, .count, .any, .any⟩,
  ⟨0xC001, [], false, 0x03, .domain, .ro, .device, 0, false, false, false, false, false, .identityKey, .any, .any⟩,
  ⟨0xC001, [], false, 0x04, .domain, .rw, .side, 0, false, false, false, false, false, .certificate, .any, .upTo 2048⟩,
  ⟨0xC002, [], false, 0x01, .u32, .ro, .device, 0, false, false, false, false, false, .count, .any, .any⟩,
  ⟨0xC002, [], false, 0x02, .u8, .ro, .device, 0, false, false, false, false, false, .count, .any, .any⟩,
  ⟨0xC003, [], false, 0x01, .u32, .ro, .device, 0, false, false, false, false, false, .count, .any, .any⟩,
  objMinSvn,
  objRevocations,
  ⟨0xC010, [], false, 0x01, .domain, .ro, .device, 0, false, false, false, false, false, .zeroBlob, .any, .exact 48⟩,
  ⟨0xC010, [], false, 0x02, .domain, .ro, .device, 0, false, false, false, false, false, .zeroBlob, .any, .exact 48⟩,
  ⟨0xC010, [], false, 0x03, .domain, .ro, .device, 0, false, false, false, false, false, .zeroBlob, .any, .exact 48⟩,
  ⟨0xC010, [], false, 0x04, .domain, .ro, .device, 0, false, false, false, false, false, .zeroBlob, .any, .exact 48⟩,
  ⟨0xC010, [], false, 0x05, .domain, .ro, .device, 0, false, false, false, false, false, .zeroBlob, .any, .exact 48⟩,
  ⟨0xC010, [], false, 0x06, .domain, .ro, .device, 0, false, false, false, false, false, .zeroBlob, .any, .exact 48⟩,
  ⟨0xC010, [], false, 0x07, .domain, .ro, .device, 0, false, false, false, false, false, .zeroBlob, .any, .exact 48⟩,
  ⟨0xC010, [], false, 0x08, .domain, .ro, .device, 0, false, false, false, false, false, .zeroBlob, .any, .exact 48⟩,
  ⟨0xC010, [], false, 0x09, .domain, .ro, .device, 0, false, false, false, false, false, .blob, .any, .any⟩,
  objNonce,
  ⟨0xC010, [], false, 0x0B, .domain, .ro, .device, 0, false, false, false, false, false, .blob, .any, .any⟩,
  objSideKey,
  ⟨0xC020, [], false, 0x02, .bool, .ro, .device, 1, false, false, false, false, false, .count, .any, .any⟩]

/-- Objects of range 0xD000. -/
def objectsD_0 : List ObjDef := [
  objTestStart,
  ⟨0xD000, [], false, 0x02, .u8, .ro, .device, 0, false, false, false, false, false, .testProgress, .any, .any⟩,
  ⟨0xD000, [], false, 0x03, .u8, .ro, .device, 0, false, false, false, false, false, .count, .any, .any⟩,
  ⟨0xD000, [], false, 0x04, .domain, .ro, .device, 0, false, false, false, false, false, .blob, .any, .any⟩]

/-- Objects of range 0xE000. -/
def objectsE_0 : List ObjDef := [
  objLanternCommand,
  ⟨0xE000, [(0x1, 2)], false, 0x02, .u8, .ro, .device, 0, false, false, false, false, false, .lanternState, .any, .any⟩,
  ⟨0xE000, [(0x1, 2)], false, 0x03, .u16, .rw, .host, 65534, true, false, false, false, false, .lanternConfig, .any, .any⟩,
  ⟨0xE000, [(0x1, 2)], false, 0x04, .u64, .rw, .host, 8589934591, true, false, false, false, false, .lanternConfig, .any, .any⟩,
  ⟨0xE000, [(0x1, 2)], false, 0x05, .u32, .rw, .host, 4096, true, false, false, false, false, .lanternConfig, .any, .any⟩,
  ⟨0xE000, [(0x1, 2)], false, 0x06, .u32, .rw, .host, 4096, true, false, false, false, false, .lanternConfig, .any, .any⟩,
  ⟨0xE000, [(0x1, 2)], false, 0x07, .u64, .rw, .host, 1008806320809181185, true, false, false, false, false, .lanternConfig, .any, .any⟩,
  ⟨0xE000, [(0x1, 2)], false, 0x08, .bool, .rw, .host, 0, true, false, false, false, false, .lanternConfig, .any, .any⟩,
  ⟨0xE000, [(0x1, 2)], false, 0x09, .u64, .rw, .host, 0, false, false, false, false, false, .plain, .aligned 64, .any⟩,
  ⟨0xE000, [(0x1, 2)], false, 0x0A, .u8, .rw, .host, 0, false, false, false, false, false, .plain, .codes [0, 1], .any⟩,
  ⟨0xE000, [(0x1, 2)], false, 0x0B, .domain, .ro, .device, 0, false, false, false, false, false, .lanternCapture, .any, .any⟩,
  ⟨0xE000, [(0x1, 2)], false, 0x0C, .u32, .ro, .device, 0, false, false, false, false, false, .count, .any, .any⟩,
  ⟨0xE000, [(0x1, 2)], false, 0x0D, .u32, .ro, .device, 0, false, false, false, false, false, .count, .any, .any⟩,
  ⟨0xE000, [(0x1, 2)], false, 0x0E, .u64, .ro, .device, 0, false, false, false, false, false, .count, .any, .any⟩,
  objLanternMarker,
  ⟨0xE000, [(0x1, 2)], false, 0x10, .u32, .ro, .device, 0, false, false, false, false, false, .count, .any, .any⟩,
  ⟨0xE000, [(0x1, 2)], false, 0x11, .domain, .rw, .host, 0, false, false, false, false, false, .lanternWatched, .any, .units 2 16⟩,
  ⟨0xE010, [], false, 0x01, .u64, .ro, .device, 0, false, false, false, false, false, .nextSequence, .any, .any⟩,
  ⟨0xE010, [], false, 0x02, .u64, .rw, .host, 0, false, false, false, false, false, .plain, .any, .any⟩,
  ⟨0xE010, [], false, 0x03, .domain, .ro, .device, 0, false, false, false, false, false, .annalsRecords, .any, .any⟩,
  ⟨0xE010, [], false, 0x04, .u16, .ro, .device, 0, false, false, false, false, false, .stagingOccupancy, .any, .any⟩,
  ⟨0xE010, [], false, 0x05, .u64, .ro, .device, 0, false, false, false, false, false, .count, .any, .any⟩,
  ⟨0xE010, [], false, 0x06, .u8, .rw, .host, 0, true, false, false, false, false, .plain, .range 0 3, .any⟩,
  ⟨0xE010, [], false, 0x07, .u64, .ro, .device, 0, false, false, false, false, false, .oldestKept, .any, .any⟩,
  ⟨0xE010, [], false, 0x08, .u16, .ro, .device, 0, false, false, false, false, false, .unpersisted, .any, .any⟩,
  ⟨0xE010, [], false, 0x0A, .u64, .rw, .host, 0, false, false, false, false, false, .plain, .any, .any⟩,
  ⟨0xE010, [], false, 0x0B, .u32, .rw, .host, 4096, false, false, false, false, false, .plain, .pow2 64 1048576, .any⟩,
  ⟨0xE010, [], false, 0x0C, .u8, .rw, .host, 0, false, false, false, false, false, .plain, .codes [0, 1], .any⟩]

/-- Every object. -/
def allObjects : List ObjDef :=
  objects1_0 ++ objects1_1 ++ objects2_0 ++ objects3_0 ++ objects3_1 ++ objects4_0 ++ objects4_1 ++ objects5_0 ++ objects6_0 ++ objects6_1 ++ objects7_0 ++ objects7_1 ++ objects8_0 ++ objects8_1 ++ objects9_0 ++ objectsA_0 ++ objectsA_1 ++ objectsA_2 ++ objectsA_3 ++ objectsB_0 ++ objectsC_0 ++ objectsD_0 ++ objectsE_0

/-- The parameters that bring an index formula to an index, if some permitted set does (23 R619). -/
def solveParams (rest : Nat) (params : List (Nat × Nat)) : Option (List Nat) :=
  match params with
  | [] => if rest = 0 then some [] else none
  | (step, count) :: more =>
    let q := min (rest / step) (count - 1)
    match solveParams (rest - step * q) more with
    | some ps => some (q :: ps)
    | none => none

/-- The parameters of an index under an object's formula. -/
def ObjDef.solve (d : ObjDef) (idx : Nat) : Option (List Nat) :=
  if d.base ≤ idx then solveParams (idx - d.base) d.params else none

/-- An object of an index: its definition and parameters. -/
structure ObjRef where
  obj : ObjDef
  ps  : List Nat
deriving DecidableEq, Repr

/-- The index of an object at its parameters. -/
def ObjRef.idx (r : ObjRef) : Nat := r.obj.base + ((r.obj.params.zip r.ps).map (fun x => x.1.1 * x.2)).foldl (· + ·) 0

/-- Every object of an index. -/
def objectsOf (idx : Nat) : List ObjRef :=
  allObjects.filterMap (fun d => (d.solve idx).map (fun ps => ⟨d, ps⟩))

/-- The object of an index and subindex. -/
def findObject (idx sub : Nat) : Option ObjRef := (objectsOf idx).find? (fun r => r.obj.sub = sub)

/-- The highest subindex of an index, none where the index is not implemented (02 R31). -/
def highestSub (idx : Nat) : Option Nat :=
  match objectsOf idx with
  | [] => none
  | l => some (l.foldl (fun a r => max a r.obj.sub) 0)

end Sys2Proof.Machine
end

