-- ==== Sys2Proof/Machine/Telemetry.lean ====
section
/-! DEFINITION. Accounting ticks, the two Lanterns, Annals and the alarms (22). -/

namespace Sys2Proof.Machine

open Sys2Proof

/-- The tiles claimed by a partition's slots that hold resources (03 OD 0x3000 + 0x10·p.09). -/
def tilesClaimed (s : State) (p : Nat) : Nat := (s.claims.tileOwner.filter (fun e => e.2 / 4 = p)).length

/-- The tile SRAM claimed by a partition in MiB, rounded up (03 OD 0x3000 + 0x10·p.0A). -/
def sramClaimed (s : State) (p : Nat) : Nat :=
  ceilDiv ((s.claims.regions.filter (fun r => r.space = 0 && r.owner = p)).foldl (fun a r => a + r.size) 0) 1048576

/-- The next µs of local time is charged for residency, and with every thousandth one the ms for tile SRAM (22 R599). -/
def execAccountingTick (s : State) : Host.Outcome State Fault Refusal :=
  if mainOn s && s.tele.lastUs + 1000 ≤ s.clock.now then
    let s := (List.range 32).foldl (fun s p => charge p 0x0B (tilesClaimed s p) s) (s.modTele (fun t => { t with lastUs := t.lastUs + 1000 }))
    if s.tele.lastMs + 1000000 ≤ s.tele.lastUs then
      .next ((List.range 32).foldl (fun s p => charge p 0x0D (sramClaimed s p) s) (s.modTele (fun t => { t with lastMs := t.lastMs + 1000000 })))
    else .next s
  else .next s

/-- The object index of a hub's Lantern. -/
def lanternObj (h : Nat) : Nat := 0xE000 + h

/-- Whether a Lantern keeps a record: its class and its owner are enabled; GAP always (22 R604). -/
def Lantern.keeps (l : Lantern) (r : TraceRecord) : Bool := r.code = 0x0D || (bit l.classes r.code && bit l.owners r.owner)

/-- Whether a record is a match (22 R607). -/
def Lantern.matches (l : Lantern) (r : TraceRecord) : Bool :=
  let mask := bits l.trigger 39 24
  r.code = bits l.trigger 63 56 && r.source &&& mask = bits l.trigger 55 40 &&& mask
  && (bits l.trigger 23 16 = 0xFF || r.owner = bits l.trigger 23 16)

/-- A record put in the buffer with the next sequence; in FILLING the newest P stay (22 R603, R608). -/
def Lantern.push (l : Lantern) (r : TraceRecord) : Lantern :=
  let b := l.buffer ++ [(l.next % 2 ^ 32, r)]
  { l with next := l.next + 1, buffer := if l.state = .filling then b.drop (b.length - l.preDepth) else b }

/-- The records dropped since the last GAP reported ahead of the next record kept (22 R605). -/
def Lantern.gapRecord (l : Lantern) (r : TraceRecord) (h : Nat) : Option TraceRecord :=
  if l.gap = 0 then none else some ⟨r.ft, 0x0D, ownSystem, srcHub h, toLE 4 (min l.gap 0xFFFFFFFF)⟩

/-- A record kept in POST; after the last one the capture is DONE and its export begins where one is set (22 R608, R610). (log 112, DEDUCED.) -/
def keepPost (h : Nat) (r : TraceRecord) (s : State) : State :=
  let l := getLantern s h
  let s := modLantern h (fun l => { l.push r with postLeft := l.postLeft - 1 }) s
  if l.postLeft ≤ 1 then
    let out := rwVal s (lanternObj h) 0x09 0 != 0
    bump (lanternObj h) 0x10 1 (modLantern h (fun l => { l with state := .done, capture := l.capture + 1, exporting := out }) s)
  else s

/-- A record becomes the trigger: the first post record (22 R607 to R609). -/
def triggerRecord (h : Nat) (r : TraceRecord) (s : State) : State :=
  keepPost h r (modLantern h (fun l => { l with state := .post, pre := l.buffer.length, postLeft := l.postCount, trigFt := r.ft }) s)

/-- A record that a Lantern takes in (22 R605, R607, R608). -/
def lanternTake (h : Nat) (r : TraceRecord) (s : State) : State :=
  let l := getLantern s h
  if !l.keeps r then s
  else
    let gap := l.gapRecord r h
    let clear (s : State) : State := modLantern h (fun l => { l with gap := 0 }) s
    match l.state with
    | .idle => s
    | .filling =>
      let s := match gap with | some g => clear (modLantern h (fun l => l.push g) s) | none => s
      let n := l.matches_ + b2n (l.matches r)
      let s := modLantern h (fun l => { l with matches_ := n }) s
      if l.matches r && max 1 (bits l.trigger 15 0) ≤ n then triggerRecord h r s else modLantern h (fun l => l.push r) s
    | .post =>
      let s := match gap with | some g => keepPost h g (clear s) | none => s
      if (getLantern s h).state = .post then keepPost h r (if l.matches r then bump (lanternObj h) 0x0D 1 s else s) else s
    | .done => if l.matches r then bump (lanternObj h) 0x0C 1 s else s
    | .rearm => if l.matches r then bump (lanternObj h) 0x0C 1 s else s

/-- The head of a Lantern's input queue is taken in (22 R605). -/
def execLanternRecord (hub : Nat) (s : State) : Host.Outcome State Fault Refusal :=
  match (getLantern s hub).queue with
  | r :: rest => if hub < 2 then .next (settle (lanternTake hub r (modLantern hub (fun l => { l with queue := rest }) s))) else .next s
  | [] => .next s

/-- ARM (22 R606, R608). -/
def lanternArm (h : Nat) (s : State) : Status × State :=
  let v (sub d : Nat) : Nat := rwVal s (lanternObj h) sub d
  let p := v 5 4096
  let q := v 6 4096
  if (getLantern s h).state != .idle then (.state, s)
  else if q = 0 || 131072 < p + q then (.range, s)
  else
    let w := rwDom s (lanternObj h) 0x11 []
    let cells := (List.range (w.length / 2)).map (fun i => leAt w (2 * i) 2)
    let c : Lantern := { state := .filling, preDepth := p, postCount := q, classes := v 3 0xFFFE, owners := v 4 0x1FFFFFFFF,
                         trigger := v 7 0x0E000000FF000001, autoRearm := v 8 0 = 1, watched := cells }
    (.ok, modLantern h (fun l => { c with next := l.next, capture := l.capture }) s)

/-- DISARM (22 R608): any capture is lost. -/
def lanternDisarm (h : Nat) (s : State) : Status × State :=
  if (getLantern s h).state = .idle then (.state, s)
  else (.ok, modLantern h (fun l => { next := l.next, capture := l.capture }) s)

/-- REARM (22 R608). -/
def lanternRearm (h : Nat) (s : State) : Status × State :=
  if (getLantern s h).state != .done then (.state, s)
  else (.ok, modLantern h (fun l => { l with state := .rearm, exporting := false }) s)

/-- TRIGGER: a USER record with zero data is the trigger (22 R607). -/
def lanternTrigger (h : Nat) (s : State) : Status × State :=
  if (getLantern s h).state != .filling then (.state, s)
  else (.ok, triggerRecord h ⟨s.clock.ft, 0x0C, ownSystem, srcHub h, toLE 8 0⟩ s)

/-- The Lantern command (22 OD 0xE000 + h.01; 02 R624). -/
def lanternCommand (h code : Nat) (s : State) : Status × State :=
  if code = 1 then lanternArm h s else if code = 2 then lanternDisarm h s else if code = 3 then lanternRearm h s
  else if code = 4 then lanternTrigger h s else (.reserved, s)

/-- A marker written: a USER record with its 8 bytes (22 R604). -/
def lanternMarker (h v : Nat) (s : State) : State := traceTo h ⟨s.clock.ft, 0x0C, ownSystem, srcHub h, toLE 8 v⟩ s

/-- The buffer is zeroed and the Lantern fills again (22 R608). -/
def execRearmDone (hub : Nat) (s : State) : Host.Outcome State Fault Refusal :=
  if hub < 2 && (getLantern s hub).state = .rearm then
    .next (settle (modLantern hub (fun l =>
      { l with state := .filling, buffer := [], matches_ := 0, pre := 0, postLeft := 0, gap := 0, lost := 0, failed := false }) s))
  else .next s

/-- The 32 bytes of a Lantern record (22 R603). -/
def traceBytes (r : Nat × TraceRecord) : Bytes :=
  toLE 8 r.2.ft ++ toLE 2 r.2.source ++ toLE 1 r.2.code ++ toLE 1 r.2.owner ++ toLE 4 r.1 ++ slice r.2.data 0 16

/-- A capture: its header and its records (22 R609). -/
def captureBytes (l : Lantern) : Bytes :=
  toLE 4 l.capture ++ toLE 4 l.pre ++ toLE 4 l.postCount ++ toLE 4 (b2n (decide (l.pre < l.preDepth)) + 2 * b2n l.failed) ++ toLE 8 l.trigFt
  ++ toLE 8 l.lost ++ toLE 32 0 ++ l.buffer.flatMap traceBytes

/-- A capture's export ends: written to the host and re-armed where that is set, or failed with its port's link down (22 R610). -/
def execLanternExportDone (hub : Nat) (s : State) : Host.Outcome State Fault Refusal :=
  let l := getLantern s hub
  let port := rwVal s (lanternObj hub) 0x0A 0
  if hub < 2 && l.exporting && l.state = .done then
    let s := modLantern hub (fun l => { l with exporting := false }) s
    if linkUp (linkAt s port) then
      let s := emit (.hostWrite port (rwVal s (lanternObj hub) 0x09 0) (captureBytes l)) s
      .next (settle (if l.autoRearm then modLantern hub (fun l => { l with state := .rearm }) s else s))
    else .next (settle (modLantern hub (fun l => { l with failed := true }) s))
  else .next s

/-- An event raised by a unit reaches the staging buffer, or is lost and counted (22 R613, R614). -/
def execAnnalsEvent (code severity owner source : Nat) (data : Bytes) (s : State) : Host.Outcome State Fault Refusal :=
  .next (annal code severity owner source data s)

/-- The bytes of an Annals record (22 R611). -/
def annalsBytes (r : AnnalsRecord) : Bytes :=
  let b := toLE 8 r.seq ++ toLE 8 r.event.ft ++ toLE 2 r.event.code ++ toLE 1 r.event.severity ++ toLE 1 r.event.owner ++ toLE 2 r.event.source
    ++ toLE 2 0 ++ slice r.event.data 0 32 ++ toLE 4 r.boot
  b ++ toLE 4 (crc32 b)

/-- An EVENTS_LOST record staged when two entries are free again (22 R614). -/
def stageLost (cap ft : Nat) (source : Nat) (g : Staging) : Staging :=
  if g.lost = 0 || cap < g.events.length + 2 then g
  else
    let e : Event := { ft := ft, code := 1, severity := 3, owner := ownDevice, source := source,
                       data := toLE 4 (min g.lost 0xFFFFFFFF) ++ toLE 2 g.firstLost ++ toLE 2 g.lastLost ++ toLE 8 g.lastFt }
    { g with events := g.events ++ [e], lost := 0 }

/-- The staging buffer that the writer takes from: the primary's, then the peer's once it is heard, then the standby staging (22 R613,
R615). -/
def stagingHead (s : State) (h : Nat) : Option Nat :=
  let a := s.tele.annals
  if !(getStaging a h).events.isEmpty then some h
  else if !(getStaging a (otherHub h)).events.isEmpty && (hubSide s (otherHub h)).present && !(hubSide s h).silent then some (otherHub h)
  else if !a.standby.events.isEmpty then some 2
  else none

/-- The writer takes the staging head, gives it the next sequence and writes it to the ring with its mirror copy; with an export base it is
also written to the host (22 R613, R616). -/
def execAnnalsRingWrite (s : State) : Host.Outcome State Fault Refusal :=
  match decidingHub s with
  | none => .next s
  | some h =>
    match stagingHead s h with
    | none => .next s
    | some k =>
      match (getStaging s.tele.annals k).events with
      | [] => .next s
      | e :: rest =>
        if 16384 ≤ s.tele.annals.ring.length || s.tele.annals.stopped then .next s
        else
          let r : AnnalsRecord := ⟨s.tele.annals.nextSeq, e, s.tele.annals.boot⟩
          let g := stageLost (stagingCap k) s.clock.ft (srcHub h) { getStaging s.tele.annals k with events := rest }
          let a := s.tele.annals
          let a := { putStaging a k g with ring := a.ring ++ [r], nextSeq := a.nextSeq + 1, lostSince := a.lostSince || e.code = 1 }
          let s := s.modTele (fun t => { t with annals := a })
          let s := if needsMirror s then issueMirror s else s
          let base := rwVal s 0xE010 0x0A 0
          let s := if base = 0 then s
            else emit (.hostWrite (rwVal s 0xE010 0x0C 0) (base + 64 * (r.seq % rwVal s 0xE010 0x0B 4096)) (annalsBytes r)) s
          .next (settle s)

/-- A storage die acknowledges the oldest record of the ring: it is persisted, and the latest 1,048,576 are kept (22 R613, R616). -/
def execAnnalsPersist (s : State) : Host.Outcome State Fault Refusal :=
  match s.tele.annals.ring with
  | [] => .next s
  | r :: rest =>
    if (mireState s = 1 || mireState s = 3) && !(s.mire.dieN.lost && s.mire.dieS.lost) && !s.mire.dumping then
      .next (s.modTele (fun t => { t with annals :=
        { t.annals with ring := rest, kept := (t.annals.kept ++ [r]).drop (t.annals.kept.length + 1 - 1048576) } }))
    else .next s

/-- Latched alarm bits cleared by a write of 1 (22 R618). -/
def clearAlarms (v : Nat) (s : State) : State := s.modTele (fun t => { t with latched := t.latched &&& (0xFFFFFFFF ^^^ (v % 2 ^ 32)) })

end Sys2Proof.Machine
end

