-- ==== Sys2Proof/Machine/Reads.lean ====
section
/-! DEFINITION. What a read of each object returns: the values the dictionary derives from the state (02 R31 to R39 and the object tables of the
other chapters). -/

namespace Sys2Proof.Machine

open Sys2Proof

/-- The first parameter of an object's index. -/
def ObjRef.p0 (r : ObjRef) : Nat := nth r.ps 0 0
/-- The second parameter of an object's index. -/
def ObjRef.p1 (r : ObjRef) : Nat := nth r.ps 1 0
/-- The key that joins the parameters of a slot object. -/
def ObjRef.slotKey (r : ObjRef) : Nat := 4 * r.p0 + r.p1

/-- The bytes of a value of a fixed-size type (02 R33); none for STR and DOMAIN. -/
def Ty.size : Ty → Option Nat
  | .bool | .u8 => some 1 | .u16 => some 2 | .u32 | .i32 | .f32 => some 4 | .u64 | .ft64 => some 8 | .str | .domain => none

/-- The code of a type (02 R33). -/
def Ty.code : Ty → Nat
  | .bool => 1 | .u8 => 2 | .u16 => 3 | .u32 => 4 | .u64 => 5 | .i32 => 6 | .f32 => 7 | .ft64 => 8 | .str => 9 | .domain => 10

/-- The code of a slot state (03 R104). -/
def SlotState.code : SlotState → Nat
  | .empty => 0 | .staged => 1 | .resident => 2 | .pending => 3 | .active => 4 | .retiring => 5

/-- The code of an FT state (17 R478). -/
def FtState.code : FtState → Nat
  | .unset => 0 | .tracking => 1 | .locked => 2 | .holdover => 3

/-- The code of a Lantern state (22 OD 0xE000 + h.02). -/
def LanternState.code : LanternState → Nat
  | .idle => 0 | .filling => 1 | .post => 2 | .done => 3 | .rearm => 4

/-- The code of a link state (05 OD 0x1070 + port.01). -/
def LinkState.code : LinkState → Nat
  | .down => 0 | .training => 1 | .upPcie => 2 | .upCxl => 3

/-- The code of an update state (04 R130). -/
def UpdState.code : UpdState → Nat
  | .normal => 0 | .warn => 1 | .hold => 2

/-- The sum of a list. -/
def total (l : List Nat) : Nat := l.foldl (· + ·) 0

/-- A mask with the bits of some numbers set. -/
def maskOf (l : List Nat) : Nat := l.foldl (fun a n => setBit a n true) 0

/-- The image of a slot that holds resources. -/
def heldImage (x : Slot) : Option Image := if x.state.holds then x.image else none

/-- A term of the L_max of a slot (04 OD 0x4100 + 0x04·p + s). -/
def mirrorTerm (s : State) (p k sub : Nat) : Nat :=
  let x := KMap.getD s.slots k {}
  let (st, w, f, n) := match heldImage x with | some im => imageTerms im | none => (0, 0, 0, 0)
  if sub = 1 || sub = 0xD then 2
  else if sub = 2 then qMaxOf s p
  else if sub = 3 then st
  else if sub = 4 then (if (heldImage x).isSome then x.tSlot else 0)
  else if sub = 5 then w
  else if sub = 6 then rwVal s 0x6100 0x01 40
  else if sub = 7 then f
  else if sub = 8 then tFread s
  else if sub = 9 then flashDepth s
  else if sub = 0xA then tFsus s
  else if sub = 0xB then n
  else if sub = 0xC then rwVal s 0x7000 0x0A 90
  else match heldImage x with | some im => lmaxOf s p x.tSlot im | none => 0

/-- The FILTER budget of a slot: b_ops and t_op (08 R243, R253); 0 without tokens. -/
def filterBudget (s : State) (im : Image) : Nat :=
  let t := imageTokens im
  if t = 0 then 0
  else
    let top := max 8 (ceilDiv 3840 (min 256 t))
    65536 * ((1000 * rwVal s 0x6100 0x01 40 - 2000) / top) + top

/-- A value of an index that is not EMPTY (06 OD b + 1); 0 while it is EMPTY. -/
def indexValue (s : State) (k sub : Nat) : Nat :=
  match indexAt s k with
  | none => 0
  | some x =>
    let dead := (x.items.filter (fun e => e.2.death.isSome)).length
    if sub = 1 then x.slots
    else if sub = 2 then x.items.length - dead
    else if sub = 3 then x.slots - x.items.length
    else if sub = 4 then dead
    else if sub = 5 then x.openSides.length
    else if sub = 6 then x.horizon
    else if sub = 7 then x.last
    else if sub = 8 then rowBudget s x.fmt
    else if sub = 0xC then x.book
    else if sub = 0xD then x.progress
    else x.claimed

/-- The age in s of the oldest of some test times (19 R552). -/
def oldestAge (s : State) (ts : List Nat) : Nat := (ts.foldl (fun a t => max a (s.clock.now - t)) 0) / 1000000000

/-- The test times of the columns of an array that have not failed (19 OD 0xA100.0C). -/
def columnTimes (s : State) (n : Nat) : List Nat :=
  ((List.range 136).filter (fun c => !(arrayAt s n).bad.contains c)).map (fun c =>
    KMap.getD s.vigil.tested (testKey (1 + n % 2) (n / 2) c) s.vigil.bootAt)

/-- A value of an array (07 OD 0xA100; 19 OD 0xA100.0A, .0C). -/
def arrayValue (s : State) (n sub : Nat) : Nat :=
  let a := arrayAt s n
  if sub = 2 then (spareCols a).length
  else if sub = 3 then a.bad.length
  else if sub = 7 then b2n a.broken
  else if sub = 0xA then b2n a.search.isSome
  else oldestAge s (columnTimes s n)

/-- A value of a stack (08 OD 0xA200). -/
def stackValue (s : State) (k sub : Nat) : Nat :=
  if sub = 2 then (spareCores s k).length
  else if sub = 3 then (s.carr.failed.filter (fun c => c / 66 = k)).length
  else if sub = 8 then b2n (s.carr.deadStacks.contains k)
  else if sub = 9 then maskOf ((List.range 64).filter (fun p => (pcAt s (64 * k + p)).failed))
  else scrubPasses s k

/-- The first channel of a Sluice block of an object: tile t, or the hub blocks after them (13 OD 0xA600, 0xA628). -/
def sluiceBlock (r : ObjRef) : Nat := 16 * (if r.obj.base = 0xA628 then 40 + r.p0 else r.p0)

/-- The slack object in µs (04 OD 0x3001.06). -/
def slackValue (s : State) (p : Nat) : Nat :=
  match slackOf s p with
  | none => 0x7FFFFFFF
  | some x => patternOf 32 (max (-2147483648) (min 2147483647 (x / 1000)))

/-- The rate adjust in ppb (17 R480). -/
def rateAdjust (s : State) : Nat := patternOf 32 (if 0 < s.clock.slew then 500000 else if s.clock.slew < 0 then -500000 else 0)

/-- The lowest sequence among the Annals records kept (22 OD 0xE010.07). -/
def oldestRecord (s : State) : Nat :=
  let a := s.tele.annals
  match a.kept ++ a.ring with
  | [] => 0
  | r :: l => l.foldl (fun m x => min m x.seq) r.seq

/-- The value of an object of a fixed-size type as a read returns it; wider totals are cut to the type (log 7). (log 33, DEDUCED.) (log 115, DESIGN CHOICE.) -/
def readNum (s : State) (r : ObjRef) : Nat :=
  let i := r.idx
  let sub := r.obj.sub
  let p := r.p0
  let x := KMap.getD s.slots r.slotKey {}
  match r.obj.kind with
  | .fixed => r.obj.dflt
  | .count => countVal s i sub r.obj.dflt
  | .stepping => Config.stepping
  | .mac => Config.mac % 2 ^ 48
  | .primary => (match primaryHub s with | some h => h | none => 0) + 128 * b2n s.hubs.solo
  | .epoch => s.hubs.unitEpoch
  | .handoverAt => match entryAt s 1 with | some e => 1024 * e.fire | none => 0
  | .heartbeatPaths => pathsByte s
  | .clearLocks => 0
  | .plcaNode => rwVal s i sub (bits s.island.straps (4 * sub) (4 * sub - 3))
  | .sessionsOpen => s.dict.sessions.length
  | .storeGen => s.dict.storeGen
  | .linkState => (linkAt s p).state.code
  | .linkWidth => (linkAt s p).width
  | .linkRate => (linkAt s p).rate
  | .cxlBase => (linkAt s p).winBase
  | .devState => s.dev.state.code
  | .devCause => s.dev.cause
  | .devChange => s.dev.changeFt
  | .stoppedTiles => maskOf s.tiles.stopped
  | .guaranteed => guaranteedMhz (effectiveCap s)
  | .planning => guaranteedMhz (planningCap s)
  | .effectiveCap => effectiveCap s
  | .straps => s.island.straps
  | .tilesClaimed => tilesClaimed s p
  | .sramClaimed => sramClaimed s p
  | .carrClaimed => ceilDiv (partCarr s p) 1048576
  | .contextsClaimed => residentSum s 128 (some p) 2
  | .updateState => (updStateOf s p).code
  | .updateBacklog => (pendingUpdates s p).length
  | .slack => slackValue s p
  | .tUpd => tUpd s p
  | .queueSample => sampleWord (KMap.getD s.levee.samples (16 * p + (sub - 1)) {})
  | .slotState => x.state.code
  | .bufferInForce => x.buffer
  | .tSlot => x.tSlot
  | .slotFg => x.fg
  | .slotTerms => match heldImage x with
    | some im => let t := imageTerms im; 2 ^ 24 * t.1 + 65536 * t.2.1 + 256 * t.2.2.1 + t.2.2.2
    | none => 0
  | .slotBq => match heldImage x with | some im => im.bq | none => 0
  | .imageId => match heldImage x with | some im => im.id | none => 0
  | .filterBudget => match heldImage x with | some im => filterBudget s im | none => 0
  | .storeClaim => total (x.stores.map (·.2.2))
  | .cellBase => x.cellBase
  | .cellCount => x.cellCount
  | .mirrorTerm => mirrorTerm s p r.slotKey sub
  | .indexState => match indexAt s (16 * p + r.p1) with
    | none => 0
    | some y => if y.state = .building then 1 else if y.state = .ready then 2 else 3
  | .indexValue => indexValue s (16 * p + r.p1) sub
  | .carrAllocatable => carrAllocatable s
  | .mapRegion => mapRegion s
  | .carrAllocated => carrCommitted s
  | .movesPending => (KMap.getD s.data.tiers.moves p []).length
  | .freeWords => 3584 - total ((residents s).map (fun e => total (e.2.1.words.map (·.2.2))))
  | .freeStore => 0x100000 - total ((residents s).map (fun e => total (e.2.1.stores.map (·.2.2))))
  | .freeRing => 0x8000 - total ((residents s).map (fun e => total (e.2.1.rings.map (·.2.2))))
  | .tableState => match tableAt s (64 * p + r.p1) with | none => 0 | some t => if t.ready then 2 else 1
  | .exchangeLeast =>
    20 + 10 * rwVal s 0x7000 0x05 4 + ceilDiv (rwVal s 0x7000 0x08 4194304) (1000 * rwVal s 0x7000 0x09 160) + 3
  | .portState => (portAt s p).state
  | .portPartner => (portAt s p).partner
  | .portVersion => (portAt s p).version
  | .portCause => (portAt s p).cause
  | .exchangeAreas => if (heldImage x).isSome then exchangeAreas s r.slotKey else 0
  | .suspendBound => tFsus s
  | .readBound => tFread s
  | .lastDump => s.mire.lastDump
  | .protectedBuffer => bufferRoom s
  | .spaceState => b2n (KMap.find s.mire.spaces p).isSome
  | .spaceFirst => match KMap.find s.mire.spaces p with | some n => n.first | none => 0
  | .spaceWritten => unitsWritten s p
  | .keyPresent => b2n (KMap.find s.mire.keys p).isSome
  | .ftNow => s.clock.ft
  | .ftState => s.clock.state.code
  | .rateAdjust => rateAdjust s
  | .ftAlarms => s.clock.alarms
  | .freeEntries => freeEntries s
  | .oldestAge => oldestAge s (testTimes s)
  | .overdue => overdueUnits s
  | .sweepProgress => match s.island.sweep with
    | some l => 256 * (l.filter (fun n => 64 ≤ n)).length + (l.filter (fun n => n < 64)).length
    | none => 0
  | .arrayValue => arrayValue s (2 * p + r.p1) sub
  | .stackValue => stackValue s p sub
  | .enginesFailed => maskOf (mereAt s p).bad
  | .chanStatus => chanStatus (chanAt s (sluiceBlock r + (sub - 1)))
  | .chanAddress => (chanAt s (sluiceBlock r + (sub - 0x11))).errAddr
  | .freeProgram =>
    if r.obj.base = 0xA628 then 4096 else 4096 - total ((List.range 16).map (fun c => (chanAt s (sluiceBlock r + c)).length))
  | .activeAlarms => activeAlarms s
  | .latchedAlarms => s.tele.latched
  | .partCounter => KMap.getD s.tele.counters (256 * p + sub) 0
  | .bootCount => s.tele.annals.boot
  | .lanternState => (getLantern s p).state.code
  | .nextSequence => s.tele.annals.nextSeq
  | .oldestKept => oldestRecord s
  | .stagingOccupancy => match primaryHub s with | some h => (getStaging s.tele.annals h).events.length | none => 0
  | .unpersisted => s.tele.annals.ring.length
  | .minSvn | .revocations => countVal s i sub 0
  | .testProgress => if s.island.test.isSome then freeVal s 64 % 101 else countVal s i sub 0
  | _ => rwVal s i sub r.obj.dflt

/-- The counters of the partitions as a snapshot lays them out (22 R602). -/
def snapshotBytes (s : State) : Bytes :=
  let value (p sub : Nat) : Bytes := toLE 8 (KMap.getD s.tele.counters (256 * p + sub) 0)
  toLE 8 s.clock.ft ++ toLE 8 s.clock.now ++ toLE 16 0
  ++ (List.range 32).flatMap (fun p =>
    (List.range 0x14).flatMap (fun i => if i = 9 then [] else value p (i + 1))
    ++ (List.range 16).flatMap (fun n => toLE 8 (KMap.getD s.tele.refusals (16 * p + n) 0)) ++ toLE 16 0)

/-- The three entries of the curve table (21 R587). -/
def curveTable : Bytes :=
  [(2000, 850, 1928), (1600, 770, 1471), (1200, 700, 1139)].flatMap (fun e => toLE 8 (2 ^ 48 * e.1 + 2 ^ 32 * e.2.1 + 65536 * e.2.2))

/-- The bytes of a DOMAIN or STR object as a read returns them. -/
def readBytes (s : State) (r : ObjRef) : Bytes :=
  let i := r.idx
  let sub := r.obj.sub
  let p := r.p0
  match r.obj.kind with
  | .vendor => textBytes "Ewegokai"
  | .serial => Config.serial
  | .blob => KMap.getD s.dict.blobs (okey i sub) []
  | .zeroBlob => KMap.getD s.dict.blobs (okey i sub) (List.replicate (match r.obj.dlen with | .exact n => n | _ => 0) 0)
  | .lockTable => s.dict.locks.flatMap (fun l => toLE 8 (2 ^ 48 * l.idx + 2 ^ 40 * l.sub + 2 ^ 32 * l.port))
  | .curveTable => curveTable
  | .restrictedSlots => restrictedBytes s
  | .vrmMap => rwDom s i sub (padTo 20 ((Config.vrmMap (bits s.island.straps 11 10)).take 20))
  | .tileMap => (KMap.getD s.slots r.slotKey {}).tileMap.map (BitVec.ofNat 8)
  | .cellStates => (List.range 2048).flatMap (fun c => toLE 8 (cellWord (cellAt s (cellNo p c))))
  | .groupMap => match indexAt s (16 * p + r.p1) with | some x => groupMap x | none => []
  | .tierTable => tierTable s p
  | .laneMap => (portAt s p).lanes.map (BitVec.ofNat 8)
  | .entryTable => entryTable s
  | .columnMap => (arrayAt s (2 * p + r.p1)).cols.map (BitVec.ofNat 8)
  | .coreMap => (List.range 64).map (fun c => BitVec.ofNat 8 (coreOf s (64 * p + c)))
  | .coreGens => (List.range 64).map (fun c => BitVec.ofNat 8 (KMap.getD s.carr.gens (64 * p + c) 0))
  | .engineMap => (mereAt s p).map.map (BitVec.ofNat 8)
  | .engineGens => (mereAt s p).gens.map (BitVec.ofNat 8)
  | .refusalCounters => (List.range 16).flatMap (fun n => toLE 8 (KMap.getD s.tele.refusals (16 * p + n) 0))
  | .snapshot => snapshotBytes s
  | .identityKey => Config.identityKey (fuseEpoch s)
  | .certificate => KMap.getD s.dict.blobs (okey i sub) []
  | .lanternCapture => captureBytes (getLantern s p)
  | .cutMask | .zeroDomain | .routeTable => rwDom s i sub (List.replicate (match r.obj.dlen with | .exact n => n | _ => 0) 0)
  | _ => rwDom s i sub []

end Sys2Proof.Machine
end

