-- ==== Sys2Proof/Machine/Dict.lean ====
section
/-! DEFINITION. Which path reaches the dictionary when, what stops a write, and how a response leaves (02 R33 to R61, R68, R73; 03 R78, R79; 20
R576). -/

namespace Sys2Proof.Machine

open Sys2Proof

/-- Where an object message goes: nowhere, into the messages held for a new primary, to a refusal, or to execution. -/
inductive Reach where
  | silent | held | refused (st : Status) | go
deriving DecidableEq, Repr

/-- Whether a path comes by the side-band. -/
def isSide : Path → Bool
  | .side _ _ => true
  | _ => false

/-- The partition of a partition mailbox (02 R47). -/
def pathPart : Path → Option Nat
  | .mbox _ m => if m = 0 then none else some (m - 1)
  | _ => none

/-- The port class of a path (02 R35). The test port stands for the side-band's objects. -/
def pathCls : Path → Cls
  | .mbox _ _ => .host
  | .side _ _ => .side
  | .fabric _ => .fabric
  | .test => .side

/-- What a message reaches while the standby island alone answers: ranges 0x1000, 0x2000 and 0xC000, and in BOOTING the latched alarms
(02 R73; 22 R617). (log 15, DEDUCED.) -/
def standbyReach (s : State) (idx : Nat) : Reach :=
  if idx / 4096 = 1 || idx / 4096 = 2 || idx / 4096 = 0xC || (s.dev.state = .booting && idx = 0xA040) then .go else .refused .state

/-- What a message reaches while no hub decides: the messages in a handover are held, a side-band write of a recovery object takes effect, and
any other message is lost (02 R61, R67, R69, R77). (log 14, DEDUCED.) -/
def gapReach (pa : Path) (recovery write : Bool) (s : State) : Reach :=
  if isSide pa && recovery && write then .go else if s.hubs.grant.isSome then .held else .silent

/-- Whether the path of a message is there: the hub of a mailbox, the standby island, the fabric, the test port in the life-cycle
states that keep it live (20 R576). -/
def pathOpen (pa : Path) (s : State) : Bool :=
  match pa with
  | .mbox port _ => port < 2 && (hubSide s port).present
  | .side _ _ => s.island.alive
  | .fabric _ => mainOn s
  | .test => s.island.alive && (lifeCycle s = 0 || lifeCycle s = 1 || lifeCycle s = 4)

/-- Where a message of a path to an index goes (02 R61, R67 to R69, R73; 20 R576). -/
def reach (pa : Path) (idx : Nat) (recovery write : Bool) (s : State) : Reach :=
  if !pathOpen pa s then .silent
  else if pa = .test then (if idx = 0xC000 || idx / 4096 = 0xF then .go else .silent)
  else if lifeCycle s = 5 then
    (if isSide pa then (if idx / 4096 = 1 then .go else .refused .state) else .silent)
  else if s.dev.state = .standby || (s.dev.state = .booting && (decidingHub s).isNone) then
    (if isSide pa then standbyReach s idx else .silent)
  else if s.dev.state = .failed then (if isSide pa then .go else .silent)
  else if (decidingHub s).isNone then gapReach pa recovery write s
  else .go

/-- Whether a write waits: recovery work on partitions, images and indices until the queries accepted before RECOVERY have completed (02
R75). (log 39, DEDUCED.) -/
def recoveryWaits (idx : Nat) (s : State) : Bool :=
  s.dev.state = .recovery && 0x3000 ≤ idx && idx < 0x6000 && !s.levee.queries.isEmpty

/-- Whether the path is confined to what partition p reaches (02 R37; 03 R79; 04 R116): `mine` says that the index is an object of its
partition, `admin` that only the other paths write the object. -/
def inScope (pa : Path) (idx : Nat) (mine admin write : Bool) : Bool :=
  match pathPart pa with
  | none => true
  | some p =>
    if 0x3000 + 0x10 * p ≤ idx && idx < 0x3010 + 0x10 * p then !(write && admin)
    else if (0x4000 ≤ idx && idx < 0x7000) || (0xB000 ≤ idx && idx < 0xC000) then mine
    else 0x1000 ≤ idx && idx < 0x2000 && !write

/-- Whether an object belongs to the partition of a path. -/
def ObjRef.mine (r : ObjRef) (pa : Path) : Bool := r.obj.byPart && decide (pathPart pa = some r.p0)

/-- Whether the access right admits a write by the path's class (02 R34, R35). -/
def ObjDef.admits (d : ObjDef) (pa : Path) : Bool := d.owner = pathCls pa || (d.acc = .rws && pathCls pa = .side)

/-- Whether a host lock stops a side-band write to an object (02 R59, R61). -/
def lockedOut (pa : Path) (d : ObjDef) (idx : Nat) (s : State) : Bool :=
  isSide pa && d.acc = .rws && !d.recovery && s.dict.locks.any (fun l => l.idx = idx && (l.sub = d.sub || l.sub = 0xFF))

/-- Whether a value has the size and encoding of its type and lies in the range of its object (00 R6; 02 R33). (log 12, DEDUCED.) -/
def valueStatus (d : ObjDef) (v : Nat) : Status :=
  if d.ty.size.any (fun n => 256 ^ n ≤ v) then .length
  else if (d.ty = .bool && 1 < v) || (d.ty = .f32 && isNan32 v) then .range
  else match d.valid with
    | .any => .ok
    | .range lo hi => if lo ≤ v && v ≤ hi then .ok else .range
    | .rangeOr lo hi other => if (lo ≤ v && v ≤ hi) || v = other then .ok else .range
    | .codes l => if l.contains v then .ok else .reserved
    | .pow2 lo hi => if pow2In v lo hi then .ok else .range
    | .steps lo hi step => if lo ≤ v && v ≤ hi && v % step = 0 then .ok else .range
    | .aligned n => if v % n = 0 then .ok else .range
    | .reserved hi lo => if bits v hi lo = 0 then .ok else .reserved
    | .tenBits => if ((List.range 16).filter (fun b => bit v b)).length = 10 then .ok else .range

/-- Whether a DOMAIN has a length that its object takes (02 R33). -/
def DLen.ok (d : DLen) (n : Nat) : Bool :=
  match d with
  | .any => true
  | .exact k => n = k
  | .upTo k => n ≤ k
  | .emptyOr k => n = 0 || n = k
  | .units size most => n % size = 0 && n ≤ size * most

/-- The most bytes a DOMAIN takes, none where it has no limit of its own. -/
def DLen.most (d : DLen) : Option Nat :=
  match d with
  | .any => none
  | .exact k => some k
  | .upTo k => some k
  | .emptyOr k => some k
  | .units size most => some (size * most)

/-- Whether the device state, or a disabled partition, closes an object to writes (02 R38; 03 R78; the objects written in CONFIG only). -/
def stateCloses (r : ObjRef) (s : State) : Bool :=
  let i := r.idx
  (r.obj.configOnly && s.dev.state != .config)
  || (i / 4096 = 0xD && s.dev.state != .test)
  || (0x4000 ≤ i && i < 0x6000 && r.obj.byPart && !partEnabled s r.p0)

/-- Whether the parameters of an object lie in their ranges (23 R619). -/
def ObjRef.exists_ (r : ObjRef) : Bool := r.ps.length = r.obj.params.length && (r.obj.params.zip r.ps).all (fun x => x.2 < x.1.2)

/-- What stops a write of an object before its value is looked at (02 R34, R35, R37, R59). -/
def accessBar (pa : Path) (r : ObjRef) (s : State) : Status :=
  if !r.exists_ then .noObject
  else if !inScope pa r.idx (r.mine pa) r.obj.adminOnly true then .partition
  else if r.obj.acc = .ro then .readOnly
  else if !r.obj.admits pa then .notOwner
  else if lockedOut pa r.obj r.idx s then .locked
  else .ok

/-- What stops a write of a value: access, value and state in the order of the codes of 02 R46. -/
def writeBar (pa : Path) (r : ObjRef) (v : Nat) (s : State) : Status :=
  let a := accessBar pa r s
  if a != .ok then a
  else if valueStatus r.obj v != .ok then valueStatus r.obj v
  else if stateCloses r s then .state
  else .ok

/-- What stops a whole DOMAIN. -/
def domainBar (pa : Path) (r : ObjRef) (n : Nat) (s : State) : Status :=
  let a := accessBar pa r s
  if a != .ok then a
  else if !r.obj.dlen.ok n then .length
  else if stateCloses r s then .state
  else .ok

/-- A write of an object: its effect where nothing stops it. -/
def objectWrite (pa : Path) (r : ObjRef) (v : Nat) (eff : State → Status × State) (s : State) : Status × State :=
  if writeBar pa r v s = .ok then eff s else (writeBar pa r v s, s)

/-- A whole DOMAIN written: its effect where nothing stops it. -/
def domainWrite (pa : Path) (r : ObjRef) (n : Nat) (eff : State → Status × State) (s : State) : Status × State :=
  if domainBar pa r n s = .ok then eff s else (domainBar pa r n s, s)

/-- The transfer of a path discarded (02 R45). -/
def dropTransfer (pa : Path) (s : State) : State := s.modDict (fun d => { d with transfers := d.transfers.filter (fun t => t.path != pa) })

/-- The type code in the response to a message: that of the object it names, 0 where it names none (02 R43). (log 119, DEDUCED.) -/
def msgType (m : Msg) : Nat :=
  if m.op = 0 || 6 < m.op then 0
  else if m.req.sub = 0 then (if (objectsOf m.req.idx).isEmpty then 0 else Ty.u8.code)
  else match findObject m.req.idx m.req.sub with
    | some r => r.obj.ty.code
    | none => 0

/-- The response to a message (02 R43): the opcode with its top bit set, and the padding of the data left to the path. -/
def replyTo (m : Msg) (ty : Nat) (st : Status) (data : Bytes) : Reply :=
  ⟨m.op ||| 128, m.req.tag, m.req.idx, m.req.sub, ty, m.req.off, statusCode st, data⟩

/-- The bytes of a response, its data padded to a multiple of 8 bytes (02 R43). -/
def replyBytes (r : Reply) : Bytes :=
  toLE 2 r.tag ++ toLE 1 r.status ++ toLE 1 r.op ++ toLE 1 r.ty ++ toLE 1 r.sub ++ toLE 2 r.idx ++ toLE 4 r.data.length ++ toLE 4 r.off
  ++ padTo (roundUp r.data.length 8) r.data

/-- An object message read from its bytes (02 R43). -/
def parseMsg (b : Bytes) : Msg :=
  ⟨leAt b 3 1, { tag := leAt b 0 2, idx := leAt b 6 2, sub := leAt b 5 1, ty := leAt b 4 1, off := leAt b 12 4, last := bit (leAt b 2 1) 0,
                 data := slice b 16 (leAt b 8 4) }⟩

/-- The key of a mailbox. -/
def mboxKey (port m : Nat) : Nat := 33 * port + m

/-- A mailbox of a port. -/
def mboxAt (s : State) (port m : Nat) : Mailbox := KMap.getD s.dict.mailboxes (mboxKey port m) {}

/-- The state with a mailbox changed. -/
def modMbox (port m : Nat) (f : Mailbox → Mailbox) (s : State) : State :=
  s.modDict (fun d => { d with mailboxes := KMap.upd d.mailboxes (mboxKey port m) {} f })

/-- The vector of a mailbox (02 R50). -/
def mboxVector (s : State) (m : Nat) : Nat := if m = 0 then rwVal s 0x1050 0x01 0xFFFF else rwVal s (0x3000 + 0x10 * (m - 1)) 0x0F 0xFFFF

/-- The executing request of a mailbox ends with its response: done rises and the vector is sent (02 R49, R50). -/
def finishMailbox (port m : Nat) (r : Reply) (s : State) : State :=
  if (mboxAt s port m).busy then
    sendVector port (mboxVector s m)
      (modMbox port m (fun x => { x with response := replyBytes r, seq := x.running, mstat := 0, busy := false, done := true }) s)
  else s

/-- A response leaves by the path of its request (02 R43, R57). The response to a command that takes its own path down, as RESET_MAIN and
POWER_OFF_MAIN do, leaves with the effect (02 R624); the mailbox behind it is gone. (log 118, DEDUCED.) -/
def answer (pa : Path) (r : Reply) (s : State) : State :=
  if pathOpen pa s then
    match pa with
    | .mbox port m => finishMailbox port m r (emit (.response pa r) s)
    | .fabric node => sendFlit 0xA 1 node ownSystem r.tag true (replyBytes r) (emit (.response pa r) s)
    | _ => emit (.response pa r) s
  else emit (.response pa r) s

/-- A message executed, with its response (02 R42). -/
def execute (pa : Path) (run : State → Reply × State) (s : State) : State :=
  let r := run s
  settle (answer pa r.1 r.2)

/-- A message of a path taken where it goes: `run` executes it. A message that waits leaves everything as it is, and is sent again. -/
def route (pa : Path) (m : Msg) (recovery write : Bool) (run : State → Reply × State) (s : State) : State :=
  match reach pa m.req.idx recovery write s with
  | .silent => s
  | .held => s.modDict (fun d => { d with held := d.held ++ [⟨pa, m⟩] })
  | .refused st => answer pa (replyTo m (msgType m) st []) s
  | .go => if write && recoveryWaits m.req.idx s then s else execute pa run s

/-- The message that writes a value of an object. -/
def writeMsg (tag : Nat) (r : ObjRef) (v : Nat) : Msg :=
  ⟨2, { tag := tag, idx := r.idx, sub := r.obj.sub, ty := r.obj.ty.code, data := toLE (r.obj.ty.size.getD 0) v }⟩

/-- The message that ends the write of a DOMAIN. -/
def domainMsg (tag : Nat) (r : ObjRef) (data : Bytes) : Msg :=
  ⟨4, { tag := tag, idx := r.idx, sub := r.obj.sub, ty := r.obj.ty.code, last := true, data := data }⟩

/-- A write of a value of an object that has a row of its own. -/
def commandRow (pa : Path) (tag : Nat) (r : ObjRef) (v : Nat) (eff : State → Status × State) (s : State) : State :=
  let m := writeMsg tag r v
  route pa m r.obj.recovery true (fun s =>
    let w := objectWrite pa r v eff s
    (replyTo m r.obj.ty.code w.1 [], w.2)) s

/-- A whole DOMAIN written to an object that has a row of its own: the path's transfer ends with it (02 R45). -/
def domainRow (pa : Path) (tag : Nat) (r : ObjRef) (data : Bytes) (eff : State → Status × State) (s : State) : State :=
  let m := domainMsg tag r data
  route pa m r.obj.recovery true (fun s =>
    let w := domainWrite pa r data.length eff (dropTransfer pa s)
    (replyTo m r.obj.ty.code w.1 [], w.2)) s

/-- A host lock entered (02 R59, R61): a lock that is held already stands. -/
def lockObject (pa : Path) (idx sub : Nat) (s : State) : Status × State :=
  match pa with
  | .mbox port _ =>
    if (objectsOf idx).any (fun r => r.obj.sub = sub && r.obj.recovery) then (.notLockable, s)
    else if s.dict.locks.any (fun l => l.idx = idx && l.sub = sub) then (.ok, s)
    else if 64 ≤ s.dict.locks.length then (.lockFull, s)
    else (.ok, s.modDict (fun d => { d with locks := d.locks ++ [⟨idx, sub, port⟩] }))
  | _ => (.notOwner, s)

/-- The matching host lock cleared (02 R59). -/
def unlockObject (pa : Path) (idx sub : Nat) (s : State) : Status × State :=
  match pa with
  | .mbox _ _ => (.ok, s.modDict (fun d => { d with locks := d.locks.filter (fun l => !(l.idx = idx && l.sub = sub)) }))
  | _ => (.notOwner, s)

/-- What stops a LOCK or UNLOCK: the scope of the path, then an index or subindex that is not implemented. A lock counts as a write. (log 27, DEDUCED.) -/
def lockBar (pa : Path) (idx sub : Nat) : Status :=
  let l := objectsOf idx
  if !inScope pa idx (l.any (fun r => r.mine pa)) false true then .partition
  else if l.isEmpty then .noObject
  else if sub != 0 && sub != 0xFF && !l.any (fun r => r.obj.sub = sub) then .noSubindex
  else .ok

/-- The storable values in force that differ from their defaults (02 R39, R40; 23 R621). -/
def storeNums (s : State) : KMap Nat :=
  ((s.dict.written.foldl (fun m e => KMap.put m e.1 e.2) s.dict.stored)).filter (fun e =>
    match findObject (e.1 / 256) (e.1 % 256) with
    | some r => r.obj.storable && e.2 != r.obj.dflt
    | none => false)

/-- Whether an object is storable and a byte string differs from its default (02 R39; 23 R621). -/
def storableDom (k : Nat) (b : Bytes) : Bool :=
  match findObject (k / 256) (k % 256) with
  | some r => r.obj.storable && b != (match r.obj.kind, r.obj.dlen with | .routeTable, .exact n => List.replicate n 0 | _, _ => [])
  | none => false

/-- The storable byte strings in force that differ from their defaults. -/
def storeDoms (s : State) : KMap Bytes :=
  ((s.dict.domains.foldl (fun m e => KMap.put m e.1 e.2) s.dict.storedDoms)).filter (fun e => storableDom e.1 e.2)

/-- The bytes of a configuration store copy (20 R559; 23 R621). -/
def storeSize (nums : KMap Nat) (doms : KMap Bytes) : Nat :=
  nums.foldl (fun a e => a + Config.storeRecord + (match findObject (e.1 / 256) (e.1 % 256) with | some r => r.obj.ty.size.getD 0 | none => 0))
    (doms.foldl (fun a e => a + Config.storeRecord + e.2.length) Config.storeHeader)

/-- STORE (02 R40): the copy with the lower generation takes the values in force and the next generation; a write that fails leaves the
store as it is. (log 18, DEDUCED.) -/
def storeConfig (norOk : Bool) (s : State) : Status × State :=
  let nums := storeNums s
  let doms := storeDoms s
  if !norOk || 262144 < storeSize nums doms then (.storeFail, s)
  else
    let d := s.dict
    let ga := if copyUsable s d.storeA.valid d.storeA.epoch then d.storeA.gen else 0
    let gb := if copyUsable s d.storeB.valid d.storeB.epoch then d.storeB.gen else 0
    let c : StoreCopy := { valid := true, gen := max ga gb + 1, epoch := fuseEpoch s, nums := nums, doms := doms }
    (.ok, s.modDict (fun d => if ga ≤ gb then { d with storeA := c, storeGen := c.gen } else { d with storeB := c, storeGen := c.gen }))

/-- RESTORE_DEFAULTS (02 R40): both copies are invalid from now on, with effect at the next boot. -/
def restoreDefaults (norOk : Bool) (s : State) : Status × State :=
  if norOk then (.ok, s.modDict (fun d => { d with storeA := { d.storeA with valid := false }, storeB := { d.storeB with valid := false } }))
  else (.storeFail, s)

/-- STORE and RESTORE_DEFAULTS act on the whole store, which no partition mailbox reaches (02 R37). -/
def wholeStore (pa : Path) (eff : State → Status × State) (s : State) : Status × State :=
  match pathPart pa with
  | some _ => (.partition, s)
  | none => eff s

end Sys2Proof.Machine
end

