-- ==== Sys2Proof/Machine/Writes.lean ====
section
/-! DEFINITION. The effect of a write of each object, once access, value and state have passed (the object tables of spec/ and the rules that
each object names). -/

namespace Sys2Proof.Machine

open Sys2Proof

/-- Host locks released and staged transfers discarded, as on entry to RECOVERY (02 R60, R77). -/
def clearControl (s : State) : State := s.modDict (fun d => { d with locks := [], transfers := [] })

/-- A running test aborted (20 R580). -/
def abortTest (s : State) : State :=
  if s.island.test.isSome then setCount 0xD000 0x03 2 (s.modIsland (fun i => { i with test := none })) else s

/-- Whether START_SERVING has what it needs: a role that serves, an ACTIVE image, and a life-cycle state that serves (02 R74; 20 R576). -/
def mayServe (s : State) : Bool :=
  let role := rwVal s 0x2001 0x01 3
  role != 3 && role != 4 && s.slots.any (fun e => e.2.state = .active) && lifeCycle s != 0 && lifeCycle s != 5

/-- The device states from which a device command is taken (02 R74). -/
def devFrom (code : Nat) (st : DevState) : Bool :=
  if code = 1 then st = .standby
  else if code = 2 || code = 4 then st = .config
  else if code = 3 then st = .serving
  else if code = 5 then st = .test
  else if code = 6 then st != .standby && st != .recovery
  else if code = 7 then st = .recovery
  else st = .config || st = .test || st = .recovery || st = .failed

/-- POWER_ON_MAIN (02 R74): refused while the reference clock bars the main domain, and in SCRAPPED (20 R576; 21 R597). -/
def devPowerOn (s : State) : Status × State := if refclkGood s && lifeCycle s != 5 then (.ok, powerOn 0 s) else (.state, s)

/-- START_SERVING (02 R74). -/
def devServe (s : State) : Status × State := if mayServe s then (.ok, setDevState .serving 0 s) else (.state, s)

/-- DRAIN (02 R74): with no accepted query left it has completed. (log 36, DEDUCED.) -/
def devDrain (s : State) : Status × State := (.ok, drainDone (setDevState .draining 0 s))

/-- ENTER_RECOVERY (02 R60, R74, R75, R77). -/
def devRecover (s : State) : Status × State := (.ok, abortTest (clearControl (setDevState .recovery 0 s)))

/-- The device command (02 R74, R624). -/
def devCommand (code : Nat) (s : State) : Status × State :=
  if code = 0 || 9 < code then (.reserved, s)
  else if !devFrom code s.dev.state then (.state, s)
  else if code = 1 then devPowerOn s
  else if code = 2 then devServe s
  else if code = 3 then devDrain s
  else if code = 4 then (.ok, setDevState .test 0 s)
  else if code = 5 then (.ok, abortTest (setDevState .config 0 s))
  else if code = 6 then devRecover s
  else if code = 7 then (.ok, setDevState .config 0 s)
  else if code = 8 then (.ok, rebootMain 0 s)
  else (.ok, toStandby 0 s)

/-- A driver's range written (02 R71): the agreed version is reported, or there is none and the write is refused. (log 32, DEDUCED.) -/
def driverRange (port v : Nat) (s : State) : Status × State :=
  let n := commonVersion 0x01000100 v
  if n = 0 then (.version, s) else (.ok, setCount 0x1011 (3 + port) n (setRw 0x1011 (1 + port) v s))

/-- Clear locks (02 R60): a write of 1, in RECOVERY only. -/
def clearLocks (v : Nat) (s : State) : Status × State :=
  if s.dev.state != .recovery then (.state, s)
  else if v = 1 then (.ok, s.modDict (fun d => { d with locks := [] }))
  else (.ok, s)

/-- The role (02 R76). -/
def writeRole (v : Nat) (s : State) : Status × State :=
  if s.dev.state = .config || s.dev.state = .test || s.dev.state = .recovery then (.ok, setRw 0x2001 0x01 v s) else (.state, s)

/-- A partition's enable (03 R78): false is refused while one of its slots is not EMPTY. -/
def writeEnable (p v : Nat) (s : State) : Status × State :=
  if v = 0 && s.slots.any (fun e => e.1 / 4 = p && e.2.state != .empty) then (.state, s)
  else (.ok, setRw (0x3000 + 0x10 * p) 0x01 v s)

/-- A slot's activation or swap instant: while its entry is placed the write acts as a REDIRECT (03 R107; 17 R495). -/
def writeInstant (p sl sub v : Nat) (s : State) : Status × State :=
  let n := if sub = 6 then activateNo p sl else swapNo p sl
  let t := setRw (slotObj p sl) sub v s
  match entryAt s n with
  | none => (.ok, t)
  | some e =>
    if e.policy = 2 && tickPassed s (instantTick s v) then (.range, s)
    else (.ok, redirectEntry n { e with fire := instantTick s v } t)

/-- An object of a slot that is written while it is STAGED or RESIDENT (15 R424; 05, 04 objects of the slot). -/
def inStaged (p sl : Nat) (eff : State → State) (s : State) : Status × State :=
  if (slotAt s p sl).state = .staged || (slotAt s p sl).state = .resident then (.ok, eff s) else (.state, s)

/-- A write that feeds a term of L_max: refused where some slot's bound would pass its partition's promise (04 R113 to R115). -/
def boundedWrite (idx sub v : Nat) (s : State) : Status × State :=
  let t := setRw idx sub v s
  if boundsHold t then (.ok, t) else (.range, s)

/-- t_xch_min for the exchange terms in force (16 R467). -/
def exchangeFloor (s : State) : Nat :=
  20 + 10 * rwVal s 0x7000 0x05 4 + ceilDiv (rwVal s 0x7000 0x08 4194304) (1000 * rwVal s 0x7000 0x09 160) + 3

/-- A write of H, V, r_x or t_xch (16 R467; 04 R113). A rate of 0 gives no bound and is refused. -/
def exchangeTerm (sub v : Nat) (s : State) : Status × State :=
  let t := setRw 0x7000 sub v s
  if rwVal t 0x7000 0x09 160 = 0 || rwVal t 0x7000 0x0A 90 < exchangeFloor t || !boundsHold t then (.range, s) else (.ok, t)

/-- The staleness bound (04 R132). -/
def writeStaleness (p v : Nat) (s : State) : Status × State :=
  if v < promiseOf s p + hystOf s p + ceilDiv (tUpd s p) 1000 then (.range, s) else (.ok, setRw (0x3001 + 0x10 * p) 0x01 v s)

/-- The yellow reserve (04 R123). -/
def writeReserve (p v : Nat) (s : State) : Status × State :=
  if v < qMaxOf s p then (.ok, setRw (0x3001 + 0x10 * p) 0x03 v s) else (.range, s)

/-- A BOOL that acts on a write of true and is answered OK, with no effect, on a write of false (02 R41; 04 R140). (log 38, DEDUCED.) -/
def onTrue (v : Nat) (eff : State → Status × State) (s : State) : Status × State := if v = 1 then eff s else (.ok, s)

/-- The index command (06 R176; 02 R624). -/
def indexCommand (k code : Nat) (s : State) : Status × State :=
  if code = 1 then indexCreate k s else if code = 2 then indexSeal k s else if code = 3 then indexDestroy k s
  else if code = 4 then indexReindex k s else (.reserved, s)

/-- An attribute of an index, written while it is EMPTY (06 R167). (log 29, DEDUCED.) -/
def indexAttr (k idx sub v : Nat) (s : State) : Status × State := if (indexAt s k).isSome then (.state, s) else (.ok, setRw idx sub v s)

/-- A codebook object of an index: the pair in force is written while the index is EMPTY, the other pair at any time (06 R167, R194). -/
def indexBook (k idx sub v : Nat) (s : State) : Status × State :=
  match indexAt s k with
  | some x => if (sub - 0x10) % 2 = x.book then (.state, s) else (.ok, setRw idx sub v s)
  | none => (.ok, setRw idx sub v s)

/-- A chain's period written: it moves to the new grid (17 R626, R495). A period of 0 is refused. -/
def chainPeriod (n idx sub v : Nat) (s : State) : Status × State := if v = 0 then (.range, s) else (.ok, rechain n v (setRw idx sub v s))

/-- h_max (14 R405): at least twice the refresh period. -/
def writeStaleBound (k v : Nat) (s : State) : Status × State :=
  if 1000 * v < 2 * 1024 * rwVal s (tabObj k) 0x0F 1024 then (.range, s) else (.ok, setRw (tabObj k) 0x10 v s)

/-- The tier command (14 R387; 02 R624). -/
def tierCommand (p code : Nat) (s : State) : Status × State :=
  if code = 1 then tierCreate p s else if code = 2 then tierDestroy p s else if code = 3 then tierMove p s else (.reserved, s)

/-- The table command (14 R392; 02 R624). -/
def tableCommand (k code : Nat) (s : State) : Status × State :=
  if code = 1 then tableCreate k s else if code = 2 then tableSeal k s else if code = 3 then tableDestroy k s else (.reserved, s)

/-- The hot set (14 R403): at most H keys. -/
def writeHotSet (k : Nat) (d : Bytes) (s : State) : Status × State :=
  if 8 * rwVal s (tabObj k) 0x14 0 < d.length then (.length, s) else (.ok, setDom (tabObj k) 0x0E d s)

/-- An FM frame sent by the host of a node that may originate them (16 R459): a 4-byte destination and an object message. -/
def fmFrameOut (d : Bytes) (s : State) : Status × State :=
  if rwVal s 0x7000 0x03 0 = 0 then (.state, s)
  else if d.length < 20 || 244 < d.length then (.length, s)
  else (.ok, sendFlit 9 0 (leAt d 0 4 % 2 ^ 17) ownSystem 0 true (d.drop 4) s)

/-- A link key of a port: in the key store, and in force (16 R446; 20 R573). -/
def writeLinkKey (n k : Nat) (key : Bytes) (s : State) : Status × State :=
  (.ok, setDom (0x7100 + n) (0x11 + k) key (installKeyAt (1 + 2 * n + k) key s))

/-- A free survey of the flash for a FORMAT whose outcome no operand gives: how many blocks and units per block each target has (18 R503; log
2). (log 30, DESIGN CHOICE.) -/
def freeSurvey (s : State) : List (Nat × Nat × Nat) × Nat × State :=
  ((List.range 256).map (fun t => (t, Config.freeValue (s.free + 2 * t), Config.freeValue (s.free + 2 * t + 1))), Config.freeValue (s.free + 512),
    s.modFree (fun n => n + 513))

/-- The Mire command with what the survey of the flash finds (18 R503; 02 R624). -/
def mireCommand (code : Nat) (good : List (Nat × Nat × Nat)) (aside : Nat) (s : State) : Status × State :=
  if code = 1 then formatFlash good aside s else (.reserved, s)

/-- The Mire command on a path that names no survey. -/
def mireCommandFree (code : Nat) (s : State) : Status × State :=
  let f := freeSurvey s
  if code = 1 && s.dev.state = .config && s.mire.spaces.isEmpty then mireCommand code f.1 f.2.1 f.2.2 else mireCommand code [] 0 s

/-- Whether an index, a table or a FLASH tier object names a namespace (18 R506). -/
def spaceUsed (s : State) (n : Nat) : Bool :=
  s.data.indices.any (fun e => e.2.space = n) || s.data.tables.any (fun e => rwVal s (tabObj e.1) 0x13 0 = n)
  || s.data.tiers.objs.any (fun e => e.2.tier = 4 && e.2.place % 256 = n)

/-- The status of a namespace command from its result code (18 R506; 02 R624). -/
def spaceStatus (code : Nat) : Status := if code = 0 then .ok else if code = 1 || code = 4 then .state else .range

/-- CREATE of a namespace with its staged owner and size, which come into force with it (18 R506; 02 R41). (log 31, DEDUCED.) -/
def spaceCreate (n : Nat) (s : State) : Status × State :=
  let t := createSpace n (commitStaged (0x8040 + n) s)
  let c := countVal t (0x8040 + n) 0x09 0
  (spaceStatus c, if c = 0 then t else nsResult n c s)

/-- DESTROY of a namespace (18 R506). -/
def spaceDestroy (n : Nat) (s : State) : Status × State :=
  let t := destroySpace n (spaceUsed s n) s
  (spaceStatus (countVal t (0x8040 + n) 0x09 0), t)

/-- DISCARD of a range of a namespace (18 R506). -/
def spaceDiscard (n : Nat) (s : State) : Status × State :=
  let t := discardUnits n s
  (spaceStatus (countVal t (0x8040 + n) 0x09 0), t)

/-- The namespace command (18 R506; 02 R624). -/
def spaceCommand (n code : Nat) (s : State) : Status × State :=
  if code = 1 then spaceCreate n s else if code = 2 then spaceDestroy n s else if code = 3 then spaceDiscard n s else (.reserved, s)

/-- A flash key installed and counted (18 R508; OD 0x8200 + p.03). -/
def writeKeyOfFlash (p : Nat) (key : Bytes) (s : State) : Status × State :=
  let r := writeFlashKey p key s
  if r.1 = .ok then (.ok, bump (0x8200 + p) 0x03 1 r.2) else r

/-- The instant of a scheduled admission (19 R554). -/
def writeServeAt (v : Nat) (s : State) : Status × State := (.ok, s.modDev (fun d => { d with serveAt := some (instantTick s v) }))

/-- The identity certificate, written in MANUF only (20 OD 0xC001.04). -/
def writeCertificate (d : Bytes) (s : State) : Status × State :=
  if lifeCycle s = 1 then (.ok, setBlob 0xC001 0x04 d s) else (.state, s)

/-- Whether a destructive test may run: no slot holds resources, and no index, table, tier object or namespace exists (20 R580). -/
def destructible (s : State) : Bool :=
  (residents s).isEmpty && s.data.indices.isEmpty && s.data.tables.isEmpty && s.data.tiers.objs.isEmpty && s.mire.spaces.isEmpty

/-- The test start (20 R576, R580; 02 R624): 1 LOGIC, 2 MEMORY, 3 CARR, 4 CAUSEWAY, 5 ALL. (log 37, DEDUCED.) -/
def testStart (code : Nat) (s : State) : Status × State :=
  if code = 0 || 5 < code then (.reserved, s)
  else if s.dev.state != .test || s.island.test.isSome || lifeCycle s = 5 || ((code = 2 || code = 3 || code = 5) && !destructible s) then (.state, s)
  else (.ok, setCount 0xD000 0x02 0 (s.modIsland (fun i => { i with test := some code, testAt := s.clock.now })))

/-- The class code of a power-cap record: 0 HOST, 1 SIDE, 2 FABRIC (22 R612). -/
def capClass (pa : Path) : Nat := match pathCls pa with | .host => 0 | .side => 1 | _ => 2

/-- The configuration of a Lantern, written in IDLE (22 R606). -/
def lanternConfig (h : Nat) (eff : State → State) (s : State) : Status × State :=
  if (getLantern s h).state = .idle then (.ok, eff s) else (.state, s)

/-- The VRM map (21 R596): bits 8 to 4 of each of its ten entries are reserved. -/
def writeVrmMap (d : Bytes) (s : State) : Status × State :=
  if (List.range 10).any (fun i => bits (leAt d (2 * i) 2) 8 4 != 0) then (.reserved, s) else (.ok, setDom 0x2030 0x01 d s)

/-- A value kept: staged until the COMMIT of its index (02 R41), or in force. -/
def writeKept (r : ObjRef) (v : Nat) (s : State) : Status × State :=
  if r.obj.staged then (.ok, s.modDict (fun d => { d with staged := KMap.put d.staged (okey r.idx r.obj.sub) v }))
  else (.ok, setRw r.idx r.obj.sub v s)

/-- The effect of a write of a value, by the kind of its object. -/
def writeNum (pa : Path) (r : ObjRef) (v : Nat) (s : State) : Status × State :=
  let i := r.idx
  let sub := r.obj.sub
  let p := r.p0
  match r.obj.kind with
  | .driverRange => driverRange (sub - 1) v s
  | .preferred => writePreferred pa v s
  | .handoverAt => requestHandover v s
  | .clearLocks => clearLocks v s
  | .cxlSize => writeWindowSize p v s
  | .cxlOwner => writeWindowOwner p v s
  | .devCommand => devCommand v s
  | .role => writeRole v s
  | .partEnable => writeEnable p v s
  | .slotCommand => slotCommand p r.p1 v s
  | .slotInstant => writeInstant p r.p1 sub v s
  | .fallbackRole => inStaged p r.p1 (setRw i sub v) s
  | .boundTerm => boundedWrite i sub v s
  | .exchangeTerm => exchangeTerm sub v s
  | .staleness => writeStaleness p v s
  | .yellowReserve => writeReserve p v s
  | .resetPeaks => onTrue v (fun s => (.ok, resetPeaks p s)) s
  | .shaperCommit => onTrue v (shaperCommit p) s
  | .policerCommit => onTrue v (policerCommit p r.p1) s
  | .indexCommand => indexCommand (16 * p + r.p1) v s
  | .indexAttr => indexAttr (16 * p + r.p1) i sub v s
  | .indexBook => indexBook (16 * p + r.p1) i sub v s
  | .harvestPeriod => chainPeriod (harvestNo p r.p1) i sub v s
  | .refreshPeriod => chainPeriod (refreshNo p r.p1) i sub v s
  | .staleBound => writeStaleBound (64 * p + r.p1) v s
  | .tierCommand => tierCommand p v s
  | .tableCommand => tableCommand (64 * p + r.p1) v s
  | .tableAttr => if (tableAt s (64 * p + r.p1)).isSome then (.state, s) else (.ok, setRw i sub v s)
  | .tableCommit => onTrue v (fun s => (.ok, commitTables s)) s
  | .portEnable => (.ok, writePortEnable p v s)
  | .mireCommand => mireCommandFree v s
  | .weightCommit => onTrue v (fun s => (.ok, commitStaged 0x8001 s)) s
  | .spaceCommand => spaceCommand p v s
  | .timeRole => writeTimeRole v s
  | .relock => relock v s
  | .setFt => setFt v s
  | .entryCommand => entryCommand v s
  | .stepExponent => (.ok, rechain 0 (2 ^ v) (setRw i sub v s))
  | .vigilPeriod => (.ok, rechainVigil (setRw i sub v s))
  | .fwCommand => firmwareCommand v s
  | .serveAt => writeServeAt v s
  | .latchedAlarms => (.ok, clearAlarms v s)
  | .lifeCommand => lifeCommand pa v (tokenVerdict s) 5 s
  | .scrapArm => scrapArm v s
  | .minSvn => writeMinSvn v s
  | .revocations => revokeKeys v s
  | .testStart => testStart v s
  | .powerCap => writeCap (capClass pa) v s
  | .lanternCommand => lanternCommand p v s
  | .lanternConfig => lanternConfig p (setRw i sub v) s
  | .lanternMarker => (.ok, lanternMarker p v s)
  | _ => writeKept r v s

/-- A DOMAIN kept: staged (02 R41), or in force. -/
def keepBytes (r : ObjRef) (d : Bytes) (s : State) : Status × State :=
  if r.obj.staged then (.ok, s.modDict (fun t => { t with stagedDoms := KMap.put t.stagedDoms (okey r.idx r.obj.sub) d }))
  else (.ok, setDom r.idx r.obj.sub d s)

/-- The effect of a whole DOMAIN, by the kind of its object. -/
def writeBytes (r : ObjRef) (d : Bytes) (s : State) : Status × State :=
  let p := r.p0
  match r.obj.kind with
  | .imageFile => slotFile p r.p1 d s
  | .cutMask => inStaged p r.p1 (setDom r.idx r.obj.sub d) s
  | .clearOverflows => (.ok, clearOverflows p d s)
  | .tableAttr => if (tableAt s (64 * p + r.p1)).isSome then (.state, s) else keepBytes r d s
  | .hotSet => writeHotSet (64 * p + r.p1) d s
  | .fmOut => fmFrameOut d s
  | .linkKey => writeLinkKey p (r.obj.sub - 0x11) d s
  | .flashKey => writeKeyOfFlash p d s
  | .package => writePackage d s
  | .token => (.ok, s.modIsland (fun i => { i with token := some d }))
  | .certificate => writeCertificate d s
  | .nonce => (.ok, writeNonce d s)
  | .sideKey => writeSideKey d s
  | .lanternWatched => lanternConfig p (setDom r.idx r.obj.sub d) s
  | .vrmMap => writeVrmMap d s
  | _ => keepBytes r d s

end Sys2Proof.Machine
end

