-- ==== Sys2Proof/Machine/Messages.lean ====
section
/-! DEFINITION. Object messages and the paths that carry them: reads, writes, segments, locks, the store, mailboxes, Afwell frames and
fabric-management frames (02 R42 to R57, R69; 16 R459; 22 R602, R616). -/

namespace Sys2Proof.Machine

open Sys2Proof

/-- The object of an index and subindex, or the status that says which is missing; subindex 0 is a U8, RO object that holds the highest
subindex (02 R31). -/
def lookupObject (idx sub : Nat) : Except Status ObjRef :=
  match objectsOf idx with
  | [] => .error .noObject
  | r :: l =>
    if sub = 0 then
      .ok ⟨{ r.obj with sub := 0, ty := .u8, acc := .ro, owner := .device, kind := .fixed, dflt := l.foldl (fun a x => max a x.obj.sub) r.obj.sub,
                        recovery := false }, r.ps⟩
    else match (r :: l).find? (fun x => x.obj.sub = sub) with
      | some x => .ok x
      | none => .error .noSubindex

/-- Whether a path's scope takes in an index (02 R37). -/
def scopeOf (pa : Path) (idx : Nat) (write : Bool) : Bool := inScope pa idx ((objectsOf idx).any (fun r => r.mine pa)) false write

/-- The data bytes that a path's READ_SEG returns at most (02 R47, R53, R57). (log 17, DEDUCED.) -/
def readLimit (pa : Path) : Nat :=
  match pa with
  | .side _ _ => 1168
  | .fabric _ => 224
  | _ => 1968

/-- The response data of an object message, with the type of its object. -/
structure Answer where
  status : Status
  ty     : Nat := 0
  data   : Bytes := []
deriving DecidableEq, Repr

/-- What a request finds before its own checks: the scope, the object and the type codes (02 R31, R37, R46). (log 13, DEDUCED.) -/
def findFor (pa : Path) (rq : Req) (write domain : Bool) : Except Status ObjRef :=
  if !scopeOf pa rq.idx write then .error .partition
  else match lookupObject rq.idx rq.sub with
    | .error st => .error st
    | .ok r =>
      if 10 < rq.ty then .error .reserved
      else if decide (r.obj.ty = .domain) != domain then .error .typeMismatch
      else if rq.ty != r.obj.ty.code && (write || rq.ty != 0) then .error .typeMismatch
      else .ok r

/-- The value of a non-DOMAIN object as its bytes. -/
def valueBytes (s : State) (r : ObjRef) : Bytes :=
  match r.obj.ty.size with
  | some n => toLE n (readNum s r)
  | none => readBytes s r

/-- READ (02 R44). The progress of a running test is a free value (20 OD 0xD000.02; log 2). -/
def readMessage (pa : Path) (rq : Req) (s : State) : Answer × State :=
  match findFor pa rq false false with
  | .error st => ({ status := st, ty := msgType ⟨1, rq⟩ }, s)
  | .ok r =>
    if r.obj.acc = .wo then ({ status := .writeOnly, ty := r.obj.ty.code }, s)
    else ({ status := .ok, ty := r.obj.ty.code, data := valueBytes s r },
          if r.obj.kind = .testProgress && s.island.test.isSome then drawn s else s)

/-- WRITE (02 R44). -/
def writeMessage (pa : Path) (rq : Req) (s : State) : Answer × State :=
  match findFor pa rq true false with
  | .error st => ({ status := st, ty := msgType ⟨2, rq⟩ }, s)
  | .ok r =>
    if r.obj.ty.size.any (fun n => n != rq.data.length) then ({ status := .length, ty := r.obj.ty.code }, s)
    else
      let v := leNat rq.data
      let w := objectWrite pa r v (writeNum pa r v) s
      ({ status := w.1, ty := r.obj.ty.code }, w.2)

/-- The records that a READ_SEG of the Annals object returns, with the cursor moved past them (22 R616). -/
def readRecords (n : Nat) (s : State) : Bytes × State :=
  let a := s.tele.annals
  let c := rwVal s 0xE010 0x02 0
  let rs := ((a.kept ++ a.ring).filter (fun r => c ≤ r.seq)).take (n / 64)
  match rs.reverse with
  | [] => ([], s)
  | r :: _ => (rs.flatMap annalsBytes, setRw 0xE010 0x02 (r.seq + 1) s)

/-- The snapshot of a path, taken anew at offset 0 (22 R602). -/
def readSnapshot (pa : Path) (off : Nat) (s : State) : Bytes × State :=
  if off = 0 then
    let b := snapshotBytes s
    (b, s.modDict (fun d => { d with snapshots := ⟨pa, b⟩ :: d.snapshots.filter (fun x => x.path != pa) }))
  else (match s.dict.snapshots.find? (fun x => x.path = pa) with | some x => x.data | none => [], s)

/-- READ_SEG (02 R45). -/
def readSegMessage (pa : Path) (rq : Req) (s : State) : Answer × State :=
  match findFor pa rq false true with
  | .error st => ({ status := st, ty := msgType ⟨3, rq⟩ }, s)
  | .ok r =>
    let n := readLimit pa
    if r.obj.acc = .wo then ({ status := .writeOnly, ty := 10 }, s)
    else if r.obj.kind = .annalsRecords then ({ status := .ok, ty := 10, data := (readRecords n s).1 }, (readRecords n s).2)
    else if r.obj.kind = .lanternCapture && (getLantern s r.p0).state != .done then ({ status := .state, ty := 10 }, s)
    else if r.obj.kind = .snapshot then
      ({ status := .ok, ty := 10, data := ((readSnapshot pa rq.off s).1.drop rq.off).take n }, (readSnapshot pa rq.off s).2)
    else ({ status := .ok, ty := 10, data := ((readBytes s r).drop rq.off).take n }, s)

/-- The bytes that a segment continues, none where it is out of order (02 R45): a segment at offset 0 starts anew. -/
def continued (pa : Path) (rq : Req) (s : State) : Option Bytes :=
  if rq.off = 0 then some []
  else match s.dict.transfers.find? (fun t => t.path = pa) with
    | some t => if t.idx = rq.idx && t.sub = rq.sub && t.data.length = rq.off then some t.data else none
    | none => none

/-- WRITE_SEG (02 R45). (log 28, DEDUCED.) -/
def writeSegMessage (pa : Path) (rq : Req) (s : State) : Answer × State :=
  match findFor pa rq true true with
  | .error st => ({ status := st, ty := msgType ⟨4, rq⟩ }, s)
  | .ok r =>
    if r.obj.dlen.most.any (fun n => n < rq.off + rq.data.length) then ({ status := .length, ty := 10 }, s)
    else if accessBar pa r s != .ok then ({ status := accessBar pa r s, ty := 10 }, s)
    else match continued pa rq s with
      | none => ({ status := .sequence, ty := 10 }, dropTransfer pa s)
      | some b =>
        let d := b ++ rq.data
        if rq.last then
          let w := domainWrite pa r d.length (writeBytes r d) (dropTransfer pa s)
          ({ status := w.1, ty := 10 }, w.2)
        else
          ({ status := .ok, ty := 10 },
            (dropTransfer pa s).modDict (fun t => { t with transfers := t.transfers ++ [⟨pa, rq.idx, rq.sub, d⟩] }))

/-- LOCK (02 R59, R61). -/
def lockMessage (pa : Path) (rq : Req) (s : State) : Answer × State :=
  if lockBar pa rq.idx rq.sub = .ok then ({ status := (lockObject pa rq.idx rq.sub s).1, ty := msgType ⟨5, rq⟩ }, (lockObject pa rq.idx rq.sub s).2)
  else ({ status := lockBar pa rq.idx rq.sub, ty := msgType ⟨5, rq⟩ }, s)

/-- UNLOCK (02 R59). -/
def unlockMessage (pa : Path) (rq : Req) (s : State) : Answer × State :=
  if lockBar pa rq.idx rq.sub = .ok then ({ status := (unlockObject pa rq.idx rq.sub s).1, ty := msgType ⟨6, rq⟩ }, (unlockObject pa rq.idx rq.sub s).2)
  else ({ status := lockBar pa rq.idx rq.sub, ty := msgType ⟨6, rq⟩ }, s)

/-- An object message run (02 R44): a HELLO inside an open session is refused with STATE, and on the other paths it is no opcode (R54). -/
def runMessage (pa : Path) (m : Msg) (s : State) : Reply × State :=
  let r : Answer × State :=
    if m.op = 1 then readMessage pa m.req s
    else if m.op = 2 then writeMessage pa m.req s
    else if m.op = 3 then readSegMessage pa m.req s
    else if m.op = 4 then writeSegMessage pa m.req s
    else if m.op = 5 then lockMessage pa m.req s
    else if m.op = 6 then unlockMessage pa m.req s
    else if m.op = 7 then ({ status := (wholeStore pa (storeConfig true) s).1 }, (wholeStore pa (storeConfig true) s).2)
    else if m.op = 8 then ({ status := (wholeStore pa (restoreDefaults true) s).1 }, (wholeStore pa (restoreDefaults true) s).2)
    else if m.op = 9 && isSide pa then ({ status := .state }, s)
    else ({ status := .reserved }, s)
  (replyTo m r.1.ty r.1.status r.1.data, r.2)

/-- Whether a message writes. -/
def msgWrites (m : Msg) : Bool := m.op = 2 || m.op = 4

/-- Whether a message names a recovery object (02 R61). -/
def msgRecovers (m : Msg) : Bool := match lookupObject m.req.idx m.req.sub with | .ok r => r.obj.recovery | .error _ => false

/-- Whether a slot's UNLOAD waits: a Carr window of the slot is open (03 R84; 08 R246). -/
def unloadWaits (p sl : Nat) (s : State) : Bool := s.carr.windows.any (fun w => w.slot = 4 * p + sl)

/-- Whether a message waits (02 R75; 03 R84). -/
def messageWaits (m : Msg) (s : State) : Bool :=
  (msgWrites m && recoveryWaits m.req.idx s)
  || (m.op = 2 && m.req.sub = 2 && 0x4000 ≤ m.req.idx && m.req.idx < 0x4080 && leNat m.req.data = 4
      && unloadWaits ((m.req.idx - 0x4000) / 4) (m.req.idx % 4) s)

/-- Whether a message acts on the restricted diagnostics, whose objects the manual does not give (02 R38; 20 R576; 23, Range 0xF000). -/
def restrictedHit (pa : Path) (m : Msg) (s : State) : Bool :=
  m.req.idx / 4096 = 0xF && m.op ≤ 6 && (lifeCycle s = 1 || lifeCycle s = 4 || (lifeCycle s = 0 && pa = .test))
  && (match reach pa m.req.idx false (msgWrites m) s with | .go => true | _ => false) && (pathPart pa).isNone

/-- A message to range 0xF000 outside the states that reach it (02 R38). -/
def restrictedBar (pa : Path) (m : Msg) : Bool := m.req.idx / 4096 = 0xF && m.op ≤ 6 && (pathPart pa).isNone

/-- A message of any opcode run, RESTRICTED where range 0xF000 is closed (02 R38). -/
def runAny (pa : Path) (m : Msg) (s : State) : Reply × State :=
  if restrictedBar pa m then (replyTo m 0 .restricted [], s) else runMessage pa m s

/-- An object message as a command: it goes where its path leads. -/
def messageRow (pa : Path) (m : Msg) (s : State) : Host.Outcome State Fault Refusal :=
  if restrictedHit pa m s then .refused .restrictedDiagnostics
  else if messageWaits m s && decide (reach pa m.req.idx (msgRecovers m) (msgWrites m) s = .go) then .next s
  else .next (route pa m (msgRecovers m) (msgWrites m) (runAny pa m) s)

/-- READ (02 R44). -/
def execRead (pa : Path) (rq : Req) (s : State) : Host.Outcome State Fault Refusal := messageRow pa ⟨1, rq⟩ s

/-- WRITE (02 R44). -/
def execWrite (pa : Path) (rq : Req) (s : State) : Host.Outcome State Fault Refusal := messageRow pa ⟨2, rq⟩ s

/-- READ_SEG (02 R45). -/
def execReadSeg (pa : Path) (rq : Req) (s : State) : Host.Outcome State Fault Refusal := messageRow pa ⟨3, rq⟩ s

/-- WRITE_SEG (02 R45). -/
def execWriteSeg (pa : Path) (rq : Req) (s : State) : Host.Outcome State Fault Refusal := messageRow pa ⟨4, rq⟩ s

/-- LOCK (02 R59). -/
def execLock (pa : Path) (rq : Req) (s : State) : Host.Outcome State Fault Refusal := messageRow pa ⟨5, rq⟩ s

/-- UNLOCK (02 R59). -/
def execUnlock (pa : Path) (rq : Req) (s : State) : Host.Outcome State Fault Refusal := messageRow pa ⟨6, rq⟩ s

/-- STORE with the verdict of the NOR (02 R40). -/
def execStore (pa : Path) (tag : Nat) (norOk : Bool) (s : State) : Host.Outcome State Fault Refusal :=
  let m : Msg := ⟨7, { tag := tag }⟩
  .next (route pa m false false (fun s => (replyTo m 0 (wholeStore pa (storeConfig norOk) s).1 [], (wholeStore pa (storeConfig norOk) s).2)) s)

/-- RESTORE_DEFAULTS with the verdict of the NOR (02 R40). -/
def execRestoreDefaults (pa : Path) (tag : Nat) (norOk : Bool) (s : State) : Host.Outcome State Fault Refusal :=
  let m : Msg := ⟨8, { tag := tag }⟩
  .next (route pa m false false (fun s => (replyTo m 0 (wholeStore pa (restoreDefaults norOk) s).1 [], (wholeStore pa (restoreDefaults norOk) s).2)) s)

/-- A mailbox whose request is lost with the primary: the request has not been executed (02 R51, R77). -/
def loseRequest (port m : Nat) (s : State) : State := modMbox port m (fun x => { x with busy := false }) s

/-- A go taken by an idle mailbox (02 R48 to R50). -/
def startMailbox (port m ctrl : Nat) (buf : Bytes) (s : State) : State :=
  modMbox port m (fun x => { x with request := buf, busy := true, done := false, overrun := false, running := bits ctrl 31 16 }) s

/-- A malformed header ends its request with no message executed (02 R49): a length over the buffer, or a reserved flag set. (log 16, DEDUCED.) -/
def malformed (buf : Bytes) : Bool := 2032 < leAt buf 8 4 || bits (leAt buf 2 1) 7 1 != 0

/-- A write of MB_CTRL: a go starts the request in the buffer, is dropped while a request runs, and is nothing without the bit (02 R48 to
R50). -/
def execMailboxGo (port m ctrl : Nat) (buf : Bytes) (s : State) : Host.Outcome State Fault Refusal :=
  let pa : Path := .mbox port m
  if 1 < port || 32 < m || !bit ctrl 0 || !pathOpen pa s || s.dev.state = .standby then .next s
  else if (mboxAt s port m).busy then .next (bump 0x1050 0x02 1 (modMbox port m (fun x => { x with overrun := true }) s))
  else
    let t := startMailbox port m ctrl (slice buf 0 2048) s
    if malformed buf then
      .next (sendVector port (mboxVector s m)
        (modMbox port m (fun x => { x with seq := x.running, mstat := 1, busy := false, done := true }) t))
    else
      let g := parseMsg buf
      if restrictedHit pa g s then .refused .restrictedDiagnostics
      else if messageWaits g s && decide (reach pa g.req.idx (msgRecovers g) (msgWrites g) s = .go) then .next s
      else
        let u := route pa g (msgRecovers g) (msgWrites g) (runAny pa g) t
        .next (match reach pa g.req.idx (msgRecovers g) (msgWrites g) s with | .silent => loseRequest port m u | _ => u)

/-- The session of a port and identifier. -/
def sessionAt (s : State) (port id : Nat) : Option Session := s.dict.sessions.find? (fun x => x.port = port && x.id = id)

/-- The state with a session changed. -/
def modSession (port id : Nat) (f : Session → Session) (s : State) : State :=
  s.modDict (fun d => { d with sessions := d.sessions.map (fun x => if x.port = port && x.id = id then f x else x) })

/-- A frame dropped without a response, and counted (02 R55). -/
def dropFrame (s : State) : State := bump 0x1040 0x08 1 s

/-- A first unused session identifier from a free value: never 0 (02 R54; log 2). (log 19, DESIGN CHOICE.) -/
def newSessionId (s : State) (v : Nat) : Nat :=
  (((List.range 17).map (fun i => (v + i) % 2 ^ 32)).find? (fun n => n != 0 && !s.dict.sessions.any (fun x => x.id = n))).getD 1

/-- What refuses a HELLO (02 R54, R56). -/
def helloBar (port : Nat) (rq : Req) (s : State) : Status :=
  if rq.idx != 0x1010 || rq.sub != 2 || rq.ty != 10 || rq.off != 0 || !rq.last then .typeMismatch
  else if rq.data.length != 20 then .length
  else if commonVersion 0x01000100 (leAt rq.data 16 4) = 0 then .version
  else if 8 ≤ (s.dict.sessions.filter (fun x => x.port = port)).length then .state
  else .ok

/-- A session opened: the device random and the session identifier are free values (02 R54; log 2), and the session key comes from the
side-band key. -/
def openSession (port : Nat) (rq : Req) (s : State) : Bytes × State :=
  let random := toLE 16 (freeVal s 128)
  let s := drawn s
  let id := newSessionId s (freeVal s 32)
  let s := drawn s
  let v := commonVersion 0x01000100 (leAt rq.data 16 4)
  let base := KMap.getD s.island.keys 0 s.island.factory
  let x : Session := { port := port, id := id, major := v / 256, minor := v % 256, key := Config.hkdf256 base (slice rq.data 0 16 ++ random),
                       highest := 0, seen := [], kept := [], lastAt := s.clock.now, factory := countVal s 0xC020 0x02 1 = 1 }
  (random ++ toLE 1 (v % 256) ++ toLE 1 (v / 256) ++ toLE 2 0 ++ toLE 4 id, s.modDict (fun d => { d with sessions := d.sessions ++ [x] }))

/-- A HELLO frame: exactly one HELLO message under the side-band key (02 R53, R54). A HELLO among other messages is refused with STATE, as they
are outside a session. -/
def execHello (port : Nat) (fr : AfFrame) (s : State) : Host.Outcome State Fault Refusal :=
  if 1 < port || !s.island.alive then .next s
  else match fr.msgs with
    | [m] =>
      if fr.magic != 0x4146 || fr.flags != 0 || fr.session != 0 || 2 ^ 63 ≤ fr.seq || !fr.tagOk || m.op != 9 then .next (dropFrame s)
      else
        let st := helloBar port m.req s
        let r := if st = .ok then openSession port m.req s else ([], s)
        .next (emit (.afwell port 0 fr.seq [replyTo m 10 st r.1]) r.2)
    | ms =>
      if fr.magic = 0x4146 && fr.flags = 0 && fr.session = 0 && fr.tagOk && ms.any (fun m => m.op = 9) then
        .next (emit (.afwell port 0 fr.seq (ms.map (fun m => replyTo m (msgType m) .state []))) s)
      else .next (dropFrame s)

/-- Whether a frame belongs to a session as it is: its header, its direction and its tag (02 R53 to R55). (log 26, DEDUCED.) -/
def frameFits (x : Session) (fr : AfFrame) : Bool :=
  fr.magic = 0x4146 && fr.major = x.major && fr.minor = x.minor && fr.flags = 0 && fr.seq < 2 ^ 63 && fr.tagOk
  && 1 ≤ fr.msgs.length && fr.msgs.length ≤ 64

/-- Whether the sequence of a frame is new: above the highest, or in the 64 below it and not seen (02 R55). -/
def seqNew (x : Session) (n : Nat) : Bool := x.highest < n || (x.highest ≤ n + 64 && n < x.highest && !x.seen.contains n)

/-- The messages of a frame run in order (02 R55). -/
def runFrame (pa : Path) (ms : List Msg) (s : State) : List Reply × State :=
  ms.foldl (fun a m =>
    match reach pa m.req.idx (msgRecovers m) (msgWrites m) a.2 with
    | .refused st => (a.1 ++ [replyTo m (msgType m) st []], a.2)
    | .go => (a.1 ++ [(runAny pa m a.2).1], (runAny pa m a.2).2)
    | _ => a) ([], s)

/-- A request frame of a session (02 R54 to R56): authenticated, checked for replay, and its messages run in order; a duplicate receives its
kept response. While a message of it has to wait, the frame waits; while no hub runs it, it is lost. -/
def execAfwellFrame (port : Nat) (fr : AfFrame) (s : State) : Host.Outcome State Fault Refusal :=
  let pa : Path := .side port fr.session
  if 1 < port || !s.island.alive then .next s
  else match sessionAt s port fr.session with
    | none => .next (dropFrame s)
    | some x =>
      if !frameFits x fr then .next (dropFrame s)
      else if !seqNew x fr.seq then
        match x.kept.find? (fun k => k.1 = fr.seq) with
        | some k => .next (emit (.afwell port fr.session fr.seq k.2) s)
        | none => .next (dropFrame s)
      else if fr.msgs.any (fun m => restrictedHit pa m s) then .refused .restrictedDiagnostics
      else if fr.msgs.any (fun m => reach pa m.req.idx (msgRecovers m) (msgWrites m) s = .held
          || (messageWaits m s && decide (reach pa m.req.idx (msgRecovers m) (msgWrites m) s = .go))) then .next s
      else if fr.msgs.any (fun m => reach pa m.req.idx (msgRecovers m) (msgWrites m) s = .silent) then .next s
      else
        let r := runFrame pa fr.msgs s
        let t := modSession port fr.session (fun x =>
          { x with highest := max x.highest fr.seq, lastAt := s.clock.now, kept := ((fr.seq, r.1) :: x.kept).take 16,
                   seen := (fr.seq :: x.seen).filter (fun n => max x.highest fr.seq ≤ n + 64) }) r.2
        .next (settle (if t.island.alive then emit (.afwell port fr.session fr.seq r.1) t else t))

/-- A session with no accepted frame for 60 s is closed (02 R56), with its staged segments. -/
def execSessionTimeout (port session : Nat) (s : State) : Host.Outcome State Fault Refusal :=
  match sessionAt s port session with
  | some x =>
    if x.lastAt + 60000000000 ≤ s.clock.now then
      .next ((dropTransfer (.side port session) s).modDict (fun d =>
        { d with sessions := d.sessions.filter (fun y => !(y.port = port && y.id = session)),
                 snapshots := d.snapshots.filter (fun y => y.path != .side port session) }))
    else .next s
  | none => .next s

/-- A delivered FM flit (02 R57; 16 R459): from the manager node and of class REQ it is an object message, else it is dropped and counted. -/
def execFmFrame (s : State) : Host.Outcome State Fault Refusal :=
  match takeInbox 9 s with
  | none => .next s
  | some (f, t) =>
    if f.src != rwVal s 0x7000 0x02 0xFFFFFFFF || f.cls != 0 then .next (bump 0x7000 0x0F 1 t)
    else
      let pa : Path := .fabric f.src
      let m := parseMsg f.data
      if restrictedHit pa m s then .refused .restrictedDiagnostics
      else if messageWaits m s && decide (reach pa m.req.idx (msgRecovers m) (msgWrites m) s = .go) then .next s
      else if 224 < m.req.data.length then .next (execute pa (fun s => (replyTo m (msgType m) .length [], s)) t)
      else .next (route pa m (msgRecovers m) (msgWrites m) (runAny pa m) t)

/-- The held messages of a handover run by the new primary, in the order in which they came (02 R69). -/
def runHeld (s : State) : State :=
  let hs := s.dict.held
  hs.foldl (fun s h => route h.path h.msg (msgRecovers h.msg) (msgWrites h.msg) (runAny h.path h.msg) s) (s.modDict (fun d => { d with held := [] }))

/-- The passive hub takes primacy when the grant arrives on either path, and runs what was held; in a hub update the other hub is next (02 R69;
19 R556). -/
def execGrantReceive (hub _path : Nat) (s : State) : Host.Outcome State Fault Refusal :=
  match s.hubs.grant with
  | some g =>
    if g.hub = hub && (hubSide s hub).present then
      .next (settle (updateHandedOver (runHeld (takePrimacy hub s.hubs.solo g.epoch 0 s))))
    else .next s
  | none => .next s

end Sys2Proof.Machine
end

