-- ==== Sys2Proof/Machine/Boot.lean ====
section
/-! DEFINITION. Start-up and resets: the choice of the image, the rails, the phases, the configuration store, and the tests (20 R565 to R570, R580; 21
R584; 23 R622). -/

namespace Sys2Proof.Machine

open Sys2Proof

/-- The faults of the key store: 1 an unwrap fails, 2 both copies invalid (20 R573; OD 0xC002.02). -/
def keyFaults (s : State) : Nat :=
  let i := s.island
  if !i.keyA.valid && !i.keyB.valid then 2 else if (keyStore s).isNone then 1 else 0

/-- The keys of the key store put in force (20 R569, R573): a key that does not unwrap is absent. -/
def loadKeys (s : State) : State :=
  let c : KeyCopy := (keyStore s).getD {}
  setCount 0xC002 0x02 (keyFaults s) (setCount 0xC002 0x01 c.gen (s.modIsland (fun i => { i with keys := c.keys })))

/-- What RESET_N leaves of the objects that the device sets: what fuses and flash hold (20 R569). -/
def fuseCounts (m : KMap Nat) : KMap Nat :=
  m.filter (fun e => (0xC000 ≤ e.1 / 256 && e.1 / 256 ≤ 0xC003) || e.1 / 256 = 0xC020 || e.1 / 256 = 0x8000 || e.1 / 256 = 0xA010)

/-- RESET_N is asserted (20 R569): the island is reset, the main domain is off and every session is closed. -/
def execResetNAssert (s : State) : Host.Outcome State Fault Refusal :=
  let s := if s.dev.state = .standby then railsOff (dropMain s) else toStandby 0 s
  let s := s.modDict (fun d => { d with sessions := [], counts := fuseCounts d.counts })
  let s := s.modTele (fun t => { t with annals := { t.annals with standby := {} } })
  .next (s.modIsland (fun i =>
    { i with alive := false, phase := 0, waiting := [], refHold := 0, thermTrip := false, test := none, token := none, armed := 0, nonce := none }))

/-- What the standby island chooses (20 R565): the slot, if one verifies, the byte of OD 0xC001.01, and the alarms of OD 0xC001.02. -/
structure Choice where
  slot   : Option Nat
  byte   : Nat
  alarms : Nat
deriving DecidableEq, Repr

/-- The image chosen under R565, with the boot record it leaves (20 R565). -/
def chooseImage (s : State) : Choice × State :=
  let good (n : Nat) : Bool := fwOk s (fwSlot s n)
  match bootRecord s with
  | some r =>
    let trial : Bool := r.trial != 0xFF && r.count < 3
    let r1 : BootRecord := if trial then { r with count := r.count + 1 } else { r with trial := 0xFF }
    let s := if trial || r.trial != 0xFF then writeBoot r1 s else s
    let slot := if trial then r.trial else r.active
    let late := b2n (!trial && r.trial != 0xFF)
    if good slot then (⟨some slot, slot + 2 * b2n trial, late⟩, s)
    else if good (1 - slot) then (⟨some (1 - slot), 1 - slot + 4, late + 2⟩, writeBoot { r1 with active := 1 - slot } s)
    else (⟨none, slot, late⟩, s)
  | none =>
    if good 0 then (⟨some 0, 0, 4⟩, writeBoot { active := 0 } s)
    else if good 1 then (⟨some 1, 1, 4⟩, writeBoot { active := 1 } s)
    else (⟨none, 0, 4⟩, s)

/-- The start of a boot fails: only the side-band answers (20 R565, R567; 02 R73). (log 105, DEDUCED.) -/
def bootFailed (s : State) : State := setDevState .failed 2 (s.modIsland (fun i => { i with phase := 0 }))

/-- Register 0 zeroed and extended with the ROM identity and the standby component (20 R570). -/
def measureStandby (w : FwImage) (s : State) : State :=
  measure 0 (compDigest w 1) (measure 0 (Config.sha384 Config.romIdentity)
    (setBlob 0xC010 0x09 [] (setBlob 0xC010 0x01 (List.replicate 48 0) s)))

/-- The image of a boot chosen and its standby component measured, or the boot failed (20 R562 to R567; 22 R612). (log 103, DEDUCED.) -/
def bootImage (s : State) : State :=
  let c := chooseImage s
  let s := setCount 0xC001 0x02 c.1.alarms (setCount 0xC001 0x01 c.1.byte c.2)
  let s := if c.1.alarms = 0 then s else annal 0x0802 3 ownDevice srcStandby (toLE 1 c.1.alarms) s
  match c.1.slot with
  | none => bootFailed s
  | some n =>
    let s := measureStandby (fwSlot s n) (setCount 0xC003 0x01 (fwSlot s n).svn (s.modIsland (fun i => { i with running := n })))
    if bit s.island.straps 0 && refclkGood s then powerOn 0 s else s

/-- Phase S0 ends: the self-test, the straps, the choice of the image, and the side-band ports up (20 R567). A SCRAPPED device loads nothing
and stays in STANDBY (20 R576). -/
def execBootS0 (straps : Nat) (selfTest : Bool) (s : State) : Host.Outcome State Fault Refusal :=
  if s.island.alive then .next s
  else
    let s := loadKeys (s.modIsland (fun i => { i with alive := true, straps := straps % 65536 }))
    if lifeCycle s = 5 then .next s
    else if selfTest then .next (settle (bootImage s))
    else .next (settle (bootFailed s))

/-- A rail reports power-good: the next group is enabled once every rail of its group and of those before does; after the last the hubs boot
(21 R584; 20 R567). -/
def execPowerGood (rail : Nat) (s : State) : Host.Outcome State Fault Refusal :=
  let g := s.island.groups
  if s.island.phase = 1 && (KMap.find s.island.railAt rail).isSome && !s.island.good.contains rail then
    let s := s.modIsland (fun i => { i with good := i.good ++ [rail] })
    if (groupRails g).all (fun r => s.island.good.contains r) then
      .next (if g = 4 then s.modIsland (fun i => { i with phase := 2 }) else enableGroup (g + 1) s)
    else .next s
  else .next s

/-- A rail without power-good 10 ms after its enable fails the phase (21 R584; 20 R567). -/
def execPowerGoodTimeout (rail : Nat) (s : State) : Host.Outcome State Fault Refusal :=
  match KMap.find s.island.railAt rail with
  | some t =>
    if s.island.phase = 1 && !s.island.good.contains rail && t + 10000000 ≤ s.clock.now then .next (settle (bootFailed s)) else .next s
  | none => .next s

/-- The configuration store copy in force (02 R40; 20 R574). -/
def storeInForce (s : State) : Option StoreCopy :=
  let d := s.dict
  match copyUsable s d.storeA.valid d.storeA.epoch, copyUsable s d.storeB.valid d.storeB.epoch with
  | true, true => some (if d.storeA.gen < d.storeB.gen then d.storeB else d.storeA)
  | true, false => some d.storeA
  | false, true => some d.storeB
  | false, false => none

/-- The path of an object's owner class (02 R35), for the checks of a stored value. -/
def ownerPath (d : ObjDef) : Path := match d.owner with | .host => .mbox 0 0 | .side => .side 0 0 | _ => .fabric 0

/-- Whether a stored value is set as it is: its object has no other condition at this point of a boot, or describes an index or table that is
restored later (23 R622). -/
def setAsStored (r : ObjRef) : Bool :=
  r.obj.staged || (match r.obj.kind with | .preferred | .powerCap | .indexAttr | .indexBook | .tableAttr => true | _ => false)

/-- A stored value checked as a write by the owner's class in CONFIG (23 R622): none where the check refuses it. -/
def applyNum (r : ObjRef) (v : Nat) (s : State) : Option State :=
  let k := okey r.idx r.obj.sub
  let keep (t : State) : State :=
    t.modDict (fun d => { d with written := KMap.del d.written k, stored := KMap.put d.stored k v })
  if !r.obj.storable || valueStatus r.obj v != .ok || stateCloses r s then none
  else if setAsStored r then some (s.modDict (fun d => { d with stored := KMap.put d.stored k v }))
  else
    let w := writeNum (ownerPath r.obj) r v s
    if w.1 = .ok then some (keep w.2) else none

/-- A stored byte string checked as a write by the owner's class in CONFIG (23 R622). -/
def applyDom (r : ObjRef) (b : Bytes) (s : State) : Option State :=
  let k := okey r.idx r.obj.sub
  let keep (t : State) : State :=
    t.modDict (fun d => { d with domains := KMap.del d.domains k, storedDoms := KMap.put d.storedDoms k b })
  if !r.obj.storable || !r.obj.dlen.ok b.length || stateCloses r s then none
  else if setAsStored r then some (s.modDict (fun d => { d with storedDoms := KMap.put d.storedDoms k b }))
  else
    let w := writeBytes r b s
    if w.1 = .ok then some (keep w.2) else none

/-- A stored value of either kind applied; a value refused leaves the default and is counted (23 R622). (log 61, DEDUCED.) -/
def applyStored (e : Nat × (Nat ⊕ Bytes)) (s : State) : State :=
  let r : Option State := match findObject (e.1 / 256) (e.1 % 256), e.2 with
    | some r, .inl v => applyNum r v s
    | some r, .inr b => applyDom r b s
    | none, _ => none
  r.getD (bump 0x1060 0x02 1 s)

/-- The values of a store copy in ascending order of index and subindex. -/
def storeEntries (c : StoreCopy) : KMap (Nat ⊕ Bytes) :=
  c.doms.foldl (fun m e => KMap.put m e.1 (.inr e.2)) (c.nums.foldl (fun m e => KMap.put m e.1 (.inl e.2)) [])

/-- The configuration store applied in phase M2 (02 R39, R40; 23 R622): in CONFIG as far as the checks go. -/
def applyStore (s : State) : State :=
  match storeInForce s with
  | none => s.modDict (fun d => { d with storeGen := 0 })
  | some c =>
    let st := s.dev.state
    let s := (storeEntries c).foldl (fun s e => applyStored e s) (s.modDev (fun d => { d with state := .config }))
    (s.modDev (fun d => { d with state := st })).modDict (fun d => { d with storeGen := c.gen })

/-- Policers and shapers take the parameters in force (04 R134, R138). -/
def loadTraffic (s : State) : State :=
  (List.range 32).foldl (fun s p => loadShaper p ((List.range 4).foldl (fun s c => loadPolicer p c s) s)) s

/-- The keys that other units hold, taken from the key store: link keys and flash keys (16 R446; 18 R508; 20 R573). -/
def spreadKeys (s : State) : State :=
  s.island.keys.foldl (fun s e =>
    if 256 ≤ e.1 then s.modMire (fun m => { m with keys := KMap.put m.keys (e.1 - 256) e.2 })
    else if e.1 = 0 then s
    else setDom (0x7100 + (e.1 - 1) / 2) (0x11 + (e.1 - 1) % 2) e.2 s) s

/-- Registers 1 to 7 zeroed, and those of phase M2 extended: the hub components, the store copy in force, and the state record (20
R570). -/
def measureHubs (s : State) : State :=
  let w := fwSlot s s.island.running
  let s := (List.range 7).foldl (fun s i => setBlob 0xC010 (i + 2) (List.replicate 48 0) s) s
  let s := measure 2 (compDigest w 2) (measure 1 (compDigest w 2) s)
  let s := match storeInForce s with
    | some c => measure 5 (Config.sha384 (Config.storeImage c.gen c.nums c.doms)) s
    | none => s
  measure 6 (slice (Config.stateRecord (lifeCycle s) (fuseEpoch s) (countVal s 0xC003 0x02 0) s.island.straps) 0 48) s

/-- The hubs after phase M2: those whose lockstep holds are present, and the preferred one, else the other, is primary with epoch 1; alone it is
in solo mode (20 R567; 02 R63). -/
def startHubs (badHubs : Nat) (s : State) : State :=
  let up (h : Nat) : Bool := !bit badHubs h
  let h := if up (rwVal s 0x1020 0x03 0 % 2) then rwVal s 0x1020 0x03 0 % 2 else 1 - rwVal s 0x1020 0x03 0 % 2
  let now := s.clock.now
  let side (n : Nat) : HubSide :=
    { present := up n, primary := n = h, deciding := n = h, epoch := 1, lastA := now, lastB := now, lastSent := now, fault := !up n }
  s.modHubs (fun _ => { hn := side 0, hs := side 1, unitEpoch := 1, solo := !(up 0 && up 1) })

/-- Annals at a boot: the next sequence and the boot count follow the last persisted record, and the first record written is a BOOT record (22
R612, R615). -/
def startAnnals (s : State) : State :=
  let a := s.tele.annals
  let last := (a.kept.getLast?).map (fun r => (r.seq, r.boot))
  let sq := match last with | some l => l.1 | none => 0
  let boot := match last with | some l => l.2 + 1 | none => 1
  let e : Event := { ft := s.clock.ft, code := 2, severity := 1, owner := ownDevice, source := srcStandby,
                     data := toLE 1 (countVal s 0xC001 0x01 0) ++ toLE 1 (b2n s.island.lastFail) ++ toLE 6 0 ++ toLE 8 sq }
  s.modTele (fun t => { t with annals := { t.annals with ring := [⟨sq + 1, e, boot⟩], nextSeq := sq + 2, boot := boot, stopped := false } })

/-- Phase M2 ends (20 R567): a measurement that fails, or both hubs lost, fails the boot; `badHubs` has bit h set for a hub whose lockstep check
fails. -/
def execBootM2 (badHubs : Nat) (measured : Bool) (s : State) : Host.Outcome State Fault Refusal :=
  if s.island.phase != 2 || !mainOn s then .next s
  else if !measured || (bit badHubs 0 && bit badHubs 1) then .next (settle (bootFailed (dropMain s)))
  else
    let s := measureHubs (newChallenge (startAnnals (spreadKeys (startHubs badHubs (applyStore (dropMain s))))))
    let s := [0, 1].foldl (fun s h => if bit badHubs h then unitLost 0x14 0 (srcHub h) (some (58 + h)) s else s) s
    let rails := countVal s 0x2030 0x03 0
    .next (settle (loadTraffic (s.modIsland (fun i => { i with phase := 3, railBase := rails, lastFail := false }))))

/-- A column that failed BIST is retired: a spare takes its place, or its array has none left and its tile is lost (07 R203; 19 R532, R538). -/
def retireColumnBist (n phys : Nat) (s : State) : State :=
  let a := arrayAt s n
  if a.bad.contains phys then s
  else
    let s := failColumn n phys s
    match (List.range 129).find? (fun c => nth a.cols c 0xFF = phys), spareCols (arrayAt s n) with
    | none, _ => s
    | some c, sp :: _ => switchColumn n c sp 2 false s
    | some _, [] => breakArray n s

/-- A Mere engine that failed BIST is retired (10 R316; 19 R532). -/
def retireEngineBist (t phys : Nat) (s : State) : State :=
  match (List.range 4).find? (fun m => nth (mereAt s t).map m 4 = phys) with
  | some m => mereBoundary t (killEngine t m 2 s)
  | none => modMere t (fun g => { g with bad := if g.bad.contains phys then g.bad else g.bad ++ [phys] }) s

/-- A Carr core that failed BIST is retired (08 R260; 19 R532). -/
def retireCoreBist (k phys : Nat) (s : State) : State :=
  if s.carr.failed.contains (66 * k + phys) then s
  else match (List.range 64).find? (fun p => coreOf s (64 * k + p) = phys) with
    | some p => killCore (64 * k + p) 2 s
    | none => s.modCarr (fun c => { c with failed := c.failed ++ [66 * k + phys] })

/-- A wavelength of an engine, numbered 10 × port + wavelength, that failed its test: its lane moves to the spare, or its port has none left
(16 R452; 19 R532). -/
def retireWave (e u : Nat) (s : State) : State :=
  let n := 8 * e + u / 10
  let w := u % 10
  let l := nth (portAt s n).lanes w 15
  if 8 ≤ l then modPort n (fun p => { p with lanes := setAt p.lanes w 15 }) s
  else if (portAt s n).state = 3 then askMove n l w true 2 s
  else match spareWave (portAt s n) with
    | some v => spareSwitch 9 l (10 * (u / 10) + w) (10 * (u / 10) + v) 2 0 (srcEngine e)
        (modPort n (fun p => { p with lanes := setAt (setAt p.lanes w 15) v l }) s)
    | none => modPort n (fun p => { p with lanes := setAt p.lanes w 15 }) s

/-- The die that a unit kind of 22 R627 stands on: its die type and source, by the source codes of 22 R598. (log 104, PRESUMED.) -/
def unitSourceOf (kind die : Nat) : Nat :=
  if kind ≤ 6 || kind = 0x10 then srcTile die
  else if kind = 7 || kind = 8 || kind = 0x11 then srcStack die
  else if kind = 9 || kind = 0x12 then srcEngine die
  else if kind = 0x14 then srcHub die
  else srcDie die

/-- A unit that failed its own tests is retired, or lost where it has no spare (19 R532, R538): its kind of 22 R627, its die and its number. -/
def retireUnit (u : Nat × Nat × Nat) (s : State) : State :=
  let (kind, die, n) := u
  if kind = 1 || kind = 2 then retireColumnBist (2 * die + (kind - 1)) n s
  else if kind = 3 then retireEngineBist die n s
  else if kind = 4 || kind = 5 || kind = 6 || kind = 0x10 then loseTile die s
  else if kind = 7 then retireCoreBist die n s
  else if kind = 8 then unitLost 8 n (srcStack die) none (modPc (64 * die + n) (fun p => { p with failed := true }) s)
  else if kind = 9 then retireWave die n s
  else if kind = 0xA then modTarget (128 * die + n) (fun g => { g with failed := true }) s
  else if kind = 0x11 then failStack die s
  else if kind = 0x12 then loseEngine die s
  else if kind = 0x13 then loseDie die s
  else s

/-- A die lost in a start-up phase, by its bit of OD 0xA002.01 (20 R567; 19 R538). -/
def loseByBit (b : Nat) (s : State) : State :=
  if b < 40 then loseTile b s else if b < 48 then failStack (b - 40) s else if b < 56 then loseEngine (b - 48) s
  else if b < 58 then loseDie (b - 56) s else s

/-- Phase M3 ends (20 R567, R570): dies lost are recorded and the boot goes on, units that failed BIST are retired, and a measurement that
fails fails the boot. -/
def execBootM3 (lost : List Nat) (failed : List (Nat × Nat × Nat)) (measured : Bool) (s : State) : Host.Outcome State Fault Refusal :=
  if s.island.phase != 3 || !mainOn s then .next s
  else if !measured then .next (settle (bootFailed s))
  else
    let w := fwSlot s s.island.running
    let s := [4, 5, 6].foldl (fun s c => measure 4 (compDigest w c) s) (measure 3 (compDigest w 3) s)
    let s := failed.foldl (fun s u => retireUnit u s) (lost.foldl (fun s b => loseByBit b s) s)
    .next (settle (s.modIsland (fun i => { i with phase := 4 })))

/-- Every volatile memory zeroed, as in phase M4 (20 R567, R568). -/
def zeroMemories (s : State) : State := s.modMem (fun m => { flash := m.flash })

/-- Phase M4 ends (20 R567): the memories read as zeros; Mire is RESTORING where it is formatted (18 R504). -/
def execBootM4 (lost : List Nat) (s : State) : Host.Outcome State Fault Refusal :=
  if s.island.phase != 4 || !mainOn s then .next s
  else
    let s := lost.foldl (fun s b => loseByBit b s) (zeroMemories s)
    let s := if mireState s = 0 then s else setCount 0x8000 0x0F 2 s
    .next (settle (s.modIsland (fun i => { i with phase := 5 })))

/-- An index laid out again from its persistent copy: its live items, with the end of the restore as its horizon; a BUILDING index comes back with
its regions zeroed (06 R184). -/
def restoreIndex (k : Nat) (s : State) : State :=
  match indexAt s k with
  | none => s
  | some x =>
    let ft := s.clock.ft
    let y := { x with items := x.items.map (fun e => (e.1, { e.2 with side := false, birth := ft, death := none })), horizon := ft, last := ft }
    if x.state = .building then blankIndex k y (putIndex k y s)
    else
      let s := blankIndex k y (putIndex k { y with items := [] } s)
      let s := y.items.foldl (fun s e =>
        let s := if y.refine then writeI (y.refines + 128 * e.1) e.2.refine s else s
        let s := linkKey k y e.1 e.2.key (writeAttrs y e.1 e.2.attrs s)
        writeTomb y e.1 false (writePc (y.slotPc e.1) (y.codeAt e.1) e.2.code s)) s
      (List.range y.cells).foldl (fun s c => writeCell y c s) (putIndex k y s)

/-- A table's records read back from its persistent copy (14 R411). -/
def restoreTable (k : Nat) (s : State) : State :=
  match tableAt s k with
  | none => s
  | some t =>
    if !t.ready then s
    else (List.range t.classes.length).foldl (fun s n =>
      let size := t.recordsSize n
      let r := spaceBytes (size / 16384 + 2) s (rwVal s (tabObj k) 0x13 0) (t.flashBase n) size
      writeI (recordsBase s (nth t.classes n ⟨0, 0, false, 0⟩)) r.1 r.2) s

/-- The records of a die that the replay discards (18 R516; 22 R612). -/
def replayDie (d : Nat) (s : State) : State :=
  match (dieAt s d).torn with
  | none => s
  | some n =>
    let s := bump 0x8000 0x14 n (modDie d (fun e => { e with torn := none }) s)
    annal 0x0501 2 ownDevice (srcDie d) (toLE 1 d ++ toLE 1 0 ++ toLE 4 n) s

/-- The flash channels trained: the rate that the flash reached, at most the requested one (18 R499); 0 for a channel that is off or did not
train. -/
def trainChannel (c rate unused : Nat) (s : State) : State :=
  let off : Bool := rwVal s (0x8010 + c) 0x01 1 = 0
  let r := if off then 0 else min 3600 (min rate (rwVal s (0x8010 + c) 0x02 3600))
  setCount (0x8010 + c) 0x03 r (setCount (0x8010 + c) 0x05 unused (setCount (0x8010 + c) 0x06 (if off then 0 else if r = 0 then 3 else 2) s))

/-- Phase M5 ends (20 R567): the channels trained, with the targets not used by channel and the rates that the channels reach, the map rebuilt (18
R504, R516), and indices and tables restored (06 R184; 14 R411). A map that a clear has begun to erase reads UNFORMATTED (20 R578). -/
def execBootM5 (unused : List (Nat × Nat)) (rates : List Nat) (s : State) : Host.Outcome State Fault Refusal :=
  if s.island.phase != 5 || !mainOn s then .next s
  else
    let s := (List.range 32).foldl (fun s c => trainChannel c (nth rates c 0) (KMap.getD unused c 0 % 256) s) s
    let s := replayDie 1 (replayDie 0 (setCount 0x8000 0x14 0 s))
    let s := if mireState s = 0 then s
      else setCount 0x8000 0x0F (if clearPending s then 0 else if s.mire.dieN.worn || s.mire.dieS.worn then 3 else 1) s
    let s := s.data.indices.foldl (fun s e => restoreIndex e.1 s) s
    let s := s.data.tables.foldl (fun s e => restoreTable e.1 s) s
    .next (settle (s.modIsland (fun i => { i with phase := 6 })))

/-- The Harvest chain of an index that came back in service (17 R498). -/
def placeHarvest (k : Nat) (s : State) : State :=
  match indexAt s k with
  | some x =>
    if x.state != .building && (x.sideMode || x.state = .reindexing) then
      placeChain (harvestNo (k / 16) (k % 16)) 0x04 (256 * (k / 16) + k % 16) (rwVal s (indexObj (k / 16) (k % 16)) 0x15 16384) (k / 16) 0 s
    else s
  | none => s

/-- The refresh chain of a table that came back in service (17 R498). -/
def placeRefresh (k : Nat) (s : State) : State :=
  match tableAt s k with
  | some t =>
    if t.ready && t.hot != 0 then
      placeChain (refreshNo (k / 64) (k % 64)) 0x05 (256 * (k / 64) + k % 64) (rwVal s (tabObj k) 0x0F 1024) (k / 64) 0 s
    else s
  | none => s

/-- Phase M6 ends (20 R567; 17 R498): the entries that the device places, FT in UNSET, the Causeway ports starting their bring-up, and the
device in CONFIG. -/
def execBootM6 (s : State) : Host.Outcome State Fault Refusal :=
  if s.island.phase != 6 || !mainOn s then .next s
  else
    let s := placeVigil (placeChain 0 0x01 0 (stepTicks s) ownSystem 0 s)
    let s := s.data.indices.foldl (fun s e => placeHarvest e.1 s) s
    let s := s.data.tables.foldl (fun s e => placeRefresh e.1 s) s
    let now := s.clock.now
    let s := (s.modIsland (fun i => { i with phase := 0 })).modVigil (fun g => { g with bootAt := now })
    .next (settle (if s.dev.state = .booting then setDevState .config 1 s else s))

/-- What a test wrote is zeroed (20 R580): tile SRAM, stage stores, program stores and the passive hub's SRAM after MEMORY, Carr rows after CARR. -/
def zeroTested (code : Nat) (s : State) : State :=
  let passive := otherHub ((primaryHub s).getD 0)
  let s := if code = 2 || code = 5 then
      s.modMem (fun m => { m with tile := [], stage := [], sluice := [], hub := Memory.zero m.hub (0x100000000 * passive) 0x100000000 }) else s
  if code = 3 || code = 5 then s.modMem (fun m => { m with carr := [], staging := [] }) else s

/-- A test ends (20 R580): the units that failed, as kind of 22 R627, die and number, are listed, recorded and retired. -/
def execTestDone (failed : List (Nat × Nat × Nat)) (s : State) : Host.Outcome State Fault Refusal :=
  match s.island.test with
  | none => .next s
  | some code =>
    let s := zeroTested code (s.modIsland (fun i => { i with test := none }))
    let s := setCount 0xD000 0x03 (if failed.isEmpty then 0 else 1) (setCount 0xD000 0x02 100 s)
    let s := setBlob 0xD000 0x04 (failed.flatMap (fun u => toLE 1 (unitSourceOf u.1 u.2.1 / 256) ++ toLE 1 u.2.1 ++ toLE 1 u.2.2 ++ toLE 1 0)) s
    .next (settle (failed.foldl (fun s u =>
      retireUnit u (annal 0x0303 2 ownDevice (unitSourceOf u.1 u.2.1) (toLE 1 u.1 ++ toLE 1 u.2.2) s)) s))

end Sys2Proof.Machine
end

