-- ==== Sys2Proof/Machine/CarrIsa.lean ====
section
/-! DEFINITION. The instructions of a Carr core (09 R275 to R291). Every one names its pseudo-channel and mode, 0 IMAGE or 1
SYSTEM; d, a and b are register numbers, immediates are 18-bit fields. -/

namespace Sys2Proof.Machine

open Sys2Proof

/-- d = a + b (09 R275). -/
def execCarrAdd (pc mode d a b : Nat) (s : State) : Host.Outcome State Fault Refusal :=
  .next (aluRR pc mode d a b (fun x y => x + y) s)

/-- d = a − b (09 R275). -/
def execCarrSub (pc mode d a b : Nat) (s : State) : Host.Outcome State Fault Refusal :=
  .next (aluRR pc mode d a b (fun x y => x - y) s)

/-- d = a AND b (09 R275). -/
def execCarrAnd (pc mode d a b : Nat) (s : State) : Host.Outcome State Fault Refusal :=
  .next (aluRR pc mode d a b (fun x y => x &&& y) s)

/-- d = a OR b (09 R275). -/
def execCarrOr (pc mode d a b : Nat) (s : State) : Host.Outcome State Fault Refusal :=
  .next (aluRR pc mode d a b (fun x y => x ||| y) s)

/-- d = a XOR b (09 R275). -/
def execCarrXor (pc mode d a b : Nat) (s : State) : Host.Outcome State Fault Refusal :=
  .next (aluRR pc mode d a b (fun x y => x ^^^ y) s)

/-- d = a << (b & 31) (09 R275). -/
def execCarrShl (pc mode d a b : Nat) (s : State) : Host.Outcome State Fault Refusal :=
  .next (aluRR pc mode d a b (fun x y => x <<< (y.toNat % 32)) s)

/-- d = a >> (b & 31), logical (09 R275). -/
def execCarrShr (pc mode d a b : Nat) (s : State) : Host.Outcome State Fault Refusal :=
  .next (aluRR pc mode d a b (fun x y => x >>> (y.toNat % 32)) s)

/-- d = a >> (b & 31), arithmetic (09 R275). -/
def execCarrSra (pc mode d a b : Nat) (s : State) : Host.Outcome State Fault Refusal :=
  .next (aluRR pc mode d a b (fun x y => x.sshiftRight (y.toNat % 32)) s)

/-- the low 32 bits of a × b (09 R275). -/
def execCarrMul (pc mode d a b : Nat) (s : State) : Host.Outcome State Fault Refusal :=
  .next (aluRR pc mode d a b (fun x y => x * y) s)

/-- d = 1 if a < b signed (09 R275). -/
def execCarrSlt (pc mode d a b : Nat) (s : State) : Host.Outcome State Fault Refusal :=
  .next (aluRR pc mode d a b (fun x y => if x.slt y then 1 else 0) s)

/-- d = 1 if a < b unsigned (09 R275). -/
def execCarrSltu (pc mode d a b : Nat) (s : State) : Host.Outcome State Fault Refusal :=
  .next (aluRR pc mode d a b (fun x y => if x.ult y then 1 else 0) s)

/-- d = a + sext(imm) (09 R275). -/
def execCarrAddi (pc mode d a imm : Nat) (s : State) : Host.Outcome State Fault Refusal :=
  .next (aluRI pc mode d a (fun x => x + sext18 imm) s)

/-- d = a AND zext(imm) (09 R275). -/
def execCarrAndi (pc mode d a imm : Nat) (s : State) : Host.Outcome State Fault Refusal :=
  .next (aluRI pc mode d a (fun x => x &&& zext18 imm) s)

/-- d = a OR zext(imm) (09 R275). -/
def execCarrOri (pc mode d a imm : Nat) (s : State) : Host.Outcome State Fault Refusal :=
  .next (aluRI pc mode d a (fun x => x ||| zext18 imm) s)

/-- d = a XOR zext(imm) (09 R275). -/
def execCarrXori (pc mode d a imm : Nat) (s : State) : Host.Outcome State Fault Refusal :=
  .next (aluRI pc mode d a (fun x => x ^^^ zext18 imm) s)

/-- d = a << imm[4:0] (09 R275). -/
def execCarrShli (pc mode d a imm : Nat) (s : State) : Host.Outcome State Fault Refusal :=
  .next (aluRI pc mode d a (fun x => x <<< (imm % 32)) s)

/-- d = a >> imm[4:0], logical (09 R275). -/
def execCarrShri (pc mode d a imm : Nat) (s : State) : Host.Outcome State Fault Refusal :=
  .next (aluRI pc mode d a (fun x => x >>> (imm % 32)) s)

/-- d = a >> imm[4:0], arithmetic (09 R275). -/
def execCarrSrai (pc mode d a imm : Nat) (s : State) : Host.Outcome State Fault Refusal :=
  .next (aluRI pc mode d a (fun x => x.sshiftRight (imm % 32)) s)

/-- d = imm << 10 with a 22-bit immediate (09 R275). -/
def execCarrLui (pc mode d imm : Nat) (s : State) : Host.Outcome State Fault Refusal :=
  .next (carrIssue pc mode (fun _ => .go (setG pc mode d (BitVec.ofNat 32 (imm % 0x400000 * 1024)) false s)) s)

/-- The special value of GETS (09 R279). Outside a window the spec states no value for selectors 1, 2, 4 and 7: a free
value (log 2). -/
def getsValue (s : State) (pc : Nat) (k : Core) (sel : Nat) : Option Nat :=
  let w := k.window.bind (windowAt s)
  if sel = 0 then some (s.clock.now - k.started)
  else if sel = 3 then some pc
  else if sel = 5 then some k.skips
  else if sel = 6 then some k.nans
  else w.map (fun w =>
    if sel = 1 then w.id else if sel = 2 then 4 * w.owner + w.kind
    else if sel = 4 then (w.opened + w.length - 1000) - s.clock.now
    else w.tokens)

/-- d = special value sel, never poisoned; a selector above 7 is a reserved encoding (09 R276, R279). -/
def execGets (pc mode d sel : Nat) (s : State) : Host.Outcome State Fault Refusal :=
  .next (carrIssue pc mode (fun k =>
    if 7 < sel then .exc 1
    else match getsValue s pc k sel with
      | some v => .go (setG pc mode d (BitVec.ofNat 32 v) false s)
      | none => .go (drawn (setG pc mode d (BitVec.ofNat 32 (freeVal s 32)) false s))) s)

/-- d = the ones in a (09 R283). -/
def execPopc (pc mode d a : Nat) (s : State) : Host.Outcome State Fault Refusal :=
  .next (aluRI pc mode d a (fun x => BitVec.ofNat 32 (popBits 32 x.toNat)) s)

/-- d = the ones in vector register a (09 R283). -/
def execVpopc (pc mode d a : Nat) (s : State) : Host.Outcome State Fault Refusal :=
  .next (carrIssue pc mode (fun k =>
    .go (setG pc mode d (BitVec.ofNat 32 (popBits 512 (k.vr a).toNat)) (k.vrBad a) s)) s)

/-- 32-bit load from a + sext(imm) (09 R275, R277). -/
def execCarrLw (pc mode d a imm : Nat) (s : State) : Host.Outcome State Fault Refusal :=
  .next (loadG pc mode d a imm 4 s)

/-- Zero-extended 16-bit load from a + sext(imm) (09 R275, R277). -/
def execCarrLhu (pc mode d a imm : Nat) (s : State) : Host.Outcome State Fault Refusal :=
  .next (loadG pc mode d a imm 2 s)

/-- Zero-extended 8-bit load from a + sext(imm) (09 R275, R277). -/
def execCarrLbu (pc mode d a imm : Nat) (s : State) : Host.Outcome State Fault Refusal :=
  .next (loadG pc mode d a imm 1 s)

/-- 32-bit store of register v at a + sext(imm) (09 R275). -/
def execCarrSw (pc mode v a imm : Nat) (s : State) : Host.Outcome State Fault Refusal :=
  .next (storeG pc mode v a imm 4 s)

/-- Store of the low 16 bits of register v at a + sext(imm) (09 R275). -/
def execCarrSh (pc mode v a imm : Nat) (s : State) : Host.Outcome State Fault Refusal :=
  .next (storeG pc mode v a imm 2 s)

/-- Store of the low 8 bits of register v at a + sext(imm) (09 R275). -/
def execCarrSb (pc mode v a imm : Nat) (s : State) : Host.Outcome State Fault Refusal :=
  .next (storeG pc mode v a imm 1 s)

/-- A 64-byte load (09 R275, R277). -/
def execCarrVld (pc mode d a imm : Nat) (s : State) : Host.Outcome State Fault Refusal :=
  .next (carrIssue pc mode (fun k =>
    if k.grBad a then .exc 7
    else match loadCore pc mode k (k.gr a + sext18 imm).toNat 64 64 s with
      | .wait => .wait
      | .exc c => .exc c
      | .val b bad t => .go (setV pc mode d (BitVec.ofNat 512 (leNat b)) bad t)) s)

/-- A 64-byte store (09 R275). -/
def execCarrVst (pc mode v a imm : Nat) (s : State) : Host.Outcome State Fault Refusal :=
  .next (carrIssue pc mode (fun k =>
    if k.grBad a then .exc 7
    else storeCore pc mode k (k.gr a + sext18 imm).toNat (toLE 64 (k.vr v).toNat) (k.vrBad v) s) s)

/-- VOP: AND (09 R275). -/
def execCarrVand (pc mode d a b : Nat) (s : State) : Host.Outcome State Fault Refusal :=
  .next (vop pc mode d a b (fun x y => x &&& y) s)

/-- VOP: OR (09 R275). -/
def execCarrVor (pc mode d a b : Nat) (s : State) : Host.Outcome State Fault Refusal :=
  .next (vop pc mode d a b (fun x y => x ||| y) s)

/-- VOP: XOR (09 R275). -/
def execCarrVxor (pc mode d a b : Nat) (s : State) : Host.Outcome State Fault Refusal :=
  .next (vop pc mode d a b (fun x y => x ^^^ y) s)

/-- VOP: va AND NOT vb (09 R275). -/
def execCarrVandnot (pc mode d a b : Nat) (s : State) : Host.Outcome State Fault Refusal :=
  .next (vop pc mode d a b (fun x y => x &&& ~~~y) s)

/-- d = lane (b & 15) of va (09 R275). -/
def execCarrVext (pc mode d a b : Nat) (s : State) : Host.Outcome State Fault Refusal :=
  .next (carrIssue pc mode (fun k =>
    .go (setG pc mode d (((k.vr a) >>> (32 * ((k.gr b).toNat % 16))).truncate 32) (k.vrBad a || k.grBad b) s)) s)

/-- A vector with one lane replaced. -/
def insertLane (v : W512) (i : Nat) (x : W32) : W512 :=
  (v &&& ~~~((0xFFFFFFFF : W512) <<< (32 * i))) ||| ((x.zeroExtend 512) <<< (32 * i))

/-- Lane (b & 15) of vd = a (09 R275). -/
def execCarrVins (pc mode d a b : Nat) (s : State) : Host.Outcome State Fault Refusal :=
  .next (carrIssue pc mode (fun k =>
    .go (setV pc mode d (insertLane (k.vr d) ((k.gr b).toNat % 16) (k.gr a)) (k.vrBad d || k.grBad a || k.grBad b) s)) s)

/-- Branch if a = b (09 R275, R276). -/
def execCarrBeq (pc mode a b off : Nat) (s : State) : Host.Outcome State Fault Refusal :=
  .next (branch pc mode a b off (fun x y => x == y) s)

/-- Branch if a ≠ b (09 R275, R276). -/
def execCarrBne (pc mode a b off : Nat) (s : State) : Host.Outcome State Fault Refusal :=
  .next (branch pc mode a b off (fun x y => x != y) s)

/-- Branch if a < b signed (09 R275, R276). -/
def execCarrBlt (pc mode a b off : Nat) (s : State) : Host.Outcome State Fault Refusal :=
  .next (branch pc mode a b off (fun x y => x.slt y) s)

/-- Branch if a ≥ b signed (09 R275, R276). -/
def execCarrBge (pc mode a b off : Nat) (s : State) : Host.Outcome State Fault Refusal :=
  .next (branch pc mode a b off (fun x y => !x.slt y) s)

/-- Branch if a < b unsigned (09 R275, R276). -/
def execCarrBltu (pc mode a b off : Nat) (s : State) : Host.Outcome State Fault Refusal :=
  .next (branch pc mode a b off (fun x y => x.ult y) s)

/-- Branch if a ≥ b unsigned (09 R275, R276). -/
def execCarrBgeu (pc mode a b off : Nat) (s : State) : Host.Outcome State Fault Refusal :=
  .next (branch pc mode a b off (fun x y => !x.ult y) s)

/-- d = PC + 1, jump to PC + 1 + sext(imm) (09 R275, R276). -/
def execCarrJal (pc mode d off : Nat) (s : State) : Host.Outcome State Fault Refusal :=
  .next (carrIssue pc mode (fun k =>
    .jump (BitVec.ofNat 32 (k.pc + 1) + sext18 off).toNat (setG pc mode d (BitVec.ofNat 32 (k.pc + 1)) false s)) s)

/-- d = PC + 1, jump to a + sext(imm) (09 R275, R276). -/
def execCarrJalr (pc mode d a imm : Nat) (s : State) : Host.Outcome State Fault Refusal :=
  .next (carrIssue pc mode (fun k =>
    if k.grBad a then .exc 7
    else .jump (k.gr a + sext18 imm).toNat (setG pc mode d (BitVec.ofNat 32 (k.pc + 1)) false s)) s)

/-- ADCCFG reads header bytes 0 to 15 at a (09 R271, R280). -/
def execAdccfg (pc mode a : Nat) (s : State) : Host.Outcome State Fault Refusal :=
  .next (carrIssue pc mode (fun k =>
    if k.grBad a then .exc 7
    else match loadCore pc mode k (k.gr a).toNat 16 4 s with
      | .wait => .wait
      | .exc c => .exc c
      | .val b bad t =>
        if bad then .exc 7
        else if 4 ≤ leAt b 7 1 || leAt b 6 1 != 1 then .exc 8
        else .go (modCore pc mode (fun k => { k with
          adc := some ⟨leAt b 7 1 % 2 = 1, leAt b 8 4, leAt b 12 4, leAt b 4 2⟩, skips := 0, nans := 0 }) t)) s)

/-- Queues the entry at a with allowed word b; the unit holds one row beyond the one it runs (09 R281). -/
def execCarrScan (pc mode a b : Nat) (s : State) : Host.Outcome State Fault Refusal :=
  .next (carrIssue pc mode (fun k =>
    if k.grBad a then .exc 7
    else if k.adc.isNone then .exc 8
    else if (k.gr a).toNat / 0x100000 != 0x400 then .exc 4
    else if 2 ≤ k.rows.length then .wait
    else match loadCore pc mode k (k.gr a).toNat 16 4 s with
      | .wait => .wait
      | .exc c => .exc c
      | .val _ _ t =>
        .go (modCore pc mode (fun k => { k with
          rows := k.rows ++ [⟨(k.gr a).toNat, (k.gr b).toNat, k.grBad b⟩],
          query := some (Memory.read s.mem.stage (0x100000 * pc + ((k.gr a).toNat + 12) % 0x100000)).toNat }) t)) s)

/-- The ADC unit scores the allowed codes of the first queued row (09 R281). In DRAIN core work pauses (08 R245). -/
def execAdcRow (pc mode : Nat) (s : State) : Host.Outcome State Fault Refusal :=
  match (coreAt s pc mode).rows with
  | [] => .next s
  | r :: rest =>
    if coreIssues s pc mode then .next (modCore pc mode (fun k => { k with rows := rest }) (runRow pc mode r s)) else .next s

/-- Empties the Sedge-8 list (09 R275). -/
def execSrst (pc mode : Nat) (s : State) : Host.Outcome State Fault Refusal :=
  .next (carrIssue pc mode (fun _ => .go (modCore pc mode (fun k => { k with list := [], listBad := false }) s)) s)

/-- Inserts score bits a with item b; a NaN is dropped and counted (09 R282). -/
def execSins (pc mode a b : Nat) (s : State) : Host.Outcome State Fault Refusal :=
  .next (carrIssue pc mode (fun _ =>
    .go (modCore pc mode (fun k => { sedge8 (k.gr a).toNat (k.gr b).toNat k with
      listBad := k.listBad || k.grBad a || k.grBad b }) s)) s)

/-- Reads and empties the list once the ADC unit is idle (09 R282). -/
def execSrd (pc mode d vb : Nat) (s : State) : Host.Outcome State Fault Refusal :=
  .next (carrIssue pc mode (fun k =>
    if k.adc.isNone then .exc 8
    else if !k.rows.isEmpty then .wait
    else .go (modCore pc mode (fun k => { k with list := [], listBad := false })
      (setV pc mode vb (BitVec.ofNat 512 (leNat (list8Bytes k.list))) false
        (setG pc mode d (BitVec.ofNat 32 (list8Status k)) false s)))) s)

/-- Queues a row operation AND of rows a and b into row d (09 R284). -/
def execRowopAnd (pc mode d a b : Nat) (s : State) : Host.Outcome State Fault Refusal :=
  .next (queueRow pc mode 1 d a b s)

/-- Queues a row operation OR of rows a and b into row d (09 R284). -/
def execRowopOr (pc mode d a b : Nat) (s : State) : Host.Outcome State Fault Refusal :=
  .next (queueRow pc mode 2 d a b s)

/-- Queues a row operation XOR of rows a and b into row d (09 R284). -/
def execRowopXor (pc mode d a b : Nat) (s : State) : Host.Outcome State Fault Refusal :=
  .next (queueRow pc mode 3 d a b s)

/-- Queues a row operation NOT of row a into row d (09 R284). -/
def execRowopNot (pc mode d a : Nat) (s : State) : Host.Outcome State Fault Refusal :=
  .next (queueRow pc mode 4 d a 0 s)

/-- Queues a row operation COPY of row a into row d (09 R284). -/
def execRowopCopy (pc mode d a : Nat) (s : State) : Host.Outcome State Fault Refusal :=
  .next (queueRow pc mode 5 d a 0 s)

/-- Waits until every queued row operation has ended (09 R284). -/
def execRfence (pc mode : Nat) (s : State) : Host.Outcome State Fault Refusal :=
  .next (carrIssue pc mode (fun _ => if rowsEnded s pc mode then .go s else .wait) s)

/-- Sends vector register v with header a to target b; 8 message slots (09 R285). -/
def execSend (pc mode v a b : Nat) (s : State) : Host.Outcome State Fault Refusal :=
  .next (carrIssue pc mode (fun k =>
    if k.grBad a || k.grBad b then .exc 7
    else if 8 ≤ k.sends then .wait
    else
      let m : CoreMsg := ⟨pc, (k.gr b).toNat, (k.gr a).toNat, toLE 64 (k.vr v).toNat, coreOwner s k, KMap.getD s.carr.gens pc 0⟩
      .go ((modCore pc mode (fun k => { k with sends := k.sends + 1 }) s).modCarr (fun c => { c with msgs := c.msgs ++ [m] }))) s)

/-- An acknowledgement frees a message slot of a core: the message has reached its target (09 R285). -/
def execSendAck (pc mode : Nat) (s : State) : Host.Outcome State Fault Refusal :=
  if (s.carr.msgs.filter (fun m => m.pc = pc)).length < (coreAt s pc mode).sends then
    .next (modCore pc mode (fun k => { k with sends := k.sends - 1 }) s)
  else .next s

/-- Writes a into the items field of the window's ready-flag word (09 R286). -/
def execPostItems (pc mode a : Nat) (s : State) : Host.Outcome State Fault Refusal :=
  .next (carrIssue pc mode (fun k =>
    if k.grBad a then .exc 7
    else match k.window.bind (windowAt s) with
      | none => .exc 5
      | some w => .go (modReady w.id pc (fun r => { r with items := (k.gr a).toNat % 65536 }) s)) s)

/-- POST DONE ends the program (09 R286). -/
def execPostDone (pc mode a : Nat) (s : State) : Host.Outcome State Fault Refusal :=
  .next (carrIssue pc mode (fun k =>
    if k.grBad a then .exc 7
    else if mode = 1 then .exc 5
    else postDone pc k (some (k.gr a).toNat) s) s)

/-- Adds 1 to signal cell a of the image's run (09 R287). -/
def execCarrSig (pc mode a : Nat) (s : State) : Host.Outcome State Fault Refusal :=
  .next (carrIssue pc mode (fun k =>
    if k.grBad a then .exc 7
    else match coreCell s k (k.gr a).toNat with
      | none => .exc 5
      | some n => .go (issueCell n (.signal 1) s)) s)

/-- Tries to consume one count from cell a (09 R287). -/
def execTryw (pc mode d a : Nat) (s : State) : Host.Outcome State Fault Refusal :=
  .next (carrIssue pc mode (fun k =>
    if k.grBad a then .exc 7
    else match coreCell s k (k.gr a).toNat with
      | none => .exc 5
      | some n => .go (issueCell n (.tryCore (2 * pc + mode) d) (modCore pc mode (fun k => { k with tryWait := true }) s))) s)

/-- A SYSTEM program takes the oldest inbound mailbox message (09 R288). -/
def execMrecv (pc mode d vb : Nat) (s : State) : Host.Outcome State Fault Refusal :=
  .next (carrIssue pc mode (fun _ =>
    if mode = 0 then .exc 5
    else match KMap.getD s.carr.inbox pc [] with
      | [] => .go (setG pc mode d 0 false s)
      | m :: r =>
        .go ((setV pc mode vb (BitVec.ofNat 512 (leNat m)) false (setG pc mode d 1 false s)).modCarr
          (fun c => { c with inbox := KMap.put c.inbox pc r }))) s)

/-- A SYSTEM program sends an outbound mailbox message; it waits while the mailbox is full (09 R288). -/
def execMsend (pc mode v : Nat) (s : State) : Host.Outcome State Fault Refusal :=
  .next (carrIssue pc mode (fun k =>
    if mode = 0 then .exc 5
    else if 8 ≤ (KMap.getD s.carr.outbox pc []).length then .wait
    else .go (s.modCarr (fun c => { c with outbox := KMap.upd c.outbox pc [] (fun l => l ++ [toLE 64 (k.vr v).toNat]) }))) s)

/-- HALT: in a window it acts as POST DONE with items as last posted; a SYSTEM program ends, and the core is ready for the
next one (09 R291). -/
def execCarrHalt (pc mode : Nat) (s : State) : Host.Outcome State Fault Refusal :=
  .next (carrIssue pc mode (fun k =>
    if mode = 0 then postDone pc k none s
    else .ended (modCore pc 1 (fun k => { k with pc := 0, started := s.clock.now }) s)) s)

/-- A program still running at its cut point is stopped: the ADC rows are abandoned, the list of the last SCAN's query is
sent with the cut flag, and the ready-flag state is cut (09 R290). -/
def execCutPoint (pc : Nat) (s : State) : Host.Outcome State Fault Refusal :=
  let k := coreAt s pc 0
  match k.window.bind (windowAt s) with
  | none => .next s
  | some w =>
    if k.running && w.opened + w.length ≤ s.clock.now + 1000 then
      let target := Memory.readLE s.mem.stage (0x100000 * pc + (w.work + 32) % 0x100000) 4 + pc
      let s := match k.query with
        | some q =>
          bump (0xA200 + pc / 64) 0x0C 1 (s.modCarr (fun c =>
            { c with msgs := c.msgs ++ [⟨pc, target, 2 ^ 24 * q + 2 ^ 16 + list8Status k, list8Bytes k.list, w.owner,
                KMap.getD s.carr.gens pc 0⟩] }))
        | none => s
      let s := modCore pc 0 (fun k => { k with running := false, rows := [], queue := [], list := [] }) s
      .next (modReady w.id pc (fun r => { r with state := 2 }) (modWindow w.id (fun w => { w with cutOn := w.cutOn ++ [pc] }) s))
    else .next s

end Sys2Proof.Machine
end

