-- ==== Sys2Proof/Machine/Rows.lean ====
section
/-! DEFINITION. The writes that have a row of their own: each is an object message that writes its object, with the effect of that write. -/

namespace Sys2Proof.Machine

open Sys2Proof

/-- A planned handover asked for (02 R69, R70). -/
def execHandoverAtWrite (pa : Path) (tag v : Nat) (s : State) : Host.Outcome State Fault Refusal :=
  .next (commandRow pa tag ⟨objHandoverAt, []⟩ v (requestHandover v) s)

/-- The preferred primary written (02 R67, R70). -/
def execPreferredPrimaryWrite (pa : Path) (tag v : Nat) (s : State) : Host.Outcome State Fault Refusal :=
  .next (commandRow pa tag ⟨objPreferred, []⟩ v (writePreferred pa v) s)

/-- Clear locks written (02 R60). -/
def execClearLocks (pa : Path) (tag v : Nat) (s : State) : Host.Outcome State Fault Refusal :=
  .next (commandRow pa tag ⟨objClearLocks, []⟩ v (Sys2Proof.Machine.clearLocks v) s)

/-- A driver negotiates the host ring version of its port: 0 HA, 1 HB (02 R71). -/
def execDriverRangeWrite (pa : Path) (tag port v : Nat) (s : State) : Host.Outcome State Fault Refusal :=
  if 1 < port then .next s
  else .next (commandRow pa tag ⟨if port = 0 then objHaRange else objHbRange, []⟩ v (driverRange port v) s)

/-- POWER_ON_MAIN (02 R74). -/
def execPowerOnMain (pa : Path) (tag : Nat) (s : State) : Host.Outcome State Fault Refusal :=
  .next (commandRow pa tag ⟨objDevCommand, []⟩ 1 (devCommand 1) s)

/-- START_SERVING (02 R74). -/
def execStartServing (pa : Path) (tag : Nat) (s : State) : Host.Outcome State Fault Refusal :=
  .next (commandRow pa tag ⟨objDevCommand, []⟩ 2 (devCommand 2) s)

/-- DRAIN (02 R74). -/
def execDrain (pa : Path) (tag : Nat) (s : State) : Host.Outcome State Fault Refusal :=
  .next (commandRow pa tag ⟨objDevCommand, []⟩ 3 (devCommand 3) s)

/-- ENTER_TEST (02 R74). -/
def execEnterTest (pa : Path) (tag : Nat) (s : State) : Host.Outcome State Fault Refusal :=
  .next (commandRow pa tag ⟨objDevCommand, []⟩ 4 (devCommand 4) s)

/-- EXIT_TEST (02 R74). -/
def execExitTest (pa : Path) (tag : Nat) (s : State) : Host.Outcome State Fault Refusal :=
  .next (commandRow pa tag ⟨objDevCommand, []⟩ 5 (devCommand 5) s)

/-- ENTER_RECOVERY (02 R74). -/
def execEnterRecovery (pa : Path) (tag : Nat) (s : State) : Host.Outcome State Fault Refusal :=
  .next (commandRow pa tag ⟨objDevCommand, []⟩ 6 (devCommand 6) s)

/-- EXIT_RECOVERY (02 R74). -/
def execExitRecovery (pa : Path) (tag : Nat) (s : State) : Host.Outcome State Fault Refusal :=
  .next (commandRow pa tag ⟨objDevCommand, []⟩ 7 (devCommand 7) s)

/-- RESET_MAIN (02 R74). -/
def execResetMain (pa : Path) (tag : Nat) (s : State) : Host.Outcome State Fault Refusal :=
  .next (commandRow pa tag ⟨objDevCommand, []⟩ 8 (devCommand 8) s)

/-- POWER_OFF_MAIN (02 R74). -/
def execPowerOffMain (pa : Path) (tag : Nat) (s : State) : Host.Outcome State Fault Refusal :=
  .next (commandRow pa tag ⟨objDevCommand, []⟩ 9 (devCommand 9) s)

/-- A partition enabled or disabled (03 R78). -/
def execPartitionEnableWrite (pa : Path) (tag part v : Nat) (s : State) : Host.Outcome State Fault Refusal :=
  .next (commandRow pa tag ⟨objPartEnable, [part]⟩ v (writeEnable part v) s)

/-- LOAD of a slot (03 R105). -/
def execLoad (pa : Path) (tag part slot : Nat) (s : State) : Host.Outcome State Fault Refusal :=
  .next (commandRow pa tag ⟨objSlotCommand, [part, slot]⟩ 1 (slotCommand part slot 1) s)

/-- ACTIVATE of a slot (03 R105). -/
def execActivate (pa : Path) (tag part slot : Nat) (s : State) : Host.Outcome State Fault Refusal :=
  .next (commandRow pa tag ⟨objSlotCommand, [part, slot]⟩ 2 (slotCommand part slot 2) s)

/-- RETIRE of a slot (03 R105). -/
def execRetire (pa : Path) (tag part slot : Nat) (s : State) : Host.Outcome State Fault Refusal :=
  .next (commandRow pa tag ⟨objSlotCommand, [part, slot]⟩ 3 (slotCommand part slot 3) s)

/-- SWAP of a slot (03 R105). -/
def execSwap (pa : Path) (tag part slot : Nat) (s : State) : Host.Outcome State Fault Refusal :=
  .next (commandRow pa tag ⟨objSlotCommand, [part, slot]⟩ 5 (slotCommand part slot 5) s)

/-- REVALIDATE of a slot (03 R105). -/
def execRevalidate (pa : Path) (tag part slot : Nat) (s : State) : Host.Outcome State Fault Refusal :=
  .next (commandRow pa tag ⟨objSlotCommand, [part, slot]⟩ 6 (slotCommand part slot 6) s)

/-- UNLOAD of a slot (03 R84, R105): it waits while a Carr window of the slot is open (09, Instruction memory). -/
def execUnload (pa : Path) (tag part slot : Nat) (s : State) : Host.Outcome State Fault Refusal :=
  if unloadWaits part slot s then .next s
  else .next (commandRow pa tag ⟨objSlotCommand, [part, slot]⟩ 4 (slotCommand part slot 4) s)

/-- A policer COMMIT (04 R135). -/
def execPolicerCommit (pa : Path) (tag part cls v : Nat) (s : State) : Host.Outcome State Fault Refusal :=
  .next (commandRow pa tag ⟨objPolicerCommit, [part, cls]⟩ v (onTrue v (Sys2Proof.Machine.policerCommit part cls)) s)

/-- A shaper COMMIT (04 R138). -/
def execShaperCommit (pa : Path) (tag part v : Nat) (s : State) : Host.Outcome State Fault Refusal :=
  .next (commandRow pa tag ⟨objShaperCommit, [part]⟩ v (onTrue v (Sys2Proof.Machine.shaperCommit part)) s)

/-- The peaks of a partition reset (04 R140). -/
def execResetPeaks (pa : Path) (tag part v : Nat) (s : State) : Host.Outcome State Fault Refusal :=
  .next (commandRow pa tag ⟨objResetPeaks, [part]⟩ v (onTrue v (fun s => (.ok, Sys2Proof.Machine.resetPeaks part s))) s)

/-- The size of a CXL window (05 R145). -/
def execCxlWindowSizeWrite (pa : Path) (tag port v : Nat) (s : State) : Host.Outcome State Fault Refusal :=
  .next (commandRow pa tag ⟨objCxlSize, [port]⟩ v (writeWindowSize port v) s)

/-- CREATE of an index (06 R176). -/
def execIndexCreate (pa : Path) (tag part index : Nat) (s : State) : Host.Outcome State Fault Refusal :=
  .next (commandRow pa tag ⟨objIndexCommand, [part, index]⟩ 1 (indexCommand (16 * part + index) 1) s)

/-- SEAL of an index (06 R176). -/
def execIndexSeal (pa : Path) (tag part index : Nat) (s : State) : Host.Outcome State Fault Refusal :=
  .next (commandRow pa tag ⟨objIndexCommand, [part, index]⟩ 2 (indexCommand (16 * part + index) 2) s)

/-- DESTROY of an index (06 R176). -/
def execIndexDestroy (pa : Path) (tag part index : Nat) (s : State) : Host.Outcome State Fault Refusal :=
  .next (commandRow pa tag ⟨objIndexCommand, [part, index]⟩ 3 (indexCommand (16 * part + index) 3) s)

/-- REINDEX of an index (06 R176). -/
def execReindex (pa : Path) (tag part index : Nat) (s : State) : Host.Outcome State Fault Refusal :=
  .next (commandRow pa tag ⟨objIndexCommand, [part, index]⟩ 4 (indexCommand (16 * part + index) 4) s)

/-- CREATE of a tier object (14 R387, R389). -/
def execTierCreate (pa : Path) (tag part : Nat) (s : State) : Host.Outcome State Fault Refusal :=
  .next (commandRow pa tag ⟨objTierCommand, [part]⟩ 1 (tierCommand part 1) s)

/-- DESTROY of a tier object (14 R387, R389). -/
def execTierDestroy (pa : Path) (tag part : Nat) (s : State) : Host.Outcome State Fault Refusal :=
  .next (commandRow pa tag ⟨objTierCommand, [part]⟩ 2 (tierCommand part 2) s)

/-- MOVE of a tier object (14 R387, R389). -/
def execTierMove (pa : Path) (tag part : Nat) (s : State) : Host.Outcome State Fault Refusal :=
  .next (commandRow pa tag ⟨objTierCommand, [part]⟩ 3 (tierCommand part 3) s)

/-- CREATE of an embedding table (14 R392). -/
def execTableCreate (pa : Path) (tag part table : Nat) (s : State) : Host.Outcome State Fault Refusal :=
  .next (commandRow pa tag ⟨objTableCommand, [part, table]⟩ 1 (tableCommand (64 * part + table) 1) s)

/-- SEAL of an embedding table (14 R392). -/
def execTableSeal (pa : Path) (tag part table : Nat) (s : State) : Host.Outcome State Fault Refusal :=
  .next (commandRow pa tag ⟨objTableCommand, [part, table]⟩ 2 (tableCommand (64 * part + table) 2) s)

/-- DESTROY of an embedding table (14 R392). -/
def execTableDestroy (pa : Path) (tag part table : Nat) (s : State) : Host.Outcome State Fault Refusal :=
  .next (commandRow pa tag ⟨objTableCommand, [part, table]⟩ 3 (tableCommand (64 * part + table) 3) s)

/-- The hot set of a table (14 R403). -/
def execHotSetWrite (pa : Path) (tag part table : Nat) (data : Bytes) (s : State) : Host.Outcome State Fault Refusal :=
  .next (domainRow pa tag ⟨objHotSet, [part, table]⟩ data (writeHotSet (64 * part + table) data) s)

/-- Overflow flags cleared (15 R414). -/
def execClearOverflows (pa : Path) (tag part : Nat) (data : Bytes) (s : State) : Host.Outcome State Fault Refusal :=
  .next (domainRow pa tag ⟨objClearOverflows, [part]⟩ data (fun s => (.ok, Sys2Proof.Machine.clearOverflows part data s)) s)

/-- The cut-reset mask of a slot (15 R424). -/
def execCutResetMaskWrite (pa : Path) (tag part slot : Nat) (data : Bytes) (s : State) : Host.Outcome State Fault Refusal :=
  .next (domainRow pa tag ⟨objCutMask, [part, slot]⟩ data (inStaged part slot (setDom (slotObj part slot) 0x22 data)) s)

/-- An FM frame sent by the host (16 R459). -/
def execFmFrameOut (pa : Path) (tag : Nat) (data : Bytes) (s : State) : Host.Outcome State Fault Refusal :=
  .next (domainRow pa tag ⟨objFmOut, []⟩ data (Sys2Proof.Machine.fmFrameOut data) s)

/-- A Causeway port enabled or disabled (16 R451). -/
def execPortEnableWrite (pa : Path) (tag port v : Nat) (s : State) : Host.Outcome State Fault Refusal :=
  .next (commandRow pa tag ⟨objPortEnable, [port]⟩ v (fun s => (.ok, writePortEnable port v s)) s)

/-- The staged routing tables committed (16 R458). -/
def execTableCommit (pa : Path) (tag v : Nat) (s : State) : Host.Outcome State Fault Refusal :=
  .next (commandRow pa tag ⟨objTableCommit, []⟩ v (onTrue v (fun s => (.ok, commitTables s))) s)

/-- FT set (17 R473). -/
def execSetFt (pa : Path) (tag v : Nat) (s : State) : Host.Outcome State Fault Refusal :=
  .next (commandRow pa tag ⟨objSetFt, []⟩ v (Sys2Proof.Machine.setFt v) s)

/-- FT relocked (17 R478). -/
def execRelock (pa : Path) (tag v : Nat) (s : State) : Host.Outcome State Fault Refusal :=
  .next (commandRow pa tag ⟨objRelock, []⟩ v (Sys2Proof.Machine.relock v) s)

/-- PLACE of an Almanac entry (17 R495). -/
def execEntryPlace (pa : Path) (tag : Nat) (s : State) : Host.Outcome State Fault Refusal :=
  .next (commandRow pa tag ⟨objEntryCommand, []⟩ 1 (entryCommand 1) s)

/-- REDIRECT of an Almanac entry (17 R495). -/
def execEntryRedirect (pa : Path) (tag : Nat) (s : State) : Host.Outcome State Fault Refusal :=
  .next (commandRow pa tag ⟨objEntryCommand, []⟩ 2 (entryCommand 2) s)

/-- CANCEL of an Almanac entry (17 R495). -/
def execEntryCancel (pa : Path) (tag : Nat) (s : State) : Host.Outcome State Fault Refusal :=
  .next (commandRow pa tag ⟨objEntryCommand, []⟩ 3 (entryCommand 3) s)

/-- SETPOLICY of an Almanac entry (17 R495). -/
def execSetpolicy (pa : Path) (tag : Nat) (s : State) : Host.Outcome State Fault Refusal :=
  .next (commandRow pa tag ⟨objEntryCommand, []⟩ 4 (entryCommand 4) s)

/-- FORMAT with what the survey of the flash finds (18 R503). -/
def execFormat (pa : Path) (tag : Nat) (good : List (Nat × Nat × Nat)) (aside : Nat) (s : State) : Host.Outcome State Fault Refusal :=
  .next (commandRow pa tag ⟨objMireCommand, []⟩ 1 (mireCommand 1 good aside) s)

/-- CREATE of a namespace (18 R506). -/
def execNamespaceCreate (pa : Path) (tag ns : Nat) (s : State) : Host.Outcome State Fault Refusal :=
  .next (commandRow pa tag ⟨objSpaceCommand, [ns]⟩ 1 (spaceCommand ns 1) s)

/-- DESTROY of a namespace (18 R506). -/
def execNamespaceDestroy (pa : Path) (tag ns : Nat) (s : State) : Host.Outcome State Fault Refusal :=
  .next (commandRow pa tag ⟨objSpaceCommand, [ns]⟩ 2 (spaceCommand ns 2) s)

/-- DISCARD of a namespace (18 R506). -/
def execDiscard (pa : Path) (tag ns : Nat) (s : State) : Host.Outcome State Fault Refusal :=
  .next (commandRow pa tag ⟨objSpaceCommand, [ns]⟩ 3 (spaceCommand ns 3) s)

/-- A flash key (18 R508). -/
def execFlashKeyWrite (pa : Path) (tag part : Nat) (data : Bytes) (s : State) : Host.Outcome State Fault Refusal :=
  .next (domainRow pa tag ⟨objFlashKey, [part]⟩ data (writeKeyOfFlash part data) s)

/-- A key object written whole, of any index and subindex (20 R573): it takes effect after the key store is written. -/
def execKeyWrite (pa : Path) (tag idx sub : Nat) (data : Bytes) (s : State) : Host.Outcome State Fault Refusal :=
  messageRow pa ⟨4, { tag := tag, idx := idx, sub := sub, ty := 10, last := true, data := data }⟩ s

/-- An admission scheduled (19 R554). -/
def execServeAtWrite (pa : Path) (tag v : Nat) (s : State) : Host.Outcome State Fault Refusal :=
  .next (commandRow pa tag ⟨objServeAt, []⟩ v (writeServeAt v) s)

/-- UPDATE_HUBS (19 R555, R556). -/
def execUpdateHubs (pa : Path) (tag : Nat) (s : State) : Host.Outcome State Fault Refusal :=
  .next (commandRow pa tag ⟨objFwCommand, []⟩ 1 (firmwareCommand 1) s)

/-- UPDATE_TILES (19 R555, R557). -/
def execUpdateTiles (pa : Path) (tag : Nat) (s : State) : Host.Outcome State Fault Refusal :=
  .next (commandRow pa tag ⟨objFwCommand, []⟩ 2 (firmwareCommand 2) s)

/-- The life-cycle command to MANUF, with the verdict on the token and the steps of a clear that are done (20 R577 to R579). -/
def execLcToManuf (pa : Path) (tag : Nat) (tokenOk : Bool) (steps : Nat) (s : State) : Host.Outcome State Fault Refusal :=
  .next (commandRow pa tag ⟨objLifeCommand, []⟩ 1 (lifeCommand pa 1 tokenOk steps) s)

/-- The life-cycle command to RETURN, with the verdict on the token and the steps of a clear that are done (20 R577 to R579). -/
def execLcToReturn (pa : Path) (tag : Nat) (tokenOk : Bool) (steps : Nat) (s : State) : Host.Outcome State Fault Refusal :=
  .next (commandRow pa tag ⟨objLifeCommand, []⟩ 4 (lifeCommand pa 4 tokenOk steps) s)

/-- The life-cycle command to SCRAPPED, with the verdict on the token and the steps of a clear that are done (20 R577 to R579). -/
def execLcToScrapped (pa : Path) (tag : Nat) (tokenOk : Bool) (steps : Nat) (s : State) : Host.Outcome State Fault Refusal :=
  .next (commandRow pa tag ⟨objLifeCommand, []⟩ 5 (lifeCommand pa 5 tokenOk steps) s)

/-- The life-cycle command to SECURED (20 R577). -/
def execLcToSecured (pa : Path) (tag : Nat) (s : State) : Host.Outcome State Fault Refusal :=
  .next (commandRow pa tag ⟨objLifeCommand, []⟩ 2 (lifeCommand pa 2 false 5) s)

/-- The life-cycle command to DEPLOYED (20 R577). -/
def execLcToDeployed (pa : Path) (tag : Nat) (s : State) : Host.Outcome State Fault Refusal :=
  .next (commandRow pa tag ⟨objLifeCommand, []⟩ 3 (lifeCommand pa 3 false 5) s)

/-- An unlock token staged (20 R577). -/
def execUnlockTokenWrite (pa : Path) (tag : Nat) (data : Bytes) (s : State) : Host.Outcome State Fault Refusal :=
  .next (domainRow pa tag ⟨objToken, []⟩ data (fun s => (.ok, s.modIsland (fun i => { i with token := some data }))) s)

/-- The scrap arm (20 R577). -/
def execScrapArm (pa : Path) (tag v : Nat) (s : State) : Host.Outcome State Fault Refusal :=
  .next (commandRow pa tag ⟨objScrapArm, []⟩ v (Sys2Proof.Machine.scrapArm v) s)

/-- The nonce of a quote (20 R571). -/
def execQuoteNonceWrite (pa : Path) (tag : Nat) (data : Bytes) (s : State) : Host.Outcome State Fault Refusal :=
  .next (domainRow pa tag ⟨objNonce, []⟩ data (fun s => (.ok, writeNonce data s)) s)

/-- The minimum SVN (20 R563). -/
def execMinSvnWrite (pa : Path) (tag v : Nat) (s : State) : Host.Outcome State Fault Refusal :=
  .next (commandRow pa tag ⟨objMinSvn, []⟩ v (writeMinSvn v) s)

/-- Firmware keys revoked (20 R563). -/
def execKeyRevocationWrite (pa : Path) (tag v : Nat) (s : State) : Host.Outcome State Fault Refusal :=
  .next (commandRow pa tag ⟨objRevocations, []⟩ v (revokeKeys v) s)

/-- The side-band key (20 R575). -/
def execSidebandKeyWrite (pa : Path) (tag : Nat) (data : Bytes) (s : State) : Host.Outcome State Fault Refusal :=
  .next (domainRow pa tag ⟨objSideKey, []⟩ data (writeSideKey data) s)

/-- Test LOGIC started (20 R580). -/
def execTestLogic (pa : Path) (tag : Nat) (s : State) : Host.Outcome State Fault Refusal :=
  .next (commandRow pa tag ⟨objTestStart, []⟩ 1 (testStart 1) s)

/-- Test MEMORY started (20 R580). -/
def execTestMemory (pa : Path) (tag : Nat) (s : State) : Host.Outcome State Fault Refusal :=
  .next (commandRow pa tag ⟨objTestStart, []⟩ 2 (testStart 2) s)

/-- Test CARR started (20 R580). -/
def execTestCarr (pa : Path) (tag : Nat) (s : State) : Host.Outcome State Fault Refusal :=
  .next (commandRow pa tag ⟨objTestStart, []⟩ 3 (testStart 3) s)

/-- Test CAUSEWAY started (20 R580). -/
def execTestCauseway (pa : Path) (tag : Nat) (s : State) : Host.Outcome State Fault Refusal :=
  .next (commandRow pa tag ⟨objTestStart, []⟩ 4 (testStart 4) s)

/-- Test ALL started (20 R580). -/
def execTestAll (pa : Path) (tag : Nat) (s : State) : Host.Outcome State Fault Refusal :=
  .next (commandRow pa tag ⟨objTestStart, []⟩ 5 (testStart 5) s)

/-- The power cap (21 R590). -/
def execPowerCapWrite (pa : Path) (tag v : Nat) (s : State) : Host.Outcome State Fault Refusal :=
  .next (commandRow pa tag ⟨objPowerCap, []⟩ v (writeCap (capClass pa) v) s)

/-- The planned cap (21 R589). -/
def execPlannedCapWrite (pa : Path) (tag v : Nat) (s : State) : Host.Outcome State Fault Refusal :=
  .next (commandRow pa tag ⟨objPlannedCap, []⟩ v (writeKept ⟨objPlannedCap, []⟩ v) s)

/-- ARM of a Lantern (22 R608). -/
def execLanternArm (pa : Path) (tag hub : Nat) (s : State) : Host.Outcome State Fault Refusal :=
  .next (commandRow pa tag ⟨objLanternCommand, [hub]⟩ 1 (lanternCommand hub 1) s)

/-- DISARM of a Lantern (22 R608). -/
def execLanternDisarm (pa : Path) (tag hub : Nat) (s : State) : Host.Outcome State Fault Refusal :=
  .next (commandRow pa tag ⟨objLanternCommand, [hub]⟩ 2 (lanternCommand hub 2) s)

/-- REARM of a Lantern (22 R608). -/
def execLanternRearm (pa : Path) (tag hub : Nat) (s : State) : Host.Outcome State Fault Refusal :=
  .next (commandRow pa tag ⟨objLanternCommand, [hub]⟩ 3 (lanternCommand hub 3) s)

/-- TRIGGER of a Lantern (22 R608). -/
def execLanternTrigger (pa : Path) (tag hub : Nat) (s : State) : Host.Outcome State Fault Refusal :=
  .next (commandRow pa tag ⟨objLanternCommand, [hub]⟩ 4 (lanternCommand hub 4) s)

/-- A marker written to a Lantern (22 R604). -/
def execLanternMarker (pa : Path) (tag hub v : Nat) (s : State) : Host.Outcome State Fault Refusal :=
  .next (commandRow pa tag ⟨objLanternMarker, [hub]⟩ v (fun s => (.ok, Sys2Proof.Machine.lanternMarker hub v s)) s)

/-- Latched alarms cleared (22 R618). -/
def execAlarmClear (pa : Path) (tag v : Nat) (s : State) : Host.Outcome State Fault Refusal :=
  .next (commandRow pa tag ⟨objLatchedAlarms, []⟩ v (fun s => (.ok, clearAlarms v s)) s)

end Sys2Proof.Machine
end

