-- ==== Sys2Proof/Machine/Dispatch.lean ====
section
/-! DEFINITION. One arm for each command, each a direct call of its meaning. -/

namespace Sys2Proof.Machine

open Sys2Proof

def exec (i : Instr) (s : State) : Host.Outcome State Fault Refusal :=
  match i with
  | .read pa rq => Sys2Proof.Machine.execRead pa rq s
  | .write pa rq => Sys2Proof.Machine.execWrite pa rq s
  | .readSeg pa rq => Sys2Proof.Machine.execReadSeg pa rq s
  | .writeSeg pa rq => Sys2Proof.Machine.execWriteSeg pa rq s
  | .lock pa rq => Sys2Proof.Machine.execLock pa rq s
  | .unlock pa rq => Sys2Proof.Machine.execUnlock pa rq s
  | .store pa tag norOk => Sys2Proof.Machine.execStore pa tag norOk s
  | .restoreDefaults pa tag norOk => Sys2Proof.Machine.execRestoreDefaults pa tag norOk s
  | .hello port fr => Sys2Proof.Machine.execHello port fr s
  | .mailboxGo port m ctrl buf => Sys2Proof.Machine.execMailboxGo port m ctrl buf s
  | .afwellFrame port fr => Sys2Proof.Machine.execAfwellFrame port fr s
  | .sessionTimeout port session => Sys2Proof.Machine.execSessionTimeout port session s
  | .heartbeatSend hub => Sys2Proof.Machine.execHeartbeatSend hub s
  | .heartbeatReceive hub path epoch primary deciding mirror => Sys2Proof.Machine.execHeartbeatReceive hub path epoch primary deciding mirror s
  | .heartbeatPathTimeout hub path => Sys2Proof.Machine.execHeartbeatPathTimeout hub path s
  | .passiveDeadline hub => Sys2Proof.Machine.execPassiveDeadline hub s
  | .soloDeadline hub => Sys2Proof.Machine.execSoloDeadline hub s
  | .mirrorAck sq => Sys2Proof.Machine.execMirrorAck sq s
  | .mirrorWriteTimeout part => Sys2Proof.Machine.execMirrorWriteTimeout part s
  | .mirrorResyncDone => Sys2Proof.Machine.execMirrorResyncDone s
  | .handoverAtWrite pa tag v => Sys2Proof.Machine.execHandoverAtWrite pa tag v s
  | .preferredPrimaryWrite pa tag v => Sys2Proof.Machine.execPreferredPrimaryWrite pa tag v s
  | .handoverFiring => Sys2Proof.Machine.execHandoverFiring s
  | .grantReceive hub path => Sys2Proof.Machine.execGrantReceive hub path s
  | .clearLocks pa tag v => Sys2Proof.Machine.execClearLocks pa tag v s
  | .driverRangeWrite pa tag port v => Sys2Proof.Machine.execDriverRangeWrite pa tag port v s
  | .powerOnMain pa tag => Sys2Proof.Machine.execPowerOnMain pa tag s
  | .startServing pa tag => Sys2Proof.Machine.execStartServing pa tag s
  | .drain pa tag => Sys2Proof.Machine.execDrain pa tag s
  | .enterTest pa tag => Sys2Proof.Machine.execEnterTest pa tag s
  | .exitTest pa tag => Sys2Proof.Machine.execExitTest pa tag s
  | .enterRecovery pa tag => Sys2Proof.Machine.execEnterRecovery pa tag s
  | .exitRecovery pa tag => Sys2Proof.Machine.execExitRecovery pa tag s
  | .resetMain pa tag => Sys2Proof.Machine.execResetMain pa tag s
  | .powerOffMain pa tag => Sys2Proof.Machine.execPowerOffMain pa tag s
  | .partitionEnableWrite pa tag part v => Sys2Proof.Machine.execPartitionEnableWrite pa tag part v s
  | .load pa tag part slot => Sys2Proof.Machine.execLoad pa tag part slot s
  | .activate pa tag part slot => Sys2Proof.Machine.execActivate pa tag part slot s
  | .retire pa tag part slot => Sys2Proof.Machine.execRetire pa tag part slot s
  | .unload pa tag part slot => Sys2Proof.Machine.execUnload pa tag part slot s
  | .swap pa tag part slot => Sys2Proof.Machine.execSwap pa tag part slot s
  | .revalidate pa tag part slot => Sys2Proof.Machine.execRevalidate pa tag part slot s
  | .activateFiring part slot => Sys2Proof.Machine.execActivateFiring part slot s
  | .swapFiring part slot => Sys2Proof.Machine.execSwapFiring part slot s
  | .slotBoundary part slot unfinished => Sys2Proof.Machine.execSlotBoundary part slot unfinished s
  | .descriptorFetch port part sq desc payload => Sys2Proof.Machine.execDescriptorFetch port part sq desc payload s
  | .leveeDecision part => Sys2Proof.Machine.execLeveeDecision part s
  | .backstopExpiry query => Sys2Proof.Machine.execBackstopExpiry query s
  | .updateStateChange part => Sys2Proof.Machine.execUpdateStateChange part s
  | .policerCommit pa tag part cls v => Sys2Proof.Machine.execPolicerCommit pa tag part cls v s
  | .shaperCommit pa tag part v => Sys2Proof.Machine.execShaperCommit pa tag part v s
  | .egressUnitSend part port kind => Sys2Proof.Machine.execEgressUnitSend part port kind s
  | .egressOverdraw part port kind => Sys2Proof.Machine.execEgressOverdraw part port kind s
  | .queueSample => Sys2Proof.Machine.execQueueSample s
  | .resetPeaks pa tag part v => Sys2Proof.Machine.execResetPeaks pa tag part v s
  | .sqTailDoorbell port part ring v => Sys2Proof.Machine.execSqTailDoorbell port part ring v s
  | .cqHeadDoorbell port part ring v => Sys2Proof.Machine.execCqHeadDoorbell port part ring v s
  | .sqCtrlWrite port part ring v => Sys2Proof.Machine.execSqCtrlWrite port part ring v s
  | .cqCtrlWrite port part ring v => Sys2Proof.Machine.execCqCtrlWrite port part ring v s
  | .cqBaseWrite port part ring v => Sys2Proof.Machine.execCqBaseWrite port part ring v s
  | .cqRsvWrite port part ring v => Sys2Proof.Machine.execCqRsvWrite port part ring v s
  | .linkDown port => Sys2Proof.Machine.execLinkDown port s
  | .d3hotEntry port => Sys2Proof.Machine.execD3hotEntry port s
  | .retrainEnd port state width rate => Sys2Proof.Machine.execRetrainEnd port state width rate s
  | .completionRecordWrite query status degraded result => Sys2Proof.Machine.execCompletionRecordWrite query status degraded result s
  | .coalesceTimeout port part cq => Sys2Proof.Machine.execCoalesceTimeout port part cq s
  | .cxlMemRead port addr len bad => Sys2Proof.Machine.execCxlMemRead port addr len bad s
  | .cxlMemWrite port addr data poison => Sys2Proof.Machine.execCxlMemWrite port addr data poison s
  | .cxlWindowSizeWrite pa tag port v => Sys2Proof.Machine.execCxlWindowSizeWrite pa tag port v s
  | .hostReadCompletion port tag ok data => Sys2Proof.Machine.execHostReadCompletion port tag ok data s
  | .completionTimeout port tag => Sys2Proof.Machine.execCompletionTimeout port tag s
  | .indexCreate pa tag part index => Sys2Proof.Machine.execIndexCreate pa tag part index s
  | .indexSeal pa tag part index => Sys2Proof.Machine.execIndexSeal pa tag part index s
  | .indexDestroy pa tag part index => Sys2Proof.Machine.execIndexDestroy pa tag part index s
  | .reindex pa tag part index => Sys2Proof.Machine.execReindex pa tag part index s
  | .upsertApply part => Sys2Proof.Machine.execUpsertApply part s
  | .deleteApply part => Sys2Proof.Machine.execDeleteApply part s
  | .logRingWaitEnd part => Sys2Proof.Machine.execLogRingWaitEnd part s
  | .harvestStep part index => Sys2Proof.Machine.execHarvestStep part index s
  | .passEnqueue tile array data => Sys2Proof.Machine.execPassEnqueue tile array data s
  | .arrayPass tile array errs off => Sys2Proof.Machine.execArrayPass tile array errs off s
  | .shadowAdvance tile array => Sys2Proof.Machine.execShadowAdvance tile array s
  | .windowOpen part slot stage id prog signal workList => Sys2Proof.Machine.execWindowOpen part slot stage id prog signal workList s
  | .windowTimeout id => Sys2Proof.Machine.execWindowTimeout id s
  | .drainEnd pc => Sys2Proof.Machine.execDrainEnd pc s
  | .normalRequest id owner write addr len data poison ecc => Sys2Proof.Machine.execNormalRequest id owner write addr len data poison ecc s
  | .scrubRow pc ecc => Sys2Proof.Machine.execScrubRow pc ecc s
  | .stackFailure stack => Sys2Proof.Machine.execStackFailure stack s
  | .coreMapChange pc => Sys2Proof.Machine.execCoreMapChange pc s
  | .probeListWrite part slot stage batch header probes => Sys2Proof.Machine.execProbeListWrite part slot stage batch header probes s
  | .carrAdd pc mode d a b => Sys2Proof.Machine.execCarrAdd pc mode d a b s
  | .carrSub pc mode d a b => Sys2Proof.Machine.execCarrSub pc mode d a b s
  | .carrAnd pc mode d a b => Sys2Proof.Machine.execCarrAnd pc mode d a b s
  | .carrOr pc mode d a b => Sys2Proof.Machine.execCarrOr pc mode d a b s
  | .carrXor pc mode d a b => Sys2Proof.Machine.execCarrXor pc mode d a b s
  | .carrShl pc mode d a b => Sys2Proof.Machine.execCarrShl pc mode d a b s
  | .carrShr pc mode d a b => Sys2Proof.Machine.execCarrShr pc mode d a b s
  | .carrSra pc mode d a b => Sys2Proof.Machine.execCarrSra pc mode d a b s
  | .carrMul pc mode d a b => Sys2Proof.Machine.execCarrMul pc mode d a b s
  | .carrSlt pc mode d a b => Sys2Proof.Machine.execCarrSlt pc mode d a b s
  | .carrSltu pc mode d a b => Sys2Proof.Machine.execCarrSltu pc mode d a b s
  | .carrAddi pc mode d a imm => Sys2Proof.Machine.execCarrAddi pc mode d a imm s
  | .carrAndi pc mode d a imm => Sys2Proof.Machine.execCarrAndi pc mode d a imm s
  | .carrOri pc mode d a imm => Sys2Proof.Machine.execCarrOri pc mode d a imm s
  | .carrXori pc mode d a imm => Sys2Proof.Machine.execCarrXori pc mode d a imm s
  | .carrShli pc mode d a imm => Sys2Proof.Machine.execCarrShli pc mode d a imm s
  | .carrShri pc mode d a imm => Sys2Proof.Machine.execCarrShri pc mode d a imm s
  | .carrSrai pc mode d a imm => Sys2Proof.Machine.execCarrSrai pc mode d a imm s
  | .carrLui pc mode d imm => Sys2Proof.Machine.execCarrLui pc mode d imm s
  | .gets pc mode d sel => Sys2Proof.Machine.execGets pc mode d sel s
  | .popc pc mode d a => Sys2Proof.Machine.execPopc pc mode d a s
  | .vpopc pc mode d a => Sys2Proof.Machine.execVpopc pc mode d a s
  | .carrLw pc mode d a imm => Sys2Proof.Machine.execCarrLw pc mode d a imm s
  | .carrLhu pc mode d a imm => Sys2Proof.Machine.execCarrLhu pc mode d a imm s
  | .carrLbu pc mode d a imm => Sys2Proof.Machine.execCarrLbu pc mode d a imm s
  | .carrSw pc mode v a imm => Sys2Proof.Machine.execCarrSw pc mode v a imm s
  | .carrSh pc mode v a imm => Sys2Proof.Machine.execCarrSh pc mode v a imm s
  | .carrSb pc mode v a imm => Sys2Proof.Machine.execCarrSb pc mode v a imm s
  | .carrVld pc mode d a imm => Sys2Proof.Machine.execCarrVld pc mode d a imm s
  | .carrVst pc mode v a imm => Sys2Proof.Machine.execCarrVst pc mode v a imm s
  | .carrVand pc mode d a b => Sys2Proof.Machine.execCarrVand pc mode d a b s
  | .carrVor pc mode d a b => Sys2Proof.Machine.execCarrVor pc mode d a b s
  | .carrVxor pc mode d a b => Sys2Proof.Machine.execCarrVxor pc mode d a b s
  | .carrVandnot pc mode d a b => Sys2Proof.Machine.execCarrVandnot pc mode d a b s
  | .carrVext pc mode d a b => Sys2Proof.Machine.execCarrVext pc mode d a b s
  | .carrVins pc mode d a b => Sys2Proof.Machine.execCarrVins pc mode d a b s
  | .carrBeq pc mode a b off => Sys2Proof.Machine.execCarrBeq pc mode a b off s
  | .carrBne pc mode a b off => Sys2Proof.Machine.execCarrBne pc mode a b off s
  | .carrBlt pc mode a b off => Sys2Proof.Machine.execCarrBlt pc mode a b off s
  | .carrBge pc mode a b off => Sys2Proof.Machine.execCarrBge pc mode a b off s
  | .carrBltu pc mode a b off => Sys2Proof.Machine.execCarrBltu pc mode a b off s
  | .carrBgeu pc mode a b off => Sys2Proof.Machine.execCarrBgeu pc mode a b off s
  | .carrJal pc mode d off => Sys2Proof.Machine.execCarrJal pc mode d off s
  | .carrJalr pc mode d a imm => Sys2Proof.Machine.execCarrJalr pc mode d a imm s
  | .adccfg pc mode a => Sys2Proof.Machine.execAdccfg pc mode a s
  | .carrScan pc mode a b => Sys2Proof.Machine.execCarrScan pc mode a b s
  | .adcRow pc mode => Sys2Proof.Machine.execAdcRow pc mode s
  | .srst pc mode => Sys2Proof.Machine.execSrst pc mode s
  | .sins pc mode a b => Sys2Proof.Machine.execSins pc mode a b s
  | .srd pc mode d vb => Sys2Proof.Machine.execSrd pc mode d vb s
  | .rowopAnd pc mode d a b => Sys2Proof.Machine.execRowopAnd pc mode d a b s
  | .rowopOr pc mode d a b => Sys2Proof.Machine.execRowopOr pc mode d a b s
  | .rowopXor pc mode d a b => Sys2Proof.Machine.execRowopXor pc mode d a b s
  | .rowopNot pc mode d a => Sys2Proof.Machine.execRowopNot pc mode d a s
  | .rowopCopy pc mode d a => Sys2Proof.Machine.execRowopCopy pc mode d a s
  | .rowOperation pc mode => Sys2Proof.Machine.execRowOperation pc mode s
  | .rfence pc mode => Sys2Proof.Machine.execRfence pc mode s
  | .send pc mode v a b => Sys2Proof.Machine.execSend pc mode v a b s
  | .sendAck pc mode => Sys2Proof.Machine.execSendAck pc mode s
  | .postItems pc mode a => Sys2Proof.Machine.execPostItems pc mode a s
  | .postDone pc mode a => Sys2Proof.Machine.execPostDone pc mode a s
  | .carrSig pc mode a => Sys2Proof.Machine.execCarrSig pc mode a s
  | .tryw pc mode d a => Sys2Proof.Machine.execTryw pc mode d a s
  | .mrecv pc mode d vb => Sys2Proof.Machine.execMrecv pc mode d vb s
  | .msend pc mode v => Sys2Proof.Machine.execMsend pc mode v s
  | .carrHalt pc mode => Sys2Proof.Machine.execCarrHalt pc mode s
  | .cutPoint pc => Sys2Proof.Machine.execCutPoint pc s
  | .sedgeEnqueue tile unit data => Sys2Proof.Machine.execSedgeEnqueue tile unit data s
  | .sedgeOpen tile unit => Sys2Proof.Machine.execSedgeOpen tile unit s
  | .finish tile unit => Sys2Proof.Machine.execFinish tile unit s
  | .arrayPortVector tile unit => Sys2Proof.Machine.execArrayPortVector tile unit s
  | .collectorMessage tile unit src slot header data parity => Sys2Proof.Machine.execCollectorMessage tile unit src slot header data parity s
  | .keyCutoff tile unit => Sys2Proof.Machine.execKeyCutoff tile unit s
  | .mereJobEnqueue tile engine data => Sys2Proof.Machine.execMereJobEnqueue tile engine data s
  | .sidescan tile engine => Sys2Proof.Machine.execSidescan tile engine s
  | .refine tile engine => Sys2Proof.Machine.execRefine tile engine s
  | .dist tile engine => Sys2Proof.Machine.execDist tile engine s
  | .gather tile engine => Sys2Proof.Machine.execGather tile engine s
  | .contextDataReturn tile engine ctx n errs => Sys2Proof.Machine.execContextDataReturn tile engine ctx n errs s
  | .jobCutoff tile engine => Sys2Proof.Machine.execJobCutoff tile engine s
  | .sluiceMove block chan n => Sys2Proof.Machine.execSluiceMove block chan n s
  | .sluiceMovex block chan n => Sys2Proof.Machine.execSluiceMovex block chan n s
  | .sluiceLoop block chan => Sys2Proof.Machine.execSluiceLoop block chan s
  | .sluiceEndl block chan => Sys2Proof.Machine.execSluiceEndl block chan s
  | .sluiceWait block chan => Sys2Proof.Machine.execSluiceWait block chan s
  | .sluiceSignal block chan => Sys2Proof.Machine.execSluiceSignal block chan s
  | .sluiceJump block chan => Sys2Proof.Machine.execSluiceJump block chan s
  | .sluiceNop block chan => Sys2Proof.Machine.execSluiceNop block chan s
  | .sluiceHalt block chan => Sys2Proof.Machine.execSluiceHalt block chan s
  | .unitReadReturn block chan unit err => Sys2Proof.Machine.execUnitReadReturn block chan unit err s
  | .unitWriteAck block chan unit err => Sys2Proof.Machine.execUnitWriteAck block chan unit err s
  | .waitTimeout block chan => Sys2Proof.Machine.execWaitTimeout block chan s
  | .parkGrant block chan => Sys2Proof.Machine.execParkGrant block chan s
  | .redirect block chan w => Sys2Proof.Machine.execRedirect block chan w s
  | .channelDisable block chan => Sys2Proof.Machine.execChannelDisable block chan s
  | .channelEnable block chan => Sys2Proof.Machine.execChannelEnable block chan s
  | .atUseReplay block chan ok => Sys2Proof.Machine.execAtUseReplay block chan ok s
  | .segmentReplay block chan => Sys2Proof.Machine.execSegmentReplay block chan s
  | .tierCreate pa tag part => Sys2Proof.Machine.execTierCreate pa tag part s
  | .tierDestroy pa tag part => Sys2Proof.Machine.execTierDestroy pa tag part s
  | .tierMove pa tag part => Sys2Proof.Machine.execTierMove pa tag part s
  | .moveComplete part landed data => Sys2Proof.Machine.execMoveComplete part landed data s
  | .tableCreate pa tag part table => Sys2Proof.Machine.execTableCreate pa tag part table s
  | .tableSeal pa tag part table => Sys2Proof.Machine.execTableSeal pa tag part table s
  | .tableDestroy pa tag part table => Sys2Proof.Machine.execTableDestroy pa tag part table s
  | .hotSetWrite pa tag part table data => Sys2Proof.Machine.execHotSetWrite pa tag part table data s
  | .refreshStep part table => Sys2Proof.Machine.execRefreshStep part table s
  | .hotCopyExpiry part table area key => Sys2Proof.Machine.execHotCopyExpiry part table area key s
  | .embedUpdateApply part => Sys2Proof.Machine.execEmbedUpdateApply part s
  | .forward => Sys2Proof.Machine.execForward s
  | .resyncRecord key => Sys2Proof.Machine.execResyncRecord key s
  | .watermarkSend part table => Sys2Proof.Machine.execWatermarkSend part table s
  | .watermarkReceive part table src mark => Sys2Proof.Machine.execWatermarkReceive part table src mark s
  | .replicaStale part table src => Sys2Proof.Machine.execReplicaStale part table src s
  | .lookupReq => Sys2Proof.Machine.execLookupReq s
  | .lookupRsp => Sys2Proof.Machine.execLookupRsp s
  | .cellSignal owner cell n => Sys2Proof.Machine.execCellSignal owner cell n s
  | .cellTry owner cell => Sys2Proof.Machine.execCellTry owner cell s
  | .cellWait owner cell chan => Sys2Proof.Machine.execCellWait owner cell chan s
  | .cellCancel cell chan => Sys2Proof.Machine.execCellCancel cell chan s
  | .sigRaise port part v => Sys2Proof.Machine.execSigRaise port part v s
  | .sigSelect port part v => Sys2Proof.Machine.execSigSelect port part v s
  | .sigTry port part => Sys2Proof.Machine.execSigTry port part s
  | .sigArm port part v => Sys2Proof.Machine.execSigArm port part v s
  | .sigClear port part v => Sys2Proof.Machine.execSigClear port part v s
  | .clearOverflows pa tag part data => Sys2Proof.Machine.execClearOverflows pa tag part data s
  | .cutResetMaskWrite pa tag part slot data => Sys2Proof.Machine.execCutResetMaskWrite pa tag part slot data s
  | .remoteSignal => Sys2Proof.Machine.execRemoteSignal s
  | .tileWake tile => Sys2Proof.Machine.execTileWake tile s
  | .tileClockStop tile => Sys2Proof.Machine.execTileClockStop tile s
  | .frameReceive port skewOk syncs errs blocks rx => Sys2Proof.Machine.execFrameReceive port skewOk syncs errs blocks rx s
  | .ctlReceive port ctl good tagOk => Sys2Proof.Machine.execCtlReceive port ctl good tagOk s
  | .replayTimeout port => Sys2Proof.Machine.execReplayTimeout port s
  | .nakHoldoffTimeout port => Sys2Proof.Machine.execNakHoldoffTimeout port s
  | .ctlSend port => Sys2Proof.Machine.execCtlSend port s
  | .exchangeWrite => Sys2Proof.Machine.execExchangeWrite s
  | .writeRsp => Sys2Proof.Machine.execWriteRsp s
  | .fmFrame => Sys2Proof.Machine.execFmFrame s
  | .fmRsp => Sys2Proof.Machine.execFmRsp s
  | .fmFrameOut pa tag data => Sys2Proof.Machine.execFmFrameOut pa tag data s
  | .moveReq port => Sys2Proof.Machine.execMoveReq port s
  | .switched port => Sys2Proof.Machine.execSwitched port s
  | .release port => Sys2Proof.Machine.execRelease port s
  | .laneErrorWindow port => Sys2Proof.Machine.execLaneErrorWindow port s
  | .portEnableWrite pa tag port v => Sys2Proof.Machine.execPortEnableWrite pa tag port v s
  | .bringUpRetry port => Sys2Proof.Machine.execBringUpRetry port s
  | .alignTimeout port => Sys2Proof.Machine.execAlignTimeout port s
  | .lightLoss engine => Sys2Proof.Machine.execLightLoss engine s
  | .tableCommit pa tag v => Sys2Proof.Machine.execTableCommit pa tag v s
  | .exchangeRoundEnd part slot stage missed => Sys2Proof.Machine.execExchangeRoundEnd part slot stage missed s
  | .timeExchangeTimer => Sys2Proof.Machine.execTimeExchangeTimer s
  | .timeRequest port sq master steps counter t1 tagOk => Sys2Proof.Machine.execTimeRequest port sq master steps counter t1 tagOk s
  | .timeResponse port sq master steps counter t1 t2 t3 tagOk => Sys2Proof.Machine.execTimeResponse port sq master steps counter t1 t2 t3 tagOk s
  | .masterLostTimeout => Sys2Proof.Machine.execMasterLostTimeout s
  | .setFt pa tag v => Sys2Proof.Machine.execSetFt pa tag v s
  | .relock pa tag v => Sys2Proof.Machine.execRelock pa tag v s
  | .ftDistribute => Sys2Proof.Machine.execFtDistribute s
  | .almanacTick => Sys2Proof.Machine.execAlmanacTick s
  | .firingReport entry => Sys2Proof.Machine.execFiringReport entry s
  | .entryPlace pa tag => Sys2Proof.Machine.execEntryPlace pa tag s
  | .entryRedirect pa tag => Sys2Proof.Machine.execEntryRedirect pa tag s
  | .entryCancel pa tag => Sys2Proof.Machine.execEntryCancel pa tag s
  | .setpolicy pa tag => Sys2Proof.Machine.execSetpolicy pa tag s
  | .format pa tag good aside => Sys2Proof.Machine.execFormat pa tag good aside s
  | .namespaceCreate pa tag ns => Sys2Proof.Machine.execNamespaceCreate pa tag ns s
  | .namespaceDestroy pa tag ns => Sys2Proof.Machine.execNamespaceDestroy pa tag ns s
  | .discard pa tag ns => Sys2Proof.Machine.execDiscard pa tag ns s
  | .flashKeyWrite pa tag part data => Sys2Proof.Machine.execFlashKeyWrite pa tag part data s
  | .keyWrite pa tag idx sub data => Sys2Proof.Machine.execKeyWrite pa tag idx sub data s
  | .flashWrite id owner ns off phys system data => Sys2Proof.Machine.execFlashWrite id owner ns off phys system data s
  | .flashPatch id ns off data => Sys2Proof.Machine.execFlashPatch id ns off data s
  | .programDone target => Sys2Proof.Machine.execProgramDone target s
  | .queryRead part slot stage tile chan index ns off len dest => Sys2Proof.Machine.execQueryRead part slot stage tile chan index ns off len dest s
  | .operationSuspended target => Sys2Proof.Machine.execOperationSuspended target s
  | .readAttemptDone target ok slow => Sys2Proof.Machine.execReadAttemptDone target ok slow s
  | .flashRoundEnd part slot => Sys2Proof.Machine.execFlashRoundEnd part slot s
  | .backgroundRead id owner ns off len outcome phys => Sys2Proof.Machine.execBackgroundRead id owner ns off len outcome phys s
  | .garbageCollection die picks => Sys2Proof.Machine.execGarbageCollection die picks s
  | .targetFail channel ce => Sys2Proof.Machine.execTargetFail channel ce s
  | .pwrfailNAssert => Sys2Proof.Machine.execPwrfailNAssert s
  | .dumpComplete keptN foundN keptS foundS => Sys2Proof.Machine.execDumpComplete keptN foundN keptS foundS s
  | .lockstepMismatch hub => Sys2Proof.Machine.execLockstepMismatch hub s
  | .resignReceive hub path => Sys2Proof.Machine.execResignReceive hub path s
  | .unitTimeout kind unit => Sys2Proof.Machine.execUnitTimeout kind unit s
  | .storageDieLoss die => Sys2Proof.Machine.execStorageDieLoss die s
  | .vigilTileVisit tile => Sys2Proof.Machine.execVigilTileVisit tile s
  | .vigilSaveDone tile data => Sys2Proof.Machine.execVigilSaveDone tile data s
  | .vigilBistDone tile failed => Sys2Proof.Machine.execVigilBistDone tile failed s
  | .vigilRestoreDone tile data => Sys2Proof.Machine.execVigilRestoreDone tile data s
  | .vigilStackVisit stack failed => Sys2Proof.Machine.execVigilStackVisit stack failed s
  | .stackVisitSkip pc => Sys2Proof.Machine.execStackVisitSkip pc s
  | .vigilPortVisit port => Sys2Proof.Machine.execVigilPortVisit port s
  | .serveAtWrite pa tag v => Sys2Proof.Machine.execServeAtWrite pa tag v s
  | .updateHubs pa tag => Sys2Proof.Machine.execUpdateHubs pa tag s
  | .hubUpdateBooted ok => Sys2Proof.Machine.execHubUpdateBooted ok s
  | .updateTiles pa tag => Sys2Proof.Machine.execUpdateTiles pa tag s
  | .resetNAssert => Sys2Proof.Machine.execResetNAssert s
  | .bootS0 straps selfTest => Sys2Proof.Machine.execBootS0 straps selfTest s
  | .powerGood rail => Sys2Proof.Machine.execPowerGood rail s
  | .powerGoodTimeout rail => Sys2Proof.Machine.execPowerGoodTimeout rail s
  | .bootM2 badHubs measured => Sys2Proof.Machine.execBootM2 badHubs measured s
  | .bootM3 lost failed measured => Sys2Proof.Machine.execBootM3 lost failed measured s
  | .bootM4 lost => Sys2Proof.Machine.execBootM4 lost s
  | .bootM5 unused rates => Sys2Proof.Machine.execBootM5 unused rates s
  | .bootM6 => Sys2Proof.Machine.execBootM6 s
  | .lcToManuf pa tag tokenOk steps => Sys2Proof.Machine.execLcToManuf pa tag tokenOk steps s
  | .lcToSecured pa tag => Sys2Proof.Machine.execLcToSecured pa tag s
  | .lcToDeployed pa tag => Sys2Proof.Machine.execLcToDeployed pa tag s
  | .lcToReturn pa tag tokenOk steps => Sys2Proof.Machine.execLcToReturn pa tag tokenOk steps s
  | .lcToScrapped pa tag tokenOk steps => Sys2Proof.Machine.execLcToScrapped pa tag tokenOk steps s
  | .unlockTokenWrite pa tag data => Sys2Proof.Machine.execUnlockTokenWrite pa tag data s
  | .scrapArm pa tag v => Sys2Proof.Machine.execScrapArm pa tag v s
  | .quoteNonceWrite pa tag data => Sys2Proof.Machine.execQuoteNonceWrite pa tag data s
  | .quoteReady => Sys2Proof.Machine.execQuoteReady s
  | .minSvnWrite pa tag v => Sys2Proof.Machine.execMinSvnWrite pa tag v s
  | .keyRevocationWrite pa tag v => Sys2Proof.Machine.execKeyRevocationWrite pa tag v s
  | .sidebandKeyWrite pa tag data => Sys2Proof.Machine.execSidebandKeyWrite pa tag data s
  | .testLogic pa tag => Sys2Proof.Machine.execTestLogic pa tag s
  | .testMemory pa tag => Sys2Proof.Machine.execTestMemory pa tag s
  | .testCarr pa tag => Sys2Proof.Machine.execTestCarr pa tag s
  | .testCauseway pa tag => Sys2Proof.Machine.execTestCauseway pa tag s
  | .testAll pa tag => Sys2Proof.Machine.execTestAll pa tag s
  | .testDone failed => Sys2Proof.Machine.execTestDone failed s
  | .powerCapWrite pa tag v => Sys2Proof.Machine.execPowerCapWrite pa tag v s
  | .plannedCapWrite pa tag v => Sys2Proof.Machine.execPlannedCapWrite pa tag v s
  | .pmbusPoll mv amps words => Sys2Proof.Machine.execPmbusPoll mv amps words s
  | .railFault rail => Sys2Proof.Machine.execRailFault rail s
  | .thermalSample readings => Sys2Proof.Machine.execThermalSample readings s
  | .thermalReductionStep => Sys2Proof.Machine.execThermalReductionStep s
  | .refclkCheck status => Sys2Proof.Machine.execRefclkCheck status s
  | .accountingTick => Sys2Proof.Machine.execAccountingTick s
  | .lanternArm pa tag hub => Sys2Proof.Machine.execLanternArm pa tag hub s
  | .lanternDisarm pa tag hub => Sys2Proof.Machine.execLanternDisarm pa tag hub s
  | .lanternRearm pa tag hub => Sys2Proof.Machine.execLanternRearm pa tag hub s
  | .lanternTrigger pa tag hub => Sys2Proof.Machine.execLanternTrigger pa tag hub s
  | .lanternMarker pa tag hub v => Sys2Proof.Machine.execLanternMarker pa tag hub v s
  | .lanternRecord hub => Sys2Proof.Machine.execLanternRecord hub s
  | .rearmDone hub => Sys2Proof.Machine.execRearmDone hub s
  | .lanternExportDone hub => Sys2Proof.Machine.execLanternExportDone hub s
  | .annalsEvent code severity owner source data => Sys2Proof.Machine.execAnnalsEvent code severity owner source data s
  | .annalsRingWrite => Sys2Proof.Machine.execAnnalsRingWrite s
  | .annalsPersist => Sys2Proof.Machine.execAnnalsPersist s
  | .alarmClear pa tag v => Sys2Proof.Machine.execAlarmClear pa tag v s
  | .linkUp port state width rate => Sys2Proof.Machine.execLinkUp port state width rate s
  | .rowOperationEnd pc bad => Sys2Proof.Machine.execRowOperationEnd pc bad s
  | .eraseDone target => Sys2Proof.Machine.execEraseDone target s
  | .tileSequencerMismatch tile => Sys2Proof.Machine.execTileSequencerMismatch tile s
  | .spareWavelengthError port wave => Sys2Proof.Machine.execSpareWavelengthError port wave s
  | .lightStateChange engine state power => Sys2Proof.Machine.execLightStateChange engine state power s

end Sys2Proof.Machine
end

