-- ==== Sys2Proof/Machine/Idle.lean ====
section
/-! DEFINITION. What the block does while no command waits: a nanosecond of local time passes (01 R21, log 1). -/

namespace Sys2Proof.Machine

open Sys2Proof

/-- Whether FT counts: from the end of boot (17 R479). -/
def ftCounts (s : State) : Bool := s.dev.state != .standby && s.dev.state != .booting

/-- A nanosecond passes (log 1). -/
def idle (s : State) : State := s.modClock (fun c => c.tickNs (ftCounts s))

end Sys2Proof.Machine
end

