-- ==== Sys2Proof/Safety.lean ====
section
/-! DEFINITION. What a safe state and a safe run are: the canonical form of the addressed memories, and what every command keeps. -/

namespace Sys2Proof.Machine

open Sys2Proof

/-- Every addressed memory is in canonical form. -/
def Mems.wf (m : Mems) : Bool :=
  Memory.wf m.tile && Memory.wf m.hub && Memory.wf m.carr && Memory.wf m.staging && Memory.wf m.stage && Memory.wf m.scratch
  && Memory.wf m.imem && Memory.wf m.sluice && Memory.wf m.flash

/-- A canonical state: its addressed memories are in canonical form. -/
def State.canonical (s : State) : Prop := Mems.wf s.mem = true

/-- What a command keeps between the state before and the state after: the queue as it stands, the canonical form of the memories, the
outputs that have left the block, and the free values drawn (a free value is never drawn twice). -/
structure Keeps (s t : State) : Prop where
  /-- The queue is left as it stands. -/
  pending : t.pending = s.pending
  /-- Canonical memories stay canonical. -/
  canonical : s.canonical → t.canonical
  /-- What has left the block is not taken back. -/
  outs : s.outs <:+ t.outs
  /-- The free values drawn stay drawn. -/
  free : s.free ≤ t.free


end Sys2Proof.Machine
end

