-- ==== Sys2Proof/WellFormed.lean ====
section
/-! DEFINITION. Which commands are well formed: every operand names a unit, a register or an object that the part has. -/

namespace Sys2Proof

/-- A path that the part has (02 R47, R52, R57): 33 mailboxes on each of two ports, sessions of two side-band ports, nodes of 17 bits
(16 R457). -/
def Path.wf : Path → Bool
  | .mbox port m => decide (port < 2) && decide (m < 33)
  | .side port session => decide (port < 2) && decide (session < 4294967296)
  | .fabric node => decide (node < 131072)
  | .test => true

/-- The fields of an object message fit their widths (02 R43). -/
def Req.wf (r : Req) : Bool :=
  decide (r.tag < 65536) && decide (r.idx < 65536) && decide (r.sub < 256) && decide (r.ty < 256) && decide (r.off < 4294967296)

/-- An Afwell frame: the fields of its header fit their widths (02 R53). -/
def AfFrame.wf (f : AfFrame) : Bool :=
  decide (f.magic < 65536) && decide (f.major < 256) && decide (f.minor < 256) && decide (f.flags < 65536) && decide (f.session < 4294967296)
  && decide (f.seq < 18446744073709551616) && decide (f.keyId < 4294967296) && f.msgs.all (fun m => m.req.wf)

/-- A CTL: the link sequence and the acknowledgement are 12 bits (16 R447, R449). -/
def Ctl.wf (c : Ctl) : Bool := decide (c.seq < 4096) && decide (c.ack < 4096)

/-- Whether a command is well formed. The channel that waits on a cell is numbered 16 × block + channel over the whole part (13 R357). -/
def Instr.wf : Instr → Bool
  | .read pa rq => pa.wf && rq.wf
  | .write pa rq => pa.wf && rq.wf
  | .readSeg pa rq => pa.wf && rq.wf
  | .writeSeg pa rq => pa.wf && rq.wf
  | .lock pa rq => pa.wf && rq.wf
  | .unlock pa rq => pa.wf && rq.wf
  | .store pa tag _ => pa.wf && decide (tag < 65536)
  | .restoreDefaults pa tag _ => pa.wf && decide (tag < 65536)
  | .hello port fr => decide (port < 2) && fr.wf
  | .mailboxGo port _ _ _ => decide (port < 2)
  | .afwellFrame port fr => decide (port < 2) && fr.wf
  | .sessionTimeout port _ => decide (port < 2)
  | .heartbeatSend hub => decide (hub < 2)
  | .heartbeatReceive hub path _ _ _ _ => decide (hub < 2) && decide (path < 2)
  | .heartbeatPathTimeout hub path => decide (hub < 2) && decide (path < 2)
  | .passiveDeadline hub => decide (hub < 2)
  | .soloDeadline hub => decide (hub < 2)
  | .mirrorAck _ => true
  | .mirrorWriteTimeout part => decide (part < 32)
  | .mirrorResyncDone => true
  | .handoverAtWrite pa tag _ => pa.wf && decide (tag < 65536)
  | .preferredPrimaryWrite pa tag _ => pa.wf && decide (tag < 65536)
  | .handoverFiring => true
  | .grantReceive hub path => decide (hub < 2) && decide (path < 2)
  | .clearLocks pa tag _ => pa.wf && decide (tag < 65536)
  | .driverRangeWrite pa tag port _ => pa.wf && decide (tag < 65536) && decide (port < 2)
  | .powerOnMain pa tag => pa.wf && decide (tag < 65536)
  | .startServing pa tag => pa.wf && decide (tag < 65536)
  | .drain pa tag => pa.wf && decide (tag < 65536)
  | .enterTest pa tag => pa.wf && decide (tag < 65536)
  | .exitTest pa tag => pa.wf && decide (tag < 65536)
  | .enterRecovery pa tag => pa.wf && decide (tag < 65536)
  | .exitRecovery pa tag => pa.wf && decide (tag < 65536)
  | .resetMain pa tag => pa.wf && decide (tag < 65536)
  | .powerOffMain pa tag => pa.wf && decide (tag < 65536)
  | .partitionEnableWrite pa tag part _ => pa.wf && decide (tag < 65536) && decide (part < 32)
  | .load pa tag part slot => pa.wf && decide (tag < 65536) && decide (part < 32) && decide (slot < 4)
  | .activate pa tag part slot => pa.wf && decide (tag < 65536) && decide (part < 32) && decide (slot < 4)
  | .retire pa tag part slot => pa.wf && decide (tag < 65536) && decide (part < 32) && decide (slot < 4)
  | .unload pa tag part slot => pa.wf && decide (tag < 65536) && decide (part < 32) && decide (slot < 4)
  | .swap pa tag part slot => pa.wf && decide (tag < 65536) && decide (part < 32) && decide (slot < 4)
  | .revalidate pa tag part slot => pa.wf && decide (tag < 65536) && decide (part < 32) && decide (slot < 4)
  | .activateFiring part slot => decide (part < 32) && decide (slot < 4)
  | .swapFiring part slot => decide (part < 32) && decide (slot < 4)
  | .slotBoundary part slot _ => decide (part < 32) && decide (slot < 4)
  | .descriptorFetch port part sq desc _ => decide (port < 2) && decide (part < 32) && decide (sq < 4) && decide (desc.length = 64)
  | .leveeDecision part => decide (part < 32)
  | .backstopExpiry _ => true
  | .updateStateChange part => decide (part < 32)
  | .policerCommit pa tag part cls _ => pa.wf && decide (tag < 65536) && decide (part < 32) && decide (cls < 4)
  | .shaperCommit pa tag part _ => pa.wf && decide (tag < 65536) && decide (part < 32)
  | .egressUnitSend part port kind => decide (part < 32) && decide (port < 2) && decide (kind < 256)
  | .egressOverdraw part port kind => decide (part < 32) && decide (port < 2) && decide (kind < 256)
  | .queueSample => true
  | .resetPeaks pa tag part _ => pa.wf && decide (tag < 65536) && decide (part < 32)
  | .sqTailDoorbell port part ring _ => decide (port < 2) && decide (part < 32) && decide (ring < 4)
  | .cqHeadDoorbell port part ring _ => decide (port < 2) && decide (part < 32) && decide (ring < 4)
  | .sqCtrlWrite port part ring _ => decide (port < 2) && decide (part < 32) && decide (ring < 4)
  | .cqCtrlWrite port part ring _ => decide (port < 2) && decide (part < 32) && decide (ring < 4)
  | .cqBaseWrite port part ring _ => decide (port < 2) && decide (part < 32) && decide (ring < 4)
  | .cqRsvWrite port part ring _ => decide (port < 2) && decide (part < 32) && decide (ring < 4)
  | .linkDown port => decide (port < 2)
  | .d3hotEntry port => decide (port < 2)
  | .retrainEnd port _ _ _ => decide (port < 2)
  | .completionRecordWrite _ _ _ _ => true
  | .coalesceTimeout port part cq => decide (port < 2) && decide (part < 32) && decide (cq < 4)
  | .cxlMemRead port _ _ _ => decide (port < 2)
  | .cxlMemWrite port _ _ _ => decide (port < 2)
  | .cxlWindowSizeWrite pa tag port _ => pa.wf && decide (tag < 65536) && decide (port < 2)
  | .hostReadCompletion port _ _ _ => decide (port < 2)
  | .completionTimeout port _ => decide (port < 2)
  | .indexCreate pa tag part index => pa.wf && decide (tag < 65536) && decide (part < 32) && decide (index < 16)
  | .indexSeal pa tag part index => pa.wf && decide (tag < 65536) && decide (part < 32) && decide (index < 16)
  | .indexDestroy pa tag part index => pa.wf && decide (tag < 65536) && decide (part < 32) && decide (index < 16)
  | .reindex pa tag part index => pa.wf && decide (tag < 65536) && decide (part < 32) && decide (index < 16)
  | .upsertApply part => decide (part < 32)
  | .deleteApply part => decide (part < 32)
  | .logRingWaitEnd part => decide (part < 32)
  | .harvestStep part index => decide (part < 32) && decide (index < 16)
  | .passEnqueue tile array data => decide (tile < 40) && decide (array < 2) && decide (data.length = 64)
  | .arrayPass tile array _ _ => decide (tile < 40) && decide (array < 2)
  | .shadowAdvance tile array => decide (tile < 40) && decide (array < 2)
  | .windowOpen part slot stage _ _ _ _ => decide (part < 32) && decide (slot < 4) && decide (stage < 16)
  | .windowTimeout _ => true
  | .drainEnd pc => decide (pc < 512)
  | .normalRequest _ _ _ _ _ _ _ _ => true
  | .scrubRow pc _ => decide (pc < 512)
  | .stackFailure stack => decide (stack < 8)
  | .coreMapChange pc => decide (pc < 512)
  | .probeListWrite part slot stage _ header _ => decide (part < 32) && decide (slot < 4) && decide (stage < 16) && decide (header.length = 64)
  | .carrAdd pc mode d a b => decide (pc < 512) && decide (mode < 2) && decide (d < 16) && decide (a < 16) && decide (b < 16)
  | .carrSub pc mode d a b => decide (pc < 512) && decide (mode < 2) && decide (d < 16) && decide (a < 16) && decide (b < 16)
  | .carrAnd pc mode d a b => decide (pc < 512) && decide (mode < 2) && decide (d < 16) && decide (a < 16) && decide (b < 16)
  | .carrOr pc mode d a b => decide (pc < 512) && decide (mode < 2) && decide (d < 16) && decide (a < 16) && decide (b < 16)
  | .carrXor pc mode d a b => decide (pc < 512) && decide (mode < 2) && decide (d < 16) && decide (a < 16) && decide (b < 16)
  | .carrShl pc mode d a b => decide (pc < 512) && decide (mode < 2) && decide (d < 16) && decide (a < 16) && decide (b < 16)
  | .carrShr pc mode d a b => decide (pc < 512) && decide (mode < 2) && decide (d < 16) && decide (a < 16) && decide (b < 16)
  | .carrSra pc mode d a b => decide (pc < 512) && decide (mode < 2) && decide (d < 16) && decide (a < 16) && decide (b < 16)
  | .carrMul pc mode d a b => decide (pc < 512) && decide (mode < 2) && decide (d < 16) && decide (a < 16) && decide (b < 16)
  | .carrSlt pc mode d a b => decide (pc < 512) && decide (mode < 2) && decide (d < 16) && decide (a < 16) && decide (b < 16)
  | .carrSltu pc mode d a b => decide (pc < 512) && decide (mode < 2) && decide (d < 16) && decide (a < 16) && decide (b < 16)
  | .carrAddi pc mode d a imm => decide (pc < 512) && decide (mode < 2) && decide (d < 16) && decide (a < 16) && decide (imm < 262144)
  | .carrAndi pc mode d a imm => decide (pc < 512) && decide (mode < 2) && decide (d < 16) && decide (a < 16) && decide (imm < 262144)
  | .carrOri pc mode d a imm => decide (pc < 512) && decide (mode < 2) && decide (d < 16) && decide (a < 16) && decide (imm < 262144)
  | .carrXori pc mode d a imm => decide (pc < 512) && decide (mode < 2) && decide (d < 16) && decide (a < 16) && decide (imm < 262144)
  | .carrShli pc mode d a imm => decide (pc < 512) && decide (mode < 2) && decide (d < 16) && decide (a < 16) && decide (imm < 262144)
  | .carrShri pc mode d a imm => decide (pc < 512) && decide (mode < 2) && decide (d < 16) && decide (a < 16) && decide (imm < 262144)
  | .carrSrai pc mode d a imm => decide (pc < 512) && decide (mode < 2) && decide (d < 16) && decide (a < 16) && decide (imm < 262144)
  | .carrLui pc mode d imm => decide (pc < 512) && decide (mode < 2) && decide (d < 16) && decide (imm < 262144)
  | .gets pc mode d _ => decide (pc < 512) && decide (mode < 2) && decide (d < 16)
  | .popc pc mode d a => decide (pc < 512) && decide (mode < 2) && decide (d < 16) && decide (a < 16)
  | .vpopc pc mode d a => decide (pc < 512) && decide (mode < 2) && decide (d < 16) && decide (a < 4)
  | .carrLw pc mode d a imm => decide (pc < 512) && decide (mode < 2) && decide (d < 16) && decide (a < 16) && decide (imm < 262144)
  | .carrLhu pc mode d a imm => decide (pc < 512) && decide (mode < 2) && decide (d < 16) && decide (a < 16) && decide (imm < 262144)
  | .carrLbu pc mode d a imm => decide (pc < 512) && decide (mode < 2) && decide (d < 16) && decide (a < 16) && decide (imm < 262144)
  | .carrSw pc mode v a imm => decide (pc < 512) && decide (mode < 2) && decide (v < 16) && decide (a < 16) && decide (imm < 262144)
  | .carrSh pc mode v a imm => decide (pc < 512) && decide (mode < 2) && decide (v < 16) && decide (a < 16) && decide (imm < 262144)
  | .carrSb pc mode v a imm => decide (pc < 512) && decide (mode < 2) && decide (v < 16) && decide (a < 16) && decide (imm < 262144)
  | .carrVld pc mode d a imm => decide (pc < 512) && decide (mode < 2) && decide (d < 4) && decide (a < 16) && decide (imm < 262144)
  | .carrVst pc mode v a imm => decide (pc < 512) && decide (mode < 2) && decide (v < 4) && decide (a < 16) && decide (imm < 262144)
  | .carrVand pc mode d a b => decide (pc < 512) && decide (mode < 2) && decide (d < 4) && decide (a < 4) && decide (b < 4)
  | .carrVor pc mode d a b => decide (pc < 512) && decide (mode < 2) && decide (d < 4) && decide (a < 4) && decide (b < 4)
  | .carrVxor pc mode d a b => decide (pc < 512) && decide (mode < 2) && decide (d < 4) && decide (a < 4) && decide (b < 4)
  | .carrVandnot pc mode d a b => decide (pc < 512) && decide (mode < 2) && decide (d < 4) && decide (a < 4) && decide (b < 4)
  | .carrVext pc mode d a b => decide (pc < 512) && decide (mode < 2) && decide (d < 16) && decide (a < 4) && decide (b < 16)
  | .carrVins pc mode d a b => decide (pc < 512) && decide (mode < 2) && decide (d < 4) && decide (a < 16) && decide (b < 16)
  | .carrBeq pc mode a b off => decide (pc < 512) && decide (mode < 2) && decide (a < 16) && decide (b < 16) && decide (off < 262144)
  | .carrBne pc mode a b off => decide (pc < 512) && decide (mode < 2) && decide (a < 16) && decide (b < 16) && decide (off < 262144)
  | .carrBlt pc mode a b off => decide (pc < 512) && decide (mode < 2) && decide (a < 16) && decide (b < 16) && decide (off < 262144)
  | .carrBge pc mode a b off => decide (pc < 512) && decide (mode < 2) && decide (a < 16) && decide (b < 16) && decide (off < 262144)
  | .carrBltu pc mode a b off => decide (pc < 512) && decide (mode < 2) && decide (a < 16) && decide (b < 16) && decide (off < 262144)
  | .carrBgeu pc mode a b off => decide (pc < 512) && decide (mode < 2) && decide (a < 16) && decide (b < 16) && decide (off < 262144)
  | .carrJal pc mode d off => decide (pc < 512) && decide (mode < 2) && decide (d < 16) && decide (off < 262144)
  | .carrJalr pc mode d a imm => decide (pc < 512) && decide (mode < 2) && decide (d < 16) && decide (a < 16) && decide (imm < 262144)
  | .adccfg pc mode a => decide (pc < 512) && decide (mode < 2) && decide (a < 16)
  | .carrScan pc mode a b => decide (pc < 512) && decide (mode < 2) && decide (a < 16) && decide (b < 16)
  | .adcRow pc mode => decide (pc < 512) && decide (mode < 2)
  | .srst pc mode => decide (pc < 512) && decide (mode < 2)
  | .sins pc mode a b => decide (pc < 512) && decide (mode < 2) && decide (a < 16) && decide (b < 16)
  | .srd pc mode d vb => decide (pc < 512) && decide (mode < 2) && decide (d < 16) && decide (vb < 4)
  | .rowopAnd pc mode d a b => decide (pc < 512) && decide (mode < 2) && decide (d < 16) && decide (a < 16) && decide (b < 16)
  | .rowopOr pc mode d a b => decide (pc < 512) && decide (mode < 2) && decide (d < 16) && decide (a < 16) && decide (b < 16)
  | .rowopXor pc mode d a b => decide (pc < 512) && decide (mode < 2) && decide (d < 16) && decide (a < 16) && decide (b < 16)
  | .rowopNot pc mode d a => decide (pc < 512) && decide (mode < 2) && decide (d < 16) && decide (a < 16)
  | .rowopCopy pc mode d a => decide (pc < 512) && decide (mode < 2) && decide (d < 16) && decide (a < 16)
  | .rowOperation pc mode => decide (pc < 512) && decide (mode < 2)
  | .rfence pc mode => decide (pc < 512) && decide (mode < 2)
  | .send pc mode v a b => decide (pc < 512) && decide (mode < 2) && decide (v < 4) && decide (a < 16) && decide (b < 16)
  | .sendAck pc mode => decide (pc < 512) && decide (mode < 2)
  | .postItems pc mode a => decide (pc < 512) && decide (mode < 2) && decide (a < 16)
  | .postDone pc mode a => decide (pc < 512) && decide (mode < 2) && decide (a < 16)
  | .carrSig pc mode a => decide (pc < 512) && decide (mode < 2) && decide (a < 16)
  | .tryw pc mode d a => decide (pc < 512) && decide (mode < 2) && decide (d < 16) && decide (a < 16)
  | .mrecv pc mode d vb => decide (pc < 512) && decide (mode < 2) && decide (d < 16) && decide (vb < 4)
  | .msend pc mode v => decide (pc < 512) && decide (mode < 2) && decide (v < 4)
  | .carrHalt pc mode => decide (pc < 512) && decide (mode < 2)
  | .cutPoint pc => decide (pc < 512)
  | .sedgeEnqueue tile unit data => decide (tile < 40) && decide (unit < 2) && decide (data.length = 64)
  | .sedgeOpen tile unit => decide (tile < 40) && decide (unit < 2)
  | .finish tile unit => decide (tile < 40) && decide (unit < 2)
  | .arrayPortVector tile unit => decide (tile < 40) && decide (unit < 2)
  | .collectorMessage tile unit _ _ _ _ _ => decide (tile < 40) && decide (unit < 2)
  | .keyCutoff tile unit => decide (tile < 40) && decide (unit < 2)
  | .mereJobEnqueue tile engine data => decide (tile < 40) && decide (engine < 4) && decide (data.length = 64)
  | .sidescan tile engine => decide (tile < 40) && decide (engine < 4)
  | .refine tile engine => decide (tile < 40) && decide (engine < 4)
  | .dist tile engine => decide (tile < 40) && decide (engine < 4)
  | .gather tile engine => decide (tile < 40) && decide (engine < 4)
  | .contextDataReturn tile engine _ _ _ => decide (tile < 40) && decide (engine < 4)
  | .jobCutoff tile engine => decide (tile < 40) && decide (engine < 4)
  | .sluiceMove block chan _ => decide (block < 42) && decide (chan < 16)
  | .sluiceMovex block chan _ => decide (block < 42) && decide (chan < 16)
  | .sluiceLoop block chan => decide (block < 42) && decide (chan < 16)
  | .sluiceEndl block chan => decide (block < 42) && decide (chan < 16)
  | .sluiceWait block chan => decide (block < 42) && decide (chan < 16)
  | .sluiceSignal block chan => decide (block < 42) && decide (chan < 16)
  | .sluiceJump block chan => decide (block < 42) && decide (chan < 16)
  | .sluiceNop block chan => decide (block < 42) && decide (chan < 16)
  | .sluiceHalt block chan => decide (block < 42) && decide (chan < 16)
  | .unitReadReturn block chan _ _ => decide (block < 42) && decide (chan < 16)
  | .unitWriteAck block chan _ _ => decide (block < 42) && decide (chan < 16)
  | .waitTimeout block chan => decide (block < 42) && decide (chan < 16)
  | .parkGrant block chan => decide (block < 42) && decide (chan < 16)
  | .redirect block chan _ => decide (block < 42) && decide (chan < 16)
  | .channelDisable block chan => decide (block < 42) && decide (chan < 16)
  | .channelEnable block chan => decide (block < 42) && decide (chan < 16)
  | .atUseReplay block chan _ => decide (block < 42) && decide (chan < 16)
  | .segmentReplay block chan => decide (block < 42) && decide (chan < 16)
  | .tierCreate pa tag part => pa.wf && decide (tag < 65536) && decide (part < 32)
  | .tierDestroy pa tag part => pa.wf && decide (tag < 65536) && decide (part < 32)
  | .tierMove pa tag part => pa.wf && decide (tag < 65536) && decide (part < 32)
  | .moveComplete part _ _ => decide (part < 32)
  | .tableCreate pa tag part table => pa.wf && decide (tag < 65536) && decide (part < 32) && decide (table < 64)
  | .tableSeal pa tag part table => pa.wf && decide (tag < 65536) && decide (part < 32) && decide (table < 64)
  | .tableDestroy pa tag part table => pa.wf && decide (tag < 65536) && decide (part < 32) && decide (table < 64)
  | .hotSetWrite pa tag part table _ => pa.wf && decide (tag < 65536) && decide (part < 32) && decide (table < 64)
  | .refreshStep part table => decide (part < 32) && decide (table < 64)
  | .hotCopyExpiry part table _ _ => decide (part < 32) && decide (table < 64)
  | .embedUpdateApply part => decide (part < 32)
  | .forward => true
  | .resyncRecord _ => true
  | .watermarkSend part table => decide (part < 32) && decide (table < 64)
  | .watermarkReceive part table _ _ => decide (part < 32) && decide (table < 64)
  | .replicaStale part table _ => decide (part < 32) && decide (table < 64)
  | .lookupReq => true
  | .lookupRsp => true
  | .cellSignal owner cell _ => decide (owner < 33) && decide (cell < 65536)
  | .cellTry owner cell => decide (owner < 33) && decide (cell < 65536)
  | .cellWait owner cell chan => decide (owner < 33) && decide (cell < 65536) && decide (chan < 672)
  | .cellCancel cell chan => decide (cell < 65536) && decide (chan < 672)
  | .sigRaise port part _ => decide (port < 2) && decide (part < 32)
  | .sigSelect port part _ => decide (port < 2) && decide (part < 32)
  | .sigTry port part => decide (port < 2) && decide (part < 32)
  | .sigArm port part _ => decide (port < 2) && decide (part < 32)
  | .sigClear port part _ => decide (port < 2) && decide (part < 32)
  | .clearOverflows pa tag part _ => pa.wf && decide (tag < 65536) && decide (part < 32)
  | .cutResetMaskWrite pa tag part slot _ => pa.wf && decide (tag < 65536) && decide (part < 32) && decide (slot < 4)
  | .remoteSignal => true
  | .tileWake tile => decide (tile < 40)
  | .tileClockStop tile => decide (tile < 40)
  | .frameReceive port _ _ _ _ _ => decide (port < 64)
  | .ctlReceive port ctl _ _ => decide (port < 64) && ctl.wf
  | .replayTimeout port => decide (port < 64)
  | .nakHoldoffTimeout port => decide (port < 64)
  | .ctlSend port => decide (port < 64)
  | .exchangeWrite => true
  | .writeRsp => true
  | .fmFrame => true
  | .fmRsp => true
  | .fmFrameOut pa tag _ => pa.wf && decide (tag < 65536)
  | .moveReq port => decide (port < 64)
  | .switched port => decide (port < 64)
  | .release port => decide (port < 64)
  | .laneErrorWindow port => decide (port < 64)
  | .portEnableWrite pa tag port _ => pa.wf && decide (tag < 65536) && decide (port < 64)
  | .bringUpRetry port => decide (port < 64)
  | .alignTimeout port => decide (port < 64)
  | .lightLoss engine => decide (engine < 8)
  | .tableCommit pa tag _ => pa.wf && decide (tag < 65536)
  | .exchangeRoundEnd part slot stage _ => decide (part < 32) && decide (slot < 4) && decide (stage < 16)
  | .timeExchangeTimer => true
  | .timeRequest port _ _ _ _ _ _ => decide (port < 64)
  | .timeResponse port _ _ _ _ _ _ _ _ => decide (port < 64)
  | .masterLostTimeout => true
  | .setFt pa tag _ => pa.wf && decide (tag < 65536)
  | .relock pa tag _ => pa.wf && decide (tag < 65536)
  | .ftDistribute => true
  | .almanacTick => true
  | .firingReport _ => true
  | .entryPlace pa tag => pa.wf && decide (tag < 65536)
  | .entryRedirect pa tag => pa.wf && decide (tag < 65536)
  | .entryCancel pa tag => pa.wf && decide (tag < 65536)
  | .setpolicy pa tag => pa.wf && decide (tag < 65536)
  | .format pa tag _ _ => pa.wf && decide (tag < 65536)
  | .namespaceCreate pa tag ns => pa.wf && decide (tag < 65536) && decide (ns < 256)
  | .namespaceDestroy pa tag ns => pa.wf && decide (tag < 65536) && decide (ns < 256)
  | .discard pa tag ns => pa.wf && decide (tag < 65536) && decide (ns < 256)
  | .flashKeyWrite pa tag part _ => pa.wf && decide (tag < 65536) && decide (part < 32)
  | .keyWrite pa tag _ sub _ => pa.wf && decide (tag < 65536) && decide (sub < 256)
  | .flashWrite _ _ _ _ _ _ _ => true
  | .flashPatch _ ns _ _ => decide (ns < 256)
  | .programDone _ => true
  | .queryRead part slot stage tile _ _ ns _ _ _ => decide (part < 32) && decide (slot < 4) && decide (stage < 16) && decide (tile < 40) && decide (ns < 256)
  | .operationSuspended _ => true
  | .readAttemptDone _ _ _ => true
  | .flashRoundEnd part slot => decide (part < 32) && decide (slot < 4)
  | .backgroundRead _ _ ns _ _ _ _ => decide (ns < 256)
  | .garbageCollection die _ => decide (die < 2)
  | .targetFail channel ce => decide (channel < 32) && decide (ce < 8)
  | .pwrfailNAssert => true
  | .dumpComplete _ _ _ _ => true
  | .lockstepMismatch hub => decide (hub < 2)
  | .resignReceive hub path => decide (hub < 2) && decide (path < 2)
  | .unitTimeout _ _ => true
  | .storageDieLoss die => decide (die < 2)
  | .vigilTileVisit tile => decide (tile < 40)
  | .vigilSaveDone tile _ => decide (tile < 40)
  | .vigilBistDone tile _ => decide (tile < 40)
  | .vigilRestoreDone tile _ => decide (tile < 40)
  | .vigilStackVisit stack _ => decide (stack < 8)
  | .stackVisitSkip pc => decide (pc < 512)
  | .vigilPortVisit port => decide (port < 64)
  | .serveAtWrite pa tag _ => pa.wf && decide (tag < 65536)
  | .updateHubs pa tag => pa.wf && decide (tag < 65536)
  | .hubUpdateBooted _ => true
  | .updateTiles pa tag => pa.wf && decide (tag < 65536)
  | .resetNAssert => true
  | .bootS0 _ _ => true
  | .powerGood _ => true
  | .powerGoodTimeout _ => true
  | .bootM2 _ _ => true
  | .bootM3 _ _ _ => true
  | .bootM4 _ => true
  | .bootM5 _ _ => true
  | .bootM6 => true
  | .lcToManuf pa tag _ _ => pa.wf && decide (tag < 65536)
  | .lcToSecured pa tag => pa.wf && decide (tag < 65536)
  | .lcToDeployed pa tag => pa.wf && decide (tag < 65536)
  | .lcToReturn pa tag _ _ => pa.wf && decide (tag < 65536)
  | .lcToScrapped pa tag _ _ => pa.wf && decide (tag < 65536)
  | .unlockTokenWrite pa tag _ => pa.wf && decide (tag < 65536)
  | .scrapArm pa tag _ => pa.wf && decide (tag < 65536)
  | .quoteNonceWrite pa tag _ => pa.wf && decide (tag < 65536)
  | .quoteReady => true
  | .minSvnWrite pa tag _ => pa.wf && decide (tag < 65536)
  | .keyRevocationWrite pa tag _ => pa.wf && decide (tag < 65536)
  | .sidebandKeyWrite pa tag _ => pa.wf && decide (tag < 65536)
  | .testLogic pa tag => pa.wf && decide (tag < 65536)
  | .testMemory pa tag => pa.wf && decide (tag < 65536)
  | .testCarr pa tag => pa.wf && decide (tag < 65536)
  | .testCauseway pa tag => pa.wf && decide (tag < 65536)
  | .testAll pa tag => pa.wf && decide (tag < 65536)
  | .testDone _ => true
  | .powerCapWrite pa tag _ => pa.wf && decide (tag < 65536)
  | .plannedCapWrite pa tag _ => pa.wf && decide (tag < 65536)
  | .pmbusPoll _ _ _ => true
  | .railFault _ => true
  | .thermalSample _ => true
  | .thermalReductionStep => true
  | .refclkCheck _ => true
  | .accountingTick => true
  | .lanternArm pa tag hub => pa.wf && decide (tag < 65536) && decide (hub < 2)
  | .lanternDisarm pa tag hub => pa.wf && decide (tag < 65536) && decide (hub < 2)
  | .lanternRearm pa tag hub => pa.wf && decide (tag < 65536) && decide (hub < 2)
  | .lanternTrigger pa tag hub => pa.wf && decide (tag < 65536) && decide (hub < 2)
  | .lanternMarker pa tag hub _ => pa.wf && decide (tag < 65536) && decide (hub < 2)
  | .lanternRecord hub => decide (hub < 2)
  | .rearmDone hub => decide (hub < 2)
  | .lanternExportDone hub => decide (hub < 2)
  | .annalsEvent _ _ _ _ _ => true
  | .annalsRingWrite => true
  | .annalsPersist => true
  | .alarmClear pa tag _ => pa.wf && decide (tag < 65536)
  | .linkUp port _ _ _ => decide (port < 2)
  | .rowOperationEnd pc _ => decide (pc < 512)
  | .eraseDone _ => true
  | .tileSequencerMismatch tile => decide (tile < 40)
  | .spareWavelengthError port wave => decide (port < 64) && decide (wave < 10)
  | .lightStateChange engine _ _ => decide (engine < 8)

end Sys2Proof
end

