-- ==== Sys2Proof/Certificates/Slice0/Obligations.lean ====
section
/-! DEFINITION. The statements about the block, and the terms they are made in. -/

namespace Sys2Proof.Machine

open Sys2Proof

/-- An outcome of the block. -/
abbrev Answered := Host.Outcome State Fault Refusal

/-- A core may issue its next instruction: it runs in its mode and its program counter is inside its program. -/
def CoreReady (s : State) (pc mode : Nat) : Prop :=
  coreIssues s pc mode = true ∧ (coreAt s pc mode).pc < coreLength s pc mode

/-- A core with a general register and its poison bit written; g0 discards the write. -/
def Core.putG (k : Core) (d : Nat) (v : W32) (bad : Bool) : Core :=
  if d % 16 = 0 then k else { k with g := setAt k.g (d % 16) v, gp := setAt k.gp (d % 16) bad }

/-- A core with a vector register and its poison bit written. -/
def Core.putV (k : Core) (d : Nat) (v : W512) (bad : Bool) : Core :=
  { k with v := setAt k.v (d % 4) v, vp := setAt k.vp (d % 4) bad }

/-- A core at the next word of its program. -/
def Core.advance (k : Core) : Core := { k with pc := k.pc + 1 }

/-- A state in which one register set of one core is replaced and nothing else. -/
def withCore (s : State) (pc mode : Nat) (k : Core) : State := modCore pc mode (fun _ => k) s

/-- The target of a branch: the next word plus the sign-extended offset. -/
def branchTarget (k : Core) (off : Nat) : Nat := (BitVec.ofNat 32 (k.pc + 1) + sext18 off).toNat

/-- Whether a row operation passes the checks of its issue (09 R284). -/
def RowOk (s : State) (pc mode : Nat) (k : Core) (two : Bool) (d a b : Nat) : Prop :=
  let v (r : Nat) : Nat := (k.gr r).toNat
  let place (r : Nat) : Nat × Nat := ((rowRef (v r)).1, (rowRef (v r)).2.1)
  let data (r : Nat) : Prop := (rowRef (v r)).2.2 < 504
  let tag (r : Nat) : Nat := dramOwner s pc (dataRow (rowRef (v r)).1 (rowRef (v r)).2.1 (rowRef (v r)).2.2)
  let open_ (r : Nat) : Prop := data r → mode = 1 ∨ tag r = coreOwner s k ∨ tag r = ownSystem
  k.grBad d = false ∧ k.grBad a = false ∧ (two = true → k.grBad b = false) ∧ v d < 0x100000 ∧ v a < 0x100000 ∧ v b < 0x100000 ∧
  place d = place a ∧ place d = place b ∧ (mode = 0 → ¬ data d) ∧ open_ a ∧ open_ b ∧ (two = true → v a ≠ v d ∧ v b ≠ v d) ∧
  (mode = 0 → ∃ w, k.window.bind (windowAt s) = some w ∧ w.tokens ≠ 0)

/-- A message that goes to execution at once. -/
def Goes (pa : Path) (m : Msg) (s : State) : Prop :=
  reach pa m.req.idx (msgRecovers m) (msgWrites m) s = .go ∧ messageWaits m s = false ∧ m.req.idx / 4096 ≠ 0xF

/-- A message answered with a status and data, the block otherwise as given; the alarms are judged last. -/
def Answers (pa : Path) (m : Msg) (ty : Nat) (st : Status) (data : Bytes) (u : State) : Answered :=
  .next (settle (answer pa (replyTo m ty st data) u))

/-- The command that carries an object message of opcode 1 to 6. -/
def messageCommand (pa : Path) (m : Msg) : Option Instr :=
  if m.op = 1 then some (.read pa m.req) else if m.op = 2 then some (.write pa m.req) else if m.op = 3 then some (.readSeg pa m.req)
  else if m.op = 4 then some (.writeSeg pa m.req) else if m.op = 5 then some (.lock pa m.req) else if m.op = 6 then some (.unlock pa m.req)
  else none

/-- A write of a value that its path, the device state, and the checks of access, value and state let through. -/
def RowTaken (pa : Path) (r : ObjRef) (v : Nat) (s : State) : Prop :=
  reach pa r.idx r.obj.recovery true s = .go ∧ recoveryWaits r.idx s = false ∧ writeBar pa r v s = .ok

/-- A write of a value answered with a status, the block otherwise as given; the alarms are judged last. -/
def RowDone (pa : Path) (tag : Nat) (r : ObjRef) (v : Nat) (st : Status) (u : State) : Answered :=
  .next (settle (answer pa (replyTo (writeMsg tag r v) r.obj.ty.code st []) u))

/-- A whole DOMAIN that its path, the device state, and the checks of access, length and state let through. -/
def DomainTaken (pa : Path) (r : ObjRef) (n : Nat) (s : State) : Prop :=
  reach pa r.idx r.obj.recovery true s = .go ∧ recoveryWaits r.idx s = false ∧ domainBar pa r n (dropTransfer pa s) = .ok

/-- A whole DOMAIN answered with a status, the block otherwise as given; the alarms are judged last. -/
def DomainDone (pa : Path) (tag : Nat) (r : ObjRef) (data : Bytes) (st : Status) (u : State) : Answered :=
  .next (settle (answer pa (replyTo (domainMsg tag r data) r.obj.ty.code st []) u))

/-- A device command that puts the device in a state at the present FT by command, and leaves slots, queries, memories, hubs and units as
they are. -/
def EntersState (c : Instr) (st : DevState) (s : State) : Prop :=
  ∃ t, exec c s = .next t ∧ t.dev.state = st ∧ t.dev.cause = 0 ∧ t.dev.changeFt = s.clock.ft ∧ t.slots = s.slots ∧ t.levee = s.levee ∧
    t.mem = s.mem ∧ t.hubs = s.hubs ∧ t.units = s.units ∧ t.data = s.data

/-- The commands that write a value of one object, with the object and the value written; p and q are the parameters of the row. -/
def ValueRow (pa : Path) (tag p q v : Nat) (good : List (Nat × Nat × Nat)) (aside : Nat) (ok : Bool) (x : Instr × ObjRef × Nat) : Prop :=
  x ∈ [(.handoverAtWrite pa tag v, ⟨objHandoverAt, []⟩, v), (.preferredPrimaryWrite pa tag v, ⟨objPreferred, []⟩, v), (.clearLocks pa tag v, ⟨objClearLocks, []⟩, v),
   (.driverRangeWrite pa tag 0 v, ⟨objHaRange, []⟩, v), (.driverRangeWrite pa tag 1 v, ⟨objHbRange, []⟩, v),
   (.powerOnMain pa tag, ⟨objDevCommand, []⟩, 1), (.startServing pa tag, ⟨objDevCommand, []⟩, 2), (.drain pa tag, ⟨objDevCommand, []⟩, 3),
   (.enterTest pa tag, ⟨objDevCommand, []⟩, 4), (.exitTest pa tag, ⟨objDevCommand, []⟩, 5), (.enterRecovery pa tag, ⟨objDevCommand, []⟩, 6),
   (.exitRecovery pa tag, ⟨objDevCommand, []⟩, 7), (.resetMain pa tag, ⟨objDevCommand, []⟩, 8), (.powerOffMain pa tag, ⟨objDevCommand, []⟩, 9),
   (.partitionEnableWrite pa tag p v, ⟨objPartEnable, [p]⟩, v), (.load pa tag p q, ⟨objSlotCommand, [p, q]⟩, 1),
   (.activate pa tag p q, ⟨objSlotCommand, [p, q]⟩, 2), (.retire pa tag p q, ⟨objSlotCommand, [p, q]⟩, 3), (.swap pa tag p q, ⟨objSlotCommand, [p, q]⟩, 5),
   (.revalidate pa tag p q, ⟨objSlotCommand, [p, q]⟩, 6), (.policerCommit pa tag p q v, ⟨objPolicerCommit, [p, q]⟩, v),
   (.shaperCommit pa tag p v, ⟨objShaperCommit, [p]⟩, v), (.resetPeaks pa tag p v, ⟨objResetPeaks, [p]⟩, v), (.cxlWindowSizeWrite pa tag p v, ⟨objCxlSize, [p]⟩, v)] ∨ x ∈ [(.indexCreate pa tag p q, ⟨objIndexCommand, [p, q]⟩, 1), (.indexSeal pa tag p q, ⟨objIndexCommand, [p, q]⟩, 2),
   (.indexDestroy pa tag p q, ⟨objIndexCommand, [p, q]⟩, 3), (.reindex pa tag p q, ⟨objIndexCommand, [p, q]⟩, 4), (.tierCreate pa tag p, ⟨objTierCommand, [p]⟩, 1),
   (.tierDestroy pa tag p, ⟨objTierCommand, [p]⟩, 2), (.tierMove pa tag p, ⟨objTierCommand, [p]⟩, 3), (.tableCreate pa tag p q, ⟨objTableCommand, [p, q]⟩, 1),
   (.tableSeal pa tag p q, ⟨objTableCommand, [p, q]⟩, 2), (.tableDestroy pa tag p q, ⟨objTableCommand, [p, q]⟩, 3),
   (.portEnableWrite pa tag p v, ⟨objPortEnable, [p]⟩, v), (.tableCommit pa tag v, ⟨objTableCommit, []⟩, v), (.setFt pa tag v, ⟨objSetFt, []⟩, v),
   (.relock pa tag v, ⟨objRelock, []⟩, v), (.entryPlace pa tag, ⟨objEntryCommand, []⟩, 1), (.entryRedirect pa tag, ⟨objEntryCommand, []⟩, 2),
   (.entryCancel pa tag, ⟨objEntryCommand, []⟩, 3), (.setpolicy pa tag, ⟨objEntryCommand, []⟩, 4), (.format pa tag good aside, ⟨objMireCommand, []⟩, 1),
   (.namespaceCreate pa tag p, ⟨objSpaceCommand, [p]⟩, 1), (.namespaceDestroy pa tag p, ⟨objSpaceCommand, [p]⟩, 2), (.discard pa tag p, ⟨objSpaceCommand, [p]⟩, 3)] ∨ x ∈ [(.serveAtWrite pa tag v, ⟨objServeAt, []⟩, v), (.updateHubs pa tag, ⟨objFwCommand, []⟩, 1), (.updateTiles pa tag, ⟨objFwCommand, []⟩, 2),
   (.lcToManuf pa tag ok p, ⟨objLifeCommand, []⟩, 1), (.lcToSecured pa tag, ⟨objLifeCommand, []⟩, 2), (.lcToDeployed pa tag, ⟨objLifeCommand, []⟩, 3),
   (.lcToReturn pa tag ok p, ⟨objLifeCommand, []⟩, 4), (.lcToScrapped pa tag ok p, ⟨objLifeCommand, []⟩, 5), (.scrapArm pa tag v, ⟨objScrapArm, []⟩, v),
   (.minSvnWrite pa tag v, ⟨objMinSvn, []⟩, v), (.keyRevocationWrite pa tag v, ⟨objRevocations, []⟩, v), (.testLogic pa tag, ⟨objTestStart, []⟩, 1),
   (.testMemory pa tag, ⟨objTestStart, []⟩, 2), (.testCarr pa tag, ⟨objTestStart, []⟩, 3), (.testCauseway pa tag, ⟨objTestStart, []⟩, 4),
   (.testAll pa tag, ⟨objTestStart, []⟩, 5), (.powerCapWrite pa tag v, ⟨objPowerCap, []⟩, v), (.plannedCapWrite pa tag v, ⟨objPlannedCap, []⟩, v),
   (.lanternArm pa tag p, ⟨objLanternCommand, [p]⟩, 1), (.lanternDisarm pa tag p, ⟨objLanternCommand, [p]⟩, 2),
   (.lanternRearm pa tag p, ⟨objLanternCommand, [p]⟩, 3), (.lanternTrigger pa tag p, ⟨objLanternCommand, [p]⟩, 4),
   (.lanternMarker pa tag p v, ⟨objLanternMarker, [p]⟩, v), (.alarmClear pa tag v, ⟨objLatchedAlarms, []⟩, v)]

/-- The commands that write a whole DOMAIN of one object, with the object. -/
def DomainRow (pa : Path) (tag p q : Nat) (data : Bytes) (x : Instr × ObjRef) : Prop :=
  x ∈ [(.hotSetWrite pa tag p q data, ⟨objHotSet, [p, q]⟩), (.clearOverflows pa tag p data, ⟨objClearOverflows, [p]⟩),
   (.cutResetMaskWrite pa tag p q data, ⟨objCutMask, [p, q]⟩), (.fmFrameOut pa tag data, ⟨objFmOut, []⟩), (.flashKeyWrite pa tag p data, ⟨objFlashKey, [p]⟩),
   (.unlockTokenWrite pa tag data, ⟨objToken, []⟩), (.quoteNonceWrite pa tag data, ⟨objNonce, []⟩), (.sidebandKeyWrite pa tag data, ⟨objSideKey, []⟩)]

/-- A running channel whose next word is this instruction, with no replay or redirect before it. -/
def AtInstr (s : State) (c : Nat) (i : SInstr) : Prop :=
  (chanAt s c).state = 1 ∧ replayWaits s c = false ∧ ((chanAt s c).redirect = none ∨ (chanAt s c).signal = true) ∧
    sluiceDecode (sluiceWord s c (chanAt s c) (chanAt s c).word) = i

/-- The channel has halted with this code at this word, and no memory and no other channel has changed. -/
def Halted (s : State) (c code word : Nat) (o : Answered) : Prop :=
  ∃ t, o = .next t ∧ (chanAt t c).state = 3 ∧ (chanAt t c).error = code ∧ (chanAt t c).word = word ∧ t.mem = s.mem ∧
    ∀ c', c' ≠ c → chanAt t c' = chanAt s c'

/-- What the lookup service sends for one key of a request. -/
def answerKey (f : Flit) (k i : Nat) (s : State) : State :=
  let key := leAt f.data (16 + 16 * i) 8
  let item := leAt f.data (24 + 16 * i) 4
  let send (st base : Nat) (b : Bytes) : State := sendMessage 5 1 f.src f.owner f.tag (f.data.take 8) base st (k % 64) b s
  match (tableAt s k).filter (·.ready) with
  | none => send 1 0 []
  | some x => match recordAddr s x key with
    | none => send 1 (item * widestRow x) []
    | some (a, c) => if stackDead s (localOf a).1 then send 2 (item * widestRow x) [] else send 0 (item * widestRow x) (readI s (a + 64) (2 ^ c.log2))

/-- What a command of a unit, a host or the fabric applies to a bound cell: it answers the block with that operation applied at the
cell's home. -/
def AppliesTo (s : State) (n : Nat) (a : CellAct) (o : Answered) : Prop := cellBound s n = true → o = .next (applyCell n a s)

end Sys2Proof.Machine

open Sys2Proof

open Sys2Proof.Machine

/-- The arithmetic of a Carr core, with its frame. -/
def Obligations.CarrArithmetic : Prop :=
  (
   ∀ (s : State) (pc mode d a b : Nat), CoreReady s pc mode →
     let k := coreAt s pc mode
     let x := k.gr a
     let y := k.gr b
     let out (v : W32) : Answered := .next (withCore s pc mode (k.putG d v (k.grBad a || k.grBad b)).advance)
     exec (.carrAdd pc mode d a b) s = out (x + y) ∧ exec (.carrSub pc mode d a b) s = out (x - y) ∧
     exec (.carrAnd pc mode d a b) s = out (x &&& y) ∧ exec (.carrOr pc mode d a b) s = out (x ||| y) ∧
     exec (.carrXor pc mode d a b) s = out (x ^^^ y) ∧ exec (.carrShl pc mode d a b) s = out (x <<< (y.toNat % 32)) ∧
     exec (.carrShr pc mode d a b) s = out (x >>> (y.toNat % 32)) ∧
     exec (.carrSra pc mode d a b) s = out (x.sshiftRight (y.toNat % 32)) ∧ exec (.carrMul pc mode d a b) s = out (x * y) ∧
     exec (.carrSlt pc mode d a b) s = out (if x.toInt < y.toInt then 1 else 0) ∧
     exec (.carrSltu pc mode d a b) s = out (if x.toNat < y.toNat then 1 else 0)) ∧
  (
   ∀ (s : State) (pc mode d a imm : Nat), CoreReady s pc mode →
     let k := coreAt s pc mode
     let x := k.gr a
     let out (v : W32) (bad : Bool) : Answered := .next (withCore s pc mode (k.putG d v bad).advance)
     exec (.carrAddi pc mode d a imm) s = out (x + sext18 imm) (k.grBad a) ∧
     exec (.carrAndi pc mode d a imm) s = out (x &&& zext18 imm) (k.grBad a) ∧
     exec (.carrOri pc mode d a imm) s = out (x ||| zext18 imm) (k.grBad a) ∧
     exec (.carrXori pc mode d a imm) s = out (x ^^^ zext18 imm) (k.grBad a) ∧
     exec (.carrShli pc mode d a imm) s = out (x <<< (imm % 32)) (k.grBad a) ∧
     exec (.carrShri pc mode d a imm) s = out (x >>> (imm % 32)) (k.grBad a) ∧
     exec (.carrSrai pc mode d a imm) s = out (x.sshiftRight (imm % 32)) (k.grBad a) ∧
     exec (.carrLui pc mode d imm) s = out (BitVec.ofNat 32 (imm % 0x400000 * 1024)) false ∧
     exec (.popc pc mode d a) s = out (BitVec.ofNat 32 (popBits 32 x.toNat)) (k.grBad a) ∧
     exec (.vpopc pc mode d a) s = out (BitVec.ofNat 32 (popBits 512 (k.vr a).toNat)) (k.vrBad a) ∧
     (∀ sel v, sel ≤ 7 → getsValue s pc k sel = some v → exec (.gets pc mode d sel) s = out (BitVec.ofNat 32 v) false) ∧
     (∀ sel, sel ≤ 7 → getsValue s pc k sel = none →
       exec (.gets pc mode d sel) s = .next (withCore (drawn s) pc mode (k.putG d (BitVec.ofNat 32 (freeVal s 32)) false).advance))) ∧
  (
   ∀ (s : State) (pc mode d a b : Nat), CoreReady s pc mode →
     let k := coreAt s pc mode
     let out (v : W512) : Answered := .next (withCore s pc mode (k.putV d v (k.vrBad a || k.vrBad b)).advance)
     exec (.carrVand pc mode d a b) s = out (k.vr a &&& k.vr b) ∧ exec (.carrVor pc mode d a b) s = out (k.vr a ||| k.vr b) ∧
     exec (.carrVxor pc mode d a b) s = out (k.vr a ^^^ k.vr b) ∧ exec (.carrVandnot pc mode d a b) s = out (k.vr a &&& ~~~(k.vr b)) ∧
     exec (.carrVext pc mode d a b) s = .next (withCore s pc mode
       (k.putG d (((k.vr a) >>> (32 * ((k.gr b).toNat % 16))).truncate 32) (k.vrBad a || k.grBad b)).advance) ∧
     exec (.carrVins pc mode d a b) s = .next (withCore s pc mode
       (k.putV d (insertLane (k.vr d) ((k.gr b).toNat % 16) (k.gr a)) (k.vrBad d || k.grBad a || k.grBad b)).advance))

/-- A branch moves the program counter alone; a jump also writes its link register. -/
def Obligations.CarrBranches : Prop :=
  ∀ (s : State) (pc mode d a b off : Nat), CoreReady s pc mode →
    let k := coreAt s pc mode
    let len := coreLength s pc mode
    let to_ (n : Nat) (k : Core) : Answered := .next (withCore s pc mode { k with pc := n })
    let link := k.putG d (BitVec.ofNat 32 (k.pc + 1)) false
    let branch (i : Instr) (c : Prop) : Prop := k.grBad a = false → k.grBad b = false →
      (c → branchTarget k off < len → exec i s = to_ (branchTarget k off) k) ∧ (¬ c → exec i s = to_ (k.pc + 1) k)
    branch (.carrBeq pc mode a b off) (k.gr a = k.gr b) ∧ branch (.carrBne pc mode a b off) (k.gr a ≠ k.gr b) ∧
    branch (.carrBlt pc mode a b off) ((k.gr a).toInt < (k.gr b).toInt) ∧
    branch (.carrBge pc mode a b off) ((k.gr b).toInt ≤ (k.gr a).toInt) ∧
    branch (.carrBltu pc mode a b off) ((k.gr a).toNat < (k.gr b).toNat) ∧
    branch (.carrBgeu pc mode a b off) ((k.gr b).toNat ≤ (k.gr a).toNat) ∧
    (branchTarget k off < len → exec (.carrJal pc mode d off) s = to_ (branchTarget k off) link) ∧
    (k.grBad a = false → (k.gr a + sext18 off).toNat < len → exec (.carrJalr pc mode d a off) s = to_ (k.gr a + sext18 off).toNat link)

/-- Loads and stores of a Carr core, with their frame in memory. -/
def Obligations.CarrLoadsAndStores : Prop :=
  (
   ∀ (s t : State) (pc mode r a imm : Nat) (bytes : Bytes) (bad : Bool), CoreReady s pc mode → (coreAt s pc mode).grBad a = false →
     let k := coreAt s pc mode
     let at_ := (k.gr a + sext18 imm).toNat
     let load (n : Nat) : Prop := loadCore pc mode k at_ n n s = .val bytes bad t
     let store (n : Nat) : Prop := storeCore pc mode k at_ (toLE n (k.gr r).toNat) (k.grBad r) s = .go t
     let got : Answered := .next (modCore pc mode (fun k => (k.putG r (BitVec.ofNat 32 (leNat bytes)) bad).advance) t)
     let stored : Answered := .next (modCore pc mode Core.advance t)
     (load 4 → exec (.carrLw pc mode r a imm) s = got) ∧ (load 2 → exec (.carrLhu pc mode r a imm) s = got) ∧
     (load 1 → exec (.carrLbu pc mode r a imm) s = got) ∧
     (load 64 → exec (.carrVld pc mode r a imm) s =
       .next (modCore pc mode (fun k => (k.putV r (BitVec.ofNat 512 (leNat bytes)) bad).advance) t)) ∧
     (store 4 → exec (.carrSw pc mode r a imm) s = stored) ∧ (store 2 → exec (.carrSh pc mode r a imm) s = stored) ∧
     (store 1 → exec (.carrSb pc mode r a imm) s = stored) ∧
     (storeCore pc mode k at_ (toLE 64 (k.vr r).toNat) (k.vrBad r) s = .go t → exec (.carrVst pc mode r a imm) s = stored)) ∧
  (
   ∀ (s t : State) (pc mode addr : Nat) (k : Core) (bytes : Bytes) (bad : Bool),
     storeCore pc mode k addr bytes bad s = .go t → 0 < bytes.length →
       addr % bytes.length = 0 ∧ t = { s with mem := t.mem, carr := t.carr } ∧ t.carr.cores = s.carr.cores ∧
       (if addr < 0x40000000 then
         mode ≠ 0 ∧ t.mem = { s.mem with carr := t.mem.carr } ∧
         (∀ i, i < bytes.length → Memory.read t.mem.carr (dramKey pc addr + i) = bytes.getD i 0) ∧
         (∀ x, x < dramKey pc addr ∨ dramKey pc addr + bytes.length ≤ x → Memory.read t.mem.carr x = Memory.read s.mem.carr x)
       else if addr < 0x40100000 then
         t.mem = { s.mem with stage := t.mem.stage } ∧
         (∀ i, i < bytes.length → Memory.read t.mem.stage (0x100000 * pc + (addr - 0x40000000) + i) = bytes.getD i 0) ∧
         (∀ x, x < 0x100000 * pc + (addr - 0x40000000) ∨ 0x100000 * pc + (addr - 0x40000000) + bytes.length ≤ x →
           Memory.read t.mem.stage x = Memory.read s.mem.stage x)
       else if addr < 0x80010000 then
         0x80000000 ≤ addr ∧ t.mem = { s.mem with scratch := t.mem.scratch } ∧
         (∀ i, i < bytes.length → Memory.read t.mem.scratch (0x10000 * pc + (addr - 0x80000000) + i) = bytes.getD i 0) ∧
         (∀ x, x < 0x10000 * pc + (addr - 0x80000000) ∨ 0x10000 * pc + (addr - 0x80000000) + bytes.length ≤ x →
           Memory.read t.mem.scratch x = Memory.read s.mem.scratch x)
       else
         mode ≠ 0 ∧ 0xC0000000 ≤ addr ∧ addr < 0xC1000000 ∧ t.mem = { s.mem with staging := t.mem.staging } ∧
         (∀ i, i < bytes.length → Memory.read t.mem.staging (0x1000000 * pc + (addr - 0xC0000000) + i) = bytes.getD i 0) ∧
         (∀ x, x < 0x1000000 * pc + (addr - 0xC0000000) ∨ 0x1000000 * pc + (addr - 0xC0000000) + bytes.length ≤ x →
           Memory.read t.mem.staging x = Memory.read s.mem.staging x)))

/-- The ADC unit and the row operations. -/
def Obligations.CarrAdcAndRows : Prop :=
  (
   ∀ (s t : State) (pc mode d vb a b : Nat) (bytes : Bytes) (bad : Bool), CoreReady s pc mode →
     let k := coreAt s pc mode
     let same (k : Core) : Answered := .next (withCore s pc mode k.advance)
     (k.grBad a = false → loadCore pc mode k (k.gr a).toNat 16 4 s = .val bytes false t → leAt bytes 7 1 < 4 → leAt bytes 6 1 = 1 →
       exec (.adccfg pc mode a) s = .next (modCore pc mode (fun k => Core.advance { k with
         adc := some ⟨leAt bytes 7 1 % 2 = 1, leAt bytes 8 4, leAt bytes 12 4, leAt bytes 4 2⟩, skips := 0, nans := 0 }) t)) ∧
     (k.grBad a = false → k.adc.isSome = true → (k.gr a).toNat / 0x100000 = 0x400 → k.rows.length < 2 →
       loadCore pc mode k (k.gr a).toNat 16 4 s = .val bytes bad t →
       ∃ u, exec (.carrScan pc mode a b) s = .next u ∧
         (coreAt u pc mode).rows = (coreAt t pc mode).rows ++ [⟨(k.gr a).toNat, (k.gr b).toNat, k.grBad b⟩] ∧
         (coreAt u pc mode).pc = (coreAt t pc mode).pc + 1) ∧
     (∀ r rest, k.rows = r :: rest → exec (.adcRow pc mode) s = .next (modCore pc mode (fun k => { k with rows := rest }) (runRow pc mode r s))) ∧
     exec (.srst pc mode) s = same { k with list := [], listBad := false } ∧
     (isNan32 (k.gr a).toNat = false → exec (.sins pc mode a b) s = same { k with
       list := (insert8 k.list ((k.gr a).toNat, (k.gr b).toNat)).take 8, listBad := k.listBad || k.grBad a || k.grBad b }) ∧
     (isNan32 (k.gr a).toNat = true → exec (.sins pc mode a b) s = same { k with
       nans := k.nans + 1, listBad := k.listBad || k.grBad a || k.grBad b }) ∧
     (k.adc.isSome = true → k.rows = [] → exec (.srd pc mode d vb) s = same { (k.putG d (BitVec.ofNat 32 (list8Status k)) false).putV vb
       (BitVec.ofNat 512 (leNat (list8Bytes k.list))) false with list := [], listBad := false })) ∧
  (
   ∀ (s : State) (pc mode d a b : Nat), CoreReady s pc mode →
     let k := coreAt s pc mode
     let queued (op vb : Nat) : Answered := .next (withCore s pc mode (Core.advance { k with queue := k.queue ++
       [⟨op, (k.gr d).toNat, (k.gr a).toNat, vb, if mode = 0 then k.window else none, none⟩] }))
     (RowOk s pc mode k true d a b → k.queue.length < 8 →
       exec (.rowopAnd pc mode d a b) s = queued 1 (k.gr b).toNat ∧ exec (.rowopOr pc mode d a b) s = queued 2 (k.gr b).toNat ∧
       exec (.rowopXor pc mode d a b) s = queued 3 (k.gr b).toNat) ∧
     (RowOk s pc mode k false d a a → k.queue.length < 8 →
       exec (.rowopNot pc mode d a) s = queued 4 (k.gr a).toNat ∧ exec (.rowopCopy pc mode d a) s = queued 5 (k.gr a).toNat) ∧
     (rowsEnded s pc mode = true → exec (.rfence pc mode) s = .next (withCore s pc mode k.advance)) ∧
     (∀ o r, k.queue = o :: r → rowAllowed s pc o = true →
       ∃ t, exec (.rowOperation pc mode) s = .next t ∧ (coreAt t pc mode).queue = r ∧
         (pcAt t pc).active = (pcAt s pc).active ++ [{ o with start := some s.clock.now }]) ∧
     (∀ o r bad, (pcAt s pc).active = o :: r → o.start.getD 0 + 60 ≤ s.clock.now →
       exec (.rowOperationEnd pc bad) s = .next (endRowOp pc o bad (modPc pc (fun p => { p with active := r }) s))))

/-- The instructions that reach outside the core, and the ends of a program. -/
def Obligations.CarrMessagesAndEnds : Prop :=
  ∀ (s : State) (pc mode d vb v a b : Nat), CoreReady s pc mode → (coreAt s pc mode).grBad a = false → (coreAt s pc mode).grBad b = false →
    let k := coreAt s pc mode
    let w := k.window.bind (windowAt s)
    (k.sends < 8 → ∃ t, exec (.send pc mode v a b) s = .next t ∧ coreAt t pc mode = Core.advance { k with sends := k.sends + 1 } ∧
      t.carr.msgs = s.carr.msgs ++ [⟨pc, (k.gr b).toNat, (k.gr a).toNat, toLE 64 (k.vr v).toNat, coreOwner s k, KMap.getD s.carr.gens pc 0⟩] ∧
      t = { s with carr := t.carr }) ∧
    ((s.carr.msgs.filter (fun m => m.pc = pc)).length < k.sends →
      exec (.sendAck pc mode) s = .next (withCore s pc mode { k with sends := k.sends - 1 })) ∧
    (∀ x, w = some x → exec (.postItems pc mode a) s = .next (modCore pc mode Core.advance
      (modReady x.id pc (fun r => { r with items := (k.gr a).toNat % 65536 }) s))) ∧
    (∀ x, w = some x → mode = 0 → k.sends = 0 → rowsEnded s pc 0 = true →
      exec (.postDone pc mode a) s = .next (closeOn x.id pc 1 (modReady x.id pc (fun r => { r with items := (k.gr a).toNat % 65536 }) s)) ∧
      exec (.carrHalt pc mode) s = .next (closeOn x.id pc 1 s)) ∧
    (mode ≠ 0 → exec (.carrHalt pc mode) s = .next (modCore pc 1 (fun k => { k with pc := 0, started := s.clock.now }) s)) ∧
    (∀ n, coreCell s k (k.gr a).toNat = some n →
      exec (.carrSig pc mode a) s = .next (modCore pc mode Core.advance (issueCell n (.signal 1) s)) ∧
      exec (.tryw pc mode d a) s = .next (modCore pc mode Core.advance
        (issueCell n (.tryCore (2 * pc + mode) d) (withCore s pc mode { k with tryWait := true })))) ∧
    (mode ≠ 0 → KMap.getD s.carr.inbox pc [] = [] → exec (.mrecv pc mode d vb) s = .next (withCore s pc mode (k.putG d 0 false).advance)) ∧
    (∀ m r, mode ≠ 0 → KMap.getD s.carr.inbox pc [] = m :: r → ∃ t, exec (.mrecv pc mode d vb) s = .next t ∧
      coreAt t pc mode = ((k.putG d 1 false).putV vb (BitVec.ofNat 512 (leNat m)) false).advance ∧ KMap.getD t.carr.inbox pc [] = r ∧
      t = { s with carr := t.carr }) ∧
    (mode ≠ 0 → (KMap.getD s.carr.outbox pc []).length < 8 → ∃ t, exec (.msend pc mode v) s = .next t ∧
      coreAt t pc mode = k.advance ∧ KMap.getD t.carr.outbox pc [] = KMap.getD s.carr.outbox pc [] ++ [toLE 64 (k.vr v).toNat] ∧
      t = { s with carr := t.carr })

/-- Windows and requests of Carr. -/
def Obligations.CarrWindowsAndRequests : Prop :=
  (
   ∀ (s : State) (part slot stage id prog signal work pc : Nat), mainOn s = true →
     let free := s.carr.windows.all (fun w => w.id % 64 != id % 64)
     let sl := slotAt s part slot
     let st := (sl.stores.find? (fun e => e.1 = stage)).getD (stage, 0, 0)
     let batch := ((sl.batches.find? (fun b => b.at_ = .after stage)).map (·.id)).getD 0
     (free = true → exec (.windowOpen 32 slot stage id prog signal work) s =
       .next (openWindow ⟨id, ownSystem, 4096, 0, 2, 0, prog, signal, work, windowNs s, s.clock.now, windowPcs s, 0, 0, 0, 0, [], []⟩ s)) ∧
     (∀ im k, free = true → part ≠ 32 → sl.image = some im → windowKind (nth im.stages stage {}).kind = some k → sl.state.holds = true →
       sl.halted = false → exec (.windowOpen part slot stage id prog signal work) s =
         .next (openWindow ⟨id, part, 4 * part + slot, stage, k, imageTokens im, prog, signal, work, windowNs s, s.clock.now,
           windowPcs s, 0, batch, st.2.1, st.2.2, [], []⟩ s)) ∧
     (∀ w, (coreAt s pc 0).window.bind (windowAt s) = some w → (coreAt s pc 0).running = true → w.opened + w.length ≤ s.clock.now + 1000 →
       ∃ t, exec (.cutPoint pc) s = .next t ∧ (coreAt t pc 0).running = false ∧
         (KMap.getD t.carr.ready (readyKey w.id pc) ⟨w.id, 0, 0, 0⟩).state = 2 ∧ t.mem = s.mem) ∧
     (∀ w, windowAt s id = some w → w.opened + w.length ≤ s.clock.now →
       exec (.windowTimeout id) s = .next (w.open_.foldl (fun s pc => timeoutOn w pc s) s)) ∧
     ((pcAt s pc).mode = .drain → ∃ t, exec (.drainEnd pc) s = .next t ∧
       (pcAt t pc).mode = if (nextWindow s pc).isSome then .pnm else .normal)) ∧
  (
   ∀ (s : State), mainOn s = true →
     (∀ id owner write addr len data poison ecc, 0 < (if write then data.length else len) →
       addr % 4096 + (if write then data.length else len) ≤ 4096 → data.length ≤ (if write then data.length else len) →
       exec (.normalRequest id owner write addr len data poison ecc) s =
         .next (takeCarr ⟨id, 0, addr, owner, write, addr, if write then data.length else len, data, poison, ecc, s.clock.now⟩ s)) ∧
     (∀ pc ecc, pc < 512 → stackDead s pc = false → (pcAt s pc).mode ≠ .pnm →
       ∃ t, exec (.scrubRow pc ecc) s = .next t ∧ (pcAt t pc).scrub = (pcAt s pc).scrub + 1 ∧ t.mem = s.mem) ∧
     (∀ pc n cause, KMap.find s.carr.swap pc = some (n, cause) → (pcAt s pc).mode = .normal → nextWindow s pc = none → stackDead s pc = false →
       ∃ t, exec (.coreMapChange pc) s = .next t ∧ coreOf t pc = n ∧
         KMap.getD t.carr.gens pc 0 = (KMap.getD s.carr.gens pc 0 + 1) % 256 ∧ KMap.find t.carr.swap pc = none) ∧
     (∀ stack, stack < 8 → s.carr.deadStacks.contains stack = false →
       ∃ t, exec (.stackFailure stack) s = .next t ∧ t.carr.deadStacks.contains stack = true) ∧
     (∀ part slot stage batch header probes im x kind pc, (slotAt s part slot).image = some im → (nth im.stages stage {}).index < 16 →
       indexAt s (16 * part + (nth im.stages stage {}).index) = some x → x.usable = true →
       windowKind (nth im.stages stage {}).kind = some kind → (slotAt s part slot).state.holds = true →
       let a := storeArea s (kind = 1) x.fmt im.bq (slotAt s part slot).tSlot
       let base := (match (slotAt s part slot).stores.find? (fun e => e.1 = stage) with | some e => e.2.1 | none => 0) + batch % a.2 * a.1
       base + 64 + 16 * rowBudget s x.fmt ≤ 0x100000 → pc ∈ windowPcs s →
       ∃ t, exec (.probeListWrite part slot stage batch header probes) s = .next t ∧ t.mem = { s.mem with stage := t.mem.stage } ∧
         Memory.readLE t.mem.stage (0x100000 * pc + base) 4 =
           (min ((probes.flatMap (probeEntries x kind)).filter (fun e => e.1 = pc)).length (rowBudget s x.fmt)) % 4294967296))

/-- Every form of READ and WRITE that goes to execution, and what a plain write leaves. -/
def Obligations.ReadAndWrite : Prop :=
  (
   ∀ (s : State) (pa : Path) (rq : Req),
     (Goes pa ⟨1, rq⟩ s →
       (∀ st, findFor pa rq false false = .error st → exec (.read pa rq) s = Answers pa ⟨1, rq⟩ (msgType ⟨1, rq⟩) st [] s) ∧
       (∀ r, findFor pa rq false false = .ok r → r.obj.acc = .wo → exec (.read pa rq) s = Answers pa ⟨1, rq⟩ r.obj.ty.code .writeOnly [] s) ∧
       (∀ r, findFor pa rq false false = .ok r → r.obj.acc ≠ .wo → exec (.read pa rq) s =
         Answers pa ⟨1, rq⟩ r.obj.ty.code .ok (valueBytes s r)
           (if r.obj.kind = .testProgress && s.island.test.isSome then { s with free := s.free + 1 } else s))) ∧
     (Goes pa ⟨2, rq⟩ s →
       (∀ st, findFor pa rq true false = .error st → exec (.write pa rq) s = Answers pa ⟨2, rq⟩ (msgType ⟨2, rq⟩) st [] s) ∧
       (∀ r, findFor pa rq true false = .ok r → (∃ n, r.obj.ty.size = some n ∧ n ≠ rq.data.length) →
         exec (.write pa rq) s = Answers pa ⟨2, rq⟩ r.obj.ty.code .length [] s) ∧
       (∀ r, findFor pa rq true false = .ok r → (∀ n, r.obj.ty.size = some n → n = rq.data.length) →
         writeBar pa r (leNat rq.data) s ≠ .ok →
         exec (.write pa rq) s = Answers pa ⟨2, rq⟩ r.obj.ty.code (writeBar pa r (leNat rq.data) s) [] s) ∧
       (∀ r, findFor pa rq true false = .ok r → (∀ n, r.obj.ty.size = some n → n = rq.data.length) →
         writeBar pa r (leNat rq.data) s = .ok →
         exec (.write pa rq) s = Answers pa ⟨2, rq⟩ r.obj.ty.code (writeNum pa r (leNat rq.data) s).1 [] (writeNum pa r (leNat rq.data) s).2))) ∧
  (
   ∀ (s : State) (pa : Path) (rq : Req) (r : ObjRef), Goes pa ⟨2, rq⟩ s → findFor pa rq true false = .ok r →
     (∀ n, r.obj.ty.size = some n → n = rq.data.length) → writeBar pa r (leNat rq.data) s = .ok → r.obj.kind = .plain → r.obj.sub < 256 →
     ∃ t, exec (.write pa rq) s = .next t ∧
       t.dict.stored = s.dict.stored ∧ t.dict.domains = s.dict.domains ∧ t.dict.storedDoms = s.dict.storedDoms ∧
       t.dict.stagedDoms = s.dict.stagedDoms ∧ t.dict.locks = s.dict.locks ∧ t.dict.transfers = s.dict.transfers ∧
       t.dict.storeA = s.dict.storeA ∧ t.dict.storeB = s.dict.storeB ∧
       (r.obj.staged = false → t.dict.staged = s.dict.staged ∧
         ∀ i sub d, sub < 256 → rwVal t i sub d = if i = r.idx ∧ sub = r.obj.sub then leNat rq.data else rwVal s i sub d) ∧
       (r.obj.staged = true → t.dict.written = s.dict.written ∧
         ∀ i sub d, sub < 256 → stagedVal t i sub d = if i = r.idx ∧ sub = r.obj.sub then leNat rq.data else stagedVal s i sub d))

/-- Segments in order, out of order and last, and the bytes a READ_SEG returns. -/
def Obligations.Segments : Prop :=
  ∀ (s : State) (pa : Path) (rq : Req),
    (∀ r, Goes pa ⟨3, rq⟩ s → findFor pa rq false true = .ok r → r.obj.acc ≠ .wo → r.obj.kind ≠ .annalsRecords →
      (r.obj.kind = .lanternCapture → (getLantern s r.p0).state = .done) → r.obj.kind ≠ .snapshot →
      exec (.readSeg pa rq) s = Answers pa ⟨3, rq⟩ 10 .ok (((readBytes s r).drop rq.off).take (readLimit pa)) s) ∧
    (∀ r, Goes pa ⟨4, rq⟩ s → findFor pa rq true true = .ok r → (∀ n, r.obj.dlen.most = some n → rq.off + rq.data.length ≤ n) →
      accessBar pa r s = .ok →
      (continued pa rq s = none → exec (.writeSeg pa rq) s = Answers pa ⟨4, rq⟩ 10 .sequence [] (dropTransfer pa s)) ∧
      (∀ b, continued pa rq s = some b → rq.last = false → ∃ t, exec (.writeSeg pa rq) s = .next t ∧
        t.dict.transfers = s.dict.transfers.filter (fun x => x.path != pa) ++ [⟨pa, rq.idx, rq.sub, b ++ rq.data⟩] ∧
        t.dict.domains = s.dict.domains ∧ t.mem = s.mem ∧ t.slots = s.slots) ∧
      (∀ b, continued pa rq s = some b → rq.last = true → domainBar pa r (b ++ rq.data).length (dropTransfer pa s) = .ok →
        exec (.writeSeg pa rq) s = Answers pa ⟨4, rq⟩ 10 (writeBytes r (b ++ rq.data) (dropTransfer pa s)).1 []
          (writeBytes r (b ++ rq.data) (dropTransfer pa s)).2))

/-- The lock table under LOCK and UNLOCK, and the writes that a lock stops. -/
def Obligations.HostLocks : Prop :=
  (∀ (s : State) (pa : Path) (rq : Req), lockBar pa rq.idx rq.sub = .ok →
    (Goes pa ⟨5, rq⟩ s →
      ((∀ port m, pa ≠ .mbox port m) → exec (.lock pa rq) s = Answers pa ⟨5, rq⟩ (msgType ⟨5, rq⟩) .notOwner [] s) ∧
      (∀ port m, pa = .mbox port m → (objectsOf rq.idx).any (fun r => r.obj.sub = rq.sub && r.obj.recovery) = false →
        s.dict.locks.any (fun l => l.idx = rq.idx && l.sub = rq.sub) = false →
        exec (.lock pa rq) s = if s.dict.locks.length < 64
          then Answers pa ⟨5, rq⟩ (msgType ⟨5, rq⟩) .ok [] { s with dict := { s.dict with locks := s.dict.locks ++ [⟨rq.idx, rq.sub, port⟩] } }
          else Answers pa ⟨5, rq⟩ (msgType ⟨5, rq⟩) .lockFull [] s)) ∧
    (Goes pa ⟨6, rq⟩ s →
      ((∀ port m, pa ≠ .mbox port m) → exec (.unlock pa rq) s = Answers pa ⟨6, rq⟩ (msgType ⟨6, rq⟩) .notOwner [] s) ∧
      (∀ port m, pa = .mbox port m → ∃ ls, exec (.unlock pa rq) s = Answers pa ⟨6, rq⟩ (msgType ⟨6, rq⟩) .ok [] { s with dict := { s.dict with locks := ls } } ∧
        (∀ l, l ∈ ls ↔ l ∈ s.dict.locks ∧ ¬(l.idx = rq.idx ∧ l.sub = rq.sub)) ∧
        ((∀ l ∈ s.dict.locks, ¬(l.idx = rq.idx ∧ l.sub = rq.sub)) → ls = s.dict.locks)))) ∧
  (∀ (s : State) (pa : Path) (r : ObjRef) (v : Nat),
    (isSide pa = true → r.exists_ = true → r.obj.acc = .rws → r.obj.recovery = false →
      (∃ l ∈ s.dict.locks, l.idx = r.idx ∧ (l.sub = r.obj.sub ∨ l.sub = 0xFF)) → writeBar pa r v s = .locked) ∧
    (isSide pa = false → writeBar pa r v s = writeBar pa r v { s with dict := { s.dict with locks := [] } })) ∧
  (∀ (s : State) (ls : List HostLock), storeNums { s with dict := { s.dict with locks := ls } } = storeNums s ∧
    storeDoms { s with dict := { s.dict with locks := ls } } = storeDoms s)

/-- The access right of key objects, and the answer to any read of a WO object. -/
def Obligations.KeysAreWriteOnly : Prop :=
  (∀ (i : Nat) (r : ObjRef), r ∈ objectsOf i → r.obj.kind = .linkKey ∨ r.obj.kind = .flashKey ∨ r.obj.kind = .sideKey → r.obj.acc = .wo) ∧
  (∀ (s : State) (pa : Path) (rq : Req) (r : ObjRef), r.obj.acc = .wo →
    (Goes pa ⟨1, rq⟩ s → findFor pa rq false false = .ok r → exec (.read pa rq) s = Answers pa ⟨1, rq⟩ r.obj.ty.code .writeOnly [] s) ∧
    (Goes pa ⟨3, rq⟩ s → findFor pa rq false true = .ok r → exec (.readSeg pa rq) s = Answers pa ⟨3, rq⟩ 10 .writeOnly [] s))

/-- Messages that are lost, refused, forwarded, or that come over the fabric. -/
def Obligations.MessageRouting : Prop :=
  (
   (∀ (s : State) (pa : Path) (m : Msg) (c : Instr), messageCommand pa m = some c →
     (reach pa m.req.idx (msgRecovers m) (msgWrites m) s = .silent → restrictedHit pa m s = false → exec c s = .next s) ∧
     (∀ st, reach pa m.req.idx (msgRecovers m) (msgWrites m) s = .refused st → restrictedHit pa m s = false →
       exec c s = .next (answer pa (replyTo m (msgType m) st []) s)) ∧
     (reach pa m.req.idx (msgRecovers m) (msgWrites m) s = .held → restrictedHit pa m s = false →
       exec c s = .next { s with dict := { s.dict with held := s.dict.held ++ [⟨pa, m⟩] } }) ∧
     (reach pa m.req.idx (msgRecovers m) (msgWrites m) s = .go → restrictedHit pa m s = false → messageWaits m s = true →
       exec c s = .next s)) ∧
   (∀ (s : State) (pa : Path) (i : Nat) (rec wr : Bool), pathOpen pa s = true → pa ≠ .test → lifeCycle s ≠ 5 → (decidingHub s).isSome = true →
     s.dev.state ≠ .standby → s.dev.state ≠ .failed → reach pa i rec wr s = .go)) ∧
  (
   ∀ (s : State) (f : Flit), s.fab.inbox.find? (fun g => g.type = 9) = some f →
     let t : State := { s with fab := { s.fab with inbox := s.fab.inbox.erase f } }
     let pa : Path := .fabric f.src
     let m := parseMsg f.data
     (f.src ≠ rwVal s 0x7000 2 0xFFFFFFFF ∨ f.cls ≠ 0 → exec .fmFrame s = .next (bump 0x7000 0x0F 1 t)) ∧
     (f.src = rwVal s 0x7000 2 0xFFFFFFFF → f.cls = 0 → restrictedHit pa m s = false → messageWaits m s = false → 224 < m.req.data.length →
       exec .fmFrame s = Answers pa m (msgType m) .length [] t) ∧
     (f.src = rwVal s 0x7000 2 0xFFFFFFFF → f.cls = 0 → Goes pa m s → m.req.data.length ≤ 224 →
       exec .fmFrame s = .next (execute pa (runAny pa m) t)))

/-- The configuration store, lock clearing and the version range. -/
def Obligations.StoreLocksAndVersions : Prop :=
  (
   ∀ (s : State) (pa : Path) (tag : Nat), reach pa 0 false false s = .go →
     let m : Msg := ⟨7, { tag := tag }⟩
     let n : Msg := ⟨8, { tag := tag }⟩
     let ga := if s.dict.storeA.valid && s.dict.storeA.epoch = fuseEpoch s then s.dict.storeA.gen else 0
     let gb := if s.dict.storeB.valid && s.dict.storeB.epoch = fuseEpoch s then s.dict.storeB.gen else 0
     let c : StoreCopy := { valid := true, gen := max ga gb + 1, epoch := fuseEpoch s, nums := storeNums s, doms := storeDoms s }
     (pathPart pa = none → storeSize (storeNums s) (storeDoms s) ≤ 262144 →
       exec (.store pa tag true) s = Answers pa m 0 .ok []
         { s with dict := if ga ≤ gb then { s.dict with storeA := c, storeGen := c.gen } else { s.dict with storeB := c, storeGen := c.gen } }) ∧
     (pathPart pa = none → 262144 < storeSize (storeNums s) (storeDoms s) → exec (.store pa tag true) s = Answers pa m 0 .storeFail [] s) ∧
     (pathPart pa = none → exec (.store pa tag false) s = Answers pa m 0 .storeFail [] s) ∧
     (pathPart pa = none → exec (.restoreDefaults pa tag true) s = Answers pa n 0 .ok []
       { s with dict := { s.dict with storeA := { s.dict.storeA with valid := false }, storeB := { s.dict.storeB with valid := false } } }) ∧
     (pathPart pa = none → exec (.restoreDefaults pa tag false) s = Answers pa n 0 .storeFail [] s) ∧
     (∀ p, pathPart pa = some p → ∀ ok, exec (.store pa tag ok) s = Answers pa m 0 .partition [] s ∧
       exec (.restoreDefaults pa tag ok) s = Answers pa n 0 .partition [] s)) ∧
  (
   ∀ (s : State) (pa : Path) (tag v : Nat),
     (RowTaken pa ⟨objClearLocks, []⟩ v s →
       (s.dev.state ≠ .recovery → exec (.clearLocks pa tag v) s = RowDone pa tag ⟨objClearLocks, []⟩ v .state s) ∧
       (s.dev.state = .recovery → exec (.clearLocks pa tag v) s = RowDone pa tag ⟨objClearLocks, []⟩ v .ok
         (if v = 1 then { s with dict := { s.dict with locks := [] } } else s))) ∧
     (∀ port, port < 2 →
       let r : ObjRef := ⟨if port = 0 then objHaRange else objHbRange, []⟩
       RowTaken pa r v s →
       (commonVersion 0x01000100 v = 0 → exec (.driverRangeWrite pa tag port v) s = RowDone pa tag r v .version s) ∧
       (commonVersion 0x01000100 v ≠ 0 → exec (.driverRangeWrite pa tag port v) s = RowDone pa tag r v .ok
         (setCount 0x1011 (3 + port) (commonVersion 0x01000100 v) (setRw 0x1011 (1 + port) v s)))))

/-- A go to an idle, a busy and a malformed mailbox, and the vector at the rise of done. -/
def Obligations.MailboxRequests : Prop :=
  (∀ (s : State) (port m ctrl : Nat) (buf : Bytes), port < 2 → m ≤ 32 → bit ctrl 0 = true → (hubSide s port).present = true →
    s.dev.state ≠ .standby →
    let pa : Path := .mbox port m
    let g := parseMsg buf
    let t := modMbox port m (fun x =>
      { x with request := slice buf 0 2048, busy := true, done := false, overrun := false, running := bits ctrl 31 16 }) s
    ((mboxAt s port m).busy = true → ∃ u, exec (.mailboxGo port m ctrl buf) s = .next u ∧
      mboxAt u port m = { mboxAt s port m with overrun := true } ∧ u.outs = s.outs ∧ u.dict.written = s.dict.written ∧
      countVal u 0x1050 2 0 = countVal s 0x1050 2 0 + 1) ∧
    ((mboxAt s port m).busy = false → malformed buf = true → ∃ u, exec (.mailboxGo port m ctrl buf) s = .next u ∧
      mboxAt u port m = { mboxAt s port m with request := slice buf 0 2048, busy := false, done := true, overrun := false, mstat := 1,
                                               running := bits ctrl 31 16, seq := bits ctrl 31 16 } ∧ u.dict.written = s.dict.written) ∧
    ((mboxAt s port m).busy = false → malformed buf = false → Goes pa g s → Goes pa g t →
      exec (.mailboxGo port m ctrl buf) s = .next (execute pa (runAny pa g) t)) ∧
    ((mboxAt s port m).busy = false → malformed buf = false → Goes pa g s → Goes pa g t →
      let w := runAny pa g t
      pathOpen pa w.2 = true → (mboxAt w.2 port m).busy = true → ∃ u, exec (.mailboxGo port m ctrl buf) s = .next u ∧
        (mboxAt u port m).busy = false ∧ (mboxAt u port m).done = true ∧ (mboxAt u port m).mstat = 0 ∧
        (mboxAt u port m).seq = (mboxAt w.2 port m).running ∧ (mboxAt u port m).response = replyBytes w.1)) ∧
  (∀ (s : State) (port m : Nat) (r : Reply), (mboxAt s port m).busy = true →
    let v := if m = 0 then rwVal s 0x1050 1 0xFFFF else rwVal s (0x3000 + 0x10 * (m - 1)) 0x0F 0xFFFF
    (finishMailbox port m r s).outs = if v = 0xFFFF then s.outs else .msix port v :: s.outs)

/-- HELLO, request frames and their duplicates, and the close of a session. -/
def Obligations.AfwellSessions : Prop :=
  (∀ (s : State) (port : Nat) (fr : AfFrame) (m : Msg), port < 2 → s.island.alive = true → fr.msgs = [m] →
    (fr.magic = 0x4146 → fr.flags = 0 → fr.session = 0 → fr.seq < 2 ^ 63 → fr.tagOk = true → m.op = 9 →
      (helloBar port m.req s = .ok → ∃ t x d, exec (.hello port fr) s = .next t ∧ t.dict.sessions = s.dict.sessions ++ [x] ∧
        x.port = port ∧ x.id ≠ 0 ∧ x.lastAt = s.clock.now ∧ x.seen = [] ∧ x.kept = [] ∧ t.free = s.free + 2 ∧
        t.outs = .afwell port 0 fr.seq [replyTo m 10 .ok d] :: s.outs ∧ t.dict = { s.dict with sessions := t.dict.sessions } ∧
        t.hubs = s.hubs ∧ t.island = s.island) ∧
      (∀ st, helloBar port m.req s = st → st ≠ .ok →
        exec (.hello port fr) s = .next { s with outs := .afwell port 0 fr.seq [replyTo m 10 st []] :: s.outs }) ∧
      (m.req.idx = 0x1010 → m.req.sub = 2 → m.req.ty = 10 → m.req.off = 0 → m.req.last = true → m.req.data.length = 20 →
        commonVersion 0x01000100 (leAt m.req.data 16 4) ≠ 0 → 8 ≤ (s.dict.sessions.filter (fun x => x.port = port)).length →
        helloBar port m.req s = .state)) ∧
    (fr.magic ≠ 0x4146 ∨ fr.flags ≠ 0 ∨ fr.session ≠ 0 ∨ 2 ^ 63 ≤ fr.seq ∨ fr.tagOk = false ∨ m.op ≠ 9 →
      exec (.hello port fr) s = .next (bump 0x1040 8 1 s))) ∧
  (∀ (s : State) (port : Nat) (fr : AfFrame), port < 2 → s.island.alive = true →
    let pa : Path := .side port fr.session
    (sessionAt s port fr.session = none → exec (.afwellFrame port fr) s = .next (bump 0x1040 8 1 s)) ∧
    (∀ x, sessionAt s port fr.session = some x →
      (frameFits x fr = false → exec (.afwellFrame port fr) s = .next (bump 0x1040 8 1 s)) ∧
      (∀ k, frameFits x fr = true → seqNew x fr.seq = false → x.kept.find? (fun k => k.1 = fr.seq) = some k →
        exec (.afwellFrame port fr) s = .next { s with outs := .afwell port fr.session fr.seq k.2 :: s.outs }) ∧
      (frameFits x fr = true → seqNew x fr.seq = true → (∀ m ∈ fr.msgs, Goes pa m s) →
        let r := runFrame pa fr.msgs s
        let t := modSession port fr.session (fun x =>
          { x with highest := max x.highest fr.seq, lastAt := s.clock.now, kept := ((fr.seq, r.1) :: x.kept).take 16,
                   seen := (fr.seq :: x.seen).filter (fun n => max x.highest fr.seq ≤ n + 64) }) r.2
        exec (.afwellFrame port fr) s = .next (settle (if t.island.alive then emit (.afwell port fr.session fr.seq r.1) t else t))))) ∧
  (∀ (s : State) (port session : Nat) (x : Session), sessionAt s port session = some x → x.lastAt + 60000000000 ≤ s.clock.now →
    ∃ t, exec (.sessionTimeout port session) s = .next t ∧ sessionAt t port session = none ∧
      (∀ p i, ¬(p = port ∧ i = session) → sessionAt t p i = sessionAt s p i) ∧ t.hubs = s.hubs ∧ t.outs = s.outs)

/-- What each heartbeat command does. -/
def Obligations.Heartbeats : Prop :=
  ∀ (s : State) (hub : Nat), hub < 2 → (hubSide s hub).present = true →
    let u := hubSide s hub
    (u.lastSent + 5000 ≤ s.clock.now → ∃ t, exec (.heartbeatSend hub) s = .next t ∧
      (∃ m, t.outs = .heartbeat hub 1 u.epoch u.primary u.deciding m :: .heartbeat hub 0 u.epoch u.primary u.deciding m :: s.outs) ∧
      hubSide t hub = { u with lastSent := s.clock.now } ∧ hubSide t (otherHub hub) = hubSide s (otherHub hub) ∧
      { t with outs := s.outs, hubs := s.hubs } = s) ∧
    (∀ path epoch p d mirror, path < 2 → ∃ t, exec (.heartbeatReceive hub path epoch p d mirror) s = .next t ∧
      (if path = 0 then (hubSide t hub).lastA = s.clock.now ∧ (hubSide t hub).failedA = false ∧ (hubSide t hub).failedB = u.failedB
        else (hubSide t hub).lastB = s.clock.now ∧ (hubSide t hub).failedB = false ∧ (hubSide t hub).failedA = u.failedA) ∧
      (hubSide t hub).silent = false ∧ (u.primary = false → (hubSide t hub).epoch = max u.epoch epoch) ∧
      t.mem = s.mem ∧ t.slots = s.slots ∧ t.clock = s.clock) ∧
    (∀ path, path < 2 → (if path = 0 then u.failedA else u.failedB) = false → (if path = 0 then u.lastA else u.lastB) + 25000 ≤ s.clock.now →
      ∃ t, exec (.heartbeatPathTimeout hub path) s = .next t ∧
        (hubSide t hub).failedA = (u.failedA || path = 0) ∧ (hubSide t hub).failedB = (u.failedB || path = 1) ∧
        (hubSide t hub).silent = (u.silent || ((u.failedA || path = 0) && (u.failedB || path = 1))) ∧
        (hubSide t hub).primary = u.primary ∧ t.mem = s.mem ∧ t.slots = s.slots) ∧
    (∀ d, u.due = some d → u.primary = true → u.deciding = false → preferredHub s ≠ hub → d ≤ s.clock.now →
      ∃ t, exec (.passiveDeadline hub) s = .next t ∧
        hubSide t hub = { u with primary := false, due := none, alarm := true } ∧ (.peerSilent hub) ∈ t.outs) ∧
    (∀ d, u.due = some d → preferredHub s = hub → d ≤ s.clock.now →
      exec (.soloDeadline hub) s = .next (settle (if u.primary
        then resumeCells ((modHub hub (fun u => { u with due := none }) s).modHubs (fun v => { v with solo := true }))
        else takePrimacy hub true (max u.epoch s.hubs.unitEpoch + 1) 1 s)))

/-- The change of primacy by each of its ways. -/
def Obligations.Primacy : Prop :=
  (∀ (s : State) (h : Nat) (solo : Bool) (epoch cause : Nat), h < 2 →
    let t := takePrimacy h solo epoch cause s
    (hubSide t h).primary = true ∧ (hubSide t h).deciding = true ∧ (hubSide t h).epoch = epoch ∧ (hubSide t h).due = none ∧
    (hubSide t (otherHub h)).primary = false ∧ (hubSide t (otherHub h)).deciding = false ∧ t.hubs.solo = solo ∧
    t.hubs.unitEpoch = max s.hubs.unitEpoch epoch ∧ t.hubs.grant = none ∧
    t.clock.ft = max s.clock.ft s.clock.mirrored) ∧
  (∀ (s : State) (pa : Path) (tag v : Nat), RowTaken pa ⟨objHandoverAt, []⟩ v s →
    (∀ r, handoverBar s = some r → exec (.handoverAtWrite pa tag v) s = RowDone pa tag ⟨objHandoverAt, []⟩ v .state s) ∧
    (handoverBar s = none → exec (.handoverAtWrite pa tag v) s = RowDone pa tag ⟨objHandoverAt, []⟩ v .ok
      { s with alm := { s.alm with entries := KMap.put s.alm.entries 1 { fire := instantTick s v, action := 7, target := 0, owner := 0x20, policy := 0 } } })) ∧
  (∀ (s : State) (pa : Path) (tag v : Nat), RowTaken pa ⟨objPreferred, []⟩ v s →
    (∀ h, primaryHub s = some h → h = v ∨ pathsUp s = false →
      exec (.preferredPrimaryWrite pa tag v) s = RowDone pa tag ⟨objPreferred, []⟩ v .ok (setRw 0x1020 3 v s)) ∧
    (∀ h r, primaryHub s = some h → pathsUp s = true → h ≠ v → handoverBar s = some r →
      exec (.preferredPrimaryWrite pa tag v) s = RowDone pa tag ⟨objPreferred, []⟩ v .state s) ∧
    (∀ h, primaryHub s = some h → pathsUp s = true → h ≠ v → handoverBar s = none →
      exec (.preferredPrimaryWrite pa tag v) s = RowDone pa tag ⟨objPreferred, []⟩ v .ok
        (placeShot 1 7 0 (instantTick (setRw 0x1020 3 v s) 0) 0x20 0 (setRw 0x1020 3 v s))) ∧
    (primaryHub s = none → isSide pa = false → exec (.preferredPrimaryWrite pa tag v) s = RowDone pa tag ⟨objPreferred, []⟩ v .ok (setRw 0x1020 3 v s)) ∧
    (∀ port session, primaryHub s = none → pa = .side port session → port = v → (hubSide s v).present = true → (hubSide s v).silent = true →
      exec (.preferredPrimaryWrite pa tag v) s = RowDone pa tag ⟨objPreferred, []⟩ v .ok
        (takePrimacy v true (max (hubSide s v).epoch s.hubs.unitEpoch + 1) 3 (setRw 0x1020 3 v s)))) ∧
  (∀ (s : State) (f : Firing) (h : Nat), firingOf s 1 = some f → primaryHub s = some h →
    (handoverBar (actedFiring 1 s) = none → ∃ t, exec .handoverFiring s = .next t ∧
      t.hubs.grant = some ⟨otherHub h, max (hubSide s h).epoch s.hubs.unitEpoch + 1, s.clock.now⟩ ∧ (hubSide t h).primary = false ∧
      (hubSide t h).deciding = false ∧ t.outs = .grant (otherHub h) (max (hubSide s h).epoch s.hubs.unitEpoch + 1) :: s.outs) ∧
    (∀ r, handoverBar (actedFiring 1 s) = some r → s.island.update = none →
      exec .handoverFiring s = .next (annal 0x0103 2 ownDevice (srcHub h) [BitVec.ofNat 8 r] (actedFiring 1 s)))) ∧
  (∀ (s : State) (g : Grant) (path : Nat), s.hubs.grant = some g → (hubSide s g.hub).present = true →
    exec (.grantReceive g.hub path) s = .next (settle (updateHandedOver (runHeld (takePrimacy g.hub s.hubs.solo g.epoch 0 s))))) ∧
  (∀ (s : State), s.hubs.resync = true → s.island.update = none → ∃ t, exec .mirrorResyncDone s = .next t ∧
    t.hubs = { s.hubs with solo := false, resync := false, acked := s.hubs.issued })

/-- Each device command in and out of the states of its row. -/
def Obligations.DeviceCommands : Prop :=
  ∀ (s : State) (pa : Path) (tag : Nat),
    let r : ObjRef := ⟨objDevCommand, []⟩
    let no (c : Instr) (code : Nat) : Prop := exec c s = RowDone pa tag r code .state s
    (RowTaken pa r 1 s → (s.dev.state ≠ .standby → no (.powerOnMain pa tag) 1) ∧
      (s.dev.state = .standby → refclkGood s = true → lifeCycle s ≠ 5 →
        exec (.powerOnMain pa tag) s = RowDone pa tag r 1 .ok (powerOn 0 s) ∧ (powerOn 0 s).dev.state = .booting ∧
        (powerOn 0 s).island.groups = 1 ∧ (powerOn 0 s).island.good = [])) ∧
    (RowTaken pa r 2 s → (s.dev.state ≠ .config → no (.startServing pa tag) 2) ∧
      (s.dev.state = .config → mayServe s = false → no (.startServing pa tag) 2) ∧
      (s.dev.state = .config → rwVal s 0x2001 1 3 ≠ 3 → rwVal s 0x2001 1 3 ≠ 4 → (∃ e ∈ s.slots, e.2.state = .active) → lifeCycle s ≠ 0 →
        lifeCycle s ≠ 5 → EntersState (.startServing pa tag) .serving s)) ∧
    (RowTaken pa r 3 s → (s.dev.state ≠ .serving → no (.drain pa tag) 3) ∧
      (s.dev.state = .serving → ∃ t, exec (.drain pa tag) s = .next t ∧
        t.dev.state = (if s.levee.queries = [] then .config else .draining) ∧ t.levee = s.levee ∧ t.slots = s.slots ∧ t.mem = s.mem)) ∧
    (RowTaken pa r 4 s → (s.dev.state ≠ .config → no (.enterTest pa tag) 4) ∧
      (s.dev.state = .config → EntersState (.enterTest pa tag) .test s)) ∧
    (RowTaken pa r 5 s → (s.dev.state ≠ .test → no (.exitTest pa tag) 5) ∧
      (s.dev.state = .test → EntersState (.exitTest pa tag) .config s)) ∧
    (RowTaken pa r 6 s → (s.dev.state = .standby ∨ s.dev.state = .recovery → no (.enterRecovery pa tag) 6) ∧
      (s.dev.state ≠ .standby → s.dev.state ≠ .recovery → EntersState (.enterRecovery pa tag) .recovery s ∧
        ∃ t, exec (.enterRecovery pa tag) s = .next t ∧ t.dict.locks = [] ∧ t.dict.transfers = [] ∧ t.island.test = none)) ∧
    (RowTaken pa r 7 s → (s.dev.state ≠ .recovery → no (.exitRecovery pa tag) 7) ∧
      (s.dev.state = .recovery → EntersState (.exitRecovery pa tag) .config s)) ∧
    (RowTaken pa r 8 s → (s.dev.state = .standby ∨ s.dev.state = .booting ∨ s.dev.state = .serving ∨ s.dev.state = .draining →
        no (.resetMain pa tag) 8 ∧ (RowTaken pa r 9 s → no (.powerOffMain pa tag) 9)) ∧
      (s.dev.state = .config ∨ s.dev.state = .test ∨ s.dev.state = .recovery ∨ s.dev.state = .failed →
        ∃ t, exec (.resetMain pa tag) s = .next t ∧ t.dev.state = .booting)) ∧
    (RowTaken pa r 9 s → s.dev.state = .config ∨ s.dev.state = .test ∨ s.dev.state = .recovery ∨ s.dev.state = .failed →
        ∃ t, exec (.powerOffMain pa tag) s = .next t ∧ t.dev.state = .standby)

/-- The role object: its codes, its states, its default, and what the default bars. -/
def Obligations.Role : Prop :=
  ∃ r : ObjRef, findObject 0x2001 1 = some r ∧ r.obj.kind = .role ∧
    (∀ v, valueStatus r.obj v = .ok ↔ v = 1 ∨ v = 2 ∨ v = 3 ∨ v = 4) ∧
    (∀ (s : State) (pa : Path) (v : Nat), writeBar pa r v s = .ok →
      objectWrite pa r v (writeNum pa r v) s =
        if s.dev.state = .config ∨ s.dev.state = .test ∨ s.dev.state = .recovery then (.ok, setRw 0x2001 1 v s) else (.state, s)) ∧
    (∀ (s : State) (v : Nat), rwVal (setRw 0x2001 1 v s) 0x2001 1 3 = v) ∧
    (∀ s : State, KMap.find s.dict.written (okey 0x2001 1) = none → KMap.find s.dict.stored (okey 0x2001 1) = none →
      readNum s r = 3 ∧ devCommand 2 s = (.state, s))

/-- Each slot command, refused and taken. -/
def Obligations.SlotCommands : Prop :=
  ∀ (s : State) (pa : Path) (tag part slot : Nat),
    let r : ObjRef := ⟨objSlotCommand, [part, slot]⟩
    let x := slotAt s part slot
    let done (code : Nat) (st : Status) (u : State) : Answered := RowDone pa tag r code st u
    let ok (u : State) : State := setRefusal part slot (0, 0xFFFF) u
    (∀ v, RowTaken pa ⟨objPartEnable, [part]⟩ v s →
      (v = 0 → (∃ e ∈ s.slots, e.1 / 4 = part ∧ e.2.state ≠ .empty) →
        exec (.partitionEnableWrite pa tag part v) s = RowDone pa tag ⟨objPartEnable, [part]⟩ v .state s) ∧
      (v ≠ 0 ∨ (∀ e ∈ s.slots, e.1 / 4 = part → e.2.state = .empty) →
        exec (.partitionEnableWrite pa tag part v) s = RowDone pa tag ⟨objPartEnable, [part]⟩ v .ok (setRw (0x3000 + 0x10 * part) 1 v s))) ∧
    (∀ c code, (c, code) ∈ [(Instr.load pa tag part slot, 1), (.activate pa tag part slot, 2), (.retire pa tag part slot, 3),
        (.swap pa tag part slot, 5), (.revalidate pa tag part slot, 6)] → RowTaken pa r code s →
      slotCommandOpen s.dev.state code = false ∨ slotCommandFrom x.state code = false → exec c s = done code .state s) ∧
    (RowTaken pa r 1 s → slotCommandOpen s.dev.state 1 = true → x.state = .staged →
      let f := fitResult (fitChecks s (4 * part + slot) x.file)
      exec (.load pa tag part slot) s = if f.1 = 0 then done 1 .ok (settle (claimImage (4 * part + slot) (setRefusal part slot f s)))
        else done 1 .range (setRefusal part slot f s)) ∧
    (RowTaken pa r 2 s → x.state = .resident →
      (s.dev.state = .config → exec (.activate pa tag part slot) s =
        if activationBar s part slot = 0 then done 2 .ok (ok (makeActive part slot true s)) else done 2 .state s) ∧
      (s.dev.state = .serving → let t := placeSlotEntry (activateNo part slot) 2 part slot (rwVal s (slotObj part slot) 6 0) s
        (t = none → exec (.activate pa tag part slot) s = done 2 .range s) ∧
        (∀ u, t = some u → exec (.activate pa tag part slot) s = done 2 .ok (ok (modSlot part slot (fun x => { x with state := .pending }) u))))) ∧
    (RowTaken pa r 3 s → slotCommandOpen s.dev.state 3 = true →
      (x.state = .active → exec (.retire pa tag part slot) s =
        done 3 .ok (ok (retireDone part slot (modSlot part slot (fun x => { x with state := .retiring, retiredAt := 0 }) s)))) ∧
      (x.state = .pending → exec (.retire pa tag part slot) s =
        done 3 .ok (ok (modSlot part slot (fun x => { x with state := .resident }) (cancelEntry (activateNo part slot) s))))) ∧
    (unloadWaits part slot s = false → RowTaken pa r 4 s → slotCommandOpen s.dev.state 4 = false ∨ slotCommandFrom x.state 4 = false →
      exec (.unload pa tag part slot) s = done 4 .state s) ∧
    (unloadWaits part slot s = true → exec (.unload pa tag part slot) s = .next s) ∧
    (unloadWaits part slot s = false → RowTaken pa r 4 s → slotCommandOpen s.dev.state 4 = true → x.state = .resident ∨ x.state = .staged →
      exec (.unload pa tag part slot) s = done 4 .ok (settle (setCount (slotObj part slot) 0x24 0 (ok
        ((if x.state = .resident then releaseImage (4 * part + slot) s else s).modSlots (fun m => KMap.del m (4 * part + slot))))))) ∧
    (RowTaken pa r 5 s → slotCommandOpen s.dev.state 5 = true → x.state = .active → x.prevLocked = false →
      entryAt s (swapNo part slot) = none → let t := placeSlotEntry (swapNo part slot) 3 part slot (rwVal s (slotObj part slot) 9 0) s
        (t = none → exec (.swap pa tag part slot) s = done 5 .range s) ∧
        (∀ u, t = some u → exec (.swap pa tag part slot) s = done 5 .ok (ok u))) ∧
    (RowTaken pa r 6 s → slotCommandOpen s.dev.state 6 = true → x.state = .resident ∨ x.state = .active →
      exec (.revalidate pa tag part slot) s =
        done 6 (slotRevalidate part slot s).1 (slotRevalidate part slot s).2 ∧
      ((slotRevalidate part slot s).1 = .ok ↔ (fitResult (revalidateChecks s (4 * part + slot) (x.image.getD {}))).1 = 0) ∧
      ((slotRevalidate part slot s).1 = .ok → (slotAt (slotRevalidate part slot s).2 part slot).tSlot =
        slotLength (x.image.getD {}) (guaranteedMhz (planningCap s))))

/-- What the two firings and the boundary of a slot do. -/
def Obligations.SlotTimes : Prop :=
  ∀ (s : State) (part slot : Nat),
    let x := slotAt s part slot
    (∀ f, firingOf s (activateNo part slot) = some f → x.state = .pending →
      let t := actedFiring (activateNo part slot) s
      (activationBar t part slot = 0 → exec (.activateFiring part slot) s =
          .next (slotAction part slot 2 (b2n f.late) 0 (makeActive part slot false t)) ∧
        (rwVal s (slotObj part slot) 8 0xFF ≠ slot → ∃ u, exec (.activateFiring part slot) s = .next u ∧ (slotAt u part slot).state = .active ∧
          (slotAt u part slot).service = rwVal s (slotObj part slot) 7 0 ∧ (slotAt u part slot).activeAt = s.clock.now)) ∧
      (activationBar t part slot ≠ 0 → ∃ u, exec (.activateFiring part slot) s = .next u ∧ (slotAt u part slot).state = .resident)) ∧
    (∀ f, firingOf s (swapNo part slot) = some f → x.state = .active → swapBar (actedFiring (swapNo part slot) s) part x = 0 →
      ∃ u, exec (.swapFiring part slot) s = .next u ∧ (slotAt u part slot).buffer = 1 - x.buffer ∧
        (slotAt u part slot).locked = (s.levee.queries.filter (fun q => q.part = part && q.slot = slot && q.buffer = x.buffer)).map (·.id) ∧
        (slotAt u part slot).swapAt = s.clock.now ∧ (∀ b ∈ (slotAt u part slot).batches, b.at_ = .waiting → b.closed = true) ∧ u.mem = s.mem) ∧
    (∀ im un, x.image = some im → x.state.holds = true → x.halted = false →
      ((∀ t ∈ x.tileMap, t ∉ s.units.lost) →
        exec (.slotBoundary part slot un) s = .next (settle (beginSlot part slot im (endSlot part slot im un s)))) ∧
      ((∃ t ∈ x.tileMap, t ∈ s.units.lost) → exec (.slotBoundary part slot un) s = .next (settle (haltSlot part slot s)))) ∧
    (∀ un, x.image = none ∨ x.halted = true → exec (.slotBoundary part slot un) s = .next s)

/-- What stops a row, for every row that writes an object. -/
def Obligations.RowsRefused : Prop :=
  (∀ (s : State) (pa : Path) (tag p q v : Nat) (good : List (Nat × Nat × Nat)) (aside : Nat) (ok : Bool) (x : Instr × ObjRef × Nat), ValueRow pa tag p q v good aside ok x →
    let to_ := reach pa x.2.1.idx x.2.1.obj.recovery true s
    (to_ = .silent → exec x.1 s = .next s) ∧
    (∀ st, to_ = .refused st → exec x.1 s = .next (answer pa (replyTo (writeMsg tag x.2.1 x.2.2) (msgType (writeMsg tag x.2.1 x.2.2)) st []) s)) ∧
    (to_ = .held → exec x.1 s = .next { s with dict := { s.dict with held := s.dict.held ++ [⟨pa, writeMsg tag x.2.1 x.2.2⟩] } }) ∧
    (to_ = .go → recoveryWaits x.2.1.idx s = true → exec x.1 s = .next s) ∧
    (to_ = .go → recoveryWaits x.2.1.idx s = false → writeBar pa x.2.1 x.2.2 s ≠ .ok →
      exec x.1 s = RowDone pa tag x.2.1 x.2.2 (writeBar pa x.2.1 x.2.2 s) s)) ∧
  (∀ (s : State) (pa : Path) (tag p q : Nat) (data : Bytes) (x : Instr × ObjRef), DomainRow pa tag p q data x →
    let to_ := reach pa x.2.idx x.2.obj.recovery true s
    (to_ = .silent → exec x.1 s = .next s) ∧
    (∀ st, to_ = .refused st → exec x.1 s = .next (answer pa (replyTo (domainMsg tag x.2 data) (msgType (domainMsg tag x.2 data)) st []) s)) ∧
    (to_ = .held → exec x.1 s = .next { s with dict := { s.dict with held := s.dict.held ++ [⟨pa, domainMsg tag x.2 data⟩] } }) ∧
    (to_ = .go → recoveryWaits x.2.idx s = true → exec x.1 s = .next s) ∧
    (to_ = .go → recoveryWaits x.2.idx s = false → domainBar pa x.2 data.length (dropTransfer pa s) ≠ .ok →
      exec x.1 s = DomainDone pa tag x.2 data (domainBar pa x.2 data.length (dropTransfer pa s)) (dropTransfer pa s)))

/-- From the fetch of a descriptor to the decision on it. -/
def Obligations.LeveeDecisions : Prop :=
  (
   ∀ (s : State) (port part sq : Nat) (desc payload : Bytes), mainOn s = true → ringsOk (linkAt s port) = true →
     let q := sqAt s port part sq
     let c := cqAt s port part q.cq
     let d := parseDesc desc
     let pay := slice payload 0 (if 524288 < d.payLen then 0 else d.payLen)
     let r : Request := { port := port, part := part, sq := sq, cq := q.cq, stamp := s.clock.now, stampFt := s.clock.ft, desc := d, payload := pay }
     q.enabled = true → q.head ≠ q.tail → c.enabled = true → c.closing = false → 1 ≤ cqFree c →
     (fetchCheck d (leAt desc 20 4) pay = 0 → ∃ t, exec (.descriptorFetch port part sq desc payload) s = .next t ∧
       sqAt t port part sq = { q with head := (q.head + 1) % q.depth } ∧ cqAt t port part q.cq = { c with held := c.held + 1 } ∧
       t.levee.requests = insertRequest r s.levee.requests ∧ (∀ x, x ∈ t.levee.requests ↔ x = r ∨ x ∈ s.levee.requests) ∧
       t.levee.queries = s.levee.queries ∧ t.outs = s.outs ∧ t.mem = s.mem ∧ t.slots = s.slots) ∧
     (fetchCheck d (leAt desc 20 4) pay ≠ 0 → ∃ u, exec (.descriptorFetch port part sq desc payload) s =
         .next (invalidRequest r (fetchCheck d (leAt desc 20 4) pay) u) ∧
       sqAt u port part sq = { q with head := (q.head + 1) % q.depth } ∧ cqAt u port part q.cq = { c with held := c.held + 1 } ∧
       u.levee = s.levee ∧ u.outs = s.outs ∧ u.mem = s.mem)) ∧
  (
   (∀ (s : State) (part : Nat) (r : Request), s.levee.requests.find? (fun r => r.part = part) = some r → r.mirror = none →
     s.hubs.grant = none →
     let d := decide_ r s
     (∀ c, d.1 = .refuse c → exec (.leveeDecision part) s = .next (settle (refuseRequest r c (dropRequest r d.2)))) ∧
     (∀ c, d.1 = .invalid c → exec (.leveeDecision part) s = .next (settle (invalidRequest r c (dropRequest r d.2)))) ∧
     (∀ sl lmax, d.1 = .take sl lmax → needsMirror s = true → ∃ t, exec (.leveeDecision part) s = .next t ∧
       t.levee.queries = s.levee.queries ∧ t.levee.updates = s.levee.updates ∧
       { r with mirror := some (s.hubs.issued + 1), slot := sl, lmax := lmax } ∈ t.levee.requests) ∧
     (∀ sl lmax, d.1 = .take sl lmax → needsMirror s = false → r.desc.isQuery = true → (slotAt s part sl).halted = false →
       ∃ t q, exec (.leveeDecision part) s = .next t ∧ t.levee.queries = s.levee.queries ++ [q] ∧ q.id = s.levee.nextId ∧ q.part = part ∧
         q.slot = sl ∧ q.lmax = lmax ∧ q.stamp = r.stamp ∧ q.deadline = r.stamp + 1000 * lmax ∧ q.dFt = r.stampFt + 1000 * lmax ∧
         q.desc = r.desc ∧ q.payload = r.payload ∧ t.levee.requests = s.levee.requests.erase r ∧ t.levee.updates = s.levee.updates ∧
         t.mem = s.mem) ∧
     (∀ sl lmax, d.1 = .take sl lmax → needsMirror s = false → r.desc.isQuery = false →
       ∃ t u, exec (.leveeDecision part) s = .next t ∧ t.levee.updates = s.levee.updates ++ [u] ∧ u.id = s.levee.nextId ∧
         u.bound = r.stamp + 1000 * rwVal s (0x3001 + 0x10 * part) 1 1000000 ∧ u.desc = r.desc ∧
         t.levee.requests = s.levee.requests.erase r ∧ t.levee.queries = s.levee.queries ∧ t.mem = s.mem)) ∧
   (∀ (s : State) (sq : Nat), mainOn s = true → s.hubs.acked < sq → sq ≤ s.hubs.issued →
     exec (.mirrorAck sq) s = .next (settle (takeAcked (resumeCells { s with hubs := { s.hubs with acked := sq } })))) ∧
   (∀ (s : State) (part : Nat) (r : Request), s.levee.requests.find? (fun r => r.part = part && r.mirror.isSome) = some r →
     r.stamp + 2000 ≤ s.clock.now → exec (.mirrorWriteTimeout part) s = .next (refuseRequest r 1 (dropRequest r s))))

/-- The events and the commands of Levee. -/
def Obligations.LeveeEvents : Prop :=
  (
   (∀ (s : State) (part : Nat), mainOn s = true → part < 32 →
     let new := nextUpdState (updStateOf s part) (slackOf s part) (promiseOf s part) (hystOf s part)
     ∃ t, exec (.updateStateChange part) s = .next t ∧ updStateOf t part = new ∧ (∀ p, p ≠ part → updStateOf t p = updStateOf s p) ∧
       t.levee.queries = s.levee.queries ∧ t.levee.updates = s.levee.updates ∧ t.mem = s.mem) ∧
   (∀ (s : State) (q : Query), s.levee.queries.find? (fun v => v.id = q.id) = some q → q.deadline ≤ s.clock.now + 2000 →
     exec (.backstopExpiry q.id) s = .next (settle (composeQuery q 2 0 0 0 [] s)) ∧
     (composeQuery q 2 0 0 0 [] s).levee.queries = s.levee.queries.filter (fun v => v.id != q.id)) ∧
   (∀ (s : State) (q : Query) (status degraded : Nat) (result : Bytes), s.levee.queries.find? (fun v => v.id = q.id) = some q →
     (∃ b ∈ (slotAt s q.part q.slot).batches, b.at_ = .out ∧ q.id ∈ b.queries) →
     let flags := (q.degraded ||| degraded) % 64
     let st := if status = 2 then 2 else if flags = 0 then 0 else 1
     exec (.completionRecordWrite q.id status degraded result) s =
       .next (settle (composeQuery q st 0 flags (if st = 2 then 0 else lookupDetail q.desc result) result s))) ∧
   (∀ (s : State) (c : Commit) (status degraded : Nat) (result : Bytes), s.levee.queries.find? (fun v => v.id = c.upd.id) = none →
     s.levee.committed.find? (fun v => v.upd.id = c.upd.id) = some c → c.at_ ≤ s.clock.ft →
     ∃ t, exec (.completionRecordWrite c.upd.id status degraded result) s = .next t ∧
       t.levee.committed = s.levee.committed.filter (fun v => v.upd.id != c.upd.id) ∧ t.levee.queries = s.levee.queries ∧ t.mem = s.mem) ∧
   (∀ (s : State), mainOn s = true → s.levee.lastSample / 1024 < s.clock.now / 1024 → ∃ t, exec .queueSample s = .next t ∧
     t.levee.lastSample = s.clock.now ∧ { t with levee := s.levee } = s ∧
     ∀ p n, p < 32 → n < 9 →
       let q := queueNow s p n
       let depth := min q.1 0xFFFF
       let delay := match q.2 with | some a => min ((s.clock.now - a) / 1000) 0xFFFF | none => 0
       let x := KMap.getD s.levee.samples (16 * p + n) {}
       KMap.getD t.levee.samples (16 * p + n) {} =
         { peakDepth := max x.peakDepth depth, depth := depth, peakDelay := max x.peakDelay delay, delay := delay })) ∧
  (
   ∀ (s : State) (pa : Path) (tag part cls : Nat),
     (∀ v, RowTaken pa ⟨objPolicerCommit, [part, cls]⟩ v s →
       let o := 0x3004 + 0x10 * part + cls
       let r : ObjRef := ⟨objPolicerCommit, [part, cls]⟩
       let bad := (stagedVal s o 1 0 = 1 ∧ stagedVal s o 4 0 < stagedVal s o 2 0) ∨ stagedVal s o 4 0 = 0 ∨ stagedVal s o 3 0 = 0 ∨ stagedVal s o 5 0 = 0
       (v ≠ 1 → exec (.policerCommit pa tag part cls v) s = RowDone pa tag r v .ok s) ∧
       (v = 1 → bad → exec (.policerCommit pa tag part cls v) s = RowDone pa tag r v .range s) ∧
       (v = 1 → ¬bad → exec (.policerCommit pa tag part cls v) s = RowDone pa tag r v .ok (loadPolicer part cls (commitStaged o s)))) ∧
     (let u := loadPolicer part cls s
      let o := 0x3004 + 0x10 * part + cls
      let x := KMap.getD u.levee.policers (4 * part + cls) {}
      x.mode = rwVal s o 1 0 ∧ x.cir = rwVal s o 2 0 ∧ x.cbs = rwVal s o 3 0 ∧ x.pir = rwVal s o 4 0 ∧ x.pbs = rwVal s o 5 0 ∧
      x.tc = 65536 * x.cbs ∧ x.tp = 65536 * x.pbs ∧ x.last = s.clock.now) ∧
     (∀ v, RowTaken pa ⟨objShaperCommit, [part]⟩ v s →
       let o := 0x3003 + 0x10 * part
       let r : ObjRef := ⟨objShaperCommit, [part]⟩
       (v ≠ 1 → exec (.shaperCommit pa tag part v) s = RowDone pa tag r v .ok s) ∧
       (v = 1 → stagedVal s o 2 65536 < 4096 ∨ stagedVal s o 4 65536 < 4096 → exec (.shaperCommit pa tag part v) s = RowDone pa tag r v .range s) ∧
       (v = 1 → 4096 ≤ stagedVal s o 2 65536 → 4096 ≤ stagedVal s o 4 65536 →
         exec (.shaperCommit pa tag part v) s = RowDone pa tag r v .ok (loadShaper part (commitStaged o s)))) ∧
     (∀ v, RowTaken pa ⟨objResetPeaks, [part]⟩ v s → exec (.resetPeaks pa tag part v) s = RowDone pa tag ⟨objResetPeaks, [part]⟩ v .ok
       (if v = 1 then { s with levee := { s.levee with samples := s.levee.samples.map (fun e =>
         if e.1 / 16 = part then (e.1, { e.2 with peakDepth := e.2.depth, peakDelay := e.2.delay }) else e) } } else s)))

/-- Every register of a ring, in each of its cases. -/
def Obligations.RingRegisters : Prop :=
  ∀ (s : State) (port part ring v : Nat),
    let q := sqAt s port part ring
    let c := cqAt s port part ring
    let sqTo (q' : SubRing) : Answered := .next (modSq port part ring (fun _ => q') s)
    let cqTo (c' : CompRing) : Answered := .next (modCq port part ring (fun _ => c') s)
    let stops (kind code : Nat) : Answered := .next (ringError port part ring kind code s)
    let works := ringsOk (linkAt s port) = true ∧ countVal s 0x1011 (3 + port) 0 ≠ 0
    (q.enabled = true → exec (.sqTailDoorbell port part ring v) s =
      if v % 2 ^ 32 < q.depth then sqTo { q with tail := v % 2 ^ 32 } else stops 0 1) ∧
    (q.enabled = false → exec (.sqTailDoorbell port part ring v) s = .next s) ∧
    (let w := v % 2 ^ 32
     c.enabled = true → exec (.cqHeadDoorbell port part ring v) s =
      if c.depth ≤ w ∨ (c.tail + c.depth - c.head) % c.depth < (w + c.depth - c.head) % c.depth then stops 1 1 else cqTo { c with head := w }) ∧
    (c.enabled = false → exec (.cqHeadDoorbell port part ring v) s = .next s) ∧
    (bit v 0 = true → q.enabled = false → works → pow2In (bits v 31 16) 16 1024 = true → exec (.sqCtrlWrite port part ring v) s =
      sqTo { depth := bits v 31 16, cq := bits v 3 2, enabled := true, head := 0, tail := 0, error := 0 }) ∧
    (bit v 0 = true → q.enabled = false → works → pow2In (bits v 31 16) 16 1024 = false → exec (.sqCtrlWrite port part ring v) s = stops 0 2) ∧
    (bit v 0 = true → q.enabled = false → ¬works → exec (.sqCtrlWrite port part ring v) s = stops 0 3) ∧
    (bit v 0 = true → q.enabled = true → exec (.sqCtrlWrite port part ring v) s = .next s) ∧
    (bit v 0 = false → exec (.sqCtrlWrite port part ring v) s =
      if q.enabled then sqTo { q with enabled := false, tail := q.head } else sqTo { q with depth := bits v 31 16, cq := bits v 3 2 }) ∧
    (bit v 0 = true → c.enabled = false → works → pow2In (bits v 47 32) 16 4096 = true → c.reserve < bits v 47 32 - 1 →
      exec (.cqCtrlWrite port part ring v) s = cqTo
        { c with vector := bits v 63 48, depth := bits v 47 32, coalN := bits v 31 24, coalT := bits v 23 8, enabled := true,
                 closing := false, head := 0, tail := 0, held := 0, phase := true, error := 0, since := 0, firstAt := none }) ∧
    (bit v 0 = true → c.enabled = false → works → pow2In (bits v 47 32) 16 4096 = true → bits v 47 32 - 1 ≤ c.reserve →
      exec (.cqCtrlWrite port part ring v) s = stops 1 5) ∧
    (bit v 0 = true → c.enabled = false → works → pow2In (bits v 47 32) 16 4096 = false → exec (.cqCtrlWrite port part ring v) s = stops 1 2) ∧
    (bit v 0 = true → c.enabled = false → ¬works → exec (.cqCtrlWrite port part ring v) s = stops 1 3) ∧
    (bit v 0 = true → c.enabled = true → exec (.cqCtrlWrite port part ring v) s = cqTo { c with closing := false }) ∧
    (bit v 0 = false → c.enabled = true → exec (.cqCtrlWrite port part ring v) s =
      if c.held = 0 then cqTo { c with enabled := false } else cqTo { c with closing := true }) ∧
    (bit v 0 = false → c.enabled = false → exec (.cqCtrlWrite port part ring v) s = cqTo
      { c with vector := bits v 63 48, depth := bits v 47 32, coalN := bits v 31 24, coalT := bits v 23 8 }) ∧
    (exec (.cqBaseWrite port part ring v) s = if c.enabled then .next s else cqTo { c with base := bits v 63 12 * 4096 }) ∧
    (exec (.cqRsvWrite port part ring v) s = if c.enabled then .next s else cqTo { c with reserve := max 1 (bits v 7 0) })

/-- The traffic of the host ports. -/
def Obligations.PortTraffic : Prop :=
  (
   ∀ (s : State) (port : Nat),
     (∀ part kind u us, kind < 2 →
       let e := refillEgress s.clock.now (egressAt s part port kind)
       e.units = u :: us → portHeld s port = false →
       ((kind = 1 → (egressAt s part port 0).units = []) → e.rate = 0 ∨ (1000 * u.size : Nat) ≤ e.credit →
         ∃ t, exec (.egressUnitSend part port kind) s = .next t ∧
           egressAt t part port kind = { e with units := us, credit := if e.rate = 0 then e.credit else e.credit - (1000 * u.size : Nat) } ∧
           t.mem = s.mem ∧ t.slots = s.slots ∧ t.levee.queries = s.levee.queries) ∧
       (kind = 0 → e.rate ≠ 0 → e.credit < (1000 * u.size : Nat) → (∃ d, u.due = some d ∧ d ≤ s.clock.now) →
         ∃ t, exec (.egressOverdraw part port kind) s = .next t ∧
           egressAt t part port 0 = { e with units := us, credit := e.credit - (1000 * u.size : Nat) } ∧
           t.mem = s.mem ∧ t.slots = s.slots ∧ t.levee.queries = s.levee.queries)) ∧
     (∀ part cq a, let c := cqAt s port part cq
       c.firstAt = some a → c.coalT ≠ 0 → c.since ≠ 0 → a + 1000 * c.coalT ≤ s.clock.now → ringsOk (linkAt s port) = true →
       ∃ t, exec (.coalesceTimeout port part cq) s = .next t ∧ cqAt t port part cq = { c with since := 0, firstAt := none } ∧
         t.outs = if c.vector = 0xFFFF then s.outs else .msix port c.vector :: s.outs) ∧
     ((linkAt s port).state ≠ .down → ∃ t, exec (.linkDown port) s = .next t ∧ (linkAt t port).state = .down ∧
       ∀ p n, p < 32 → n < 4 → (sqAt t port p n).enabled = false ∧ (cqAt t port p n).enabled = false) ∧
     (linkUp (linkAt s port) = true → (linkAt s port).d3hot = false → ∃ t, exec (.d3hotEntry port) s = .next t ∧ (linkAt t port).d3hot = true ∧
       ∀ p n, p < 32 → n < 4 → (sqAt t port p n).enabled = false ∧ (cqAt t port p n).enabled = false) ∧
     (∀ st width rate, mainOn s = true → linkUp (linkAt s port) = false → exec (.linkUp port st width rate) s =
       .next (modLink port (fun l => { l with state := linkOfCode st, width := width, rate := rate, d3hot := false, retraining := false }) s)) ∧
     (∀ width rate, mainOn s = true → linkUp (linkAt s port) = true → exec (.linkUp port 1 width rate) s =
       .next (modLink port (fun l => { l with state := .training, retraining := true }) s)) ∧
     (∀ st width rate, (linkAt s port).retraining = true →
       let l := { linkAt s port with state := linkOfCode st, width := width, rate := rate, retraining := false }
       ∃ t, exec (.retrainEnd port st width rate) s = .next t ∧ linkAt t port = l ∧
         (ringsOk l = false → ∀ p n, p < 32 → n < 4 → (sqAt t port p n).enabled = false ∧ (cqAt t port p n).enabled = false))) ∧
  (
   ∀ (s : State) (port : Nat),
     (∀ pa tag v, let r : ObjRef := ⟨objCxlSize, [port]⟩
       RowTaken pa r v s → s.dev.state = .config ∧ v ≤ 32768 ∧
       (v = (linkAt s port).winSize →
         exec (.cxlWindowSizeWrite pa tag port v) s = RowDone pa tag r v .ok (setRw (0x1070 + port) 4 v s)) ∧
       (v ≠ (linkAt s port).winSize → claimWindow port v s = none →
         exec (.cxlWindowSizeWrite pa tag port v) s = RowDone pa tag r v .range s) ∧
       (∀ t, v ≠ (linkAt s port).winSize → claimWindow port v s = some t →
         exec (.cxlWindowSizeWrite pa tag port v) s = RowDone pa tag r v .ok (setRw (0x1070 + port) 4 v t) ∧ (linkAt t port).winSize = v)) ∧
     (∀ addr len bad, let l := linkAt s port
       exec (.cxlMemRead port addr len bad) s = if mainOn s = true ∧ l.state = .upCxl ∧ addr + len ≤ 1048576 * l.winSize
         then .next (normalAccess ⟨0, port + 1, addr, windowOwner s port, false, l.winBase + addr, len, [], false, if bad then 3 else 0, s.clock.now⟩ s)
         else .next s) ∧
     (∀ addr data poison, let l := linkAt s port
       exec (.cxlMemWrite port addr data poison) s = if mainOn s = true ∧ l.state = .upCxl ∧ addr + data.length ≤ 1048576 * l.winSize
         then .next (normalAccess ⟨0, port + 1, addr, windowOwner s port, true, l.winBase + addr, data.length, data, poison, 0, s.clock.now⟩ s)
         else .next s))

/-- Each index command, refused for its state and taken. -/
def Obligations.IndexCommands : Prop :=
  ∀ (s : State) (pa : Path) (tag part index : Nat), index < 16 →
    let r : ObjRef := ⟨objIndexCommand, [part, index]⟩
    let k := 16 * part + index
    let build := s.dev.state = .config ∨ s.dev.state = .serving
    let done (code : Nat) (c : Instr) (u : State) : Prop := exec c s = RowDone pa tag r code .ok u ∧ countVal u (indexObj part index) 0x17 0 = 0
    (RowTaken pa r 1 s →
      ((indexAt s k).isSome = true ∨ ¬build → exec (.indexCreate pa tag part index) s = RowDone pa tag r 1 .state s) ∧
      (let x := indexDraft s k
       let need := x.regions.foldl (· + ·) 0
       indexAt s k = none → build → geometryOk s k x = true →
       (∀ n, n = 0x0E ∨ n = 0x0F ∨ n = 0x10 ∨ (n = 0x12 ∧ x.refine = true) → indexTierOk s k n = true) →
       partCarr s part + need ≤ 1048576 * rwVal s (0x3000 + 0x10 * part) 4 0 → carrCommitted s + need ≤ carrAllocatable s →
       (∃ n, KMap.find s.mire.spaces x.space = some n ∧ n.owner = part ∧ x.slots * x.stride + need ≤ 16384 * n.size) →
       (placeIndex k x s).isSome = true →
       ∃ u y, done 1 (.indexCreate pa tag part index) u ∧ indexAt u k = some y ∧ y.state = .building ∧ y.items = [] ∧ y.dims = x.dims ∧
         y.cells = x.cells ∧ y.rows = x.rows)) ∧
    (RowTaken pa r 2 s →
      ((∀ x, indexAt s k = some x → x.state ≠ .building) ∨ ¬build → exec (.indexSeal pa tag part index) s = RowDone pa tag r 2 .state s) ∧
      (∀ x l, indexAt s k = some x → x.state = .building → build → builtItems x.slots s x s.clock.ft 0 = some l →
        ∃ u, done 2 (.indexSeal pa tag part index) u ∧
          indexAt u k = some { x with state := .ready, items := l, saved := l, horizon := s.clock.ft, last := s.clock.ft })) ∧
    (RowTaken pa r 3 s →
      (indexAt s k = none ∨ ¬(build ∨ s.dev.state = .recovery) → exec (.indexDestroy pa tag part index) s = RowDone pa tag r 3 .state s) ∧
      ((indexAt s k).isSome = true → build ∨ s.dev.state = .recovery → indexUsed s k = false →
        ∃ u, done 3 (.indexDestroy pa tag part index) u ∧ indexAt u k = none ∧ (∀ j, j ≠ k → indexAt u j = indexAt s j))) ∧
    (RowTaken pa r 4 s →
      ((∀ x, indexAt s k = some x → x.state ≠ .ready) ∨ ¬build → exec (.reindex pa tag part index) s = RowDone pa tag r 4 .state s) ∧
      (∀ x, indexAt s k = some x → x.state = .ready → build → indexTierOk s k (0x10 + (1 - x.book)) = true →
        (x.refine = true → indexTierOk s k (0x12 + (1 - x.book)) = true) → x.vfmt ≠ 0 →
        ∃ u, done 4 (.reindex pa tag part index) u ∧ indexAt u k = some { x with state := .reindexing, progress := 0 } ∧ u.mem = s.mem))

/-- What the appliers of an index and its Harvest chain do. -/
def Obligations.IndexUpdates : Prop :=
  ∀ (s : State) (part : Nat), mainOn s = true →
    (∀ u x h mis, oldestUpdate s part = some u → u.desc.opcode = 0x10 →
      let k := 16 * u.part + u.desc.index
      let old := x.holder u.desc.w48
      indexAt s k = some x → x.usable = true → (x.sideMode = true → x.sides.length < x.sideCap) →
      x.reserve (Config.nearestLeaves x.distance (indexTierBytes s k 0x0F) (indexTierBytes s k 0x0E) u.payload) = some (h, mis) →
      (∀ i, (h, i) ∉ x.items) →
      let pcs := x.touched h u.desc.w48 ++ (match old with | some e => x.touched e.1 u.desc.w48 | none => [])
        ++ (if x.sideMode then pcsOf x.sideTab (128 * x.sideCap) else [])
      (∀ pc ∈ pcs, stackDead s pc = false ∧ (pcAt s pc).mode ≠ .pnm) →
      ringsTake x (lowestSnapshot s k) ((if x.sideMode then [] else [x.slotPc h]) ++
        ((old.filter (fun e => !e.2.side)).map (fun e => x.slotPc e.1)).toList) = true →
      ∃ t y it, exec (.upsertApply part) s = .next t ∧ indexAt t k = some y ∧ (h, it) ∈ y.items ∧ it.key = u.desc.w48 ∧
        it.attrs = u.desc.w40 ∧ it.birth = commitFt s k x ∧ it.death = none ∧ t.levee.updates = s.levee.updates.filter (fun v => v.id != u.id) ∧
        t.levee.committed = s.levee.committed ++ [⟨u, commitFt s k x, 0⟩] ∧ t.levee.queries = s.levee.queries) ∧
    (∀ u x, oldestUpdate s part = some u → u.desc.opcode = 0x11 → indexAt s (16 * u.part + u.desc.index) = some x → x.usable = true →
      let k := 16 * u.part + u.desc.index
      (x.holder u.desc.w48 = none → ∃ t, exec (.deleteApply part) s = .next t ∧
        t.levee.updates = s.levee.updates.filter (fun v => v.id != u.id) ∧
        t.levee.committed = s.levee.committed ++ [⟨u, commitFt s k x, 1⟩] ∧ t.mem = s.mem) ∧
      (∀ e, x.holder u.desc.w48 = some e → (∀ pc ∈ x.touched e.1 u.desc.w48, (pcAt s pc).mode ≠ .pnm) →
        (e.2.side = false → ringsTake x (lowestSnapshot s k) [x.slotPc e.1] = true) → ∃ t, exec (.deleteApply part) s = .next t ∧
        t.levee.updates = s.levee.updates.filter (fun v => v.id != u.id) ∧
        t.levee.committed = s.levee.committed ++ [⟨u, commitFt s k x, 0⟩])) ∧
    (∀ u x, oldestUpdate s part = some u → indexAt s (16 * part + u.desc.index) = some x → x.stalled = true →
      (u.desc.opcode = 0x10 → exec (.logRingWaitEnd part) s = .next (settle (upsertIndex u s))) ∧
      (u.desc.opcode = 0x11 → exec (.logRingWaitEnd part) s = .next (settle (deleteIndex u s)))) ∧
    (∀ index x f, firingOf s (harvestNo part index) = some f → indexAt s (16 * part + index) = some x → x.usable = true →
      (∀ e ∈ foldPicks s x, (pcAt s (x.slotPc e.slot)).mode ≠ .pnm) → (x.state = .reindexing → ∀ pc, pc < 512 → (pcAt s pc).mode ≠ .pnm) →
      ringsTake x (lowestSnapshot s (16 * part + index)) ((foldPicks s x).map (fun e => x.slotPc e.slot)) = true →
      ∃ t, exec (.harvestStep part index) s = .next t ∧ firingOf t (harvestNo part index) = none ∧ t.levee = s.levee ∧ t.slots = s.slots)

/-- The matrix arrays and the Mere engines. -/
def Obligations.ArraysAndMere : Prop :=
  (
   ∀ (s : State) (tile array : Nat),
     let n := 2 * tile + array % 2
     let a := arrayAt s n
     (∀ data, exec (.passEnqueue tile array data) s =
       .next (if a.queue.length < 8 then modArray n (fun a => { a with queue := a.queue ++ [slice data 0 64] }) s else s)) ∧
     (∀ off d r k x st y, a.queue = d :: r → tileRole s tile = some (k, x, st, y) →
       let p := passOf d
       (passOk s k a d = false → exec (.arrayPass tile array [] off) s =
         .next (bump (arrayObj n) 8 1 (modArray n (fun a => { a with queue := r }) s))) ∧
       (passOk s k a d = true → (p.exp = true → a.shadow ≠ []) → ∃ t, exec (.arrayPass tile array [] off) s = .next t ∧
         (arrayAt t n).queue = r ∧ (arrayAt t n).chain = (if p.last then [] else (if p.init = 2 then a.chain else []) ++ [d]) ∧
         (∀ i, i < 128 * p.base ∨ 128 * (p.base + p.m) ≤ i → KMap.find (arrayAt t n).acc i = KMap.find a.acc i) ∧
         t.levee.queries = s.levee.queries ∧ t.slots = s.slots)) ∧
     (exec (.shadowAdvance tile array) s = .next (advanceShadows n s) ∧
       ((∀ q, a.search = some q → q.started = false) → advanceShadows n s = s) ∧
       (∀ q w f, a.search = some q → q.started = true → q.shadows.find? (fun w => w.ends = 0 && w.second.isSome) = some w → w.second = some f →
         (arrayAt (advanceShadows n s) n).search = none ∧ f ∈ (arrayAt (advanceShadows n s) n).bad))) ∧
  (
   ∀ (s : State) (tile engine : Nat),
     let n := 4 * tile + engine % 4
     let e := engineAt s n
     (∀ data, exec (.mereJobEnqueue tile engine data) s =
       .next (if e.queue.length < 8 then modEngine n (fun e => { e with queue := e.queue ++ [slice data 0 64] }) s else s)) ∧
     (∀ k lt st y, tileRole s tile = some (k, lt, st, y) →
       (∀ d r c op, e.queue = d :: r → e.job = none → leAt d 0 1 = op →
         (c = .refine tile engine ∧ op = 2 ∨ c = .dist tile engine ∧ op = 3 ∨ c = .gather tile engine ∧ op = 4 ∨
           c = .sidescan tile engine ∧ op = 1 ∧ (∃ w ∈ s.carr.windows, w.slot = k ∧ w.stage = st ∧ w.kind = 1)) →
         (jobOk s k lt tile (engine % 4) d = false → exec c s = .next (bump (mereObj tile) 9 1 (modEngine n (fun e => { e with queue := r }) s))) ∧
         (jobOk s k lt tile (engine % 4) d = true → 1 ≤ jobItems d → ∃ t j, exec c s = .next t ∧ engineAt t n = { e with queue := r, job := some j } ∧
           j.desc = d ∧ j.items = jobItems d ∧ j.next = min (leAt d 2 2) (jobItems d) ∧ j.ctxs.length = j.next ∧ j.remote = [] ∧ j.packs = [] ∧
           t.mem = s.mem)) ∧
       (∀ j ctx x m, e.job = some j → KMap.find j.ctxs ctx = some x →
         let op := leAt j.desc 0 1
         (op = 1 → exec (.contextDataReturn tile engine ctx m []) s = .next (settleJob tile n k (scanPositions m tile n k ctx false s))) ∧
         (op = 2 → refineItem tile n k x.item false s = none → exec (.contextDataReturn tile engine ctx m []) s = .next s) ∧
         (op = 4 → gatherItem tile n k x.item s = none → exec (.contextDataReturn tile engine ctx m []) s = .next s) ∧
         (op = 3 ∨ op = 2 ∧ (refineItem tile n k x.item false s).isSome = true ∨ op = 4 ∧ (gatherItem tile n k x.item s).isSome = true →
           j.next < j.items → ∃ t j', exec (.contextDataReturn tile engine ctx m []) s = .next t ∧ (engineAt t n).job = some j' ∧
             j'.next = j.next + 1 ∧ KMap.find j'.ctxs ctx = some { item := j.next } ∧ j'.desc = j.desc ∧ (engineAt t n).queue = e.queue)) ∧
       (∀ j, e.job = some j → leAt j.desc 36 4 ≠ 0 → ∃ t, exec (.jobCutoff tile engine) s = .next t ∧ (engineAt t n).job = none ∧
         (engineAt t n).queue = e.queue)))

/-- Each command of a Sedge unit. -/
def Obligations.SedgeUnits : Prop :=
  ∀ (s : State) (tile unit : Nat),
    let n := 2 * tile + unit % 2
    let g := sedgeAt s n
    (∀ data, exec (.sedgeEnqueue tile unit data) s =
      .next (if g.queue.length < 8 then modSedge n (fun g => { g with queue := g.queue ++ [slice data 0 64] }) s else s)) ∧
    (∀ k x st y, tileRole s tile = some (k, x, st, y) →
      (∀ d r, g.queue = d :: r → leAt d 0 1 ≠ 2 → g.batch = none →
        (sedgeOk s k d = true → ∃ t b, exec (.sedgeOpen tile unit) s = .next t ∧ sedgeAt t n = { g with queue := r, batch := some b } ∧
          b.desc = d ∧ b.lists.length = leAt d 4 2 ∧ (∀ l ∈ b.lists, l.ents = [] ∧ l.flags = 0) ∧ b.closed = none ∧ t.mem = s.mem) ∧
        (sedgeOk s k d = false → exec (.sedgeOpen tile unit) s = .next (bump (sedgeObj n) 7 1 (modSedge n (fun g => { g with queue := r }) s)))) ∧
      (∀ a last vec r, g.port = (a, last, vec) :: r →
        (g.batch = none → exec (.arrayPortVector tile unit) s = .next (bump (sedgeObj n) 4 1 (modSedge n (fun g => { g with port := r }) s))) ∧
        (∀ b, g.batch = some b → ∃ t b', exec (.arrayPortVector tile unit) s = .next t ∧ (sedgeAt t n).port = r ∧
          (sedgeAt t n).batch = some b' ∧ b'.desc = b.desc ∧
          b'.vecs = setAt b.vecs a (if bits (leAt b.desc 1 1) 3 2 = 1 && last then 0 else nth b.vecs a 0 + 1))) ∧
      (∀ slot header data, let here (t : Nat) : Bool := bits t 31 25 = n
        (∀ m, s.carr.msgs.find? (fun m => here m.target) = some m → m.gen = KMap.getD s.carr.gens m.pc 0 → m.owner = k / 4 →
          exec (.collectorMessage tile unit 0 slot header data false) s =
            .next (mergeMessage n k (m.target % 65536) (m.header % 2 ^ 18 + 2 ^ 24 * bits m.header 31 24) m.data (raiseTo (sedgeObj n) 5 1
              { s with carr := { s.carr with msgs := dropFirst (fun m => here m.target) s.carr.msgs } }))) ∧
        (∀ m, s.units.msgs.find? (fun m => here m.target) = some m → m.owner = k / 4 →
          exec (.collectorMessage tile unit 1 slot header data false) s =
            .next (mergeMessage n k (m.target % 65536) m.header m.data (raiseTo (sedgeObj n) 5 1
              { s with units := { s.units with msgs := dropFirst (fun m => here m.target) s.units.msgs } }))) ∧
        (exec (.collectorMessage tile unit 2 slot header data false) s =
          .next (mergeMessage n k (slot % 65536) header (slice data 0 64) (raiseTo (sedgeObj n) 5 1 s))) ∧
        (g.batch = none ∨ (∃ b, g.batch = some b ∧ messageOk b slot header data = false) →
          mergeMessage n k slot header data s = bump (sedgeObj n) 4 1 s)) ∧
      (∀ b d r, g.batch = some b → b.closed = none → g.queue = d :: r → leAt d 0 1 = 2 → sedgeOk s k d = true → g.port = [] →
        let u := modSedge n (fun g => { g with queue := r }) s
        (keysWait u (k / 4) b = false → ∃ t, exec (.finish tile unit) s = .next t ∧ (sedgeAt t n).batch = none ∧ (sedgeAt t n).queue = r) ∧
        (keysWait u (k / 4) b = true → exec (.finish tile unit) s =
          .next (modSedge n (fun g => { g with queue := r, batch := some { b with closed := some (s.clock.now, d) } }) s))) ∧
      (∀ b c, g.batch = some b → b.closed = some c → ∃ t, exec (.keyCutoff tile unit) s = .next t ∧ (sedgeAt t n).batch = none ∧
        (sedgeAt t n).queue = g.queue))

/-- The control instructions. -/
def Obligations.SluiceControl : Prop :=
  ∀ (s : State) (block chan : Nat),
    let c := 16 * block + chan % 16
    let ch := chanAt s c
    (∀ n, AtInstr s c (.loop n) →
      (ch.loops.length < 4 → ∃ t, exec (.sluiceLoop block chan) s = .next t ∧ chanAt t c = { ch.goTo (ch.word + 1) with loops := (ch.word + 1, n, 0) :: ch.loops } ∧
        t.mem = s.mem ∧ ∀ c', c' ≠ c → chanAt t c' = chanAt s c') ∧
      (4 ≤ ch.loops.length → Halted s c 6 ch.word (exec (.sluiceLoop block chan) s))) ∧
    (AtInstr s c .endl →
      (ch.loops = [] → Halted s c 6 ch.word (exec (.sluiceEndl block chan) s)) ∧
      (∀ b r n q, ch.loops = (b, r, n) :: q → ∃ t, exec (.sluiceEndl block chan) s = .next t ∧ t.mem = s.mem ∧ (∀ c', c' ≠ c → chanAt t c' = chanAt s c') ∧
        chanAt t c = if r ≤ 1 then { ch.goTo (ch.word + 1) with loops := q } else { ch.goTo b with loops := (b, r - 1, n + 1) :: q })) ∧
    (∀ w, AtInstr s c (.jump w) → ∃ t, exec (.sluiceJump block chan) s = .next t ∧ chanAt t c = ch.goTo w ∧ t.mem = s.mem ∧ ∀ c', c' ≠ c → chanAt t c' = chanAt s c') ∧
    (AtInstr s c .nop → ∃ t, exec (.sluiceNop block chan) s = .next t ∧ chanAt t c = ch.goTo (ch.word + 1) ∧ t.mem = s.mem ∧ ∀ c', c' ≠ c → chanAt t c' = chanAt s c') ∧
    (AtInstr s c .halt → ∃ t, exec (.sluiceHalt block chan) s = .next t ∧ (chanAt t c).state = 0 ∧ (chanAt t c).loops = [] ∧ (chanAt t c).word = ch.word ∧
      (chanAt t c).flight = ch.flight ∧ t.mem = s.mem ∧ ∀ c', c' ≠ c → chanAt t c' = chanAt s c') ∧
    (∀ to_ n, AtInstr s c (.wait to_ n) →
      (chanCell s c n = none → Halted s c 8 ch.word (exec (.sluiceWait block chan) s)) ∧
      (∀ g, chanCell s c n = some g → ∃ t, exec (.sluiceWait block chan) s = .next t ∧
        (if (issueCell g (.wait c) s).cells.granted.contains (c, g) then (chanAt t c).word = (ch.word + 1) % 4096 ∧ (chanAt t c).state = 1
         else (chanAt t c).state = 2 ∧ (chanAt t c).cell = g ∧ (chanAt t c).timeout = to_ ∧ (chanAt t c).word = ch.word))) ∧
    (∀ n, AtInstr s c (.signal n) →
      (chanCell s c n = none → Halted s c 8 ch.word (exec (.sluiceSignal block chan) s)) ∧
      (∀ g, chanCell s c n = some g → ch.flight = [] → exec (.sluiceSignal block chan) s = .next (issueCell g (.signal 1) (modChan c (fun ch => ch.goTo (ch.word + 1)) s))) ∧
      (∀ g, chanCell s c n = some g → ch.flight ≠ [] → ∃ t, exec (.sluiceSignal block chan) s = .next t ∧ t.cells = s.cells ∧ chanAt t c = { ch with signal := true })) ∧
    (∀ n, ∀ i ∈ [Instr.sluiceMove block chan n, .sluiceMovex block chan n, .sluiceLoop block chan, .sluiceEndl block chan, .sluiceWait block chan,
        .sluiceSignal block chan, .sluiceJump block chan, .sluiceNop block chan, .sluiceHalt block chan],
      (AtInstr s c .bad → Halted s c 0xA ch.word (exec i s)) ∧
      (∀ w, ch.state = 1 → replayWaits s c = false → ch.redirect = some w → ch.signal = false → ∃ t, exec i s = .next t ∧
        (chanAt t c).word = w % 4096 ∧ (chanAt t c).state = 1 ∧ (chanAt t c).loops = [] ∧ (chanAt t c).redirect = none ∧ t.mem = s.mem))

/-- The units of a channel. -/
def Obligations.SluiceUnits : Prop :=
  ∀ (s : State) (block chan : Nat),
    let c := 16 * block + chan % 16
    let ch := chanAt s c
    (∀ x y tile count addr n, AtInstr s c (.move x tile count addr) →
      let i : Instr := if x then .sluiceMovex block chan n else .sluiceMove block chan n
      let top := if hubChan c then 0x4000000 else tileSram
      let r := if hubChan c then (Memory.readN s.mem.hub (0x100000000 * (c / 16 - 40) + addr) 64, s) else tileGet (chanOwner s c) (c / 16) addr 64 s
      (∀ g, ch.seg = some g → exec i s = .next (issueUnits n c s)) ∧
      (y = 1 ∧ addr % 64 ≠ 0 ∨ y = 2 ∧ addr % 64 = 0 ∧ top < addr + 64 → ch.seg = none → Halted s c y ch.word (exec i s)) ∧
      (ch.seg = none → addr % 64 = 0 → addr + 64 ≤ top →
        ch.flight.any (fun u => bits u.dst 63 60 = (if hubChan c then 3 else 0) && meets (u.dst % 0x100000000) u.wrote addr 64) = false →
        (∀ e, startSeg s c ch x tile count r.1 = .error e → ∃ t, exec i s = .next t ∧ (chanAt t c).state = 3 ∧ (chanAt t c).error = e) ∧
        (∀ g, startSeg s c ch x tile count r.1 = .ok g → lanesFree s c g = true →
          exec i s = .next (issueUnits n c (modChan c (fun ch => { ch with seg := some g, issued := 0, done := 0, inst := ch.inst + 1 }) r.2))))) ∧
    (∀ u id err, unitAt s c id = some u → u.data = none → ¬ (bits u.src 63 60 = 4 ∨ bits u.src 63 60 = 5) → behindWrite s c u u.src u.len = false →
      let lim := match chanSlot s c with
        | some (k, _) => rwVal s (0x3000 + 0x10 * (k / 4)) 0x13 3
        | none => rwVal s 0xA62A 0x01 3
      (∀ b, err = false → unitSource s c u = .data b → u.fmt = 0 → ∃ t, exec (.unitReadReturn block chan id err) s = .next t ∧
        unitAt t c id = some { u with data := some b }) ∧
      (err = true ∨ unitSource s c u = .bus → u.tries < lim → ∃ t, exec (.unitReadReturn block chan id err) s = .next t ∧
        unitAt t c id = some { u with tries := u.tries + 1 } ∧ t.mem = s.mem) ∧
      (err = true ∨ unitSource s c u = .bus → lim ≤ u.tries → ∃ t, exec (.unitReadReturn block chan id err) s = .next t ∧
        (chanAt t c).state = 3 ∧ (chanAt t c).error = 3 ∧ (chanAt t c).word = u.word ∧ (chanAt t c).errAddr = u.src) ∧
      (err = false → unitSource s c u = .failed → ∃ t, exec (.unitReadReturn block chan id err) s = .next t ∧ (chanAt t c).state = 3 ∧ (chanAt t c).error = 4)) ∧
    (∀ u d id, unitAt s c id = some u → u.data = some d → u.flash = false → behindWrite s c u u.dst d.length = false →
      ¬ (4 ≤ bits u.dst 63 60 ∧ bits u.dst 63 60 ≤ 6) →
      (∀ s', unitWrite c u d s = .done s' → exec (.unitWriteAck block chan id false) s = .next (endUnit c u s') ∧ unitAt (endUnit c u s') c id = none) ∧
      (∀ n s', unitWrite c u d s = .part n s' → exec (.unitWriteAck block chan id false) s =
        .next (modUnit c u.id (fun u => { u with data := some (d.drop n), dst := u.dst + n }) s')) ∧
      (unitWrite c u d s = .wait → exec (.unitWriteAck block chan id false) s = .next s)) ∧
    (∀ r u port tag ok data, s.host.reads.find? (fun r => r.tag = tag && r.port = port) = some r → unitAt s r.chan r.unit = some u → u.data = none → u.tag = tag →
      let s' := s.modHost (fun h => { h with reads := h.reads.filter (fun x => x.tag != tag) })
      exec (.hostReadCompletion port tag ok data) s = .next (if ok then unitRead r.chan u (slice data 0 u.len) s' else busError r.chan u s') ∧
      exec (.completionTimeout port tag) s = .next (busError r.chan u s') ∧
      (u.fmt = 0 → unitAt (unitRead r.chan u (slice data 0 u.len) s') r.chan u.id = some { u with data := some (slice data 0 u.len) })) ∧
    (∀ f s' k kh u, takeInbox 3 s = some (f, s') →
      let hit (u : SUnit) : Bool := bits u.dst 63 60 = 6 && 0 < u.acks && u.tag = f.tag
      s'.units.chans.find? (fun e => e.2.flight.any hit) = some (k, kh) → kh.flight.find? hit = some u →
      (1 < u.acks → exec .writeRsp s = .next (modUnit k u.id (fun u => { u with acks := u.acks - 1 }) s')) ∧
      (u.acks = 1 → ∃ t, exec .writeRsp s = .next t ∧ unitAt t k u.id = none))

/-- What the rest of a channel's life is. -/
def Obligations.SluiceEvents : Prop :=
  ∀ (s : State) (block chan w : Nat),
    let c := 16 * block + chan % 16
    let ch := chanAt s c
    (ch.state = 2 → (c, ch.cell) ∈ s.cells.granted → ∃ t, exec (.parkGrant block chan) s = .next t ∧ chanAt t c = { ch.goTo (ch.word + 1) with state := 1 } ∧ t.mem = s.mem) ∧
    (ch.state = 2 → ch.timeout ≠ 0 → (c, ch.cell) ∉ s.cells.granted → (c, ch.cell) ∈ (issueCell ch.cell (.cancel c) s).cells.cancelled →
      ∃ t, exec (.waitTimeout block chan) s = .next t ∧ (chanAt t c).state = 3 ∧ (chanAt t c).error = 7 ∧ (chanAt t c).word = ch.word) ∧
    (ch.timeout = 0 ∨ (c, ch.cell) ∈ s.cells.granted → exec (.waitTimeout block chan) s = .next s) ∧
    (ch.state = 3 ∨ ch.state = 4 ∨ chanLength c ch ≤ w → exec (.redirect block chan w) s = .next (bump (sluiceObj c) 0x22 1 s)) ∧
    (w < chanLength c ch → ch.state = 0 → ∃ t, exec (.redirect block chan w) s = .next t ∧ chanAt t c = { ch.goTo w with loops := [], redirect := none, state := 1 }) ∧
    (w < chanLength c ch → ch.state = 1 → ∃ t, exec (.redirect block chan w) s = .next t ∧ chanAt t c = { ch with redirect := some w }) ∧
    (ch.state ≠ 4 → ∃ t, exec (.channelDisable block chan) s = .next t ∧ (chanAt t c).state = 4 ∧ (chanAt t c).flight = [] ∧ (chanAt t c).loops = [] ∧
      (chanAt t c).seg = none ∧ (chanAt t c).redirect = none) ∧
    (ch.state = 4 → exec (.channelDisable block chan) s = .next s ∧ ∃ t, exec (.channelEnable block chan) s = .next t ∧
      chanAt t c = { ch with state := 0, error := 0 } ∧ t.mem = s.mem ∧ ∀ c', c' ≠ c → chanAt t c' = chanAt s c') ∧
    (ch.state ≠ 4 → exec (.channelEnable block chan) s = .next s) ∧
    (∀ ok a, (List.range 2).find? (fun a => (arrayAt s (2 * block + a)).replay.isSome && ((arrayAt s (2 * block + a)).log.getLast?.map (·.chan)) = some c) = some a →
      let u := arrayAt s (2 * block + a)
      ∃ t, exec (.atUseReplay block chan ok) s = .next t ∧ (arrayAt t (2 * block + a)).replay = none ∧
        (ok = true → (arrayAt t (2 * block + a)).shadow = (u.log.drop (u.log.length - (u.sent - u.replay.getD 0))).map (replayTile s block) ∧ t.mem = s.mem) ∧
        (ok = false → (chanAt t c).state = 3 ∧ (chanAt t c).error = 9)) ∧
    (∀ g k st, ch.seg = some g → g.movex = true → (peatW g.fmt && bit g.flags 1) = false → chanSlot s c = some (k, st) →
      (∀ t0, KMap.find s.units.laneAt block = some t0 → t0 + 1000000000 ≤ s.clock.now) →
      ∃ t, exec (.segmentReplay block chan) s = .next t ∧ KMap.find t.units.laneAt block = some s.clock.now ∧
        (if (markError k st (bump (0xA500 + block) 0x03 1 s)).1 then (chanAt t c).state = 3 ∧ (chanAt t c).error = 9
         else (chanAt t c).issued = 0 ∧ (chanAt t c).seg = some g ∧ (∀ u ∈ (chanAt t c).flight, u.inst ≠ ch.inst)))

/-- The tier commands of a partition. -/
def Obligations.TierObjects : Prop :=
  ∀ (s : State) (pa : Path) (tag part : Nat),
    let r : ObjRef := ⟨objTierCommand, [part]⟩
    let o := 0x6010 + part
    let want := rwVal s o 2 0
    let id := tierId part want
    let said (v code : Nat) (c : Instr) (u : State) : Prop := exec c s = RowDone pa tag r v (tierStatus code) u ∧ countVal u o 0x0D 0 = code
    let refused (v code : Nat) (c : Instr) : Prop := ∃ u, said v code c u ∧ u.data = s.data ∧ u.claims = s.claims ∧ u.mem = s.mem
    (∀ code, tierStatus code = if code = 0 then .ok else if code = 6 ∨ code = 7 ∨ code = 0xA then .state else .range) ∧
    (RowTaken pa r 1 s →
      (∀ e, tierPlan s part = .error e → refused 1 e (.tierCreate pa tag part)) ∧
      (∀ x, tierPlan s part = .ok x → (if want = 0 then freeNumber s part = none else 1024 < want ∨ (KMap.find s.data.tiers.objs id).isSome) →
        refused 1 5 (.tierCreate pa tag part)) ∧
      (∀ x n, tierPlan s part = .ok x →
        (if want = 0 then freeNumber s part = some n else n = want ∧ want ≤ 1024 ∧ KMap.find s.data.tiers.objs id = none) →
        ∃ u, said 1 0 (.tierCreate pa tag part) u ∧ countVal u o 0x0E 0 = tierId part n ∧ KMap.find u.data.tiers.objs (tierId part n) = some x ∧
          ∀ j, j ≠ tierId part n → KMap.find u.data.tiers.objs j = KMap.find s.data.tiers.objs j)) ∧
    (RowTaken pa r 2 s →
      (tierOf s part id = none → refused 2 5 (.tierDestroy pa tag part)) ∧
      (∀ x, tierOf s part id = some x →
        (lockCount s id ≠ 0 → refused 2 7 (.tierDestroy pa tag part)) ∧
        (lockCount s id = 0 → tierInUse s id = true ∨ 2 ≤ x.role → refused 2 6 (.tierDestroy pa tag part)) ∧
        (lockCount s id = 0 → tierInUse s id = false → x.role < 2 → x.writing = true → refused 2 0xA (.tierDestroy pa tag part)) ∧
        (lockCount s id = 0 → tierInUse s id = false → x.role < 2 → x.writing = false → ∃ u, said 2 0 (.tierDestroy pa tag part) u ∧
          KMap.find u.data.tiers.objs id = none ∧ ∀ j, j ≠ id → KMap.find u.data.tiers.objs j = KMap.find s.data.tiers.objs j))) ∧
    (RowTaken pa r 3 s →
      let m : Move := ⟨id, rwVal s o 0xA 0, rwVal s o 7 0, rwVal s o 8 0, rwVal s o 9 0, rwVal s o 0xB 1, rwVal s o 0xC 0⟩
      (moveCode s part m ≠ 0 → refused 3 (moveCode s part m) (.tierMove pa tag part)) ∧
      (moveCode s part m = 0 → ∃ u x, said 3 0 (.tierMove pa tag part) u ∧ KMap.find s.data.tiers.objs id = some x ∧
        KMap.find u.data.tiers.objs id = some { x with writing := true } ∧
        KMap.getD u.data.tiers.moves part [] = KMap.getD s.data.tiers.moves part [] ++ [m] ∧ u.mem = s.mem)) ∧
    (∀ m q d landed data, KMap.getD s.data.tiers.moves part [] = m :: q → KMap.find s.data.tiers.objs m.dst = some d →
      ∃ t, exec (.moveComplete part landed data) s = .next t ∧ KMap.getD t.data.tiers.moves part [] = q ∧
        KMap.find t.data.tiers.objs m.dst = some { d with writing := false, last := if m.tiles ≤ landed then 0 else 3 } ∧
        (d.tier = 2 → m.src = 0 →
          (∀ i, i < 16384 * min landed m.tiles → Memory.read t.mem.hub (d.base + m.dstOff + i) = nth data i 0) ∧
          (∀ a, a < d.base + m.dstOff ∨ d.base + m.dstOff + 16384 * m.tiles ≤ a → Memory.read t.mem.hub a = Memory.read s.mem.hub a) ∧
          t.mem = { s.mem with hub := t.mem.hub }))

/-- The table commands and the hot copies. -/
def Obligations.EmbeddingTables : Prop :=
  ∀ (s : State) (pa : Path) (tag part table : Nat), table < 64 →
    let r : ObjRef := ⟨objTableCommand, [part, table]⟩
    let h : ObjRef := ⟨objHotSet, [part, table]⟩
    let k := 64 * part + table
    let o := tableObj part table
    let said (v code : Nat) (st : Status) (c : Instr) (u : State) : Prop := exec c s = RowDone pa tag r v st u ∧ countVal u o 0x1E 0 = code
    (RowTaken pa r 1 s →
      ((tableAt s k).isSome = true → exec (.tableCreate pa tag part table) s = RowDone pa tag r 1 .state s) ∧
      (tableAt s k = none →
        let d := rwDom s o 9 []
        (parseClasses d (rwVal s o 0x0D 0) (rwVal s o 3 1 = 2) = none →
          ∃ u, said 1 1 .range (.tableCreate pa tag part table) u ∧ u.data = s.data ∧ u.mem = s.mem) ∧
        (∀ cs, parseClasses d (rwVal s o 0x0D 0) (rwVal s o 3 1 = 2) = some cs →
          let x := tableDraft s k cs
          let need := x.flashBase cs.length
          1 ≤ x.shards → x.shards ≤ 4096 → x.firstOwned ≤ x.lastOwned → x.lastOwned < x.shards →
          (x.lastPart = 0xFFFF ∨ x.firstPart ≤ x.lastPart ∧ x.lastPart < x.shards) →
          (∃ m, tierOf s part x.shardMap = some m ∧ 8 * x.shards ≤ m.size) →
          partCarr s part + need ≤ 1048576 * rwVal s (0x3000 + 0x10 * part) 4 0 → carrCommitted s + need ≤ carrAllocatable s →
          (∃ n, KMap.find s.mire.spaces (rwVal s o 0x13 0) = some n ∧ n.owner = part ∧ need ≤ 16384 * n.size) →
          shardsOk s k x = true → (placeRecords k x (List.range cs.length) s).isSome = true →
          ∃ u y, said 1 0 .ok (.tableCreate pa tag part table) u ∧ tableAt u k = some y ∧ y.ready = false ∧ y.rows = x.rows ∧ y.shards = x.shards ∧
            y.classes.map (fun c => (c.first, c.log2, c.replicated)) = cs.map (fun c => (c.first, c.log2, c.replicated)) ∧ y.areas = [] ∧
            (∀ j, j ≠ k → tableAt u j = tableAt s j)))) ∧
    (RowTaken pa r 2 s →
      ((∀ x, tableAt s k = some x → x.ready = true) → exec (.tableSeal pa tag part table) s = RowDone pa tag r 2 .state s) ∧
      (∀ x, tableAt s k = some x → x.ready = false → ∃ u, said 2 0 .ok (.tableSeal pa tag part table) u ∧ tableAt u k = some { x with ready := true } ∧
        (∀ j, j ≠ k → tableAt u j = tableAt s j) ∧ u.mem = { s.mem with flash := u.mem.flash })) ∧
    (RowTaken pa r 3 s →
      (tableAt s k = none → exec (.tableDestroy pa tag part table) s = RowDone pa tag r 3 .state s) ∧
      (∀ x, tableAt s k = some x →
        (x.areas ≠ [] → ∃ u, said 3 6 .state (.tableDestroy pa tag part table) u ∧ u.data = s.data ∧ u.mem = s.mem) ∧
        (x.areas = [] → ∃ u, said 3 0 .ok (.tableDestroy pa tag part table) u ∧ tableAt u k = none ∧
          (∀ c ∈ x.classes, KMap.find u.data.tiers.objs c.records = none) ∧ (∀ j, j ≠ k → tableAt u j = tableAt s j)))) ∧
    (∀ data, DomainTaken pa h data.length s →
      let s' := dropTransfer pa s
      exec (.hotSetWrite pa tag part table data) s =
        if 8 * rwVal s' o 0x14 0 < data.length then DomainDone pa tag h data .length s' else DomainDone pa tag h data .ok (setDom o 0x0E data s')) ∧
    (firingOf s (refreshNo part table) = none → exec (.refreshStep part table) s = .next s) ∧
    (∀ f x, firingOf s (refreshNo part table) = some f → tableAt s k = some x → x.ready = true →
      let d := rwDom s o 0x0E []
      ∃ t, exec (.refreshStep part table) s = .next t ∧ firingOf t (refreshNo part table) = none ∧
        (tableAt t k).map (·.hotSet) = some ((List.range (d.length / 8)).map (fun i => leAt d (8 * i) 8)) ∧ t.slots = s.slots) ∧
    (∀ x a m c key, tableAt s k = some x → x.ready = true → x.areas.find? (fun a => a.obj = m) = some a → (KMap.find s.data.tiers.objs m).isSome = true →
      a.copies.find? (fun c => c.key = key) = some c →
      let late : Prop := ∃ f, c.stale = some f ∧ f + 1000 * rwVal s o 0x10 5000 ≤ s.clock.ft + 1024 * rwVal s o 0x0F 1024
      (late → ∃ t y, exec (.hotCopyExpiry part table m key) s = .next t ∧ countVal t o 0x18 0 = countVal s o 0x18 0 + 1 ∧ tableAt t k = some y ∧
        y.areas.find? (fun a => a.obj = m) = some { a with copies := a.copies.erase c, retired := a.retired ++ [c.slot] }) ∧
      (¬late → exec (.hotCopyExpiry part table m key) s = .next s))

/-- Updates of embedding rows. -/
def Obligations.EmbeddingUpdates : Prop :=
  (∀ (s : State) (part : Nat) (v : Update), mainOn s = true → oldestUpdate s part = some v → v.desc.opcode = 0x12 → v.desc.w32 < 64 →
    let k := 64 * v.part + v.desc.w32
    let o := tableObj v.part v.desc.w32
    let c := max (s.clock.ft + landNs s v.part) (countVal s o 0x1B 0 + 1)
    let dead (cause : Nat) : Prop := ∃ t, exec (.embedUpdateApply part) s = .next t ∧ countVal t o 0x16 0 = countVal s o 0x16 0 + 1 ∧
      countVal t o 0x17 0 = cause ∧ t.levee.updates = s.levee.updates.filter (fun w => w.id != v.id) ∧
      t.levee.committed = s.levee.committed ++ [⟨v, c, 0⟩] ∧ t.mem = s.mem
    ((∀ x, tableAt s k = some x → x.ready = false) → dead 2) ∧
    (∀ x, tableAt s k = some x → x.ready = true →
      (locateRow x v.desc.w48 = none → dead 2) ∧
      (∀ n w sh row, locateRow x v.desc.w48 = some (n, w, sh, row) →
        (x.owns sh = false → dead 1) ∧
        (∀ a w', x.owns sh = true → recordAddr s x v.desc.w48 = some (a, w') →
          ((pcAt s (localOf a).1).mode = .pnm → exec (.embedUpdateApply part) s = .next (settle s)) ∧
          ((pcAt s (localOf a).1).mode ≠ .pnm →
            let rates := [rwVal s o 4 0x3C23D70A, rwVal s o 5 0x322BCC77, rwVal s o 6 0x3F666666, rwVal s o 7 0x3F7FBE77]
            let u : RowUpdate := ⟨v.desc.w48, bits v.desc.w40 31 0, bits v.desc.w34 15 8, x.optimiser, bits v.desc.w34 7 0, c, rates, v.payload⟩
            let y := applyRow k x u s
            let z := if y.1 = 0 then bump o 0x15 1 y.2 else setCount o 0x17 y.1 (bump o 0x16 1 y.2)
            exec (.embedUpdateApply part) s =
              .next (settle (takeUpdate v c 0 (forwardRow k x u (leNat (readI s a 8)) (setCount o 0x1B c z))))))))) ∧
  (∀ (s : State) (p : Nat) (u : RowUpdate) (old rec : Bytes) (d : Nat) (g : List Nat), newRecord s p u old d g = some rec →
    leAt rec 0 8 = u.commit % 2 ^ 64 ∧ leAt rec 8 4 = u.step % 2 ^ 32) ∧
  (∀ (s s' : State) (f : Flit) (b : Bytes), takeWhole 7 s = some (f, b, s') →
    let k := 64 * f.owner + leAt f.data 0 4 % 64
    (rwVal s 0x2001 1 3 = 4 → exec .forward s = .next s') ∧
    (∀ x a w, rwVal s 0x2001 1 3 ≠ 4 → tableAt s k = some x → x.ready = true → recordAddr s x (leAt b 0 8) = some (a, w) →
      let u : RowUpdate := ⟨leAt b 0 8, leAt b 8 4, leAt b 12 1, leAt b 13 1, leAt b 14 1, leAt b 16 8,
        (List.range 4).map (fun i => leAt b (32 + 4 * i) 4), b.drop 64⟩
      (leNat (readI s' a 8) ≠ leAt b 24 8 ∨ u.key ∈ x.resync → ∃ t y, exec .forward s = .next t ∧ tableAt t k = some y ∧ u.key ∈ y.resync ∧
        t.levee = s.levee) ∧
      (leNat (readI s' a 8) = leAt b 24 8 → u.key ∉ x.resync → (applyRow k x u s').1 = 0 →
        exec .forward s = .next (settle (bump (tabObj k) 0x1D 1 (bump (tabObj k) 0x15 1 (applyRow k x u s').2)))) ∧
      (leNat (readI s' a 8) = leAt b 24 8 → u.key ∉ x.resync → (applyRow k x u s').1 ≠ 0 → exec .forward s = .next (applyRow k x u s').2))) ∧
  (∀ (s s' : State) (f : Flit) (b : Bytes) (key : Nat) (x : Table) (a : Nat) (w : WidthClass), takeWhole 8 s = some (f, b, s') →
    let k := 64 * f.owner + leAt f.data 0 4 % 64
    tableAt s k = some x → x.ready = true → recordAddr s x key = some (a, w) →
    (key ∈ x.resync → b.length = x.stride w → ∃ t y, exec (.resyncRecord key) s = .next t ∧ tableAt t k = some y ∧ y.resync = x.resync.erase key ∧
      countVal t (tabObj k) 0x19 0 = countVal s (tabObj k) 0x19 0 + 1) ∧
    (key ∉ x.resync → exec (.resyncRecord key) s = .next s'))

/-- Watermarks of replicated rows and lookups of remote rows. -/
def Obligations.EmbeddingFabric : Prop :=
  (∀ (s : State) (part table src mark : Nat) (x : Table), table < 64 → tableAt s (64 * part + table) = some x → x.ready = true →
    let k := 64 * part + table
    exec (.watermarkSend part table) s =
      .next { s with outs := ((holderNodes s k x).map (fun n => Out.watermark n part table s.clock.ft)).reverse ++ s.outs } ∧
    (∃ t y, exec (.watermarkReceive part table src mark) s = .next t ∧ tableAt t k = some y ∧
      KMap.find y.marks src = some ⟨mark, mark, x.resync.all (fun key => ownerNode s k x (bits key 63 48) != src)⟩ ∧
      (∀ n, n ≠ src → KMap.find y.marks n = KMap.find x.marks n) ∧ y.resync = x.resync) ∧
    (∀ m, KMap.find x.marks src = some m →
      (m.at_ + 1000 * rwVal s (tableObj part table) 0x11 50000 < s.clock.ft → ∃ t y, exec (.replicaStale part table src) s = .next t ∧
        tableAt t k = some y ∧ KMap.find y.marks src = some { m with current := false }) ∧
      (s.clock.ft ≤ m.at_ + 1000 * rwVal s (tableObj part table) 0x11 50000 → exec (.replicaStale part table src) s = .next s))) ∧
  (∀ (s s' : State) (f : Flit), takeInbox 4 s = some (f, s') →
    exec .lookupReq s = .next ((List.range (leAt f.data 12 2 / 16)).foldl
      (fun s i => answerKey f (64 * f.owner + leAt f.data 15 1 % 64) i s) s')) ∧
  (∀ (s s' : State) (f : Flit) (r : ExRound) (a : Ask), takeInbox 5 s = some (f, s') →
    let off := leAt f.data 8 4
    let fits (r : ExRound) (a : Ask) : Bool :=
      r.slot / 4 = f.owner && rwVal s (0x7200 + r.slot) 1 0 = leAt f.data 0 4 && r.batch = leAt f.data 4 4 && a.tag = f.tag
      && a.width != 0 && a.item = off / a.width && a.table = leAt f.data 15 1 % 64 && !a.done
    let marked (y : Ask) : List ExRound := s.fab.rounds.map (fun x => if x = r then { x with asks := x.asks.map (fun b => if b = a then y else b) } else x)
    s.fab.rounds.findSome? (fun r => (r.asks.find? (fits r)).map (fun a => (r, a))) = some (r, a) →
    let n := min (leAt f.data 12 2) (a.width - off % a.width)
    let base := 0x100000000 * a.tile + a.dest + off % a.width
    (leAt f.data 14 1 = 0 → 16 + n ≤ f.data.length → ∃ t, exec .lookupRsp s = .next t ∧ t.mem = { s.mem with tile := t.mem.tile } ∧
      t.fab.rounds = marked { a with got := a.got + leAt f.data 12 2, done := f.last } ∧
      (∀ i, i < n → Memory.read t.mem.tile (base + i) = nth f.data (16 + i) 0) ∧
      (∀ b, b < base ∨ base + n ≤ b → Memory.read t.mem.tile b = Memory.read s.mem.tile b)) ∧
    (leAt f.data 14 1 ≠ 0 → ∃ t, exec .lookupRsp s = .next t ∧ t.mem = s.mem ∧ t.fab.rounds = marked { a with dead := true }))

/-- Signal cells and the commands that reach them. -/
def Obligations.SignalCells : Prop :=
  (
   ∀ (s : State) (n : Nat),
     let c := cellAt s n
     (∀ k,
       let g := c.parks.take k
       let sum := c.count + (k - g.length)
       let t := applyCell n (.signal k) s
       (cellAt t n).count = min sum 0xFFFF ∧ (cellAt t n).ovf = (c.ovf || decide (0xFFFF < sum)) ∧ (cellAt t n).parks = c.parks.drop k ∧
       (cellAt t n).arm = (if sum = 0 then c.arm else none) ∧ t.cells.granted = s.cells.granted ++ g.map (fun ch => (ch, n)) ∧
       (n < 65536 → countVal t (0x3000 + 0x10 * (n / 2048)) 0x14 0 = countVal s (0x3000 + 0x10 * (n / 2048)) 0x14 0 + (sum - 0xFFFF))) ∧
     (∀ port vec, cellAt (applyCell n (.arm port vec) s) n = { c with arm := if c.count = 0 then some (port, vec) else none }) ∧
     (∃ t, applyCell n .tryUnit s = emit (.cellTry n (decide (0 < c.count)) (c.count - 1)) t ∧ cellAt t n = { c with count := c.count - 1 }) ∧
     (∀ ch, (0 < c.count → cellAt (applyCell n (.wait ch) s) n = { c with count := c.count - 1 } ∧
         (applyCell n (.wait ch) s).cells.granted = s.cells.granted ++ [(ch, n)]) ∧
       (c.count = 0 → cellAt (applyCell n (.wait ch) s) n = { c with parks := c.parks ++ [ch] } ∧ (applyCell n (.wait ch) s).cells.granted = s.cells.granted)) ∧
     (∀ ch, (ch ∈ c.parks → cellAt (applyCell n (.cancel ch) s) n = { c with parks := c.parks.filter (· != ch) } ∧
         (applyCell n (.cancel ch) s).cells.cancelled = s.cells.cancelled ++ [(ch, n)]) ∧
       (ch ∉ c.parks → applyCell n (.cancel ch) s = s)) ∧
     cellAt (applyCell n .clear s) n = { c with ovf := false } ∧
     (∀ a, (∀ m, m ≠ n → cellAt (applyCell n a s) m = cellAt s m) ∧ (applyCell n a s).mem = s.mem ∧ (applyCell n a s).slots = s.slots)) ∧
  (
   ∀ (s : State),
     (∀ owner cell n chan, owner = ownSystem ∨ cell < 65536 ∧ cell / 2048 = owner →
       AppliesTo s cell (.signal n) (exec (.cellSignal owner cell n) s) ∧ AppliesTo s cell .tryUnit (exec (.cellTry owner cell) s) ∧
       AppliesTo s cell (.wait chan) (exec (.cellWait owner cell chan) s) ∧ AppliesTo s cell (.cancel chan) (exec (.cellCancel cell chan) s)) ∧
     (∀ owner cell n chan, owner ≠ ownSystem → 65536 ≤ cell ∨ cell / 2048 ≠ owner →
       exec (.cellSignal owner cell n) s = .next (firewallHit owner srcDevice cell s) ∧
       exec (.cellTry owner cell) s = .next (emit (.cellTry cell false 0) (firewallHit owner srcDevice cell s)) ∧
       exec (.cellWait owner cell chan) s = .next (firewallHit owner srcDevice cell s) ∧ (firewallHit owner srcDevice cell s).cells = s.cells) ∧
     (∀ owner cell n, owner = ownSystem ∨ cell < 65536 ∧ cell / 2048 = owner → cellBound s cell = false → primaryHub s = none →
       ∃ t, exec (.cellSignal owner cell n) s = .next t ∧ t.cells = { s.cells with held := s.cells.held ++ [⟨cell, .signal n, none⟩] } ∧ t.outs = s.outs) ∧
     (∀ port part v,
       AppliesTo s (cellNo part (v % 2048)) (.signal (max 1 (bits v 31 16))) (exec (.sigRaise port part v) s) ∧
       (∃ t, exec (.sigSelect port part v) s = .next t ∧ selectedCell t port part = cellNo part (v % 2048) ∧ t.cells = s.cells ∧ t.mem = s.mem) ∧
       AppliesTo s (selectedCell s port part) (.tryHost port part) (exec (.sigTry port part) s) ∧
       AppliesTo s (selectedCell s port part) (.arm port (bits v 31 16)) (exec (.sigArm port part v) s) ∧
       (v % 2 = 1 → AppliesTo s (selectedCell s port part) .clear (exec (.sigClear port part v) s)) ∧
       (v % 2 = 0 → exec (.sigClear port part v) s = .next s)) ∧
     (∀ f s', takeInbox 6 s = some (f, s') →
       (32 ≤ f.owner → exec .remoteSignal s = .next s') ∧
       (f.owner < 32 → rwVal s (0x3000 + 0x10 * f.owner) 0x15 0 = 1 →
         exec .remoteSignal s = .next (issueCell (cellNo f.owner (leAt f.data 0 2 % 2048)) (.signal (max 1 (leAt f.data 2 2))) s')) ∧
       (f.owner < 32 → rwVal s (0x3000 + 0x10 * f.owner) 0x15 0 ≠ 1 → exec .remoteSignal s = .next (bump (0x3000 + 0x10 * f.owner) 0x17 1 s'))) ∧
     (∀ pa tag part data, let r : ObjRef := ⟨objClearOverflows, [part]⟩
       DomainTaken pa r data.length s → ∃ u, exec (.clearOverflows pa tag part data) s = DomainDone pa tag r data .ok u ∧
         ((∀ c, c < 2048 → cellBound s (cellNo part c) = true) → ∀ c, c < 2048 → cellAt u (cellNo part c) =
           if bit (nth data (c / 8) 0).toNat (c % 8) then { cellAt s (cellNo part c) with ovf := false } else cellAt s (cellNo part c))) ∧
     (∀ pa tag part slot data, let r : ObjRef := ⟨objCutMask, [part, slot]⟩
       DomainTaken pa r data.length s →
       let s' := dropTransfer pa s
       exec (.cutResetMaskWrite pa tag part slot data) s =
         if (slotAt s part slot).state = .staged ∨ (slotAt s part slot).state = .resident then DomainDone pa tag r data .ok (setDom (slotObj part slot) 0x22 data s')
         else DomainDone pa tag r data .state s'))

/-- The receive and transmit sides of a link. -/
def Obligations.CausewayLink : Prop :=
  (∀ k : LaneLock, k.phase ≤ 2 → k.count ≤ 3 →
    (k.phase = 0 → k.next 1 = ⟨1, 1⟩ ∧ k.next 2 = ⟨1, 1⟩ ∧ k.next 0 = k) ∧
    (k.phase = 1 → (k.count = 3 → k.next 1 = ⟨2, 0⟩) ∧ (k.count < 3 → k.next 1 = ⟨1, k.count + 1⟩) ∧ k.next 0 = ⟨0, 0⟩ ∧ k.next 2 = ⟨0, 0⟩) ∧
    (k.phase = 2 → k.next 1 = ⟨2, 0⟩ ∧ (2 ≤ k.count → k.next 0 = ⟨0, 0⟩) ∧ (k.count < 2 → k.next 0 = ⟨2, k.count + 1⟩))) ∧
  (∀ (s : State) (port : Nat), port < 64 →
    let p := portAt s port
    let sameElse (t : State) : Prop := ∀ n, n ≠ port → portAt t n = portAt s n
    (∀ skew syncs errs blocks rx, p.state = 0 ∨ p.state = 4 → exec (.frameReceive port skew syncs errs blocks rx) s = .next s) ∧
    (∀ syncs errs blocks rx, p.offered = none → (∀ w, w < 10 → (nth p.locks w {}).phase = 2 ∧ nth syncs w 0 = 1) →
      (∀ l, l < 8 → (waveOf p.lanes l).isSome = true) →
      (p.state = 1 → ∃ t, exec (.frameReceive port true syncs errs blocks rx) s = .next t ∧ (portAt t port).state = 2 ∧ sameElse t) ∧
      (p.state = 3 → ∀ r, rx = [some r] →
        (slotGood blocks 0 r = true → 2 ≤ r.flit.type → r.flit.type ≤ 0xA → r.seq = p.expected % 4096 →
          ∃ t, exec (.frameReceive port true syncs errs blocks rx) s = .next t ∧ (portAt t port).held = p.held ++ [r.flit] ∧
            (portAt t port).expected = p.expected + 1 ∧ sameElse t) ∧
        (slotGood blocks 0 r = false ∨ 2 ≤ r.flit.type ∧ r.flit.type ≤ 0xA ∧ r.seq ≠ p.expected % 4096 →
          ∃ t, exec (.frameReceive port true syncs errs blocks rx) s = .next t ∧ (portAt t port).held = p.held ∧ (portAt t port).expected = p.expected ∧
            (portAt t port).nak.map (·.1) = some p.expected ∧ sameElse t))) ∧
    (∀ c, p.state = 2 → linkKeyed s port c.key = true →
      let want := rwVal s (0x7100 + port) 2 0xFFFFFFFF
      let v := commonVersion 0x01000100 c.range
      (want = 0xFFFFFFFF ∨ want = c.node → v ≠ 0 → ∃ t, exec (.ctlReceive port c true true) s = .next t ∧ (portAt t port).state = 3 ∧
        (portAt t port).partner = c.node ∧ (portAt t port).version = v ∧ (portAt t port).expected = 0 ∧ (portAt t port).nextSeq = 0 ∧
        (portAt t port).replay = [] ∧ (portAt t port).used = [0, 0, 0] ∧ (portAt t port).credits = [0, 0, 0] ∧ sameElse t) ∧
      (want ≠ 0xFFFFFFFF → want ≠ c.node → ∃ t, exec (.ctlReceive port c true true) s = .next t ∧ (portAt t port).state = 4 ∧ (portAt t port).cause = 4) ∧
      (want = 0xFFFFFFFF ∨ want = c.node → v = 0 → ∃ t, exec (.ctlReceive port c true true) s = .next t ∧ (portAt t port).state = 4 ∧ (portAt t port).cause = 3)) ∧
    (∀ c good ok, p.state = 3 →
      (good = false ∨ c.seq ≠ p.expected % 4096 → exec (.ctlReceive port c good ok) s = .next (raiseNak port s)) ∧
      (good = true → c.seq = p.expected % 4096 → ok = false ∨ linkKeyed s port c.key = false ∨ c.count ≠ p.held.length →
        (p.sealBad.filter (fun t => s.clock.now < t + 1000000)).length < 7 →
        ∃ t, exec (.ctlReceive port c good ok) s = .next t ∧ (portAt t port).held = [] ∧ (portAt t port).expected = p.expected - p.held.length ∧
          (portAt t port).state = 3 ∧ countVal t (0x7100 + port) 0x0C 0 = countVal s (0x7100 + port) 0x0C 0 + 1) ∧
      (good = true → ok = true → linkKeyed s port c.key = true → c.seq = p.expected % 4096 → c.count = p.held.length →
        c.count = 0 ∨ c.first = (p.expected - p.held.length) % 4096 → c.nak = false →
        ∃ t, exec (.ctlReceive port c good ok) s = .next t ∧ (portAt t port).held = [] ∧ (portAt t port).expected = p.expected + 1 ∧ (portAt t port).nak = none)) ∧
    (p.state ≠ 2 → p.state ≠ 3 → exec (.ctlSend port) s = .next s) ∧
    (p.state = 2 ∨ p.state = 3 → ∃ t c, exec (.ctlSend port) s = .next t ∧ t.outs.head? = some (.ctl port c) ∧
      (portAt t port).counter = p.counter + 1 ∧ c.counter = p.counter ∧ c.count ≤ 31 ∧ c.first = p.nextSeq % 4096 ∧ c.seq = (p.nextSeq + c.count) % 4096 ∧
      (portAt t port).cmdOut = p.cmdOut.drop 1 ∧ (portAt t port).nakDue = false ∧ t.mem = s.mem ∧ sameElse t ∧
      (p.state = 2 → c.count = 0 ∧ c.node = nodeId s ∧ c.range = 0x01000100 ∧ (portAt t port).replay = p.replay ∧ (portAt t port).nextSeq = p.nextSeq) ∧
      (p.state = 3 → (portAt t port).nextSeq = p.nextSeq + c.count + 1 ∧ (portAt t port).replay.length = p.replay.length + c.count + 1 ∧
        (portAt t port).replay.take p.replay.length = p.replay ∧ (portAt t port).queue.length + c.count = p.queue.length ∧
        (∀ k, k < 3 → nth p.used k 0 ≤ nth p.credits k 0 + 512 → nth (portAt t port).used k 0 ≤ nth p.credits k 0 + 512))) ∧
    (∀ e q, p.state = 3 → p.replay = e :: q →
      (e.at_ + 10000 ≤ s.clock.now → exec (.replayTimeout port) s = .next (settle (resend port s)) ∧
        ((∀ x ∈ p.replay, x.times < 16) → (portAt (resend port s) port).replay = p.replay.map (fun e => { e with at_ := s.clock.now, times := e.times + 1 }) ∧
          (portAt (resend port s) port).state = 3) ∧
        ((∃ x ∈ p.replay, 16 ≤ x.times) → (portAt (resend port s) port).state = 0 ∧ (portAt (resend port s) port).cause = 6)) ∧
      (s.clock.now < e.at_ + 10000 → exec (.replayTimeout port) s = .next s)) ∧
    (∀ q at_, p.nak = some (q, at_) →
      (q = p.expected → at_ + 10000 ≤ s.clock.now → ∃ t, exec (.nakHoldoffTimeout port) s = .next t ∧
        portAt t port = { p with nak := some (q, s.clock.now), nakDue := true } ∧ t.mem = s.mem ∧ sameElse t) ∧
      (q ≠ p.expected ∨ s.clock.now < at_ + 10000 → exec (.nakHoldoffTimeout port) s = .next s)))

/-- Ports and lanes. -/
def Obligations.CausewayPorts : Prop :=
  ∀ (s : State) (port : Nat), port < 64 →
    let p := portAt s port
    let due : Prop := ∀ t0, p.tried = some t0 → t0 + 10000000 ≤ s.clock.now
    (mainOn s = true → p.state = 0 → portEnabled s port = true → engineLit s (port / 8) = true → due →
      ∃ t, exec (.bringUpRetry port) s = .next t ∧ (portAt t port).state = 1 ∧ (portAt t port).tried = some s.clock.now ∧
        (portAt t port).started = s.clock.now ∧ ∀ n, n ≠ port → portAt t n = portAt s n) ∧
    (p.state ≠ 0 ∨ portEnabled s port = false ∨ engineLit s (port / 8) = false ∨ ¬due → exec (.bringUpRetry port) s = .next s) ∧
    (p.state = 1 → p.started + 1000000 ≤ s.clock.now → ∃ t, exec (.alignTimeout port) s = .next t ∧ (portAt t port).state = 0 ∧ (portAt t port).cause = 1) ∧
    (p.state ≠ 1 ∨ s.clock.now < p.started + 1000000 → exec (.alignTimeout port) s = .next s) ∧
    (mainOn s = true → ∃ t, exec (.lightLoss (port / 8)) s = .next t ∧ countVal t (0x7180 + port / 8) 2 0 = 0 ∧
      (portAt t port).state = 0 ∧ (p.state ≠ 0 → (portAt t port).cause = 8) ∧ ∀ n, n / 8 ≠ port / 8 → portAt t n = portAt s n) ∧
    (∀ st pw, mainOn s = true → st ≤ 2 → ∃ t, exec (.lightStateChange (port / 8) st pw) s = .next t ∧ countVal t (0x7180 + port / 8) 2 0 = st ∧
      countVal t (0x7180 + port / 8) 3 0 = pw % 2 ^ 32 ∧ (st ≠ 0 → portAt t port = p) ∧ (st = 0 → (portAt t port).state = 0)) ∧
    (∀ pa tag v, RowTaken pa ⟨objPortEnable, [port]⟩ v s → ∃ u, exec (.portEnableWrite pa tag port v) s = RowDone pa tag ⟨objPortEnable, [port]⟩ v .ok u ∧
      rwVal u (0x7100 + port) 0x13 1 = v ∧
      (v = 0 → p.state ≠ 0 → p.state ≠ 4 → (portAt u port).state = 0 ∧ (portAt u port).cause = 7) ∧
      (v ≠ 0 → p.state = 4 → (portAt u port).state = 0 ∧ (portAt u port).tried = none) ∧ (v ≠ 0 → p.state = 0 → portAt u port = { p with tried := none })) ∧
    (∀ l w, p.state = 3 → p.errAt + 1000000 ≤ s.clock.now → l < 8 → waveOf p.lanes l = some w → p.offered = none → p.wants = [] →
      (∀ m v, m < 8 → waveOf p.lanes m = some v → (rwVal s (0x7100 + port) 0x10 100000 < nth p.errs v 0 ↔ m = l)) →
      ∃ t, exec (.laneErrorWindow port) s = .next t ∧
        (∀ v, spareWave p = some v → (portAt t port).offered = some ⟨l, w, v, true, 4⟩ ∧ (portAt t port).cmdOut = p.cmdOut ++ [(1, 16 * l + v)] ∧
          (portAt t port).errs = List.replicate 10 0 ∧ (portAt t port).errAt = s.clock.now ∧ (portAt t port).state = 3) ∧
        (spareWave p = none → (portAt t port).state = 0 ∧ (portAt t port).cause = 5)) ∧
    (p.state ≠ 3 ∨ s.clock.now < p.errAt + 1000000 → exec (.laneErrorWindow port) s = .next s) ∧
    (∀ w, w < 10 → p.lanes.length = 10 → nth p.lanes w 15 = 8 → p.offered = none → ∃ t, exec (.spareWavelengthError port w) s = .next t ∧
      nth (portAt t port).lanes w 15 = 15 ∧ (portAt t port).state = p.state) ∧
    (∀ w, nth p.lanes w 15 ≠ 8 → exec (.spareWavelengthError port w) s = .next s) ∧
    (∀ a q, p.cmdIn = (1, a) :: q → ∃ t, exec (.moveReq port) s = .next t ∧ portAt t port = { p with cmdIn := q, hold := p.nakked } ∧ t.mem = s.mem) ∧
    (∀ a q, p.cmdIn = (2, a) :: q → p.txLanes.length = 10 → a % 16 < 10 → a / 16 < 8 → ∃ t, exec (.switched port) s = .next t ∧ (portAt t port).cmdIn = q ∧
      (portAt t port).hold = false ∧ nth (portAt t port).txLanes (a % 16) 15 = a / 16 ∧ (portAt t port).cmdOut = p.cmdOut ++ [(3, a)] ∧ t.mem = s.mem) ∧
    (∀ a q, p.cmdIn = (3, a) :: q → p.wants = [] → p.vigil = 0 → ∃ t, exec (.release port) s = .next t ∧ portAt t port = { p with cmdIn := q, offered := none }) ∧
    (∀ pa tag v, RowTaken pa ⟨objTableCommit, []⟩ v s →
      (v ≠ 1 → exec (.tableCommit pa tag v) s = RowDone pa tag ⟨objTableCommit, []⟩ v .ok s) ∧
      (v = 1 → ∃ u, exec (.tableCommit pa tag v) s = RowDone pa tag ⟨objTableCommit, []⟩ v .ok u ∧ countVal u 0x7001 4 0 = countVal s 0x7001 4 0 + 1 ∧
        (∀ sub d, sub = 1 ∨ sub = 2 → KMap.find s.dict.stagedDoms (okey 0x7001 sub) = some d → rwDom u 0x7001 sub [] = d) ∧
        (∀ sub, sub = 1 ∨ sub = 2 → KMap.find u.dict.stagedDoms (okey 0x7001 sub) = none)))

/-- Exchange and fabric management. -/
def Obligations.ExchangeRounds : Prop :=
  (∀ (s s' : State) (f : Flit), takeInbox 2 s = some (f, s') →
    let hit := s.slots.find? (fun e => e.1 / 4 = f.owner && e.2.state.holds && rwVal s (0x7200 + e.1) 1 0 = leAt f.data 0 4)
    let off := leAt f.data 8 4
    let n := leAt f.data 12 2
    let answered (st : Nat) (u : State) : Answered :=
      .next (sendFlit 3 1 f.src f.owner f.tag true (f.data.take 12 ++ toLE 2 0 ++ toLE 1 st ++ toLE 1 0) u)
    (hit = none → exec .exchangeWrite s = answered 2 s') ∧
    (∀ k sl, hit = some (k, sl) →
      let area := rwVal s (0x7200 + k) 3 0
      let w := rwVal s (0x7200 + k) 2 0
      let tile := nth sl.tileMap (bits w 31 26) 0
      let a := bits w 25 0 + leAt f.data 4 4 % exchangeAreas s k * area + off
      (area < off + n → exec .exchangeWrite s = answered 3 (bump (0x7200 + k) 6 1 s')) ∧
      (off + n ≤ area → leAt f.data 4 4 < KMap.getD s.fab.ended k 0 → exec .exchangeWrite s = answered 1 (bump (0x7200 + k) 5 1 s')) ∧
      (off + n ≤ area → KMap.getD s.fab.ended k 0 ≤ leAt f.data 4 4 → ownerOf s 0 tile a = f.owner → ownerOf s 0 tile (a + n - 1) = f.owner →
        16 + n ≤ f.data.length → ∃ u, exec .exchangeWrite s = answered 0 u ∧ u.mem = { s.mem with tile := u.mem.tile } ∧
          (∀ i, i < n → Memory.read u.mem.tile (0x100000000 * tile + a + i) = nth f.data (16 + i) 0) ∧
          (∀ b, b < 0x100000000 * tile + a ∨ 0x100000000 * tile + a + n ≤ b → Memory.read u.mem.tile b = Memory.read s.mem.tile b)))) ∧
  (∀ (s s' : State) (f : Flit), takeInbox 0xA s = some (f, s') → (KMap.getD s.dict.blobs (okey 0x7002 2) []).length < 16 * 244 →
    ∃ t, exec .fmRsp s = .next t ∧
      KMap.getD t.dict.blobs (okey 0x7002 2) [] = KMap.getD s.dict.blobs (okey 0x7002 2) [] ++ toLE 4 f.src ++ padTo 240 f.data ∧ t.mem = s.mem) ∧
  (∀ (s : State) (pa : Path) (tag : Nat) (data : Bytes), DomainTaken pa ⟨objFmOut, []⟩ data.length s →
    let s' := dropTransfer pa s
    (rwVal s 0x7000 3 0 = 0 → exec (.fmFrameOut pa tag data) s = DomainDone pa tag ⟨objFmOut, []⟩ data .state s') ∧
    (rwVal s 0x7000 3 0 ≠ 0 → data.length < 20 ∨ 244 < data.length → exec (.fmFrameOut pa tag data) s = DomainDone pa tag ⟨objFmOut, []⟩ data .length s') ∧
    (rwVal s 0x7000 3 0 ≠ 0 → 20 ≤ data.length → data.length ≤ 244 → exec (.fmFrameOut pa tag data) s =
      DomainDone pa tag ⟨objFmOut, []⟩ data .ok (sendFlit 9 0 (leAt data 0 4 % 2 ^ 17) ownSystem 0 true (data.drop 4) s'))) ∧
  (∀ (s : State) (part slot stage : Nat) (missed : List Nat) (r : ExRound),
    let k := 4 * part + slot
    s.fab.rounds.find? (fun r => r.slot = k && r.stage = stage && r.open_) = some r →
    let im := (KMap.getD s.slots k {}).image.getD {}
    let miss := r.asks.filter (fun a => !a.done)
    let asks : Prop := r.extra = false ∧ bit im.flags 0 = true ∧ (miss ≠ [] ∨ missed ≠ []) ∧
      ∀ c ∈ (KMap.getD s.slots k {}).batches, c.id % 2 ^ 32 = r.batch → c.extra = false
    (s.clock.now < r.issued + 1000 * rwVal s 0x7000 0xA 90 → exec (.exchangeRoundEnd part slot stage missed) s = .next s) ∧
    (r.issued + 1000 * rwVal s 0x7000 0xA 90 ≤ s.clock.now →
      (asks → exec (.exchangeRoundEnd part slot stage missed) s = .next (startExtra k stage r.batch missed miss (endWrites k r.writes s))) ∧
      (¬asks → ∃ t, exec (.exchangeRoundEnd part slot stage missed) s = .next t ∧ (∀ x ∈ t.fab.rounds, isRound k stage r.batch x = false) ∧
        KMap.getD t.fab.ended k 0 = if (nth im.stages stage {}).kind = 1 then KMap.getD s.fab.ended k 0 else max (KMap.getD s.fab.ended k 0) (r.batch + 1))))

/-- The exchanges, the corrections and the commands of Fabric Time. -/
def Obligations.FabricTime : Prop :=
  ∀ (s : State), mainOn s = true →
    let c := s.clock
    (timeRole s = 0 → c.lastAsk + exchangeNs s ≤ c.now →
      (parentPort s = none → exec .timeExchangeTimer s = .next s) ∧
      (∀ n, parentPort s = some n → ∃ t, exec .timeExchangeTimer s = .next t ∧ t.clock.ask = some ⟨n, (c.askSeq + 1) % 65536, c.units⟩ ∧
        t.clock.lastAsk = c.now ∧ t.clock.units = c.units ∧ t.mem = s.mem ∧
        t.outs = .time n 1 (timeFlags s) ((c.askSeq + 1) % 65536) (namedMaster s) (timeSteps s) c.units 0 0 (2 ^ 63 + KMap.getD c.sent n 0) :: s.outs)) ∧
    (∀ port sq master steps counter t1 tag, portUp s port = true →
      (timeTaken s port master steps counter tag = true → ∃ t, exec (.timeRequest port sq master steps counter t1 tag) s = .next t ∧
        t.clock.units = c.units ∧ (port, counter) ∈ t.clock.seen ∧ t.mem = s.mem ∧
        t.outs = .time port 2 (timeFlags s) sq (namedMaster s) (timeSteps s) t1 (arrivalStamp s port).toNat c.units (2 ^ 63 + KMap.getD c.sent port 0) :: s.outs) ∧
      (timeTaken s port master steps counter tag = false → ∃ t, exec (.timeRequest port sq master steps counter t1 tag) s = .next t ∧
        countVal t 0x9000 0x12 0 = countVal s 0x9000 0x12 0 + 1 ∧ t.clock = { c with alarms := t.clock.alarms })) ∧
    (∀ port sq master steps counter t1 t2 t3 tag, portUp s port = true → timeRole s = 0 →
      let i : Instr := .timeResponse port sq master steps counter t1 t2 t3 tag
      (∃ t, exec i s = .next t ∧ c.units ≤ t.clock.units) ∧
      (timeTaken s port master steps counter tag = false → ∃ t, exec i s = .next t ∧
        countVal t 0x9000 0x12 0 = countVal s 0x9000 0x12 0 + 1 ∧ t.clock = { c with alarms := t.clock.alarms }) ∧
      (timeTaken s port master steps counter tag = true → c.ask = some ⟨port, sq, t1⟩ →
        let a : Int := (t2 : Int) - t1
        let b : Int := arrivalStamp s port - t3
        let l := (⟨(a - b) / 2, (a + b) / 2⟩ :: c.samples).take 8
        let th := (bestSample l).theta
        (c.state = .unset → ∃ t, exec i s = .next t ∧ t.clock.state = .tracking ∧ t.clock.ask = none ∧ (t.clock.units : Int) = c.units + max th 0) ∧
        (c.state = .tracking ∨ c.state = .locked →
          (50 * oneUs < th → ∃ t, exec i s = .next t ∧ t.clock.state = .tracking ∧ (t.clock.units : Int) = c.units + th ∧ t.clock.slew = 0) ∧
          (th < -(50 * oneUs) → -(50 * oneUs) ≤ c.slew → ∃ t, exec i s = .next t ∧ t.clock.state = .holdover ∧ t.clock.units = c.units ∧
            t.clock.slew = 0 ∧ countVal t 0x9000 0x14 0 = 1) ∧
          (-(50 * oneUs) ≤ th → th ≤ 50 * oneUs → ∃ t, exec i s = .next t ∧ t.clock.slew = th ∧ t.clock.units = c.units ∧
            t.clock.samples = l ∧ t.clock.master = some master ∧
            (t.clock.state = .locked ↔ (-oneUs ≤ th ∧ th ≤ oneUs ∧ (c.state = .locked ∨ 8 ≤ c.good + 1))))))) ∧
    (timeRole s = 0 → c.state = .tracking ∨ c.state = .locked → c.lastResp + 16 * exchangeNs s ≤ c.now →
      ∃ t, exec .masterLostTimeout s = .next t ∧ t.clock.state = .holdover ∧ countVal t 0x9000 0x14 0 = 2 ∧ t.clock.units = c.units) ∧
    (c.now < c.lastResp + 16 * exchangeNs s ∨ timeRole s ≠ 0 → exec .masterLostTimeout s = .next s) ∧
    (∀ pa tag v, RowTaken pa ⟨objSetFt, []⟩ v s →
      (timeRole s = 0 → exec (.setFt pa tag v) s = RowDone pa tag ⟨objSetFt, []⟩ v .state s) ∧
      (timeRole s ≠ 0 → v ≤ c.ft → exec (.setFt pa tag v) s = RowDone pa tag ⟨objSetFt, []⟩ v .range s) ∧
      (timeRole s ≠ 0 → c.ft < v → ∃ u, exec (.setFt pa tag v) s = RowDone pa tag ⟨objSetFt, []⟩ v .ok u ∧
        (c.state ≠ .unset → u.clock.units = 65536 * v ∧ u.clock.state = c.state) ∧
        (c.state = .unset → 65536 * v ≤ u.clock.units ∧ u.clock.state = .locked ∧ u.clock.alarms = 0))) ∧
    (∀ pa tag v, RowTaken pa ⟨objRelock, []⟩ v s →
      (v ≠ 1 ∨ c.state ≠ .holdover → exec (.relock pa tag v) s = RowDone pa tag ⟨objRelock, []⟩ v .ok s) ∧
      (v = 1 → c.state = .holdover → ∃ u, exec (.relock pa tag v) s = RowDone pa tag ⟨objRelock, []⟩ v .ok u ∧
        u.clock = { c with state := .tracking, good := 0, slew := min 0 (bestSample c.samples).theta })) ∧
    ((decidingHub s).isSome = true → c.lastHeld + 256 ≤ c.now → ∃ t, exec .ftDistribute s = .next t ∧
      t.clock = { c with held := max c.held c.ft, lastHeld := c.now, mirrored := max c.mirrored c.ft } ∧ t.mem = s.mem ∧ t.outs = s.outs) ∧
    (decidingHub s = none ∨ c.now < c.lastHeld + 256 → exec .ftDistribute s = .next s)

/-- The Almanac's own events and the commands of the host. -/
def Obligations.AlmanacEntries : Prop :=
  (∀ (s : State),
    let tk := s.alm.lastTick + 1
    let ready : Prop := mainOn s = true ∧ (decidingHub s).isSome = true ∧ s.clock.state ≠ .unset ∧ 1024 * tk ≤ s.clock.ft
    let due := s.alm.entries.filter (fun e => e.2.due tk)
    (¬ready → exec .almanacTick s = .next s) ∧
    (ready → due = [] → ∃ t, exec .almanacTick s = .next t ∧ t.alm = { s.alm with lastTick := tk } ∧ t.clock = { s.clock with unsetStep := false } ∧
      t.slots = s.slots ∧ t.mem = s.mem) ∧
    (∀ n e, ready → KMap.sorted s.alm.entries = true → due = [(n, e)] →
      (e.fire = tk ∨ e.deferred = true ∨ s.clock.unsetStep = true ∨ e.policy = 0 → e.action ∉ [1, 6, 8] → ∃ t x, exec .almanacTick s = .next t ∧
        t.alm.lastTick = tk ∧ entryAt t n = some x ∧ x.flight = true ∧ x.firings = e.firings + 1 ∧
        x.fire = (if e.period = 0 then e.fire else nextOnGrid e tk) ∧ x.count = e.count ∧ (∀ m, m ≠ n → entryAt t m = entryAt s m) ∧
        ∃ late, t.alm.flight = s.alm.flight ++ [⟨n, e.action, e.owner, e.target, 1024 * tk, late, false⟩]) ∧
      (e.fire ≠ tk → e.deferred = false → s.clock.unsetStep = false → e.action ≠ 2 → e.action ≠ 3 →
        (e.policy = 1 → e.period ≠ 0 → nextOnGrid e (tk - 1) ≠ tk → ∃ t x, exec .almanacTick s = .next t ∧ t.alm.lastTick = tk ∧ entryAt t n = some x ∧
          x.fire = nextOnGrid e (tk - 1) ∧ x.flight = false ∧ x.firings = e.firings ∧ t.alm.flight = s.alm.flight ∧
          countVal t 0x9011 5 0 = countVal s 0x9011 5 0 + 1) ∧
        (1 < e.policy → ∃ t, exec .almanacTick s = .next t ∧ t.alm.lastTick = tk ∧ entryAt t n = none ∧ t.alm.flight = s.alm.flight ∧
          countVal t 0x9011 6 0 = countVal s 0x9011 6 0 + 1)))) ∧
  (∀ (s : State) (n : Nat),
    ((∀ f ∈ s.alm.flight, f.entry = n → f.acted = false) → exec (.firingReport n) s = .next s) ∧
    ((∃ f ∈ s.alm.flight, f.entry = n ∧ f.acted = true) → ∀ e, entryAt s n = some e →
      ∃ t, exec (.firingReport n) s = .next t ∧ t.alm.flight = s.alm.flight.filter (fun f => f.entry != n) ∧ t.mem = s.mem ∧
        (KMap.find s.alm.waiting n = none → e.period ≠ 0 → e.count ≠ 1 → entryAt t n = some { e with flight := false, count := e.count - 1 }) ∧
        (KMap.find s.alm.waiting n = none → e.period = 0 ∨ e.count = 1 → e.link = 0xFFFF → entryAt t n = none) ∧
        (KMap.find s.alm.waiting n = some .cancel → entryAt t n = none) ∧
        (∀ new, KMap.find s.alm.waiting n = some (.redirect new) → entryAt t n = some (redirected { e with flight := false } new)))) ∧
  (∀ (s : State) (pa : Path) (tag : Nat),
    let r : ObjRef := ⟨objEntryCommand, []⟩
    let n := entryNumber s
    let e := parseEntry (stagedEntry s)
    let said (v code num : Nat) (c : Instr) (u : State) : Prop :=
      exec c s = RowDone pa tag r v (entryStatus code) u ∧ countVal u 0x9010 4 0 = code ∧ countVal u 0x9010 5 0 = num
    let others (m : Nat) (u : State) : Prop := ∀ j, j ≠ m → entryAt u j = entryAt s j
    (∀ code, entryStatus code = if code = 0 then .ok else if code = 3 ∨ code = 5 then .state else .range) ∧
    (RowTaken pa r 1 s →
      ((placeCode s).1 ≠ 0 → ∃ u, said 1 (placeCode s).1 (placeCode s).2 (.entryPlace pa tag) u ∧ u.alm = s.alm) ∧
      ((placeCode s).1 = 0 → ∃ u, said 1 0 (placeCode s).2 (.entryPlace pa tag) u ∧ entryAt u (placeCode s).2 = some e ∧ others (placeCode s).2 u ∧
        u.alm.flight = s.alm.flight)) ∧
    (RowTaken pa r 2 s →
      (changeCode s true ≠ 0 → ∃ u, said 2 (changeCode s true) n (.entryRedirect pa tag) u ∧ u.alm = s.alm) ∧
      (∀ x, changeCode s true = 0 → entryAt s n = some x → ∃ u, said 2 0 n (.entryRedirect pa tag) u ∧ others n u ∧
        (x.flight = false → entryAt u n = some (redirected x e)) ∧
        (x.flight = true → entryAt u n = some x ∧ KMap.find u.alm.waiting n = some (.redirect e)))) ∧
    (RowTaken pa r 3 s →
      (changeCode s false ≠ 0 → ∃ u, said 3 (changeCode s false) n (.entryCancel pa tag) u ∧ u.alm = s.alm) ∧
      (∀ x, changeCode s false = 0 → entryAt s n = some x → ∃ u, said 3 0 n (.entryCancel pa tag) u ∧ others n u ∧
        (x.flight = false → entryAt u n = none) ∧ (x.flight = true → entryAt u n = some x ∧ KMap.find u.alm.waiting n = some .cancel))) ∧
    (RowTaken pa r 4 s →
      (n < 16 ∨ 271 < n → ∃ u, said 4 5 n (.setpolicy pa tag) u ∧ u.alm = s.alm) ∧
      (16 ≤ n → n ≤ 271 → e.policy = 3 → ∃ u, said 4 2 n (.setpolicy pa tag) u ∧ u.alm = s.alm) ∧
      (16 ≤ n → n ≤ 271 → e.policy ≠ 3 → ∃ u, said 4 0 n (.setpolicy pa tag) u ∧ others n u ∧ slotPolicy u n = e.policy ∧
        entryAt u n = (entryAt s n).map (fun x => { x with policy := e.policy }))))

/-- The commands of Mire, and the keys. -/
def Obligations.MireCommands : Prop :=
  ∀ (s : State) (pa : Path) (tag : Nat),
    (∀ good aside, RowTaken pa ⟨objMireCommand, []⟩ 1 s →
      (s.dev.state ≠ .config ∨ s.mire.spaces ≠ [] → exec (.format pa tag good aside) s = RowDone pa tag ⟨objMireCommand, []⟩ 1 .state s) ∧
      (s.dev.state = .config → s.mire.spaces = [] → ∃ u, exec (.format pa tag good aside) s = RowDone pa tag ⟨objMireCommand, []⟩ 1 .ok u ∧
        u.mire.map = [] ∧ u.mem = { s.mem with flash := [] } ∧ u.mire.queue = [] ∧ u.mire.rounds = [] ∧ u.mire.spaces = [] ∧
        countVal u 0x8000 0xC 0 ≤ 7812500000 ∧ (mireState u = 1 ∨ mireState u = 3) ∧ u.mire.keys = s.mire.keys)) ∧
    (∀ ns,
      let r : ObjRef := ⟨objSpaceCommand, [ns]⟩
      let o := 0x8040 + ns
      let s1 := commitStaged o s
      let owner := rwVal s1 o 3 0
      let size := rwVal s1 o 4 0
      let run := if size = 0 then none else fitRun 300 (s.mire.spaces.map (fun e => (e.2.first, e.2.size))) 0 size 1 (countVal s 0x8000 0xC 0)
      let said (v code : Nat) (c : Instr) (u : State) : Prop := exec c s = RowDone pa tag r v (spaceStatus code) u ∧ countVal u o 9 0 = code
      let refused (v code : Nat) (c : Instr) : Prop := ∃ u, said v code c u ∧ u.mire = s.mire ∧ u.mem = s.mem ∧ u.dict.staged = s.dict.staged
      let usable : Prop := mireState s = 1 ∨ mireState s = 3
      (RowTaken pa r 1 s →
        ((KMap.find s.mire.spaces ns).isSome = true ∨ ¬usable → refused 1 1 (.namespaceCreate pa tag ns)) ∧
        (KMap.find s.mire.spaces ns = none → usable → KMap.find s.mire.keys owner = none → refused 1 3 (.namespaceCreate pa tag ns)) ∧
        (KMap.find s.mire.spaces ns = none → usable → (KMap.find s.mire.keys owner).isSome = true → run = none → refused 1 2 (.namespaceCreate pa tag ns)) ∧
        (∀ a, KMap.find s.mire.spaces ns = none → usable → (KMap.find s.mire.keys owner).isSome = true → run = some a →
          ∃ u, said 1 0 (.namespaceCreate pa tag ns) u ∧ KMap.find u.mire.spaces ns = some ⟨owner, size, a⟩ ∧
            (∀ m, m ≠ ns → KMap.find u.mire.spaces m = KMap.find s.mire.spaces m) ∧ u.mem = s.mem ∧ u.mire.map = s.mire.map)) ∧
      (RowTaken pa r 2 s →
        (KMap.find s.mire.spaces ns = none ∨ ¬usable → refused 2 1 (.namespaceDestroy pa tag ns)) ∧
        (∀ x, KMap.find s.mire.spaces ns = some x → usable →
          (spaceUsed s ns = true → refused 2 4 (.namespaceDestroy pa tag ns)) ∧
          (spaceUsed s ns = false → ∃ u, said 2 0 (.namespaceDestroy pa tag ns) u ∧ KMap.find u.mire.spaces ns = none ∧
            (∀ m, m ≠ ns → KMap.find u.mire.spaces m = KMap.find s.mire.spaces m) ∧
            (∀ g, KMap.find u.mire.map g = if x.first ≤ g ∧ g < x.first + x.size then none else KMap.find s.mire.map g) ∧
            (∀ a, a < 16384 * x.first ∨ 16384 * (x.first + x.size) ≤ a → Memory.read u.mem.flash a = Memory.read s.mem.flash a)))) ∧
      (RowTaken pa r 3 s →
        let a := rwVal s o 7 0
        let n := rwVal s o 8 0
        (KMap.find s.mire.spaces ns = none ∨ ¬usable → refused 3 1 (.discard pa tag ns)) ∧
        (∀ x, KMap.find s.mire.spaces ns = some x → usable →
          (x.size < a + n → refused 3 5 (.discard pa tag ns)) ∧
          (a + n ≤ x.size → ∃ u, said 3 0 (.discard pa tag ns) u ∧ u.mem = s.mem ∧ u.mire.spaces = s.mire.spaces ∧
            (∀ g, KMap.find u.mire.map g = if x.first + a ≤ g ∧ g < x.first + a + n then (KMap.find s.mire.map g).map (fun _ => discardedEntry)
              else KMap.find s.mire.map g))))) ∧
    (∀ part data, DomainTaken pa ⟨objFlashKey, [part]⟩ data.length s →
      ((∃ e ∈ s.mire.spaces, e.2.owner = part) → exec (.flashKeyWrite pa tag part data) s = DomainDone pa tag ⟨objFlashKey, [part]⟩ data .state (dropTransfer pa s)) ∧
      ((∀ e ∈ s.mire.spaces, e.2.owner ≠ part) → ∃ u, exec (.flashKeyWrite pa tag part data) s = DomainDone pa tag ⟨objFlashKey, [part]⟩ data .ok u ∧
        KMap.find u.mire.keys part = some data ∧ KMap.find u.island.keys (256 + part) = some data ∧
        countVal u (0x8200 + part) 3 0 = countVal s (0x8200 + part) 3 0 + 1 ∧ u.mem = s.mem)) ∧
    (∀ idx sub data r,
      let rq : Req := { tag := tag, idx := idx, sub := sub, ty := 10, last := true, data := data }
      Goes pa ⟨4, rq⟩ s → findFor pa rq true true = .ok r → (∀ n, r.obj.dlen.most = some n → data.length ≤ n) → accessBar pa r s = .ok →
      domainBar pa r data.length (dropTransfer pa s) = .ok →
      exec (.keyWrite pa tag idx sub data) s =
        Answers pa ⟨4, rq⟩ 10 (writeBytes r data (dropTransfer pa s)).1 [] (writeBytes r data (dropTransfer pa s)).2 ∧
      (r.obj.kind = .linkKey → r.obj.sub = 0x11 ∨ r.obj.sub = 0x12 → ∃ u, writeBytes r data (dropTransfer pa s) = (.ok, u) ∧
        rwDom u (0x7100 + r.p0) r.obj.sub [] = data ∧ KMap.find u.island.keys (1 + 2 * r.p0 + (r.obj.sub - 0x11)) = some data))

/-- Writes, and the reads that are not query reads. -/
def Obligations.FlashWrites : Prop :=
  ∀ (s : State), mainOn s = true →
    (∀ id owner ns off phys system data,
      let i : Instr := .flashWrite id owner ns off phys system data
      let w : FlashWait := ⟨id, owner, ns, off, phys, system, false, data⟩
      let g := unitOf s ns off
      let d := dieAt s (g % 2)
      (off % 16384 ≠ 0 ∨ data.length ≠ 16384 → exec i s = .next (emit (.flash id 4 []) s)) ∧
      (off % 16384 = 0 → data.length = 16384 →
        (writeStatus s w ≠ 0 → writeStatus s w ≠ 5 → physOk s g phys = true ∨ flashCheck s owner ns off 16384 ≠ 0 →
          exec i s = .next (settle (emit (.flash id (writeStatus s w) []) s))) ∧
        (writeStatus s w = 0 → physOk s g phys = true → bufferUsed d + 16384 ≤ bufferRoom s → d.waiting = [] →
          ∃ t, exec i s = .next t ∧ Out.flash id 0 [] ∈ t.outs ∧ KMap.find t.mire.map g = some phys ∧
            (∀ h, h ≠ g → KMap.find t.mire.map h = KMap.find s.mire.map h) ∧ t.mem = { s.mem with flash := t.mem.flash } ∧
            (∀ k, k < 16384 → Memory.read t.mem.flash (16384 * g + k) = nth data k 0) ∧
            (∀ a, a < 16384 * g ∨ 16384 * g + 16384 ≤ a → Memory.read t.mem.flash a = Memory.read s.mem.flash a)) ∧
        (writeStatus s w = 0 → physOk s g phys = true → bufferRoom s < bufferUsed d + 16384 ∨ d.waiting ≠ [] →
          ∃ t, exec i s = .next t ∧ (dieAt t (g % 2)).waiting = d.waiting ++ [w] ∧ t.mem = s.mem ∧ t.mire.map = s.mire.map))) ∧
    (∀ id ns off data,
      let i : Instr := .flashPatch id ns off data
      let w : FlashWait := ⟨id, ownSystem, ns, off, 0, true, true, data⟩
      let g := unitOf s ns off
      let fits : Prop := off % 64 = 0 ∧ data.length % 64 = 0 ∧ 64 ≤ data.length ∧ data.length ≤ 4096 ∧ off % 16384 + data.length ≤ 16384
      (¬fits → exec i s = .next (emit (.flash id 4 []) s)) ∧
      (∀ x, fits → writeStatus s w = 0 → bufferUsed (dieAt s (g % 2)) + data.length ≤ bufferRoom s → (dieAt s (g % 2)).waiting = [] →
        KMap.find s.mire.map g = some x → x ≠ discardedEntry → ∃ t, exec i s = .next t ∧ t.outs = .flash id 0 [] :: s.outs ∧
          (∀ h, KMap.find t.mire.map h = KMap.find s.mire.map h) ∧ t.mem = { s.mem with flash := t.mem.flash } ∧
          (∀ k, k < data.length → Memory.read t.mem.flash (16384 * g + off % 16384 + k) = nth data k 0) ∧
          (∀ a, a < 16384 * g + off % 16384 ∨ 16384 * g + off % 16384 + data.length ≤ a → Memory.read t.mem.flash a = Memory.read s.mem.flash a))) ∧
    (∀ tg o, runningOp s tg .program = some o → (dieAt s (o.unit % 2)).waiting = [] →
      ∃ t, exec (.programDone tg) s = .next t ∧ t.mem = s.mem ∧ t.mire.map = s.mire.map ∧ (targetAt t tg).writeBusy = false ∧
        (∀ r ∈ (dieAt t (o.unit % 2)).journal, r ∈ (dieAt s (o.unit % 2)).journal) ∧
        (∀ r, (dieAt s (o.unit % 2)).journal.find? (fun r => r.unit = o.unit && !r.patch) = some r → ∀ q ∈ (dieAt t (o.unit % 2)).journal, q.seq ≠ r.seq)) ∧
    (∀ tg o, runningOp s tg .erase = some o → ∃ t, exec (.eraseDone tg) s = .next t ∧ t.mem = s.mem ∧ t.mire.map = s.mire.map ∧
      (targetAt t tg).writeBusy = false ∧ KMap.find t.mire.blocks o.unit = some ⟨0, (KMap.getD s.mire.blocks o.unit {}).pe + 1, none⟩) ∧
    (∀ tg, runningOp s tg .program = none → exec (.programDone tg) s = .next s) ∧
    (∀ tg, runningOp s tg .erase = none → exec (.eraseDone tg) s = .next s) ∧
    (∀ id owner ns off len phys, s.mire.dumping = false →
      let g := unitOf s ns off
      let c := flashCheck s owner ns off len
      (c ≠ 0 → c ≠ 5 → ∀ k, exec (.backgroundRead id owner ns off len k phys) s = .next (emit (.flash id c (List.replicate len 0)) s)) ∧
      (c = 0 → 0 < len → off % 16384 + len ≤ 16384 →
        (∀ e, KMap.find s.mire.map g = some e → e ≠ discardedEntry → ∃ t, exec (.backgroundRead id owner ns off len 0 phys) s = .next t ∧
          t.outs = .flash id 0 (Memory.readN s.mem.flash (16384 * g + off % 16384) len) :: s.outs ∧ t.mem = s.mem ∧ t.mire = s.mire) ∧
        (KMap.find s.mire.map g = none → ∃ t, exec (.backgroundRead id owner ns off len 0 phys) s = .next t ∧
          t.outs = .flash id 1 (List.replicate len 0) :: s.outs ∧ t.mem = s.mem ∧ t.mire = s.mire) ∧
        (∀ e, KMap.find s.mire.map g = some e → e < discardedEntry → (targetAt s (targetOf g e)).failed = false →
          ∃ t, exec (.backgroundRead id owner ns off len 2 phys) s = .next t ∧ t.outs = .flash id 2 (List.replicate len 0) :: s.outs ∧
            t.mem = s.mem ∧ t.mire = s.mire)))

/-- The reads of an EXACT stage. -/
def Obligations.FlashRounds : Prop :=
  ∀ (s : State), mainOn s = true → s.mire.dumping = false →
    (∀ part slot stage tile chan index ns off len dest, (slotAt s part slot).state.holds = true → 0 < len → off % 16384 + len ≤ 16384 →
      let k := 4 * part + slot
      let i : Instr := .queryRead part slot stage tile chan index ns off len dest
      let g := unitOf s ns off
      let tg := targetOf g (KMap.getD s.mire.map g 0)
      let c := flashCheck s part ns off len
      let q (st : Option Nat) : QRead := ⟨s.mire.nextRead, g, off % 16384, len, tg, tile, dest, chan, index, 0, st⟩
      let joined (t : State) (st : Option Nat) : Prop := ∃ r, roundAt t k = some r ∧ q st ∈ r.reads
      let stores (t : State) (bs : Bytes) : Prop := t.mem = { s.mem with tile := t.mem.tile } ∧
        (∀ j, j < len → Memory.read t.mem.tile (0x100000000 * tile + dest + j) = nth bs j 0) ∧
        (∀ a, a < 0x100000000 * tile + dest ∨ 0x100000000 * tile + dest + len ≤ a → Memory.read t.mem.tile a = Memory.read s.mem.tile a)
      (∀ r ∈ s.mire.rounds, ∀ x ∈ r.reads, x.id < s.mire.nextRead) →
      (c ≠ 0 → c ≠ 5 → ∃ t, exec i s = .next t ∧ joined t (some c) ∧ stores t []) ∧
      (c = 0 → KMap.find s.mire.map g = none → ∃ t, exec i s = .next t ∧ joined t (some 1) ∧ stores t []) ∧
      (∀ e, c = 0 → KMap.find s.mire.map g = some e → e ≠ discardedEntry →
        (discardedEntry < e ∨ inBuffer s g = true → ∃ t, exec i s = .next t ∧ joined t (some 0) ∧
          stores t (Memory.readN s.mem.flash (16384 * g + off % 16384) len)) ∧
        (e < discardedEntry → inBuffer s g = false → (targetAt s tg).ops = [] → (targetAt s tg).failed = false → (targetAt s tg).writeBusy = false →
          (dieAt s (g % 2)).lost = false → 1 ≤ flashDepth s →
          ∃ t, exec i s = .next t ∧ joined t none ∧ t.mem = s.mem ∧ (targetAt t tg).ops = [⟨.query, g, s.mire.nextRead, true, false, 0⟩]))) ∧
    (∀ tg o p, (targetAt s tg).ops = [o, p] → o.started = true → o.suspended = false → o.kind = .program ∨ o.kind = .erase → p.kind = .query →
      p.started = false → o.suspends < rwVal s 0x8000 0x16 64 →
      ∃ t, exec (.operationSuspended tg) s = .next t ∧ (targetAt t tg).ops = [{ o with suspended := true, suspends := o.suspends + 1 }, { p with started := true }] ∧
        countVal t (0x8010 + tg / 8) 0xA 0 = countVal s (0x8010 + tg / 8) 0xA 0 + 1 ∧ t.mem = s.mem) ∧
    (∀ tg o r q, runningOp s tg .query = some o → readAt s o.read = some (r, q) → ∀ ok,
      (∀ e, ok = true → KMap.find s.mire.map q.unit = some e → e ≠ discardedEntry → ∃ t, exec (.readAttemptDone tg ok false) s = .next t ∧
        (∀ x ∈ t.mire.rounds, ∀ y ∈ x.reads, y.id = q.id → y.status = some 0) ∧ t.mem = { s.mem with tile := t.mem.tile } ∧
        (∀ j, j < q.len → Memory.read t.mem.tile (0x100000000 * q.tile + q.dest + j) = Memory.read s.mem.flash (16384 * q.unit + q.off + j)) ∧
        (∀ a, a < 0x100000000 * q.tile + q.dest ∨ 0x100000000 * q.tile + q.dest + q.len ≤ a → Memory.read t.mem.tile a = Memory.read s.mem.tile a)) ∧
      (ok = false → q.attempts < retrySteps s (tg / 8) → s.clock.now + 1000 * tAtt s ≤ r.issued + roundNs s →
        exec (.readAttemptDone tg ok false) s = .next (modRead q.id (fun x => { x with attempts := x.attempts + 1 }) s)) ∧
      (ok = false → retrySteps s (tg / 8) ≤ q.attempts ∨ r.issued + roundNs s < s.clock.now + 1000 * tAtt s →
        ∃ t, exec (.readAttemptDone tg ok false) s = .next t ∧ (∀ x ∈ t.mire.rounds, ∀ y ∈ x.reads, y.id = q.id → y.status = some 2) ∧
          (∀ j, j < q.len → Memory.read t.mem.tile (0x100000000 * q.tile + q.dest + j) = 0))) ∧
    (∀ part slot r, roundAt s (4 * part + slot) = some r →
      (s.clock.now < r.issued + roundNs s → exec (.flashRoundEnd part slot) s = .next s) ∧
      (r.issued + roundNs s ≤ s.clock.now → ∃ t, exec (.flashRoundEnd part slot) s = .next t ∧ roundAt t (4 * part + slot) = none ∧
        t.mem = { s.mem with tile := t.mem.tile } ∧
        (∀ q, r.reads = [q] → q.status = none →
          let a := 0x100000000 * q.tile + rwVal s (0x4000 + (4 * part + slot)) 0x23 0 + 64 * q.chan + q.index
          Memory.read t.mem.tile a = 3 ∧
          (∀ j, j < q.len → 0x100000000 * q.tile + q.dest + j ≠ a → Memory.read t.mem.tile (0x100000000 * q.tile + q.dest + j) = 0) ∧
          countVal t 0x8000 0x11 0 = countVal s 0x8000 0x11 0 + 1)))

/-- What Mire does on its own and at a power failure. -/
def Obligations.MireUpkeep : Prop :=
  ∀ (s : State), mainOn s = true →
    (∀ die picks, s.mire.dumping = false → (dieAt s die).lost = false →
      let free := freeBlocks s die
      let limit := rwVal s 0x8000 0x1B 2 * (dieAt s die).blocks
      (limit ≤ 100 * free → exec (.garbageCollection die picks) s = .next s) ∧
      (∀ k, 100 * free < limit → gcVictim s die (200 * free < limit) = some k →
        let us := validUnits s k
        us.length = picks.length → us.Nodup → (∀ e ∈ us.zip picks, physOk s e.1 e.2 = true) →
        ∃ t, exec (.garbageCollection die picks) s = .next t ∧ t.mem = s.mem ∧ (∀ e ∈ us.zip picks, KMap.find t.mire.map e.1 = some e.2) ∧
          (∀ g, g ∉ us → KMap.find t.mire.map g = KMap.find s.mire.map g) ∧
          ((k / 33554432, ⟨.erase, k, 0, false, false, 0⟩) ∈ t.mire.queue ∨ ∃ o ∈ (targetAt t (k / 33554432)).ops, o.kind = .erase ∧ o.unit = k))) ∧
    (∀ channel ce, channel < 32 → ce < 8 → (targetAt s (8 * channel + ce)).failed = false →
      ∃ t, exec (.targetFail channel ce) s = .next t ∧ (targetAt t (8 * channel + ce)).failed = true ∧ (targetAt t (8 * channel + ce)).ops = [] ∧
        bit (countVal t (0x8010 + channel) 5 0) ce = true ∧ countVal t 0xA002 2 0 = countVal s 0xA002 2 0 + 1 ∧ t.mire.map = s.mire.map) ∧
    (∀ channel ce, (targetAt s (8 * channel + ce)).failed = true → exec (.targetFail channel ce) s = .next s) ∧
    (∀ die, die < 2 → ∃ t, exec (.storageDieLoss die) s = .next t ∧ (dieAt t die).lost = true ∧ t.mire.map = s.mire.map ∧
      countVal t 0xA002 2 0 = countVal s 0xA002 2 0 + (if (dieAt s die).lost then 0 else 1)) ∧
    (s.mire.dumping = false → ∃ t, exec .pwrfailNAssert s = .next t ∧ t.mire.dumping = true ∧ t.mire.rounds = [] ∧ t.mire.queue = [] ∧
      t.mire.dieN.waiting = [] ∧ t.mire.dieS.waiting = [] ∧ t.tele.annals.stopped = true ∧ t.mire.map = s.mire.map ∧ t.mem = s.mem ∧
      (∀ tg, (targetAt t tg).ops = []) ∧ (∀ w, writeStatus t w = 7)) ∧
    (s.mire.dumping = true → exec .pwrfailNAssert s = .next s) ∧
    (∀ kn fn ks fs, s.mire.dumping = true → ∃ t, exec (.dumpComplete kn fn ks fs) s = .next t ∧ t.dev.state = .standby ∧ t.dev.cause = 4 ∧
      t.mire.spaces = s.mire.spaces ∧
      (s.mire.dieN.journal.length ≤ kn → s.mire.dieS.journal.length ≤ ks → t.mire.map = s.mire.map ∧ t.mem.flash = s.mem.flash ∧ t.mire.lastDump = 1) ∧
      (kn < s.mire.dieN.journal.length ∨ ks < s.mire.dieS.journal.length → t.mire.lastDump = 2)) ∧
    (∀ kn fn ks fs, s.mire.dumping = false → exec (.dumpComplete kn fn ks fs) s = .next s)

/-- The faults of hubs and units, and the tile clocks. -/
def Obligations.UnitFaults : Prop :=
  ∀ (s : State),
    (∀ hub, hub < 2 → mainOn s = true →
      ((hubSide s hub).present = true → ∃ t, exec (.lockstepMismatch hub) s = .next t ∧ (hubSide t hub).present = false ∧
        (hubSide t hub).primary = false ∧ (hubSide t hub).deciding = false ∧ hubSide t (otherHub hub) = hubSide s (otherHub hub) ∧
        Out.resign hub ∈ t.outs ∧ countVal t 0xA002 2 0 = countVal s 0xA002 2 0 + 1 ∧ t.mem = s.mem ∧
        ((hubSide s (otherHub hub)).present = true → t.dev = s.dev) ∧
        ((hubSide s (otherHub hub)).present = false → t.dev.state = .failed ∧ t.dev.cause = 5)) ∧
      ((hubSide s hub).present = false → exec (.lockstepMismatch hub) s = .next s)) ∧
    (∀ hub path, hub < 2 →
      let gone : Prop := (hubSide s (otherHub hub)).fault = true ∧ (hubSide s (otherHub hub)).present = false
      ((hubSide s hub).present = true → gone → (hubSide s hub).primary = true → ∃ t, exec (.resignReceive hub path) s = .next t ∧
        t.hubs.solo = true ∧ hubSide t hub = hubSide s hub ∧ t.mem = s.mem) ∧
      ((hubSide s hub).present = true → gone → (hubSide s hub).primary = false → ∃ t, exec (.resignReceive hub path) s = .next t ∧
        t.hubs.solo = true ∧ (hubSide t hub).primary = true ∧ (hubSide t hub).deciding = true ∧
        (hubSide t hub).epoch = max (hubSide s hub).epoch s.hubs.unitEpoch + 1) ∧
      ((hubSide s hub).present = false ∨ ¬gone → exec (.resignReceive hub path) s = .next s)) ∧
    (mainOn s = true → ∀ unit,
      (unit < 8 → ∃ t, exec (.unitTimeout 0x11 unit) s = .next t ∧ unit ∈ t.carr.deadStacks ∧
        countVal t 0xA002 2 0 = countVal s 0xA002 2 0 + (if s.carr.deadStacks.contains unit then 0 else 1)) ∧
      (unit < 8 → bit (countVal s 0xA002 1 0) (48 + unit) = false → ∃ t, exec (.unitTimeout 0x12 unit) s = .next t ∧
        bit (countVal t 0xA002 1 0) (48 + unit) = true ∧ countVal t (0x7180 + unit) 2 0 = 0 ∧ (∀ j, j < 8 → (portAt t (8 * unit + j)).state = 0) ∧
        countVal t 0xA002 2 0 = countVal s 0xA002 2 0 + 1) ∧
      (unit < 2 → ∃ t, exec (.unitTimeout 0x13 unit) s = .next t ∧ (dieAt t unit).lost = true ∧
        countVal t 0xA002 2 0 = countVal s 0xA002 2 0 + (if (dieAt s unit).lost then 0 else 1)) ∧
      (∀ kind, kind ∉ [0x11, 0x12, 0x13] → exec (.unitTimeout kind unit) s = .next s)) ∧
    (∀ tile, tile < 40 → mainOn s = true →
      (tile ∉ s.units.lost → ∃ t, exec (.tileSequencerMismatch tile) s = .next t ∧ t.units.lost = s.units.lost ++ [tile] ∧ t.mem = s.mem ∧
        countVal t 0xA002 2 0 = countVal s 0xA002 2 0 + 1 ∧ tile ∉ t.tiles.underTest ∧ KMap.find t.vigil.visits tile = none) ∧
      (tile ∈ s.units.lost → exec (.tileSequencerMismatch tile) s = .next s)) ∧
    (∀ tile, tile < 40 →
      (tile ∈ s.tiles.stopped → ∃ t, exec (.tileWake tile) s = .next t ∧ t.tiles.stopped = s.tiles.stopped.filter (· != tile) ∧
        KMap.find t.tiles.lastUse tile = some s.clock.now ∧ t.mem = s.mem ∧ t.units = s.units) ∧
      (tile ∉ s.tiles.stopped → exec (.tileWake tile) s = .next s) ∧
      (let idle : Prop := mainOn s = true ∧ KMap.find s.claims.tileOwner tile = none ∧ KMap.find s.vigil.visits tile = none ∧ tile ∉ s.tiles.stopped ∧
          KMap.getD s.tiles.lastUse tile 0 + 1000 * rwVal s 0x2008 1 10000 ≤ s.clock.now
       (idle → ∃ t, exec (.tileClockStop tile) s = .next t ∧ t.tiles.stopped = s.tiles.stopped ++ [tile] ∧ t.mem = s.mem ∧ t.units = s.units) ∧
       (¬idle → exec (.tileClockStop tile) s = .next s)))

/-- The visits of Vigil and the updates. -/
def Obligations.VigilVisits : Prop :=
  ∀ (s : State),
    (∀ tile, tile < 40 →
      let entry := if tile < 20 then 2 else 3
      vigilFiring s entry tile = true → KMap.find s.vigil.visits tile = none →
      (tile ∈ s.units.lost → ∃ t, exec (.vigilTileVisit tile) s = .next t ∧ firingOf t entry = none ∧
        countVal t 0xA000 6 0 = countVal s 0xA000 6 0 + 1 ∧ t.vigil = s.vigil) ∧
      (tile ∉ s.units.lost → s.tiles.underTest.length < 2 → vigilReserve s = true → ∃ t v, exec (.vigilTileVisit tile) s = .next t ∧
        KMap.find t.vigil.visits tile = some v ∧ v.step = 1 ∧ v.entry = entry ∧ t.tiles.underTest = s.tiles.underTest ++ [tile] ∧
        tile ∉ t.tiles.stopped ∧ t.mem = s.mem) ∧
      (tile ∉ s.units.lost → 2 ≤ s.tiles.underTest.length ∨ vigilReserve s = false → exec (.vigilTileVisit tile) s = .next s)) ∧
    (∀ tile v data, KMap.find s.vigil.visits tile = some v → v.step = 1 → ∃ t, exec (.vigilSaveDone tile data) s = .next t ∧
      KMap.find t.vigil.visits tile = some { v with step := 2, saved := data.take 65536 } ∧ t.mem = s.mem ∧ t.units = s.units) ∧
    (∀ tile v failed, KMap.find s.vigil.visits tile = some v → v.step = 2 → s.island.sweep = none → ∃ t, exec (.vigilBistDone tile failed) s = .next t ∧
      KMap.find t.vigil.visits tile = some { v with step := 3, passed := v.units.filter (fun u => !failed.contains u) } ∧
      countVal t 0xA000 7 0 = countVal s 0xA000 7 0 + (v.units.filter (fun u => failed.contains u)).length ∧
      (∀ u ∈ v.units, u ∈ failed → if u.1 = 3 then u.2 ∈ (mereAt t tile).bad else 1 ≤ u.1 → u.2 ∈ (arrayAt t (2 * tile + (u.1 - 1))).bad) ∧ t.mem = s.mem) ∧
    (∀ tile v data, KMap.find s.vigil.visits tile = some v → v.step = 3 →
      (crc32 data = crc32 v.saved → (KMap.find s.claims.tileOwner tile).isSome = true → ∃ t, exec (.vigilRestoreDone tile data) s = .next t ∧
        KMap.find t.vigil.visits tile = some { v with step := 4 } ∧ tile ∉ t.tiles.underTest) ∧
      (crc32 data ≠ crc32 v.saved → ∃ t, exec (.vigilRestoreDone tile data) s = .next t ∧ KMap.find t.vigil.visits tile = none ∧
        tile ∉ t.tiles.underTest ∧ countVal t 0xA000 5 0 = countVal s 0xA000 5 0 + 1 ∧ firingOf t v.entry = none ∧ t.units = s.units)) ∧
    (∀ stack failed, stack < 8 → vigilFiring s 4 stack = true → KMap.find s.vigil.stackAt stack = none →
      (stack ∈ s.carr.deadStacks → ∃ t, exec (.vigilStackVisit stack failed) s = .next t ∧ firingOf t 4 = none ∧ t.carr = s.carr) ∧
      (stack ∉ s.carr.deadStacks → vigilReserve s = true → s.island.sweep = none →
        let bad := (spareCores s stack).filter (fun c => failed.contains c)
        let good := (spareCores s stack).filter (fun c => !failed.contains c)
        ∃ t, exec (.vigilStackVisit stack failed) s = .next t ∧ t.carr.failed = s.carr.failed ++ bad.map (fun c => 66 * stack + c) ∧
          countVal t 0xA000 7 0 = countVal s 0xA000 7 0 + bad.length ∧ t.mem = s.mem ∧
          (good = [] → firingOf t 4 = none ∧ KMap.find t.vigil.stackAt stack = none))) ∧
    (∀ pc at_ pcs, KMap.find s.vigil.stackAt (pc / 64) = some (at_, pcs) →
      (pc ∈ pcs → at_ + 100000000 ≤ s.clock.now → ∃ t, exec (.stackVisitSkip pc) s = .next t ∧ KMap.find t.carr.swap pc = none ∧
        countVal t 0xA000 6 0 = countVal s 0xA000 6 0 + 1) ∧
      (pc ∉ pcs ∨ s.clock.now < at_ + 100000000 → exec (.stackVisitSkip pc) s = .next s)) ∧
    (∀ port, port < 64 → vigilFiring s 5 port = true → (portAt s port).vigil = 0 →
      ((portAt s port).state ≠ 3 → ∃ t, exec (.vigilPortVisit port) s = .next t ∧ firingOf t 5 = none ∧ countVal t 0xA000 6 0 = countVal s 0xA000 6 0 + 1) ∧
      (∀ l w v, (portAt s port).state = 3 → oldestWave (portAt s port) = some (l, w) → spareWave (portAt s port) = some v → (portAt s port).offered = none →
        (portAt s port).wants = [] → ∃ t, exec (.vigilPortVisit port) s = .next t ∧ (portAt t port).vigil = 2 ∧
          (portAt t port).offered = some ⟨l, w, v, false, 0⟩)) ∧
    (∀ pa tag v, RowTaken pa ⟨objServeAt, []⟩ v s → exec (.serveAtWrite pa tag v) s =
      RowDone pa tag ⟨objServeAt, []⟩ v .ok { s with dev := { s.dev with serveAt := some (instantTick s v) } }) ∧
    (∀ pa tag, RowTaken pa ⟨objFwCommand, []⟩ 1 s →
      (firmwareBar 1 s ≠ 0 → exec (.updateHubs pa tag) s = RowDone pa tag ⟨objFwCommand, []⟩ 1 (if firmwareBar 1 s = 3 then .state else .range)
        (setCount 0xA010 4 (firmwareBar 1 s) s)) ∧
      (∀ h, firmwareBar 1 s = 0 → primaryHub s = some h → ∃ u, exec (.updateHubs pa tag) s = RowDone pa tag ⟨objFwCommand, []⟩ 1 .ok u ∧
        (hubSide u (otherHub h)).present = false ∧ u.hubs.solo = true ∧ hubSide u h = hubSide s h ∧ u.island.update.isSome = true ∧
        countVal u 0xA010 3 0 = 2)) ∧
    (∀ pa tag, RowTaken pa ⟨objFwCommand, []⟩ 2 s →
      (firmwareBar 2 s ≠ 0 → exec (.updateTiles pa tag) s = RowDone pa tag ⟨objFwCommand, []⟩ 2 (if firmwareBar 2 s = 3 then .state else .range)
        (setCount 0xA010 4 (firmwareBar 2 s) s)) ∧
      (firmwareBar 2 s = 0 → ∃ u, exec (.updateTiles pa tag) s = RowDone pa tag ⟨objFwCommand, []⟩ 2 .ok u ∧ u.island.sweep = some [] ∧
        countVal u 0xA010 3 0 = 5 ∧ u.slots = s.slots ∧ u.mem = s.mem)) ∧
    (∀ u h ok, s.island.update = some u → u.booted = false → u.hub < 2 → primaryHub s = some h → h ≠ u.hub →
      ∃ t, exec (.hubUpdateBooted ok) s = .next t ∧ (hubSide t u.hub).present = true ∧ (hubSide t u.hub).primary = false ∧ t.hubs.resync = true ∧
        hubSide t h = hubSide s h ∧ (ok = true → t.island.update = some { u with booted := true }) ∧
        (ok = false → t.island.update = none ∧ countVal t 0xA010 3 0 = 6)) ∧
    (s.island.update = none → ∀ ok, exec (.hubUpdateBooted ok) s = .next s)

/-- Every command of the start-up. -/
def Obligations.StartUp : Prop :=
  (∀ (s : State), ∃ t, exec .resetNAssert s = .next t ∧ t.dev.state = .standby ∧ t.island.alive = false ∧ t.island.phase = 0 ∧ t.island.groups = 0 ∧
    t.dict.sessions = [] ∧ t.slots = [] ∧ t.mem = { flash := s.mem.flash } ∧ t.mire.map = s.mire.map ∧ t.mire.spaces = s.mire.spaces ∧
    t.island.keyA = s.island.keyA ∧ lifeCycle t = lifeCycle s ∧ t.levee.queries = [] ∧ primaryHub t = none) ∧
  (∀ (s : State) (straps : Nat) (ok : Bool),
    let good (n : Nat) : Bool := fwOk s (fwSlot s n)
    (s.island.alive = true → exec (.bootS0 straps ok) s = .next s) ∧
    (s.island.alive = false → lifeCycle s = 5 → ∃ t, exec (.bootS0 straps ok) s = .next t ∧ t.dev = s.dev ∧ t.island.alive = true ∧ t.island.phase = s.island.phase) ∧
    (s.island.alive = false → lifeCycle s ≠ 5 → ok = false ∨ good 0 = false ∧ good 1 = false →
      ∃ t, exec (.bootS0 straps ok) s = .next t ∧ t.dev.state = .failed ∧ t.dev.cause = 2 ∧ t.island.phase = 0) ∧
    (∀ r n, s.island.alive = false → lifeCycle s ≠ 5 → ok = true → bootRecord s = some r → r.trial = 0xFF → r.active < 2 → n < 2 →
      (if good r.active then n = r.active else n = 1 - r.active ∧ good n = true) →
      ∃ t, exec (.bootS0 straps ok) s = .next t ∧ t.island.running = n ∧ countVal t 0xC003 1 0 = (fwSlot s n).svn ∧
        countVal t 0xC001 2 0 = (if n = r.active then 0 else 2) ∧
        (if straps % 2 = 1 ∧ refclkGood s = true then t.dev.state = .booting ∧ t.island.phase = 1 ∧ t.island.groups = 1 ∧ t.island.good = []
         else t.dev = s.dev))) ∧
  (∀ (s : State) (rail : Nat),
    let i := s.island
    let on : Prop := i.phase = 1 ∧ (KMap.find i.railAt rail).isSome = true ∧ rail ∉ i.good
    let all : Prop := ∀ r ∈ groupRails i.groups, r = rail ∨ r ∈ i.good
    (¬on → exec (.powerGood rail) s = .next s) ∧
    (on → ∃ t, exec (.powerGood rail) s = .next t ∧ t.island.good = i.good ++ [rail] ∧ t.dev = s.dev ∧ t.mem = s.mem ∧
      (¬all → t.island.groups = i.groups ∧ t.island.phase = 1) ∧ (all → i.groups = 4 → t.island.phase = 2) ∧
      (all → i.groups ≠ 4 → t.island.phase = 1 ∧ t.island.groups = i.groups + 1 ∧
        ∀ r ∈ groupRails (i.groups + 1), KMap.find t.island.railAt r = some s.clock.now)) ∧
    (∀ t0, KMap.find i.railAt rail = some t0 →
      (i.phase = 1 → rail ∉ i.good → t0 + 10000000 ≤ s.clock.now → ∃ t, exec (.powerGoodTimeout rail) s = .next t ∧ t.dev.state = .failed ∧
        t.dev.cause = 2 ∧ t.island.phase = 0) ∧
      (i.phase ≠ 1 ∨ rail ∈ i.good ∨ s.clock.now < t0 + 10000000 → exec (.powerGoodTimeout rail) s = .next s))) ∧
  (∀ (s : State), mainOn s = true →
    let failed (c : Instr) : Prop := ∃ t, exec c s = .next t ∧ t.dev.state = .failed ∧ t.dev.cause = 2 ∧ t.island.phase = 0
    (s.island.phase ≠ 2 → ∀ b m, exec (.bootM2 b m) s = .next s) ∧ (s.island.phase ≠ 3 → ∀ l f m, exec (.bootM3 l f m) s = .next s) ∧
    (s.island.phase ≠ 4 → ∀ l, exec (.bootM4 l) s = .next s) ∧ (s.island.phase ≠ 5 → ∀ u r, exec (.bootM5 u r) s = .next s) ∧
    (s.island.phase ≠ 6 → exec .bootM6 s = .next s) ∧
    (s.island.phase = 2 → ∀ bad m, (m = false ∨ bad % 4 = 3 → failed (.bootM2 bad m)) ∧
      (m = true → bad % 4 ≠ 3 → ∃ t, exec (.bootM2 bad m) s = .next t ∧ t.island.phase = 3 ∧ (∃ h, primaryHub t = some h ∧ bit bad h = false ∧
          (hubSide t h).deciding = true) ∧ t.hubs.solo = decide (bad % 4 ≠ 0) ∧ t.hubs.unitEpoch = 1 ∧
        ∀ h, h < 2 → (hubSide t h).present = !bit bad h ∧ (hubSide t h).epoch = 1)) ∧
    (s.island.phase = 3 → ∀ lost fl, failed (.bootM3 lost fl false) ∧
      ∃ t, exec (.bootM3 lost [] true) s = .next t ∧ t.island.phase = 4 ∧ (∀ b ∈ lost, b < 40 → b ∈ t.units.lost) ∧
        ∀ b, b ∈ t.units.lost → b ∈ s.units.lost ∨ b ∈ lost) ∧
    (s.island.phase = 4 → ∃ t, exec (.bootM4 []) s = .next t ∧ t.island.phase = 5 ∧ t.mem = { flash := s.mem.flash } ∧
      mireState t = if mireState s = 0 then 0 else 2) ∧
    (s.island.phase = 5 → ∀ un rates, ∃ t, exec (.bootM5 un rates) s = .next t ∧ t.island.phase = 6 ∧
      (mireState s ≠ 0 → mireState t = if clearPending s then 0 else if s.mire.dieN.worn || s.mire.dieS.worn then 3 else 1) ∧
      t.mem.flash = s.mem.flash ∧ t.mire.map = s.mire.map) ∧
    (s.island.phase = 6 → ∃ t, exec .bootM6 s = .next t ∧ t.island.phase = 0 ∧ (∃ e, entryAt t 0 = some e ∧ e.action = 1 ∧ e.period = stepTicks s) ∧
      (s.dev.state = .booting → t.dev.state = .config ∧ t.dev.cause = 1) ∧ (s.dev.state ≠ .booting → t.dev = s.dev) ∧ t.mem = s.mem))

/-- The life-cycle commands. -/
def Obligations.LifeCycle : Prop :=
  ∀ (s : State) (pa : Path) (tag : Nat),
    let r : ObjRef := ⟨objLifeCommand, []⟩
    let old := lifeCycle s
    let fuses := countVal s 0xC000 8 24
    ∀ c n ok steps, (c, n, ok, steps) ∈ [(Instr.lcToManuf pa tag ok steps, 1, ok, steps), (.lcToSecured pa tag, 2, false, 5), (.lcToDeployed pa tag, 3, false, 5),
        (.lcToReturn pa tag ok steps, 4, ok, steps), (.lcToScrapped pa tag ok steps, 5, ok, steps)] → RowTaken pa r n s →
      let no (st : Status) : Prop := exec c s = RowDone pa tag r n st s
      (s.dev.state ≠ .config → s.dev.state ≠ .recovery → no .state) ∧
      (s.dev.state = .config ∨ s.dev.state = .recovery →
        (lifeRow old n = none → no .range) ∧
        (∀ token clears, lifeRow old n = some (token, clears) →
          (fuses = 0 → n ≠ 5 → no .range) ∧
          (fuses ≠ 0 ∨ n = 5 →
            (lifePath s pa old n = false ∨ lifeReady s old n = false → no .state) ∧
            (lifePath s pa old n = true → lifeReady s old n = true →
              (token = true → tokenForm s n = false ∨ ok = false → exec c s = RowDone pa tag r n .state (bump 0xC000 6 1 s)) ∧
              (token = false ∨ tokenForm s n = true ∧ ok = true →
                (clears = false → ∃ u, exec c s = RowDone pa tag r n .ok u ∧ lifeCycle u = n ∧ countVal u 0xC000 8 24 = fuses - 1 ∧
                  u.island.token = none ∧ u.island.armed = 0 ∧ u.dev = s.dev ∧ u.mem = s.mem) ∧
                (clears = true → steps = 5 →
                  let m := if fuseEpoch s = 15 ∧ clearPending s = false then 5 else n
                  ∃ u, exec c s = RowDone pa tag r n .ok u ∧ lifeCycle u = m ∧ u.dev.state = (if m = 5 then .standby else .booting) ∧
                    fuseEpoch u = (if m = 5 then 15 else if clearPending s then fuseEpoch s else (fuseEpoch s + 1) % 16) ∧
                    u.island.keyA.valid = false ∧ u.island.keyB.valid = false ∧ u.dict.storeA.valid = false ∧ u.dict.storeB.valid = false ∧
                    u.island.keys = [] ∧ u.mire.spaces = [] ∧ u.mire.map = [] ∧ u.mem = { flash := s.mem.flash }) ∧
                (clears = true → 1 ≤ steps → steps < 5 → ∃ u, exec c s = RowDone pa tag r n .ok u ∧ lifeCycle u = old ∧
                  (clearPending s = false → clearPending u = true)))))))

/-- The other commands of security and test. -/
def Obligations.SecurityCommands : Prop :=
  (∀ (s : State) (pa : Path) (tag v : Nat) (data : Bytes),
    let s' := dropTransfer pa s
    (DomainTaken pa ⟨objToken, []⟩ data.length s → exec (.unlockTokenWrite pa tag data) s =
      DomainDone pa tag ⟨objToken, []⟩ data .ok { s' with island := { s.island with token := some data } }) ∧
    (RowTaken pa ⟨objScrapArm, []⟩ v s → exec (.scrapArm pa tag v) s = RowDone pa tag ⟨objScrapArm, []⟩ v (if v = 0x5C then .ok else .range)
      { s with island := { s.island with armed := if v = 0x5C then s.island.armed + 1 else 0 } }) ∧
    (DomainTaken pa ⟨objNonce, []⟩ data.length s → exec (.quoteNonceWrite pa tag data) s =
      DomainDone pa tag ⟨objNonce, []⟩ data .ok { s' with island := { s.island with nonce := some data } }) ∧
    (s.island.nonce = none → exec .quoteReady s = .next s) ∧
    (∀ n, s.island.nonce = some n → ∃ t q, exec .quoteReady s = .next t ∧ t.island = { s.island with nonce := none } ∧ t.mem = s.mem ∧
      KMap.find t.dict.blobs (okey 0xC010 0xB) = some (quoteBody s n ++ q)) ∧
    (RowTaken pa ⟨objMinSvn, []⟩ v s → exec (.minSvnWrite pa tag v) s =
      if v < countVal s 0xC003 2 0 ∨ countVal s 0xC003 1 0 < v then RowDone pa tag ⟨objMinSvn, []⟩ v .range s
      else RowDone pa tag ⟨objMinSvn, []⟩ v .ok (setCount 0xC003 2 v s)) ∧
    (RowTaken pa ⟨objRevocations, []⟩ v s → exec (.keyRevocationWrite pa tag v) s =
      if 15 < v ∨ countVal s 0xC003 3 0 ||| v = 15 then RowDone pa tag ⟨objRevocations, []⟩ v .range s
      else RowDone pa tag ⟨objRevocations, []⟩ v .ok (setCount 0xC003 3 (countVal s 0xC003 3 0 ||| v) s)) ∧
    (DomainTaken pa ⟨objSideKey, []⟩ data.length s →
      let old : Prop := countVal s 0xC020 2 1 ≠ 1 ∧ data = s.island.factory ∧ s.island.factory ≠ []
      (old → exec (.sidebandKeyWrite pa tag data) s = DomainDone pa tag ⟨objSideKey, []⟩ data .range s') ∧
      (¬old → ∃ u, exec (.sidebandKeyWrite pa tag data) s = DomainDone pa tag ⟨objSideKey, []⟩ data .ok u ∧ KMap.find u.island.keys 0 = some data ∧
        (∀ k, k ≠ 0 → KMap.find u.island.keys k = KMap.find s.island.keys k) ∧ u.mem = s.mem ∧
        (lifeCycle s = 1 → u.island.factory = data ∧ countVal u 0xC020 2 1 = 1) ∧
        (lifeCycle s = 2 ∨ lifeCycle s = 3 → data ≠ s.island.factory → countVal u 0xC020 2 1 = 0)))) ∧
  (∀ (s : State) (pa : Path) (tag : Nat) (i : Instr) (n : Nat),
    (i, n) ∈ [(Instr.testLogic pa tag, 1), (.testMemory pa tag, 2), (.testCarr pa tag, 3), (.testCauseway pa tag, 4), (.testAll pa tag, 5)] →
    RowTaken pa ⟨objTestStart, []⟩ n s →
    let barred : Prop := s.island.test.isSome = true ∨ n ∈ [2, 3, 5] ∧ destructible s = false
    (barred → exec i s = RowDone pa tag ⟨objTestStart, []⟩ n .state s) ∧
    (¬barred → exec i s = RowDone pa tag ⟨objTestStart, []⟩ n .ok
      (setCount 0xD000 2 0 { s with island := { s.island with test := some n, testAt := s.clock.now } }))) ∧
  (∀ (s : State), (s.island.test = none → ∀ f, exec (.testDone f) s = .next s) ∧
    (∀ n, s.island.test = some n → ∃ t, exec (.testDone []) s = .next t ∧ t.island.test = none ∧ countVal t 0xD000 3 0 = 0 ∧ countVal t 0xD000 2 0 = 100 ∧
      t.mem.flash = s.mem.flash ∧ (n ≠ 2 → n ≠ 5 → t.mem.tile = s.mem.tile ∧ t.mem.sluice = s.mem.sluice ∧ t.mem.hub = s.mem.hub) ∧
      (n = 2 ∨ n = 5 → t.mem.tile = [] ∧ t.mem.stage = [] ∧ t.mem.sluice = []) ∧ (n = 3 ∨ n = 5 → t.mem.carr = []) ∧
      (n ≠ 3 → n ≠ 5 → t.mem.carr = s.mem.carr)) ∧
    (∀ n u f, s.island.test = some n → ∃ t, exec (.testDone (u :: f)) s = .next t ∧ t.island.test = none ∧ countVal t 0xD000 3 0 = 1))

/-- Supply, thermal and clock supervision. -/
def Obligations.PowerAndThermal : Prop :=
  (∀ (s : State) (pa : Path) (tag v : Nat),
    let r : ObjRef := ⟨objPowerCap, []⟩
    let red := countVal s 0x2020 3 0
    let tooFar : Prop := ∃ e ∈ residents s, guaranteedMhz (v - red) < e.2.1.fg
    (RowTaken pa r v s →
      (v < powerCap s → capClass pa ≠ 1 → tooFar → exec (.powerCapWrite pa tag v) s = RowDone pa tag r v .range s) ∧
      (powerCap s ≤ v ∨ (capClass pa ≠ 1 ∧ ¬tooFar) → ∃ u, exec (.powerCapWrite pa tag v) s = RowDone pa tag r v .ok u ∧ powerCap u = v ∧
        rwVal u 0x2010 2 2000 = rwVal s 0x2010 2 2000 ∧ u.slots = s.slots ∧ u.mem = s.mem ∧ u.levee = s.levee) ∧
      (v < powerCap s → capClass pa = 1 → ∃ u, exec (.powerCapWrite pa tag v) s = RowDone pa tag r v .ok u ∧ powerCap u = v ∧
        rwVal u 0x2010 2 2000 = min (rwVal s 0x2010 2 2000) v ∧ u.mem = s.mem ∧ u.levee = s.levee ∧
        ∀ k, KMap.find u.slots k = (KMap.find s.slots k).map (fun x =>
          if x.state.holds = true ∧ guaranteedMhz (v - red) < x.fg then { x with restricted := true } else x))) ∧
    (RowTaken pa ⟨objPlannedCap, []⟩ v s → ∃ u, exec (.plannedCapWrite pa tag v) s = RowDone pa tag ⟨objPlannedCap, []⟩ v .ok u ∧
      planningCap u = min (powerCap s) v ∧ powerCap u = powerCap s ∧ u.slots = s.slots ∧ u.mem = s.mem)) ∧
  (∀ (s : State) (mv amps words : List Nat),
    let at16 (l : List Nat) (i : Nat) : Nat := l.getD i 0 % 65536
    let w := (List.range 10).foldl (fun t i => t + at16 mv i * at16 amps i) 0 / 1000
    (s.island.alive = false → exec (.pmbusPoll mv amps words) s = .next s) ∧
    (s.island.alive = true → ∃ t, exec (.pmbusPoll mv amps words) s = .next t ∧ countVal t 0x2010 6 0 = w ∧
      countVal t 0x2010 7 0 = max w (countVal s 0x2010 7 0) ∧
      KMap.find t.dict.blobs (okey 0x2030 2) = some ((List.range 10).flatMap (fun i => toLE 2 (at16 amps i) ++ toLE 2 (at16 mv i))) ∧
      t.island = { s.island with waiting := [] } ∧ t.mem = s.mem ∧ t.slots = s.slots ∧ t.mire = s.mire)) ∧
  (∀ (s : State) (rail : Nat),
    (rail ∉ s.island.good → exec (.railFault rail) s = .next s) ∧
    (rail ∈ s.island.good → ∃ t, exec (.railFault rail) s = .next t ∧ countVal t 0x2030 3 0 = countVal s 0x2030 3 0 + 1 ∧ rail ∈ t.island.waiting ∧
      (mainOn s = true → t.mire.dumping = true) ∧ (mainOn s = true → s.mire.dumping = false → t.tele.annals.stopped = true) ∧
      (mainOn s = false → t.mire = s.mire) ∧ t.mem = s.mem ∧ t.slots = s.slots ∧ t.dev = s.dev)) ∧
  (∀ (s : State) (l : List Int),
    let hot : Int := 10 * l.foldl max (l.headD 0)
    let old := thermalState s
    (mainOn s = false → exec (.thermalSample l) s = .next s) ∧
    (mainOn s = true → ∃ t, exec (.thermalSample l) s = .next t ∧ countVal t 0x2020 1 0 = (hot % 2 ^ 32).toNat ∧
      (old = 3 ∨ 11000 ≤ hot → thermalState t = 3) ∧ (old ≠ 3 → 10500 ≤ hot → hot < 11000 → thermalState t = 2) ∧
      (old = 2 → 10300 ≤ hot → hot < 10500 → thermalState t = 2) ∧ (old = 2 → hot < 10300 → thermalState t = 1) ∧
      (old < 2 → 10000 ≤ hot → hot < 10500 → thermalState t = 1) ∧ (old < 2 → hot < 10000 → thermalState t = 0) ∧
      (thermalState t = 3 → old ≠ 3 → t.island.thermTrip = true ∧ t.mire.dumping = true) ∧
      (thermalState t ≠ 3 ∨ old = 3 → t.island.thermTrip = s.island.thermTrip ∧ t.mire = s.mire) ∧
      countVal t 0x2020 3 0 = countVal s 0x2020 3 0 ∧ t.mem = s.mem ∧ t.slots = s.slots ∧ t.dev = s.dev)) ∧
  (∀ (s : State),
    let red := countVal s 0x2020 3 0
    let rises : Prop := thermalState s = 1 ∧ s.island.lastStep + 10000000 ≤ s.clock.now
    let falls : Prop := thermalState s = 0 ∧ hottest s < 9700 ∧ 0 < red ∧ s.island.lastStep + 100000000 ≤ s.clock.now
    (mainOn s = false ∨ (¬rises ∧ ¬falls) → exec .thermalReductionStep s = .next s) ∧
    (mainOn s = true → rises → ∃ t, exec .thermalReductionStep s = .next t ∧ countVal t 0x2020 3 0 = max red (min (red + 50) (powerCap s - 1150)) ∧
      t.island = { s.island with lastStep := s.clock.now } ∧ t.mem = s.mem ∧ powerCap t = powerCap s ∧
      ∀ k, KMap.find t.slots k = (KMap.find s.slots k).map (fun x =>
        if x.state.holds = true ∧ guaranteedMhz (effectiveCap t) < x.fg then { x with restricted := true } else x)) ∧
    (mainOn s = true → falls → ∃ t, exec .thermalReductionStep s = .next t ∧ countVal t 0x2020 3 0 = red - 50 ∧
      t.island = { s.island with lastStep := s.clock.now } ∧ t.mem = s.mem ∧ t.slots = s.slots)) ∧
  (∀ (s : State) (n : Nat),
    let old := countVal s 0x2040 2 0
    (s.island.alive = false ∨ 2 < n ∨ (n = 0 ∧ old = 0) → exec (.refclkCheck n) s = .next s) ∧
    (s.island.alive = true → n = 0 → old ≠ 0 → ∃ t, exec (.refclkCheck n) s = .next t ∧ countVal t 0x2040 2 0 = 0 ∧
      t.island = { s.island with refHold := s.clock.now + 10000000 } ∧ t.mire = s.mire ∧ t.mem = s.mem ∧ t.slots = s.slots) ∧
    (s.island.alive = true → n = 1 ∨ n = 2 → ∃ t, exec (.refclkCheck n) s = .next t ∧ countVal t 0x2040 2 0 = n ∧ t.island = s.island ∧
      (old = 0 → mainOn s = true → t.mire.dumping = true) ∧ (old ≠ 0 ∨ mainOn s = false → t.mire = s.mire) ∧ t.mem = s.mem ∧ t.slots = s.slots))

/-- The two Lanterns. -/
def Obligations.Lanterns : Prop :=
  (∀ (s : State) (pa : Path) (tag v h : Nat),
    let l := getLantern s h
    let r : ObjRef := ⟨objLanternCommand, [h]⟩
    let p := rwVal s (0xE000 + h) 5 4096
    let q := rwVal s (0xE000 + h) 6 4096
    let other (u : State) : Prop := getLantern u (otherHub h) = getLantern s (otherHub h) ∧ u.mem = s.mem
    let user (x : Nat) : TraceRecord := ⟨s.clock.ft, 0x0C, ownSystem, srcHub h, toLE 8 x⟩
    (RowTaken pa r 1 s →
      (l.state ≠ .idle → exec (.lanternArm pa tag h) s = RowDone pa tag r 1 .state s) ∧
      (l.state = .idle → q = 0 ∨ 131072 < p + q → exec (.lanternArm pa tag h) s = RowDone pa tag r 1 .range s) ∧
      (l.state = .idle → q ≠ 0 → p + q ≤ 131072 → ∃ u, exec (.lanternArm pa tag h) s = RowDone pa tag r 1 .ok u ∧ other u ∧
        let m := getLantern u h
        m.state = .filling ∧ m.preDepth = p ∧ m.postCount = q ∧ m.classes = rwVal s (0xE000 + h) 3 0xFFFE ∧
        m.owners = rwVal s (0xE000 + h) 4 0x1FFFFFFFF ∧ m.trigger = rwVal s (0xE000 + h) 7 0x0E000000FF000001 ∧
        m.autoRearm = decide (rwVal s (0xE000 + h) 8 0 = 1) ∧ m.buffer = [] ∧ m.matches_ = 0 ∧ m.gap = 0 ∧ m.next = l.next)) ∧
    (RowTaken pa r 2 s →
      (l.state = .idle → exec (.lanternDisarm pa tag h) s = RowDone pa tag r 2 .state s) ∧
      (l.state ≠ .idle → ∃ u, exec (.lanternDisarm pa tag h) s = RowDone pa tag r 2 .ok u ∧ other u ∧ (getLantern u h).state = .idle ∧
        (getLantern u h).buffer = [] ∧ (getLantern u h).queue = [])) ∧
    (RowTaken pa r 3 s →
      (l.state ≠ .done → exec (.lanternRearm pa tag h) s = RowDone pa tag r 3 .state s) ∧
      (l.state = .done → ∃ u, exec (.lanternRearm pa tag h) s = RowDone pa tag r 3 .ok u ∧ other u ∧
        getLantern u h = { l with state := .rearm, exporting := false })) ∧
    (RowTaken pa r 4 s →
      (l.state ≠ .filling → exec (.lanternTrigger pa tag h) s = RowDone pa tag r 4 .state s) ∧
      (l.state = .filling → ∃ u, exec (.lanternTrigger pa tag h) s = RowDone pa tag r 4 .ok u ∧ other u ∧
        (getLantern u h).buffer = l.buffer ++ [(l.next % 2 ^ 32, user 0)] ∧ (getLantern u h).pre = l.buffer.length ∧
        (getLantern u h).trigFt = s.clock.ft ∧ (getLantern u h).postLeft = l.postCount - 1 ∧
        (getLantern u h).state = (if l.postCount ≤ 1 then .done else .post))) ∧
    (RowTaken pa ⟨objLanternMarker, [h]⟩ v s →
      (l.state = .idle → exec (.lanternMarker pa tag h v) s = RowDone pa tag ⟨objLanternMarker, [h]⟩ v .ok s) ∧
      (l.state ≠ .idle → l.queue.length < 1024 → ∃ u, exec (.lanternMarker pa tag h v) s = RowDone pa tag ⟨objLanternMarker, [h]⟩ v .ok u ∧ other u ∧
        getLantern u h = { l with queue := l.queue ++ [user v] }) ∧
      (l.state ≠ .idle → 1024 ≤ l.queue.length → ∃ u, exec (.lanternMarker pa tag h v) s = RowDone pa tag ⟨objLanternMarker, [h]⟩ v .ok u ∧ other u ∧
        getLantern u h = { l with gap := l.gap + 1, lost := l.lost + 1 } ∧ countVal u (0xE000 + h) 0xE 0 = countVal s (0xE000 + h) 0xE 0 + 1))) ∧
  (∀ (s : State) (h : Nat) (x : TraceRecord) (rest : List TraceRecord),
    let l := getLantern s h
    let item (i : Nat) (y : TraceRecord) : Nat × TraceRecord := ((l.next + i) % 2 ^ 32, y)
    let n := l.matches_ + (if l.matches x then 1 else 0)
    let fires : Prop := l.matches x = true ∧ max 1 (bits l.trigger 15 0) ≤ n
    let gap : TraceRecord := ⟨x.ft, 0x0D, ownSystem, srcHub h, toLE 4 (min l.gap 0xFFFFFFFF)⟩
    let added := if l.gap = 0 then [item 0 x] else [item 0 gap, item 1 x]
    (l.queue = [] → exec (.lanternRecord h) s = .next s) ∧
    (l.queue = x :: rest → h < 2 → ∃ t, exec (.lanternRecord h) s = .next t ∧ t.mem = s.mem ∧
      let m := getLantern t h
      (mainOn s = false → m.queue = rest) ∧
      (l.keeps x = false → m.buffer = l.buffer ∧ m.state = l.state ∧ m.next = l.next ∧ (rest.length < 1024 → m.gap = l.gap)) ∧
      (l.keeps x = true → l.state = .filling →
        m.matches_ = n ∧ (rest.length < 1024 → m.gap = 0) ∧
        (¬fires → m.state = .filling ∧ m.buffer <:+ l.buffer ++ added ∧ m.buffer.length = min l.preDepth (l.buffer ++ added).length) ∧
        (fires → l.gap = 0 → m.buffer = l.buffer ++ [item 0 x] ∧ m.pre = l.buffer.length ∧ m.trigFt = x.ft) ∧
        (fires → m.state = (if l.postCount ≤ 1 then .done else .post) ∧ m.postLeft = l.postCount - 1)) ∧
      (l.keeps x = true → l.state = .post → l.gap = 0 → m.buffer = l.buffer ++ [item 0 x] ∧ m.postLeft = l.postLeft - 1 ∧
        m.state = (if l.postLeft ≤ 1 then .done else .post) ∧
        countVal t (0xE000 + h) 0xD 0 = countVal s (0xE000 + h) 0xD 0 + (if l.matches x then 1 else 0)) ∧
      (l.keeps x = true → l.state = .done ∨ l.state = .rearm → m.buffer = l.buffer ∧ m.state = l.state ∧
        countVal t (0xE000 + h) 0xC 0 = countVal s (0xE000 + h) 0xC 0 + (if l.matches x then 1 else 0)))) ∧
  (∀ (s : State) (h : Nat),
    let l := getLantern s h
    let port := rwVal s (0xE000 + h) 0xA 0
    (2 ≤ h ∨ l.state ≠ .rearm → exec (.rearmDone h) s = .next s) ∧
    (h < 2 → l.state = .rearm → ∃ t, exec (.rearmDone h) s = .next t ∧ t.mem = s.mem ∧ (getLantern t h).state = .filling ∧
      (getLantern t h).buffer = [] ∧ (getLantern t h).matches_ = 0 ∧ (l.queue.length < 1024 → (getLantern t h).lost = 0) ∧ (getLantern t h).capture = l.capture) ∧
    (2 ≤ h ∨ l.exporting = false ∨ l.state ≠ .done → exec (.lanternExportDone h) s = .next s) ∧
    (h < 2 → l.exporting = true → l.state = .done → ∃ t, exec (.lanternExportDone h) s = .next t ∧ t.mem = s.mem ∧ (getLantern t h).exporting = false ∧
      (linkUp (linkAt s port) = true → Out.hostWrite port (rwVal s (0xE000 + h) 9 0) (captureBytes l) ∈ t.outs ∧
        (getLantern t h).state = (if l.autoRearm then .rearm else .done) ∧ (getLantern t h).failed = l.failed) ∧
      (linkUp (linkAt s port) = false → (getLantern t h).state = .done ∧ (getLantern t h).failed = true)))

/-- Accounting, Annals and the alarms. -/
def Obligations.AccountsAndEvents : Prop :=
  (∀ (s : State),
    let due : Prop := mainOn s = true ∧ s.tele.lastUs + 1000 ≤ s.clock.now
    let milli : Prop := s.tele.lastMs + 1000000 ≤ s.tele.lastUs + 1000
    let count (u : State) (p sub : Nat) : Nat := KMap.getD u.tele.counters (256 * p + sub) 0
    (¬due → exec .accountingTick s = .next s) ∧
    (due → ∃ t, exec .accountingTick s = .next t ∧ t.tele.lastUs = s.tele.lastUs + 1000 ∧
      (∀ p, p < 32 → count t p 0xB = (count s p 0xB + tilesClaimed s p) % 2 ^ 64 ∧
        count t p 0xD = if milli then (count s p 0xD + sramClaimed s p) % 2 ^ 64 else count s p 0xD) ∧
      (∀ k, k % 256 ≠ 0xB → k % 256 ≠ 0xD → KMap.find t.tele.counters k = KMap.find s.tele.counters k) ∧
      t.mem = s.mem ∧ t.slots = s.slots ∧ t.dict = s.dict)) ∧
  (∀ (s : State) (code severity owner source : Nat) (data : Bytes),
    let k := stagingOf s source
    let g := getStaging s.tele.annals k
    let e : Event := { ft := s.clock.ft, code := code, severity := severity, owner := owner, source := source, data := data }
    let unheard : Prop := s.tele.annals.stopped = true ∨ (severity < 3 ∧ severity < rwVal s 0xE010 6 0)
    let fits : Prop := (severity < 3 ∧ g.events.length + 17 ≤ stagingCap k) ∨ (severity = 3 ∧ g.events.length + 2 ≤ stagingCap k)
    (unheard → exec (.annalsEvent code severity owner source data) s = .next s) ∧
    (¬unheard → ∃ t, exec (.annalsEvent code severity owner source data) s = .next t ∧ t.mem = s.mem ∧ t.tele.annals.ring = s.tele.annals.ring ∧
      (∀ j, j < 3 → j ≠ k → getStaging t.tele.annals j = getStaging s.tele.annals j) ∧
      (fits → getStaging t.tele.annals k = { g with events := g.events ++ [e] } ∧ t.dict = s.dict) ∧
      (¬fits → (getStaging t.tele.annals k).events = g.events ∧ (getStaging t.tele.annals k).lost = g.lost + 1 ∧
        countVal t 0xE010 5 0 = countVal s 0xE010 5 0 + 1))) ∧
  (∀ (s : State),
    let a := s.tele.annals
    let base := rwVal s 0xE010 0xA 0
    (decidingHub s = none ∨ 16384 ≤ a.ring.length ∨ a.stopped = true → exec .annalsRingWrite s = .next s) ∧
    (∀ h, decidingHub s = some h → stagingHead s h = none → exec .annalsRingWrite s = .next s) ∧
    (∀ h k e rest, decidingHub s = some h → stagingHead s h = some k → (getStaging a k).events = e :: rest → a.ring.length < 16384 → a.stopped = false →
      let x : AnnalsRecord := ⟨a.nextSeq, e, a.boot⟩
      ∃ t, exec .annalsRingWrite s = .next t ∧ t.tele.annals.ring = a.ring ++ [x] ∧ t.tele.annals.nextSeq = a.nextSeq + 1 ∧ t.tele.annals.kept = a.kept ∧
        t.mem = s.mem ∧ ((getStaging a k).lost = 0 → getStaging t.tele.annals k = { getStaging a k with events := rest }) ∧
        (s.hubs.solo = false → Out.mirror (s.hubs.issued + 1) ∈ t.outs ∧ t.hubs.issued = s.hubs.issued + 1) ∧
        (base ≠ 0 → Out.hostWrite (rwVal s 0xE010 0xC 0) (base + 64 * (a.nextSeq % rwVal s 0xE010 0xB 4096)) (annalsBytes x) ∈ t.outs)) ∧
    (a.ring = [] → exec .annalsPersist s = .next s) ∧
    (∀ x rest, a.ring = x :: rest →
      let able : Prop := (mireState s = 1 ∨ mireState s = 3) ∧ ¬(s.mire.dieN.lost = true ∧ s.mire.dieS.lost = true) ∧ s.mire.dumping = false
      (¬able → exec .annalsPersist s = .next s) ∧
      (able → ∃ t, exec .annalsPersist s = .next t ∧ t.tele.annals.ring = rest ∧ t.tele.annals.kept <:+ a.kept ++ [x] ∧
        t.tele.annals.kept.length = min 1048576 (a.kept.length + 1) ∧ t.mem = s.mem ∧ t.dict = s.dict))) ∧
  (∀ (s : State) (pa : Path) (tag v i : Nat), RowTaken pa ⟨objLatchedAlarms, []⟩ v s → ∃ t, exec (.alarmClear pa tag v) s = .next t ∧
    (mainOn s = false → i < 32 → t.tele.latched.testBit i = (s.tele.latched.testBit i && !v.testBit i)) ∧
    (mainOn s = true → i < 32 → t.tele.latched.testBit i = ((s.tele.latched.testBit i && !v.testBit i) || (t.tele.active.testBit i))) ∧
    t.mem = s.mem ∧ t.slots = s.slots)

/-- What a step is (log 1). -/
def Obligations.StepTakesFront : Prop :=
  ∀ (s : State),
    (∀ c r, s.pending = c :: r → step s = exec c { s with pending := r }) ∧
    (s.pending = [] → ∃ t, step s = .next t ∧ t = { s with clock := t.clock } ∧ t.clock.now = s.clock.now + 1 ∧
      (s.dev.state = .standby ∨ s.dev.state = .booting → t.clock.ft = s.clock.ft))

/-- The state after reset (log 4, log 6). -/
def Obligations.ResetState : Prop :=
  State.reset.canonical ∧ State.reset.pending = [] ∧ State.reset.dev.state = .standby ∧ State.reset.clock.state = .unset ∧
  State.reset.slots = [] ∧ State.reset.levee.queries = [] ∧ State.reset.outs = [] ∧ lifeCycle State.reset = 0 ∧ mainOn State.reset = false ∧
  ∀ a, Memory.read State.reset.mem.tile a = 0 ∧ Memory.read State.reset.mem.flash a = 0

/-- The invariant of the memories, over every state and every command. -/
def Obligations.StepKeepsCanonical : Prop :=
  ∀ (s t : State), s.canonical → step s = .next t → t.canonical

/-- The frame of every command: the queue, the outputs and the free values (log 2, log 5). -/
def Obligations.CommandsKeepTheQueue : Prop :=
  ∀ (c : Instr) (s t : State), exec c s = .next t → t.pending = s.pending ∧ s.outs <:+ t.outs ∧ s.free ≤ t.free

/-- Where a command stops, over every command and every state. -/
def Obligations.StopsOnlyAtRestrictedDiagnostics : Prop :=
  ∀ (c : Instr) (s : State), (∀ f, exec c s ≠ .fault f) ∧
    ∀ r, exec c s = .refused r → r = .restrictedDiagnostics ∧ (lifeCycle s = 0 ∨ lifeCycle s = 1 ∨ lifeCycle s = 4) ∧
      ((∃ pa rq, c ∈ [Instr.read pa rq, .write pa rq, .readSeg pa rq, .writeSeg pa rq, .lock pa rq, .unlock pa rq] ∧ rq.idx / 4096 = 0xF) ∨
        (∃ pa tag idx sub data, c = .keyWrite pa tag idx sub data ∧ idx / 4096 = 0xF) ∨
        (∃ port m ctrl buf, c = .mailboxGo port m ctrl buf) ∨ (∃ port fr, c = .afwellFrame port fr) ∨ c = .fmFrame)
end

