-- ==== Sys2Proof/Laws/Maps.lean ====
section
/-! SUPPORT. The laws of the sparse maps and of the addressed memories: what a read gives after each operation, and that each operation
keeps the canonical form. -/

namespace Sys2Proof

variable {α : Type}

/-- A map that rises from a bound rises from every lower one. -/
theorem KMap.sortedFrom_mono {lo lo' : Nat} {m : KMap α} (h : KMap.sortedFrom lo' m = true) (hl : lo ≤ lo') :
    KMap.sortedFrom lo m = true := by
  cases m with
  | nil => rfl
  | cons e r =>
    simp only [KMap.sortedFrom, Bool.and_eq_true, decide_eq_true_eq] at h ⊢
    exact ⟨Nat.le_trans hl h.1, h.2⟩

/-- Setting a key keeps the rising order. -/
theorem KMap.put_sortedFrom {lo k : Nat} {v : α} {m : KMap α} (h : KMap.sortedFrom lo m = true) (hk : lo ≤ k) :
    KMap.sortedFrom lo (KMap.put m k v) = true := by
  induction m generalizing lo with
  | nil => simp [KMap.put, KMap.sortedFrom, hk]
  | cons e r ih =>
    obtain ⟨j, w⟩ := e
    simp only [KMap.sortedFrom, Bool.and_eq_true, decide_eq_true_eq] at h
    unfold KMap.put
    split
    · simp only [KMap.sortedFrom, Bool.and_eq_true, decide_eq_true_eq]
      exact ⟨hk, by omega, h.2⟩
    · split
      · subst k
        simp only [KMap.sortedFrom, Bool.and_eq_true, decide_eq_true_eq]
        exact h
      · simp only [KMap.sortedFrom, Bool.and_eq_true, decide_eq_true_eq]
        exact ⟨h.1, ih h.2 (by omega)⟩

/-- Setting a key keeps the canonical form of a map. -/
theorem KMap.put_sorted {k : Nat} {v : α} {m : KMap α} (h : KMap.sorted m = true) : KMap.sorted (KMap.put m k v) = true :=
  KMap.put_sortedFrom h (Nat.zero_le k)

/-- Dropping entries keeps the rising order. -/
theorem KMap.filter_sortedFrom {lo : Nat} {m : KMap α} (p : Nat × α → Bool) (h : KMap.sortedFrom lo m = true) :
    KMap.sortedFrom lo (m.filter p) = true := by
  induction m generalizing lo with
  | nil => rfl
  | cons e r ih =>
    simp only [KMap.sortedFrom, Bool.and_eq_true, decide_eq_true_eq] at h
    rw [List.filter_cons]
    split
    · simp only [KMap.sortedFrom, Bool.and_eq_true, decide_eq_true_eq]
      exact ⟨h.1, ih h.2⟩
    · exact ih (KMap.sortedFrom_mono h.2 (by omega))

/-- Dropping entries keeps the canonical form of a map. -/
theorem KMap.filter_sorted {m : KMap α} (p : Nat × α → Bool) (h : KMap.sorted m = true) : KMap.sorted (m.filter p) = true :=
  KMap.filter_sortedFrom p h

/-- What is listed after setting a key was listed before or is the new pair. -/
theorem KMap.mem_put {k : Nat} {v : α} {m : KMap α} {e : Nat × α} (h : e ∈ KMap.put m k v) : e = (k, v) ∨ e ∈ m := by
  induction m with
  | nil => simpa [KMap.put] using h
  | cons x r ih =>
    obtain ⟨j, w⟩ := x
    unfold KMap.put at h
    split at h
    · simpa using h
    · split at h
      · rcases List.mem_cons.mp h with h | h
        · exact .inl h
        · exact .inr (List.mem_cons_of_mem _ h)
      · rcases List.mem_cons.mp h with h | h
        · exact .inr (h ▸ List.mem_cons_self)
        · rcases ih h with h | h
          · exact .inl h
          · exact .inr (List.mem_cons_of_mem _ h)

/-- A key that has been set is found. -/
@[simp] theorem KMap.find_put_same (m : KMap α) (k : Nat) (v : α) : KMap.find (KMap.put m k v) k = some v := by
  induction m with
  | nil => simp [KMap.put, KMap.find]
  | cons e r ih =>
    obtain ⟨j, w⟩ := e
    unfold KMap.put
    split
    · simp [KMap.find]
    · split
      · simp [KMap.find]
      · simp [KMap.find, *]

/-- Setting a key leaves every other key as it was. -/
theorem KMap.find_put_other (m : KMap α) {k j : Nat} (v : α) (h : j ≠ k) : KMap.find (KMap.put m k v) j = KMap.find m j := by
  induction m with
  | nil => simp [KMap.put, KMap.find, h]
  | cons e r ih =>
    obtain ⟨i, w⟩ := e
    unfold KMap.put
    split
    · simp [KMap.find, h]
    · split
      · next hk => subst hk; simp [KMap.find, h]
      · simp only [KMap.find, ih]

/-- A key set twice holds the last value. -/
@[simp] theorem KMap.put_put (m : KMap α) (k : Nat) (v w : α) : KMap.put (KMap.put m k v) k w = KMap.put m k w := by
  induction m with
  | nil => simp [KMap.put]
  | cons e r ih =>
    obtain ⟨j, u⟩ := e
    by_cases h : k < j
    · simp [KMap.put, h]
    · by_cases h' : k = j
      · subst h'; simp [KMap.put]
      · simp [KMap.put, h, h', ih]

/-- The value under a key that has been set. -/
@[simp] theorem KMap.getD_put_same (m : KMap α) (k : Nat) (v d : α) : KMap.getD (KMap.put m k v) k d = v := by simp [KMap.getD]

/-- The value under another key. -/
theorem KMap.getD_put_other (m : KMap α) {k j : Nat} (v d : α) (h : j ≠ k) :
    KMap.getD (KMap.put m k v) j d = KMap.getD m j d := by simp [KMap.getD, KMap.find_put_other m v h]

/-- A value changed is the change of what the key held. -/
@[simp] theorem KMap.getD_upd_same (m : KMap α) (k : Nat) (d : α) (f : α → α) : KMap.getD (KMap.upd m k d f) k d = f (KMap.getD m k d) := by
  simp [KMap.upd]

/-- A change of one key leaves every other key. -/
theorem KMap.getD_upd_other (m : KMap α) {k j : Nat} (d e : α) (f : α → α) (h : j ≠ k) :
    KMap.getD (KMap.upd m k d f) j e = KMap.getD m j e := by
  simp [KMap.upd, KMap.getD_put_other m _ _ h]

/-- Two changes of one key are one. -/
@[simp] theorem KMap.upd_upd (m : KMap α) (k : Nat) (d : α) (f g : α → α) :
    KMap.upd (KMap.upd m k d f) k d g = KMap.upd m k d (fun x => g (f x)) := by
  simp [KMap.upd]

/-- Dropping entries of other keys leaves what a key finds. -/
theorem KMap.find_filter (m : KMap α) (p : Nat → Bool) (k : Nat) :
    KMap.find (m.filter (fun e => p e.1)) k = if p k then KMap.find m k else none := by
  induction m with
  | nil => simp [KMap.find]
  | cons e r ih =>
    obtain ⟨j, w⟩ := e
    by_cases hk : k = j
    · subst hk
      by_cases hp : p k = true
      · simp [hp, KMap.find]
      · simp [hp, ih]
    · by_cases hp : p j = true
      · simp [hp, KMap.find, hk, ih]
      · simp [hp, KMap.find, hk, ih]

/-- A byte written reads back. -/
@[simp] theorem Memory.read_write_same (m : Memory) (a : Nat) (b : Byte) : Memory.read (Memory.write m a b) a = b := by
  unfold Memory.read Memory.write KMap.getD
  split
  · next h => simp [KMap.del, KMap.find_filter m (fun j => j != a), h]
  · simp

/-- Writing a byte leaves every other byte as it was. -/
theorem Memory.read_write_other (m : Memory) {a a' : Nat} (b : Byte) (h : a' ≠ a) :
    Memory.read (Memory.write m a b) a' = Memory.read m a' := by
  unfold Memory.read Memory.write KMap.getD
  split
  · simp [KMap.del, KMap.find_filter m (fun j => j != a), h]
  · rw [KMap.find_put_other m b h]

/-- Writing bytes leaves every byte outside them as it was. -/
theorem Memory.read_writeN_other (m : Memory) (a a' : Nat) (bs : Bytes) (h : a' < a ∨ a + bs.length ≤ a') :
    Memory.read (Memory.writeN m a bs) a' = Memory.read m a' := by
  induction bs generalizing m a with
  | nil => rfl
  | cons b r ih =>
    simp only [List.length_cons] at h
    rw [Memory.writeN, ih _ _ (by omega), Memory.read_write_other m b (by omega)]

/-- A byte of a written string reads back. -/
theorem Memory.read_writeN_in (m : Memory) (a : Nat) (bs : Bytes) (i : Nat) (h : i < bs.length) :
    Memory.read (Memory.writeN m a bs) (a + i) = bs.getD i 0 := by
  induction bs generalizing m a i with
  | nil => simp at h
  | cons b r ih =>
    rw [Memory.writeN]
    cases i with
    | zero => rw [Memory.read_writeN_other _ _ _ _ (by omega)]; simp
    | succ j =>
      have := ih (Memory.write m a b) (a + 1) j (by simpa using h)
      rw [show a + (j + 1) = a + 1 + j by omega, this]
      simp

/-- A zeroed byte reads as zero, and every other as before. -/
theorem Memory.read_zero (m : Memory) (a n a' : Nat) :
    Memory.read (Memory.zero m a n) a' = if a ≤ a' ∧ a' < a + n then Memory.blank else Memory.read m a' := by
  unfold Memory.read Memory.zero KMap.getD KMap.delRange
  rw [KMap.find_filter m (fun j => !(decide (a ≤ j) && decide (j < a + n)))]
  by_cases h : a ≤ a' ∧ a' < a + n
  · simp [h]
  · rw [if_neg h, if_pos]
    have : a' < a ∨ a + n ≤ a' := by omega
    rcases this with h | h <;> simp <;> omega

/-- Dropping cells keeps the canonical form. -/
theorem Memory.wf_filter {m : Memory} (p : Host.Cell → Bool) (h : Memory.wf m = true) : Memory.wf (m.filter p) = true := by
  simp only [Memory.wf, Bool.and_eq_true, List.all_eq_true] at h ⊢
  exact ⟨KMap.filter_sorted p h.1, fun e he => h.2 e ((List.mem_filter.mp he).1)⟩

/-- A byte written keeps the canonical form. -/
theorem Memory.wf_write {m : Memory} (a : Nat) (b : Byte) (h : Memory.wf m = true) : Memory.wf (Memory.write m a b) = true := by
  unfold Memory.write
  split
  · exact Memory.wf_filter _ h
  · next hb =>
    simp only [Memory.wf, Bool.and_eq_true, List.all_eq_true] at h ⊢
    refine ⟨KMap.put_sorted h.1, fun e he => ?_⟩
    rcases KMap.mem_put he with he | he
    · subst he; simpa using hb
    · exact h.2 e he

/-- Bytes written keep the canonical form. -/
theorem Memory.wf_writeN {m : Memory} (a : Nat) (bs : Bytes) (h : Memory.wf m = true) : Memory.wf (Memory.writeN m a bs) = true := by
  induction bs generalizing m a with
  | nil => exact h
  | cons b r ih => exact ih _ (Memory.wf_write a b h)

/-- A number written keeps the canonical form. -/
theorem Memory.wf_writeLE {m : Memory} (a n v : Nat) (h : Memory.wf m = true) : Memory.wf (Memory.writeLE m a n v) = true :=
  Memory.wf_writeN a _ h

/-- A zeroed range keeps the canonical form. -/
theorem Memory.wf_zero {m : Memory} (a n : Nat) (h : Memory.wf m = true) : Memory.wf (Memory.zero m a n) = true :=
  Memory.wf_filter _ h

/-- Zeroed ranges keep the canonical form. -/
theorem Memory.wf_zeros {β : Type} {l : List β} {m : Memory} (f g : β → Nat) (h : Memory.wf m = true) :
    Memory.wf (l.foldl (fun a w => Memory.zero a (f w) (g w)) m) = true := by
  induction l generalizing m with
  | nil => exact h
  | cons b r ih => exact ih (Memory.wf_zero _ _ h)

/-- The empty memory is canonical. -/
@[simp] theorem Memory.wf_nil : Memory.wf [] = true := rfl

end Sys2Proof
end

