-- ==== Sys2Proof/Laws/State.lean ====
section
/-! SUPPORT. What each update of the state leaves in each group of fields. -/

namespace Sys2Proof.Machine

@[simp] theorem State.modClock_clock (s : State) (f : (Clock) → (Clock)) : (s.modClock f).clock = f s.clock := rfl
@[simp] theorem State.modClock_alm (s : State) (f : (Clock) → (Clock)) : (s.modClock f).alm = s.alm := rfl
@[simp] theorem State.modClock_dict (s : State) (f : (Clock) → (Clock)) : (s.modClock f).dict = s.dict := rfl
@[simp] theorem State.modClock_hubs (s : State) (f : (Clock) → (Clock)) : (s.modClock f).hubs = s.hubs := rfl
@[simp] theorem State.modClock_dev (s : State) (f : (Clock) → (Clock)) : (s.modClock f).dev = s.dev := rfl
@[simp] theorem State.modClock_slots (s : State) (f : (Clock) → (Clock)) : (s.modClock f).slots = s.slots := rfl
@[simp] theorem State.modClock_claims (s : State) (f : (Clock) → (Clock)) : (s.modClock f).claims = s.claims := rfl
@[simp] theorem State.modClock_levee (s : State) (f : (Clock) → (Clock)) : (s.modClock f).levee = s.levee := rfl
@[simp] theorem State.modClock_host (s : State) (f : (Clock) → (Clock)) : (s.modClock f).host = s.host := rfl
@[simp] theorem State.modClock_carr (s : State) (f : (Clock) → (Clock)) : (s.modClock f).carr = s.carr := rfl
@[simp] theorem State.modClock_cells (s : State) (f : (Clock) → (Clock)) : (s.modClock f).cells = s.cells := rfl
@[simp] theorem State.modClock_tiles (s : State) (f : (Clock) → (Clock)) : (s.modClock f).tiles = s.tiles := rfl
@[simp] theorem State.modClock_mire (s : State) (f : (Clock) → (Clock)) : (s.modClock f).mire = s.mire := rfl
@[simp] theorem State.modClock_units (s : State) (f : (Clock) → (Clock)) : (s.modClock f).units = s.units := rfl
@[simp] theorem State.modClock_data (s : State) (f : (Clock) → (Clock)) : (s.modClock f).data = s.data := rfl
@[simp] theorem State.modClock_fab (s : State) (f : (Clock) → (Clock)) : (s.modClock f).fab = s.fab := rfl
@[simp] theorem State.modClock_tele (s : State) (f : (Clock) → (Clock)) : (s.modClock f).tele = s.tele := rfl
@[simp] theorem State.modClock_island (s : State) (f : (Clock) → (Clock)) : (s.modClock f).island = s.island := rfl
@[simp] theorem State.modClock_vigil (s : State) (f : (Clock) → (Clock)) : (s.modClock f).vigil = s.vigil := rfl
@[simp] theorem State.modClock_mem (s : State) (f : (Clock) → (Clock)) : (s.modClock f).mem = s.mem := rfl
@[simp] theorem State.modClock_outs (s : State) (f : (Clock) → (Clock)) : (s.modClock f).outs = s.outs := rfl
@[simp] theorem State.modClock_free (s : State) (f : (Clock) → (Clock)) : (s.modClock f).free = s.free := rfl
@[simp] theorem State.modClock_pending (s : State) (f : (Clock) → (Clock)) : (s.modClock f).pending = s.pending := rfl

@[simp] theorem State.modAlm_clock (s : State) (f : (Almanac) → (Almanac)) : (s.modAlm f).clock = s.clock := rfl
@[simp] theorem State.modAlm_alm (s : State) (f : (Almanac) → (Almanac)) : (s.modAlm f).alm = f s.alm := rfl
@[simp] theorem State.modAlm_dict (s : State) (f : (Almanac) → (Almanac)) : (s.modAlm f).dict = s.dict := rfl
@[simp] theorem State.modAlm_hubs (s : State) (f : (Almanac) → (Almanac)) : (s.modAlm f).hubs = s.hubs := rfl
@[simp] theorem State.modAlm_dev (s : State) (f : (Almanac) → (Almanac)) : (s.modAlm f).dev = s.dev := rfl
@[simp] theorem State.modAlm_slots (s : State) (f : (Almanac) → (Almanac)) : (s.modAlm f).slots = s.slots := rfl
@[simp] theorem State.modAlm_claims (s : State) (f : (Almanac) → (Almanac)) : (s.modAlm f).claims = s.claims := rfl
@[simp] theorem State.modAlm_levee (s : State) (f : (Almanac) → (Almanac)) : (s.modAlm f).levee = s.levee := rfl
@[simp] theorem State.modAlm_host (s : State) (f : (Almanac) → (Almanac)) : (s.modAlm f).host = s.host := rfl
@[simp] theorem State.modAlm_carr (s : State) (f : (Almanac) → (Almanac)) : (s.modAlm f).carr = s.carr := rfl
@[simp] theorem State.modAlm_cells (s : State) (f : (Almanac) → (Almanac)) : (s.modAlm f).cells = s.cells := rfl
@[simp] theorem State.modAlm_tiles (s : State) (f : (Almanac) → (Almanac)) : (s.modAlm f).tiles = s.tiles := rfl
@[simp] theorem State.modAlm_mire (s : State) (f : (Almanac) → (Almanac)) : (s.modAlm f).mire = s.mire := rfl
@[simp] theorem State.modAlm_units (s : State) (f : (Almanac) → (Almanac)) : (s.modAlm f).units = s.units := rfl
@[simp] theorem State.modAlm_data (s : State) (f : (Almanac) → (Almanac)) : (s.modAlm f).data = s.data := rfl
@[simp] theorem State.modAlm_fab (s : State) (f : (Almanac) → (Almanac)) : (s.modAlm f).fab = s.fab := rfl
@[simp] theorem State.modAlm_tele (s : State) (f : (Almanac) → (Almanac)) : (s.modAlm f).tele = s.tele := rfl
@[simp] theorem State.modAlm_island (s : State) (f : (Almanac) → (Almanac)) : (s.modAlm f).island = s.island := rfl
@[simp] theorem State.modAlm_vigil (s : State) (f : (Almanac) → (Almanac)) : (s.modAlm f).vigil = s.vigil := rfl
@[simp] theorem State.modAlm_mem (s : State) (f : (Almanac) → (Almanac)) : (s.modAlm f).mem = s.mem := rfl
@[simp] theorem State.modAlm_outs (s : State) (f : (Almanac) → (Almanac)) : (s.modAlm f).outs = s.outs := rfl
@[simp] theorem State.modAlm_free (s : State) (f : (Almanac) → (Almanac)) : (s.modAlm f).free = s.free := rfl
@[simp] theorem State.modAlm_pending (s : State) (f : (Almanac) → (Almanac)) : (s.modAlm f).pending = s.pending := rfl

@[simp] theorem State.modDict_clock (s : State) (f : (Dict) → (Dict)) : (s.modDict f).clock = s.clock := rfl
@[simp] theorem State.modDict_alm (s : State) (f : (Dict) → (Dict)) : (s.modDict f).alm = s.alm := rfl
@[simp] theorem State.modDict_dict (s : State) (f : (Dict) → (Dict)) : (s.modDict f).dict = f s.dict := rfl
@[simp] theorem State.modDict_hubs (s : State) (f : (Dict) → (Dict)) : (s.modDict f).hubs = s.hubs := rfl
@[simp] theorem State.modDict_dev (s : State) (f : (Dict) → (Dict)) : (s.modDict f).dev = s.dev := rfl
@[simp] theorem State.modDict_slots (s : State) (f : (Dict) → (Dict)) : (s.modDict f).slots = s.slots := rfl
@[simp] theorem State.modDict_claims (s : State) (f : (Dict) → (Dict)) : (s.modDict f).claims = s.claims := rfl
@[simp] theorem State.modDict_levee (s : State) (f : (Dict) → (Dict)) : (s.modDict f).levee = s.levee := rfl
@[simp] theorem State.modDict_host (s : State) (f : (Dict) → (Dict)) : (s.modDict f).host = s.host := rfl
@[simp] theorem State.modDict_carr (s : State) (f : (Dict) → (Dict)) : (s.modDict f).carr = s.carr := rfl
@[simp] theorem State.modDict_cells (s : State) (f : (Dict) → (Dict)) : (s.modDict f).cells = s.cells := rfl
@[simp] theorem State.modDict_tiles (s : State) (f : (Dict) → (Dict)) : (s.modDict f).tiles = s.tiles := rfl
@[simp] theorem State.modDict_mire (s : State) (f : (Dict) → (Dict)) : (s.modDict f).mire = s.mire := rfl
@[simp] theorem State.modDict_units (s : State) (f : (Dict) → (Dict)) : (s.modDict f).units = s.units := rfl
@[simp] theorem State.modDict_data (s : State) (f : (Dict) → (Dict)) : (s.modDict f).data = s.data := rfl
@[simp] theorem State.modDict_fab (s : State) (f : (Dict) → (Dict)) : (s.modDict f).fab = s.fab := rfl
@[simp] theorem State.modDict_tele (s : State) (f : (Dict) → (Dict)) : (s.modDict f).tele = s.tele := rfl
@[simp] theorem State.modDict_island (s : State) (f : (Dict) → (Dict)) : (s.modDict f).island = s.island := rfl
@[simp] theorem State.modDict_vigil (s : State) (f : (Dict) → (Dict)) : (s.modDict f).vigil = s.vigil := rfl
@[simp] theorem State.modDict_mem (s : State) (f : (Dict) → (Dict)) : (s.modDict f).mem = s.mem := rfl
@[simp] theorem State.modDict_outs (s : State) (f : (Dict) → (Dict)) : (s.modDict f).outs = s.outs := rfl
@[simp] theorem State.modDict_free (s : State) (f : (Dict) → (Dict)) : (s.modDict f).free = s.free := rfl
@[simp] theorem State.modDict_pending (s : State) (f : (Dict) → (Dict)) : (s.modDict f).pending = s.pending := rfl

@[simp] theorem State.modHubs_clock (s : State) (f : (Hubs) → (Hubs)) : (s.modHubs f).clock = s.clock := rfl
@[simp] theorem State.modHubs_alm (s : State) (f : (Hubs) → (Hubs)) : (s.modHubs f).alm = s.alm := rfl
@[simp] theorem State.modHubs_dict (s : State) (f : (Hubs) → (Hubs)) : (s.modHubs f).dict = s.dict := rfl
@[simp] theorem State.modHubs_hubs (s : State) (f : (Hubs) → (Hubs)) : (s.modHubs f).hubs = f s.hubs := rfl
@[simp] theorem State.modHubs_dev (s : State) (f : (Hubs) → (Hubs)) : (s.modHubs f).dev = s.dev := rfl
@[simp] theorem State.modHubs_slots (s : State) (f : (Hubs) → (Hubs)) : (s.modHubs f).slots = s.slots := rfl
@[simp] theorem State.modHubs_claims (s : State) (f : (Hubs) → (Hubs)) : (s.modHubs f).claims = s.claims := rfl
@[simp] theorem State.modHubs_levee (s : State) (f : (Hubs) → (Hubs)) : (s.modHubs f).levee = s.levee := rfl
@[simp] theorem State.modHubs_host (s : State) (f : (Hubs) → (Hubs)) : (s.modHubs f).host = s.host := rfl
@[simp] theorem State.modHubs_carr (s : State) (f : (Hubs) → (Hubs)) : (s.modHubs f).carr = s.carr := rfl
@[simp] theorem State.modHubs_cells (s : State) (f : (Hubs) → (Hubs)) : (s.modHubs f).cells = s.cells := rfl
@[simp] theorem State.modHubs_tiles (s : State) (f : (Hubs) → (Hubs)) : (s.modHubs f).tiles = s.tiles := rfl
@[simp] theorem State.modHubs_mire (s : State) (f : (Hubs) → (Hubs)) : (s.modHubs f).mire = s.mire := rfl
@[simp] theorem State.modHubs_units (s : State) (f : (Hubs) → (Hubs)) : (s.modHubs f).units = s.units := rfl
@[simp] theorem State.modHubs_data (s : State) (f : (Hubs) → (Hubs)) : (s.modHubs f).data = s.data := rfl
@[simp] theorem State.modHubs_fab (s : State) (f : (Hubs) → (Hubs)) : (s.modHubs f).fab = s.fab := rfl
@[simp] theorem State.modHubs_tele (s : State) (f : (Hubs) → (Hubs)) : (s.modHubs f).tele = s.tele := rfl
@[simp] theorem State.modHubs_island (s : State) (f : (Hubs) → (Hubs)) : (s.modHubs f).island = s.island := rfl
@[simp] theorem State.modHubs_vigil (s : State) (f : (Hubs) → (Hubs)) : (s.modHubs f).vigil = s.vigil := rfl
@[simp] theorem State.modHubs_mem (s : State) (f : (Hubs) → (Hubs)) : (s.modHubs f).mem = s.mem := rfl
@[simp] theorem State.modHubs_outs (s : State) (f : (Hubs) → (Hubs)) : (s.modHubs f).outs = s.outs := rfl
@[simp] theorem State.modHubs_free (s : State) (f : (Hubs) → (Hubs)) : (s.modHubs f).free = s.free := rfl
@[simp] theorem State.modHubs_pending (s : State) (f : (Hubs) → (Hubs)) : (s.modHubs f).pending = s.pending := rfl

@[simp] theorem State.modDev_clock (s : State) (f : (Device) → (Device)) : (s.modDev f).clock = s.clock := rfl
@[simp] theorem State.modDev_alm (s : State) (f : (Device) → (Device)) : (s.modDev f).alm = s.alm := rfl
@[simp] theorem State.modDev_dict (s : State) (f : (Device) → (Device)) : (s.modDev f).dict = s.dict := rfl
@[simp] theorem State.modDev_hubs (s : State) (f : (Device) → (Device)) : (s.modDev f).hubs = s.hubs := rfl
@[simp] theorem State.modDev_dev (s : State) (f : (Device) → (Device)) : (s.modDev f).dev = f s.dev := rfl
@[simp] theorem State.modDev_slots (s : State) (f : (Device) → (Device)) : (s.modDev f).slots = s.slots := rfl
@[simp] theorem State.modDev_claims (s : State) (f : (Device) → (Device)) : (s.modDev f).claims = s.claims := rfl
@[simp] theorem State.modDev_levee (s : State) (f : (Device) → (Device)) : (s.modDev f).levee = s.levee := rfl
@[simp] theorem State.modDev_host (s : State) (f : (Device) → (Device)) : (s.modDev f).host = s.host := rfl
@[simp] theorem State.modDev_carr (s : State) (f : (Device) → (Device)) : (s.modDev f).carr = s.carr := rfl
@[simp] theorem State.modDev_cells (s : State) (f : (Device) → (Device)) : (s.modDev f).cells = s.cells := rfl
@[simp] theorem State.modDev_tiles (s : State) (f : (Device) → (Device)) : (s.modDev f).tiles = s.tiles := rfl
@[simp] theorem State.modDev_mire (s : State) (f : (Device) → (Device)) : (s.modDev f).mire = s.mire := rfl
@[simp] theorem State.modDev_units (s : State) (f : (Device) → (Device)) : (s.modDev f).units = s.units := rfl
@[simp] theorem State.modDev_data (s : State) (f : (Device) → (Device)) : (s.modDev f).data = s.data := rfl
@[simp] theorem State.modDev_fab (s : State) (f : (Device) → (Device)) : (s.modDev f).fab = s.fab := rfl
@[simp] theorem State.modDev_tele (s : State) (f : (Device) → (Device)) : (s.modDev f).tele = s.tele := rfl
@[simp] theorem State.modDev_island (s : State) (f : (Device) → (Device)) : (s.modDev f).island = s.island := rfl
@[simp] theorem State.modDev_vigil (s : State) (f : (Device) → (Device)) : (s.modDev f).vigil = s.vigil := rfl
@[simp] theorem State.modDev_mem (s : State) (f : (Device) → (Device)) : (s.modDev f).mem = s.mem := rfl
@[simp] theorem State.modDev_outs (s : State) (f : (Device) → (Device)) : (s.modDev f).outs = s.outs := rfl
@[simp] theorem State.modDev_free (s : State) (f : (Device) → (Device)) : (s.modDev f).free = s.free := rfl
@[simp] theorem State.modDev_pending (s : State) (f : (Device) → (Device)) : (s.modDev f).pending = s.pending := rfl

@[simp] theorem State.modSlots_clock (s : State) (f : (KMap Slot) → (KMap Slot)) : (s.modSlots f).clock = s.clock := rfl
@[simp] theorem State.modSlots_alm (s : State) (f : (KMap Slot) → (KMap Slot)) : (s.modSlots f).alm = s.alm := rfl
@[simp] theorem State.modSlots_dict (s : State) (f : (KMap Slot) → (KMap Slot)) : (s.modSlots f).dict = s.dict := rfl
@[simp] theorem State.modSlots_hubs (s : State) (f : (KMap Slot) → (KMap Slot)) : (s.modSlots f).hubs = s.hubs := rfl
@[simp] theorem State.modSlots_dev (s : State) (f : (KMap Slot) → (KMap Slot)) : (s.modSlots f).dev = s.dev := rfl
@[simp] theorem State.modSlots_slots (s : State) (f : (KMap Slot) → (KMap Slot)) : (s.modSlots f).slots = f s.slots := rfl
@[simp] theorem State.modSlots_claims (s : State) (f : (KMap Slot) → (KMap Slot)) : (s.modSlots f).claims = s.claims := rfl
@[simp] theorem State.modSlots_levee (s : State) (f : (KMap Slot) → (KMap Slot)) : (s.modSlots f).levee = s.levee := rfl
@[simp] theorem State.modSlots_host (s : State) (f : (KMap Slot) → (KMap Slot)) : (s.modSlots f).host = s.host := rfl
@[simp] theorem State.modSlots_carr (s : State) (f : (KMap Slot) → (KMap Slot)) : (s.modSlots f).carr = s.carr := rfl
@[simp] theorem State.modSlots_cells (s : State) (f : (KMap Slot) → (KMap Slot)) : (s.modSlots f).cells = s.cells := rfl
@[simp] theorem State.modSlots_tiles (s : State) (f : (KMap Slot) → (KMap Slot)) : (s.modSlots f).tiles = s.tiles := rfl
@[simp] theorem State.modSlots_mire (s : State) (f : (KMap Slot) → (KMap Slot)) : (s.modSlots f).mire = s.mire := rfl
@[simp] theorem State.modSlots_units (s : State) (f : (KMap Slot) → (KMap Slot)) : (s.modSlots f).units = s.units := rfl
@[simp] theorem State.modSlots_data (s : State) (f : (KMap Slot) → (KMap Slot)) : (s.modSlots f).data = s.data := rfl
@[simp] theorem State.modSlots_fab (s : State) (f : (KMap Slot) → (KMap Slot)) : (s.modSlots f).fab = s.fab := rfl
@[simp] theorem State.modSlots_tele (s : State) (f : (KMap Slot) → (KMap Slot)) : (s.modSlots f).tele = s.tele := rfl
@[simp] theorem State.modSlots_island (s : State) (f : (KMap Slot) → (KMap Slot)) : (s.modSlots f).island = s.island := rfl
@[simp] theorem State.modSlots_vigil (s : State) (f : (KMap Slot) → (KMap Slot)) : (s.modSlots f).vigil = s.vigil := rfl
@[simp] theorem State.modSlots_mem (s : State) (f : (KMap Slot) → (KMap Slot)) : (s.modSlots f).mem = s.mem := rfl
@[simp] theorem State.modSlots_outs (s : State) (f : (KMap Slot) → (KMap Slot)) : (s.modSlots f).outs = s.outs := rfl
@[simp] theorem State.modSlots_free (s : State) (f : (KMap Slot) → (KMap Slot)) : (s.modSlots f).free = s.free := rfl
@[simp] theorem State.modSlots_pending (s : State) (f : (KMap Slot) → (KMap Slot)) : (s.modSlots f).pending = s.pending := rfl

@[simp] theorem State.modClaims_clock (s : State) (f : (Claims) → (Claims)) : (s.modClaims f).clock = s.clock := rfl
@[simp] theorem State.modClaims_alm (s : State) (f : (Claims) → (Claims)) : (s.modClaims f).alm = s.alm := rfl
@[simp] theorem State.modClaims_dict (s : State) (f : (Claims) → (Claims)) : (s.modClaims f).dict = s.dict := rfl
@[simp] theorem State.modClaims_hubs (s : State) (f : (Claims) → (Claims)) : (s.modClaims f).hubs = s.hubs := rfl
@[simp] theorem State.modClaims_dev (s : State) (f : (Claims) → (Claims)) : (s.modClaims f).dev = s.dev := rfl
@[simp] theorem State.modClaims_slots (s : State) (f : (Claims) → (Claims)) : (s.modClaims f).slots = s.slots := rfl
@[simp] theorem State.modClaims_claims (s : State) (f : (Claims) → (Claims)) : (s.modClaims f).claims = f s.claims := rfl
@[simp] theorem State.modClaims_levee (s : State) (f : (Claims) → (Claims)) : (s.modClaims f).levee = s.levee := rfl
@[simp] theorem State.modClaims_host (s : State) (f : (Claims) → (Claims)) : (s.modClaims f).host = s.host := rfl
@[simp] theorem State.modClaims_carr (s : State) (f : (Claims) → (Claims)) : (s.modClaims f).carr = s.carr := rfl
@[simp] theorem State.modClaims_cells (s : State) (f : (Claims) → (Claims)) : (s.modClaims f).cells = s.cells := rfl
@[simp] theorem State.modClaims_tiles (s : State) (f : (Claims) → (Claims)) : (s.modClaims f).tiles = s.tiles := rfl
@[simp] theorem State.modClaims_mire (s : State) (f : (Claims) → (Claims)) : (s.modClaims f).mire = s.mire := rfl
@[simp] theorem State.modClaims_units (s : State) (f : (Claims) → (Claims)) : (s.modClaims f).units = s.units := rfl
@[simp] theorem State.modClaims_data (s : State) (f : (Claims) → (Claims)) : (s.modClaims f).data = s.data := rfl
@[simp] theorem State.modClaims_fab (s : State) (f : (Claims) → (Claims)) : (s.modClaims f).fab = s.fab := rfl
@[simp] theorem State.modClaims_tele (s : State) (f : (Claims) → (Claims)) : (s.modClaims f).tele = s.tele := rfl
@[simp] theorem State.modClaims_island (s : State) (f : (Claims) → (Claims)) : (s.modClaims f).island = s.island := rfl
@[simp] theorem State.modClaims_vigil (s : State) (f : (Claims) → (Claims)) : (s.modClaims f).vigil = s.vigil := rfl
@[simp] theorem State.modClaims_mem (s : State) (f : (Claims) → (Claims)) : (s.modClaims f).mem = s.mem := rfl
@[simp] theorem State.modClaims_outs (s : State) (f : (Claims) → (Claims)) : (s.modClaims f).outs = s.outs := rfl
@[simp] theorem State.modClaims_free (s : State) (f : (Claims) → (Claims)) : (s.modClaims f).free = s.free := rfl
@[simp] theorem State.modClaims_pending (s : State) (f : (Claims) → (Claims)) : (s.modClaims f).pending = s.pending := rfl

@[simp] theorem State.modLevee_clock (s : State) (f : (Levee) → (Levee)) : (s.modLevee f).clock = s.clock := rfl
@[simp] theorem State.modLevee_alm (s : State) (f : (Levee) → (Levee)) : (s.modLevee f).alm = s.alm := rfl
@[simp] theorem State.modLevee_dict (s : State) (f : (Levee) → (Levee)) : (s.modLevee f).dict = s.dict := rfl
@[simp] theorem State.modLevee_hubs (s : State) (f : (Levee) → (Levee)) : (s.modLevee f).hubs = s.hubs := rfl
@[simp] theorem State.modLevee_dev (s : State) (f : (Levee) → (Levee)) : (s.modLevee f).dev = s.dev := rfl
@[simp] theorem State.modLevee_slots (s : State) (f : (Levee) → (Levee)) : (s.modLevee f).slots = s.slots := rfl
@[simp] theorem State.modLevee_claims (s : State) (f : (Levee) → (Levee)) : (s.modLevee f).claims = s.claims := rfl
@[simp] theorem State.modLevee_levee (s : State) (f : (Levee) → (Levee)) : (s.modLevee f).levee = f s.levee := rfl
@[simp] theorem State.modLevee_host (s : State) (f : (Levee) → (Levee)) : (s.modLevee f).host = s.host := rfl
@[simp] theorem State.modLevee_carr (s : State) (f : (Levee) → (Levee)) : (s.modLevee f).carr = s.carr := rfl
@[simp] theorem State.modLevee_cells (s : State) (f : (Levee) → (Levee)) : (s.modLevee f).cells = s.cells := rfl
@[simp] theorem State.modLevee_tiles (s : State) (f : (Levee) → (Levee)) : (s.modLevee f).tiles = s.tiles := rfl
@[simp] theorem State.modLevee_mire (s : State) (f : (Levee) → (Levee)) : (s.modLevee f).mire = s.mire := rfl
@[simp] theorem State.modLevee_units (s : State) (f : (Levee) → (Levee)) : (s.modLevee f).units = s.units := rfl
@[simp] theorem State.modLevee_data (s : State) (f : (Levee) → (Levee)) : (s.modLevee f).data = s.data := rfl
@[simp] theorem State.modLevee_fab (s : State) (f : (Levee) → (Levee)) : (s.modLevee f).fab = s.fab := rfl
@[simp] theorem State.modLevee_tele (s : State) (f : (Levee) → (Levee)) : (s.modLevee f).tele = s.tele := rfl
@[simp] theorem State.modLevee_island (s : State) (f : (Levee) → (Levee)) : (s.modLevee f).island = s.island := rfl
@[simp] theorem State.modLevee_vigil (s : State) (f : (Levee) → (Levee)) : (s.modLevee f).vigil = s.vigil := rfl
@[simp] theorem State.modLevee_mem (s : State) (f : (Levee) → (Levee)) : (s.modLevee f).mem = s.mem := rfl
@[simp] theorem State.modLevee_outs (s : State) (f : (Levee) → (Levee)) : (s.modLevee f).outs = s.outs := rfl
@[simp] theorem State.modLevee_free (s : State) (f : (Levee) → (Levee)) : (s.modLevee f).free = s.free := rfl
@[simp] theorem State.modLevee_pending (s : State) (f : (Levee) → (Levee)) : (s.modLevee f).pending = s.pending := rfl

@[simp] theorem State.modHost_clock (s : State) (f : (HostPorts) → (HostPorts)) : (s.modHost f).clock = s.clock := rfl
@[simp] theorem State.modHost_alm (s : State) (f : (HostPorts) → (HostPorts)) : (s.modHost f).alm = s.alm := rfl
@[simp] theorem State.modHost_dict (s : State) (f : (HostPorts) → (HostPorts)) : (s.modHost f).dict = s.dict := rfl
@[simp] theorem State.modHost_hubs (s : State) (f : (HostPorts) → (HostPorts)) : (s.modHost f).hubs = s.hubs := rfl
@[simp] theorem State.modHost_dev (s : State) (f : (HostPorts) → (HostPorts)) : (s.modHost f).dev = s.dev := rfl
@[simp] theorem State.modHost_slots (s : State) (f : (HostPorts) → (HostPorts)) : (s.modHost f).slots = s.slots := rfl
@[simp] theorem State.modHost_claims (s : State) (f : (HostPorts) → (HostPorts)) : (s.modHost f).claims = s.claims := rfl
@[simp] theorem State.modHost_levee (s : State) (f : (HostPorts) → (HostPorts)) : (s.modHost f).levee = s.levee := rfl
@[simp] theorem State.modHost_host (s : State) (f : (HostPorts) → (HostPorts)) : (s.modHost f).host = f s.host := rfl
@[simp] theorem State.modHost_carr (s : State) (f : (HostPorts) → (HostPorts)) : (s.modHost f).carr = s.carr := rfl
@[simp] theorem State.modHost_cells (s : State) (f : (HostPorts) → (HostPorts)) : (s.modHost f).cells = s.cells := rfl
@[simp] theorem State.modHost_tiles (s : State) (f : (HostPorts) → (HostPorts)) : (s.modHost f).tiles = s.tiles := rfl
@[simp] theorem State.modHost_mire (s : State) (f : (HostPorts) → (HostPorts)) : (s.modHost f).mire = s.mire := rfl
@[simp] theorem State.modHost_units (s : State) (f : (HostPorts) → (HostPorts)) : (s.modHost f).units = s.units := rfl
@[simp] theorem State.modHost_data (s : State) (f : (HostPorts) → (HostPorts)) : (s.modHost f).data = s.data := rfl
@[simp] theorem State.modHost_fab (s : State) (f : (HostPorts) → (HostPorts)) : (s.modHost f).fab = s.fab := rfl
@[simp] theorem State.modHost_tele (s : State) (f : (HostPorts) → (HostPorts)) : (s.modHost f).tele = s.tele := rfl
@[simp] theorem State.modHost_island (s : State) (f : (HostPorts) → (HostPorts)) : (s.modHost f).island = s.island := rfl
@[simp] theorem State.modHost_vigil (s : State) (f : (HostPorts) → (HostPorts)) : (s.modHost f).vigil = s.vigil := rfl
@[simp] theorem State.modHost_mem (s : State) (f : (HostPorts) → (HostPorts)) : (s.modHost f).mem = s.mem := rfl
@[simp] theorem State.modHost_outs (s : State) (f : (HostPorts) → (HostPorts)) : (s.modHost f).outs = s.outs := rfl
@[simp] theorem State.modHost_free (s : State) (f : (HostPorts) → (HostPorts)) : (s.modHost f).free = s.free := rfl
@[simp] theorem State.modHost_pending (s : State) (f : (HostPorts) → (HostPorts)) : (s.modHost f).pending = s.pending := rfl

@[simp] theorem State.modCarr_clock (s : State) (f : (Carr) → (Carr)) : (s.modCarr f).clock = s.clock := rfl
@[simp] theorem State.modCarr_alm (s : State) (f : (Carr) → (Carr)) : (s.modCarr f).alm = s.alm := rfl
@[simp] theorem State.modCarr_dict (s : State) (f : (Carr) → (Carr)) : (s.modCarr f).dict = s.dict := rfl
@[simp] theorem State.modCarr_hubs (s : State) (f : (Carr) → (Carr)) : (s.modCarr f).hubs = s.hubs := rfl
@[simp] theorem State.modCarr_dev (s : State) (f : (Carr) → (Carr)) : (s.modCarr f).dev = s.dev := rfl
@[simp] theorem State.modCarr_slots (s : State) (f : (Carr) → (Carr)) : (s.modCarr f).slots = s.slots := rfl
@[simp] theorem State.modCarr_claims (s : State) (f : (Carr) → (Carr)) : (s.modCarr f).claims = s.claims := rfl
@[simp] theorem State.modCarr_levee (s : State) (f : (Carr) → (Carr)) : (s.modCarr f).levee = s.levee := rfl
@[simp] theorem State.modCarr_host (s : State) (f : (Carr) → (Carr)) : (s.modCarr f).host = s.host := rfl
@[simp] theorem State.modCarr_carr (s : State) (f : (Carr) → (Carr)) : (s.modCarr f).carr = f s.carr := rfl
@[simp] theorem State.modCarr_cells (s : State) (f : (Carr) → (Carr)) : (s.modCarr f).cells = s.cells := rfl
@[simp] theorem State.modCarr_tiles (s : State) (f : (Carr) → (Carr)) : (s.modCarr f).tiles = s.tiles := rfl
@[simp] theorem State.modCarr_mire (s : State) (f : (Carr) → (Carr)) : (s.modCarr f).mire = s.mire := rfl
@[simp] theorem State.modCarr_units (s : State) (f : (Carr) → (Carr)) : (s.modCarr f).units = s.units := rfl
@[simp] theorem State.modCarr_data (s : State) (f : (Carr) → (Carr)) : (s.modCarr f).data = s.data := rfl
@[simp] theorem State.modCarr_fab (s : State) (f : (Carr) → (Carr)) : (s.modCarr f).fab = s.fab := rfl
@[simp] theorem State.modCarr_tele (s : State) (f : (Carr) → (Carr)) : (s.modCarr f).tele = s.tele := rfl
@[simp] theorem State.modCarr_island (s : State) (f : (Carr) → (Carr)) : (s.modCarr f).island = s.island := rfl
@[simp] theorem State.modCarr_vigil (s : State) (f : (Carr) → (Carr)) : (s.modCarr f).vigil = s.vigil := rfl
@[simp] theorem State.modCarr_mem (s : State) (f : (Carr) → (Carr)) : (s.modCarr f).mem = s.mem := rfl
@[simp] theorem State.modCarr_outs (s : State) (f : (Carr) → (Carr)) : (s.modCarr f).outs = s.outs := rfl
@[simp] theorem State.modCarr_free (s : State) (f : (Carr) → (Carr)) : (s.modCarr f).free = s.free := rfl
@[simp] theorem State.modCarr_pending (s : State) (f : (Carr) → (Carr)) : (s.modCarr f).pending = s.pending := rfl

@[simp] theorem State.modCells_clock (s : State) (f : (Cells) → (Cells)) : (s.modCells f).clock = s.clock := rfl
@[simp] theorem State.modCells_alm (s : State) (f : (Cells) → (Cells)) : (s.modCells f).alm = s.alm := rfl
@[simp] theorem State.modCells_dict (s : State) (f : (Cells) → (Cells)) : (s.modCells f).dict = s.dict := rfl
@[simp] theorem State.modCells_hubs (s : State) (f : (Cells) → (Cells)) : (s.modCells f).hubs = s.hubs := rfl
@[simp] theorem State.modCells_dev (s : State) (f : (Cells) → (Cells)) : (s.modCells f).dev = s.dev := rfl
@[simp] theorem State.modCells_slots (s : State) (f : (Cells) → (Cells)) : (s.modCells f).slots = s.slots := rfl
@[simp] theorem State.modCells_claims (s : State) (f : (Cells) → (Cells)) : (s.modCells f).claims = s.claims := rfl
@[simp] theorem State.modCells_levee (s : State) (f : (Cells) → (Cells)) : (s.modCells f).levee = s.levee := rfl
@[simp] theorem State.modCells_host (s : State) (f : (Cells) → (Cells)) : (s.modCells f).host = s.host := rfl
@[simp] theorem State.modCells_carr (s : State) (f : (Cells) → (Cells)) : (s.modCells f).carr = s.carr := rfl
@[simp] theorem State.modCells_cells (s : State) (f : (Cells) → (Cells)) : (s.modCells f).cells = f s.cells := rfl
@[simp] theorem State.modCells_tiles (s : State) (f : (Cells) → (Cells)) : (s.modCells f).tiles = s.tiles := rfl
@[simp] theorem State.modCells_mire (s : State) (f : (Cells) → (Cells)) : (s.modCells f).mire = s.mire := rfl
@[simp] theorem State.modCells_units (s : State) (f : (Cells) → (Cells)) : (s.modCells f).units = s.units := rfl
@[simp] theorem State.modCells_data (s : State) (f : (Cells) → (Cells)) : (s.modCells f).data = s.data := rfl
@[simp] theorem State.modCells_fab (s : State) (f : (Cells) → (Cells)) : (s.modCells f).fab = s.fab := rfl
@[simp] theorem State.modCells_tele (s : State) (f : (Cells) → (Cells)) : (s.modCells f).tele = s.tele := rfl
@[simp] theorem State.modCells_island (s : State) (f : (Cells) → (Cells)) : (s.modCells f).island = s.island := rfl
@[simp] theorem State.modCells_vigil (s : State) (f : (Cells) → (Cells)) : (s.modCells f).vigil = s.vigil := rfl
@[simp] theorem State.modCells_mem (s : State) (f : (Cells) → (Cells)) : (s.modCells f).mem = s.mem := rfl
@[simp] theorem State.modCells_outs (s : State) (f : (Cells) → (Cells)) : (s.modCells f).outs = s.outs := rfl
@[simp] theorem State.modCells_free (s : State) (f : (Cells) → (Cells)) : (s.modCells f).free = s.free := rfl
@[simp] theorem State.modCells_pending (s : State) (f : (Cells) → (Cells)) : (s.modCells f).pending = s.pending := rfl

@[simp] theorem State.modTiles_clock (s : State) (f : (TileClocks) → (TileClocks)) : (s.modTiles f).clock = s.clock := rfl
@[simp] theorem State.modTiles_alm (s : State) (f : (TileClocks) → (TileClocks)) : (s.modTiles f).alm = s.alm := rfl
@[simp] theorem State.modTiles_dict (s : State) (f : (TileClocks) → (TileClocks)) : (s.modTiles f).dict = s.dict := rfl
@[simp] theorem State.modTiles_hubs (s : State) (f : (TileClocks) → (TileClocks)) : (s.modTiles f).hubs = s.hubs := rfl
@[simp] theorem State.modTiles_dev (s : State) (f : (TileClocks) → (TileClocks)) : (s.modTiles f).dev = s.dev := rfl
@[simp] theorem State.modTiles_slots (s : State) (f : (TileClocks) → (TileClocks)) : (s.modTiles f).slots = s.slots := rfl
@[simp] theorem State.modTiles_claims (s : State) (f : (TileClocks) → (TileClocks)) : (s.modTiles f).claims = s.claims := rfl
@[simp] theorem State.modTiles_levee (s : State) (f : (TileClocks) → (TileClocks)) : (s.modTiles f).levee = s.levee := rfl
@[simp] theorem State.modTiles_host (s : State) (f : (TileClocks) → (TileClocks)) : (s.modTiles f).host = s.host := rfl
@[simp] theorem State.modTiles_carr (s : State) (f : (TileClocks) → (TileClocks)) : (s.modTiles f).carr = s.carr := rfl
@[simp] theorem State.modTiles_cells (s : State) (f : (TileClocks) → (TileClocks)) : (s.modTiles f).cells = s.cells := rfl
@[simp] theorem State.modTiles_tiles (s : State) (f : (TileClocks) → (TileClocks)) : (s.modTiles f).tiles = f s.tiles := rfl
@[simp] theorem State.modTiles_mire (s : State) (f : (TileClocks) → (TileClocks)) : (s.modTiles f).mire = s.mire := rfl
@[simp] theorem State.modTiles_units (s : State) (f : (TileClocks) → (TileClocks)) : (s.modTiles f).units = s.units := rfl
@[simp] theorem State.modTiles_data (s : State) (f : (TileClocks) → (TileClocks)) : (s.modTiles f).data = s.data := rfl
@[simp] theorem State.modTiles_fab (s : State) (f : (TileClocks) → (TileClocks)) : (s.modTiles f).fab = s.fab := rfl
@[simp] theorem State.modTiles_tele (s : State) (f : (TileClocks) → (TileClocks)) : (s.modTiles f).tele = s.tele := rfl
@[simp] theorem State.modTiles_island (s : State) (f : (TileClocks) → (TileClocks)) : (s.modTiles f).island = s.island := rfl
@[simp] theorem State.modTiles_vigil (s : State) (f : (TileClocks) → (TileClocks)) : (s.modTiles f).vigil = s.vigil := rfl
@[simp] theorem State.modTiles_mem (s : State) (f : (TileClocks) → (TileClocks)) : (s.modTiles f).mem = s.mem := rfl
@[simp] theorem State.modTiles_outs (s : State) (f : (TileClocks) → (TileClocks)) : (s.modTiles f).outs = s.outs := rfl
@[simp] theorem State.modTiles_free (s : State) (f : (TileClocks) → (TileClocks)) : (s.modTiles f).free = s.free := rfl
@[simp] theorem State.modTiles_pending (s : State) (f : (TileClocks) → (TileClocks)) : (s.modTiles f).pending = s.pending := rfl

@[simp] theorem State.modMire_clock (s : State) (f : (Mire) → (Mire)) : (s.modMire f).clock = s.clock := rfl
@[simp] theorem State.modMire_alm (s : State) (f : (Mire) → (Mire)) : (s.modMire f).alm = s.alm := rfl
@[simp] theorem State.modMire_dict (s : State) (f : (Mire) → (Mire)) : (s.modMire f).dict = s.dict := rfl
@[simp] theorem State.modMire_hubs (s : State) (f : (Mire) → (Mire)) : (s.modMire f).hubs = s.hubs := rfl
@[simp] theorem State.modMire_dev (s : State) (f : (Mire) → (Mire)) : (s.modMire f).dev = s.dev := rfl
@[simp] theorem State.modMire_slots (s : State) (f : (Mire) → (Mire)) : (s.modMire f).slots = s.slots := rfl
@[simp] theorem State.modMire_claims (s : State) (f : (Mire) → (Mire)) : (s.modMire f).claims = s.claims := rfl
@[simp] theorem State.modMire_levee (s : State) (f : (Mire) → (Mire)) : (s.modMire f).levee = s.levee := rfl
@[simp] theorem State.modMire_host (s : State) (f : (Mire) → (Mire)) : (s.modMire f).host = s.host := rfl
@[simp] theorem State.modMire_carr (s : State) (f : (Mire) → (Mire)) : (s.modMire f).carr = s.carr := rfl
@[simp] theorem State.modMire_cells (s : State) (f : (Mire) → (Mire)) : (s.modMire f).cells = s.cells := rfl
@[simp] theorem State.modMire_tiles (s : State) (f : (Mire) → (Mire)) : (s.modMire f).tiles = s.tiles := rfl
@[simp] theorem State.modMire_mire (s : State) (f : (Mire) → (Mire)) : (s.modMire f).mire = f s.mire := rfl
@[simp] theorem State.modMire_units (s : State) (f : (Mire) → (Mire)) : (s.modMire f).units = s.units := rfl
@[simp] theorem State.modMire_data (s : State) (f : (Mire) → (Mire)) : (s.modMire f).data = s.data := rfl
@[simp] theorem State.modMire_fab (s : State) (f : (Mire) → (Mire)) : (s.modMire f).fab = s.fab := rfl
@[simp] theorem State.modMire_tele (s : State) (f : (Mire) → (Mire)) : (s.modMire f).tele = s.tele := rfl
@[simp] theorem State.modMire_island (s : State) (f : (Mire) → (Mire)) : (s.modMire f).island = s.island := rfl
@[simp] theorem State.modMire_vigil (s : State) (f : (Mire) → (Mire)) : (s.modMire f).vigil = s.vigil := rfl
@[simp] theorem State.modMire_mem (s : State) (f : (Mire) → (Mire)) : (s.modMire f).mem = s.mem := rfl
@[simp] theorem State.modMire_outs (s : State) (f : (Mire) → (Mire)) : (s.modMire f).outs = s.outs := rfl
@[simp] theorem State.modMire_free (s : State) (f : (Mire) → (Mire)) : (s.modMire f).free = s.free := rfl
@[simp] theorem State.modMire_pending (s : State) (f : (Mire) → (Mire)) : (s.modMire f).pending = s.pending := rfl

@[simp] theorem State.modUnits_clock (s : State) (f : (Units) → (Units)) : (s.modUnits f).clock = s.clock := rfl
@[simp] theorem State.modUnits_alm (s : State) (f : (Units) → (Units)) : (s.modUnits f).alm = s.alm := rfl
@[simp] theorem State.modUnits_dict (s : State) (f : (Units) → (Units)) : (s.modUnits f).dict = s.dict := rfl
@[simp] theorem State.modUnits_hubs (s : State) (f : (Units) → (Units)) : (s.modUnits f).hubs = s.hubs := rfl
@[simp] theorem State.modUnits_dev (s : State) (f : (Units) → (Units)) : (s.modUnits f).dev = s.dev := rfl
@[simp] theorem State.modUnits_slots (s : State) (f : (Units) → (Units)) : (s.modUnits f).slots = s.slots := rfl
@[simp] theorem State.modUnits_claims (s : State) (f : (Units) → (Units)) : (s.modUnits f).claims = s.claims := rfl
@[simp] theorem State.modUnits_levee (s : State) (f : (Units) → (Units)) : (s.modUnits f).levee = s.levee := rfl
@[simp] theorem State.modUnits_host (s : State) (f : (Units) → (Units)) : (s.modUnits f).host = s.host := rfl
@[simp] theorem State.modUnits_carr (s : State) (f : (Units) → (Units)) : (s.modUnits f).carr = s.carr := rfl
@[simp] theorem State.modUnits_cells (s : State) (f : (Units) → (Units)) : (s.modUnits f).cells = s.cells := rfl
@[simp] theorem State.modUnits_tiles (s : State) (f : (Units) → (Units)) : (s.modUnits f).tiles = s.tiles := rfl
@[simp] theorem State.modUnits_mire (s : State) (f : (Units) → (Units)) : (s.modUnits f).mire = s.mire := rfl
@[simp] theorem State.modUnits_units (s : State) (f : (Units) → (Units)) : (s.modUnits f).units = f s.units := rfl
@[simp] theorem State.modUnits_data (s : State) (f : (Units) → (Units)) : (s.modUnits f).data = s.data := rfl
@[simp] theorem State.modUnits_fab (s : State) (f : (Units) → (Units)) : (s.modUnits f).fab = s.fab := rfl
@[simp] theorem State.modUnits_tele (s : State) (f : (Units) → (Units)) : (s.modUnits f).tele = s.tele := rfl
@[simp] theorem State.modUnits_island (s : State) (f : (Units) → (Units)) : (s.modUnits f).island = s.island := rfl
@[simp] theorem State.modUnits_vigil (s : State) (f : (Units) → (Units)) : (s.modUnits f).vigil = s.vigil := rfl
@[simp] theorem State.modUnits_mem (s : State) (f : (Units) → (Units)) : (s.modUnits f).mem = s.mem := rfl
@[simp] theorem State.modUnits_outs (s : State) (f : (Units) → (Units)) : (s.modUnits f).outs = s.outs := rfl
@[simp] theorem State.modUnits_free (s : State) (f : (Units) → (Units)) : (s.modUnits f).free = s.free := rfl
@[simp] theorem State.modUnits_pending (s : State) (f : (Units) → (Units)) : (s.modUnits f).pending = s.pending := rfl

@[simp] theorem State.modData_clock (s : State) (f : (Data) → (Data)) : (s.modData f).clock = s.clock := rfl
@[simp] theorem State.modData_alm (s : State) (f : (Data) → (Data)) : (s.modData f).alm = s.alm := rfl
@[simp] theorem State.modData_dict (s : State) (f : (Data) → (Data)) : (s.modData f).dict = s.dict := rfl
@[simp] theorem State.modData_hubs (s : State) (f : (Data) → (Data)) : (s.modData f).hubs = s.hubs := rfl
@[simp] theorem State.modData_dev (s : State) (f : (Data) → (Data)) : (s.modData f).dev = s.dev := rfl
@[simp] theorem State.modData_slots (s : State) (f : (Data) → (Data)) : (s.modData f).slots = s.slots := rfl
@[simp] theorem State.modData_claims (s : State) (f : (Data) → (Data)) : (s.modData f).claims = s.claims := rfl
@[simp] theorem State.modData_levee (s : State) (f : (Data) → (Data)) : (s.modData f).levee = s.levee := rfl
@[simp] theorem State.modData_host (s : State) (f : (Data) → (Data)) : (s.modData f).host = s.host := rfl
@[simp] theorem State.modData_carr (s : State) (f : (Data) → (Data)) : (s.modData f).carr = s.carr := rfl
@[simp] theorem State.modData_cells (s : State) (f : (Data) → (Data)) : (s.modData f).cells = s.cells := rfl
@[simp] theorem State.modData_tiles (s : State) (f : (Data) → (Data)) : (s.modData f).tiles = s.tiles := rfl
@[simp] theorem State.modData_mire (s : State) (f : (Data) → (Data)) : (s.modData f).mire = s.mire := rfl
@[simp] theorem State.modData_units (s : State) (f : (Data) → (Data)) : (s.modData f).units = s.units := rfl
@[simp] theorem State.modData_data (s : State) (f : (Data) → (Data)) : (s.modData f).data = f s.data := rfl
@[simp] theorem State.modData_fab (s : State) (f : (Data) → (Data)) : (s.modData f).fab = s.fab := rfl
@[simp] theorem State.modData_tele (s : State) (f : (Data) → (Data)) : (s.modData f).tele = s.tele := rfl
@[simp] theorem State.modData_island (s : State) (f : (Data) → (Data)) : (s.modData f).island = s.island := rfl
@[simp] theorem State.modData_vigil (s : State) (f : (Data) → (Data)) : (s.modData f).vigil = s.vigil := rfl
@[simp] theorem State.modData_mem (s : State) (f : (Data) → (Data)) : (s.modData f).mem = s.mem := rfl
@[simp] theorem State.modData_outs (s : State) (f : (Data) → (Data)) : (s.modData f).outs = s.outs := rfl
@[simp] theorem State.modData_free (s : State) (f : (Data) → (Data)) : (s.modData f).free = s.free := rfl
@[simp] theorem State.modData_pending (s : State) (f : (Data) → (Data)) : (s.modData f).pending = s.pending := rfl

@[simp] theorem State.modFab_clock (s : State) (f : (Fabric) → (Fabric)) : (s.modFab f).clock = s.clock := rfl
@[simp] theorem State.modFab_alm (s : State) (f : (Fabric) → (Fabric)) : (s.modFab f).alm = s.alm := rfl
@[simp] theorem State.modFab_dict (s : State) (f : (Fabric) → (Fabric)) : (s.modFab f).dict = s.dict := rfl
@[simp] theorem State.modFab_hubs (s : State) (f : (Fabric) → (Fabric)) : (s.modFab f).hubs = s.hubs := rfl
@[simp] theorem State.modFab_dev (s : State) (f : (Fabric) → (Fabric)) : (s.modFab f).dev = s.dev := rfl
@[simp] theorem State.modFab_slots (s : State) (f : (Fabric) → (Fabric)) : (s.modFab f).slots = s.slots := rfl
@[simp] theorem State.modFab_claims (s : State) (f : (Fabric) → (Fabric)) : (s.modFab f).claims = s.claims := rfl
@[simp] theorem State.modFab_levee (s : State) (f : (Fabric) → (Fabric)) : (s.modFab f).levee = s.levee := rfl
@[simp] theorem State.modFab_host (s : State) (f : (Fabric) → (Fabric)) : (s.modFab f).host = s.host := rfl
@[simp] theorem State.modFab_carr (s : State) (f : (Fabric) → (Fabric)) : (s.modFab f).carr = s.carr := rfl
@[simp] theorem State.modFab_cells (s : State) (f : (Fabric) → (Fabric)) : (s.modFab f).cells = s.cells := rfl
@[simp] theorem State.modFab_tiles (s : State) (f : (Fabric) → (Fabric)) : (s.modFab f).tiles = s.tiles := rfl
@[simp] theorem State.modFab_mire (s : State) (f : (Fabric) → (Fabric)) : (s.modFab f).mire = s.mire := rfl
@[simp] theorem State.modFab_units (s : State) (f : (Fabric) → (Fabric)) : (s.modFab f).units = s.units := rfl
@[simp] theorem State.modFab_data (s : State) (f : (Fabric) → (Fabric)) : (s.modFab f).data = s.data := rfl
@[simp] theorem State.modFab_fab (s : State) (f : (Fabric) → (Fabric)) : (s.modFab f).fab = f s.fab := rfl
@[simp] theorem State.modFab_tele (s : State) (f : (Fabric) → (Fabric)) : (s.modFab f).tele = s.tele := rfl
@[simp] theorem State.modFab_island (s : State) (f : (Fabric) → (Fabric)) : (s.modFab f).island = s.island := rfl
@[simp] theorem State.modFab_vigil (s : State) (f : (Fabric) → (Fabric)) : (s.modFab f).vigil = s.vigil := rfl
@[simp] theorem State.modFab_mem (s : State) (f : (Fabric) → (Fabric)) : (s.modFab f).mem = s.mem := rfl
@[simp] theorem State.modFab_outs (s : State) (f : (Fabric) → (Fabric)) : (s.modFab f).outs = s.outs := rfl
@[simp] theorem State.modFab_free (s : State) (f : (Fabric) → (Fabric)) : (s.modFab f).free = s.free := rfl
@[simp] theorem State.modFab_pending (s : State) (f : (Fabric) → (Fabric)) : (s.modFab f).pending = s.pending := rfl

@[simp] theorem State.modTele_clock (s : State) (f : (Tele) → (Tele)) : (s.modTele f).clock = s.clock := rfl
@[simp] theorem State.modTele_alm (s : State) (f : (Tele) → (Tele)) : (s.modTele f).alm = s.alm := rfl
@[simp] theorem State.modTele_dict (s : State) (f : (Tele) → (Tele)) : (s.modTele f).dict = s.dict := rfl
@[simp] theorem State.modTele_hubs (s : State) (f : (Tele) → (Tele)) : (s.modTele f).hubs = s.hubs := rfl
@[simp] theorem State.modTele_dev (s : State) (f : (Tele) → (Tele)) : (s.modTele f).dev = s.dev := rfl
@[simp] theorem State.modTele_slots (s : State) (f : (Tele) → (Tele)) : (s.modTele f).slots = s.slots := rfl
@[simp] theorem State.modTele_claims (s : State) (f : (Tele) → (Tele)) : (s.modTele f).claims = s.claims := rfl
@[simp] theorem State.modTele_levee (s : State) (f : (Tele) → (Tele)) : (s.modTele f).levee = s.levee := rfl
@[simp] theorem State.modTele_host (s : State) (f : (Tele) → (Tele)) : (s.modTele f).host = s.host := rfl
@[simp] theorem State.modTele_carr (s : State) (f : (Tele) → (Tele)) : (s.modTele f).carr = s.carr := rfl
@[simp] theorem State.modTele_cells (s : State) (f : (Tele) → (Tele)) : (s.modTele f).cells = s.cells := rfl
@[simp] theorem State.modTele_tiles (s : State) (f : (Tele) → (Tele)) : (s.modTele f).tiles = s.tiles := rfl
@[simp] theorem State.modTele_mire (s : State) (f : (Tele) → (Tele)) : (s.modTele f).mire = s.mire := rfl
@[simp] theorem State.modTele_units (s : State) (f : (Tele) → (Tele)) : (s.modTele f).units = s.units := rfl
@[simp] theorem State.modTele_data (s : State) (f : (Tele) → (Tele)) : (s.modTele f).data = s.data := rfl
@[simp] theorem State.modTele_fab (s : State) (f : (Tele) → (Tele)) : (s.modTele f).fab = s.fab := rfl
@[simp] theorem State.modTele_tele (s : State) (f : (Tele) → (Tele)) : (s.modTele f).tele = f s.tele := rfl
@[simp] theorem State.modTele_island (s : State) (f : (Tele) → (Tele)) : (s.modTele f).island = s.island := rfl
@[simp] theorem State.modTele_vigil (s : State) (f : (Tele) → (Tele)) : (s.modTele f).vigil = s.vigil := rfl
@[simp] theorem State.modTele_mem (s : State) (f : (Tele) → (Tele)) : (s.modTele f).mem = s.mem := rfl
@[simp] theorem State.modTele_outs (s : State) (f : (Tele) → (Tele)) : (s.modTele f).outs = s.outs := rfl
@[simp] theorem State.modTele_free (s : State) (f : (Tele) → (Tele)) : (s.modTele f).free = s.free := rfl
@[simp] theorem State.modTele_pending (s : State) (f : (Tele) → (Tele)) : (s.modTele f).pending = s.pending := rfl

@[simp] theorem State.modIsland_clock (s : State) (f : (Island) → (Island)) : (s.modIsland f).clock = s.clock := rfl
@[simp] theorem State.modIsland_alm (s : State) (f : (Island) → (Island)) : (s.modIsland f).alm = s.alm := rfl
@[simp] theorem State.modIsland_dict (s : State) (f : (Island) → (Island)) : (s.modIsland f).dict = s.dict := rfl
@[simp] theorem State.modIsland_hubs (s : State) (f : (Island) → (Island)) : (s.modIsland f).hubs = s.hubs := rfl
@[simp] theorem State.modIsland_dev (s : State) (f : (Island) → (Island)) : (s.modIsland f).dev = s.dev := rfl
@[simp] theorem State.modIsland_slots (s : State) (f : (Island) → (Island)) : (s.modIsland f).slots = s.slots := rfl
@[simp] theorem State.modIsland_claims (s : State) (f : (Island) → (Island)) : (s.modIsland f).claims = s.claims := rfl
@[simp] theorem State.modIsland_levee (s : State) (f : (Island) → (Island)) : (s.modIsland f).levee = s.levee := rfl
@[simp] theorem State.modIsland_host (s : State) (f : (Island) → (Island)) : (s.modIsland f).host = s.host := rfl
@[simp] theorem State.modIsland_carr (s : State) (f : (Island) → (Island)) : (s.modIsland f).carr = s.carr := rfl
@[simp] theorem State.modIsland_cells (s : State) (f : (Island) → (Island)) : (s.modIsland f).cells = s.cells := rfl
@[simp] theorem State.modIsland_tiles (s : State) (f : (Island) → (Island)) : (s.modIsland f).tiles = s.tiles := rfl
@[simp] theorem State.modIsland_mire (s : State) (f : (Island) → (Island)) : (s.modIsland f).mire = s.mire := rfl
@[simp] theorem State.modIsland_units (s : State) (f : (Island) → (Island)) : (s.modIsland f).units = s.units := rfl
@[simp] theorem State.modIsland_data (s : State) (f : (Island) → (Island)) : (s.modIsland f).data = s.data := rfl
@[simp] theorem State.modIsland_fab (s : State) (f : (Island) → (Island)) : (s.modIsland f).fab = s.fab := rfl
@[simp] theorem State.modIsland_tele (s : State) (f : (Island) → (Island)) : (s.modIsland f).tele = s.tele := rfl
@[simp] theorem State.modIsland_island (s : State) (f : (Island) → (Island)) : (s.modIsland f).island = f s.island := rfl
@[simp] theorem State.modIsland_vigil (s : State) (f : (Island) → (Island)) : (s.modIsland f).vigil = s.vigil := rfl
@[simp] theorem State.modIsland_mem (s : State) (f : (Island) → (Island)) : (s.modIsland f).mem = s.mem := rfl
@[simp] theorem State.modIsland_outs (s : State) (f : (Island) → (Island)) : (s.modIsland f).outs = s.outs := rfl
@[simp] theorem State.modIsland_free (s : State) (f : (Island) → (Island)) : (s.modIsland f).free = s.free := rfl
@[simp] theorem State.modIsland_pending (s : State) (f : (Island) → (Island)) : (s.modIsland f).pending = s.pending := rfl

@[simp] theorem State.modVigil_clock (s : State) (f : (Vigil) → (Vigil)) : (s.modVigil f).clock = s.clock := rfl
@[simp] theorem State.modVigil_alm (s : State) (f : (Vigil) → (Vigil)) : (s.modVigil f).alm = s.alm := rfl
@[simp] theorem State.modVigil_dict (s : State) (f : (Vigil) → (Vigil)) : (s.modVigil f).dict = s.dict := rfl
@[simp] theorem State.modVigil_hubs (s : State) (f : (Vigil) → (Vigil)) : (s.modVigil f).hubs = s.hubs := rfl
@[simp] theorem State.modVigil_dev (s : State) (f : (Vigil) → (Vigil)) : (s.modVigil f).dev = s.dev := rfl
@[simp] theorem State.modVigil_slots (s : State) (f : (Vigil) → (Vigil)) : (s.modVigil f).slots = s.slots := rfl
@[simp] theorem State.modVigil_claims (s : State) (f : (Vigil) → (Vigil)) : (s.modVigil f).claims = s.claims := rfl
@[simp] theorem State.modVigil_levee (s : State) (f : (Vigil) → (Vigil)) : (s.modVigil f).levee = s.levee := rfl
@[simp] theorem State.modVigil_host (s : State) (f : (Vigil) → (Vigil)) : (s.modVigil f).host = s.host := rfl
@[simp] theorem State.modVigil_carr (s : State) (f : (Vigil) → (Vigil)) : (s.modVigil f).carr = s.carr := rfl
@[simp] theorem State.modVigil_cells (s : State) (f : (Vigil) → (Vigil)) : (s.modVigil f).cells = s.cells := rfl
@[simp] theorem State.modVigil_tiles (s : State) (f : (Vigil) → (Vigil)) : (s.modVigil f).tiles = s.tiles := rfl
@[simp] theorem State.modVigil_mire (s : State) (f : (Vigil) → (Vigil)) : (s.modVigil f).mire = s.mire := rfl
@[simp] theorem State.modVigil_units (s : State) (f : (Vigil) → (Vigil)) : (s.modVigil f).units = s.units := rfl
@[simp] theorem State.modVigil_data (s : State) (f : (Vigil) → (Vigil)) : (s.modVigil f).data = s.data := rfl
@[simp] theorem State.modVigil_fab (s : State) (f : (Vigil) → (Vigil)) : (s.modVigil f).fab = s.fab := rfl
@[simp] theorem State.modVigil_tele (s : State) (f : (Vigil) → (Vigil)) : (s.modVigil f).tele = s.tele := rfl
@[simp] theorem State.modVigil_island (s : State) (f : (Vigil) → (Vigil)) : (s.modVigil f).island = s.island := rfl
@[simp] theorem State.modVigil_vigil (s : State) (f : (Vigil) → (Vigil)) : (s.modVigil f).vigil = f s.vigil := rfl
@[simp] theorem State.modVigil_mem (s : State) (f : (Vigil) → (Vigil)) : (s.modVigil f).mem = s.mem := rfl
@[simp] theorem State.modVigil_outs (s : State) (f : (Vigil) → (Vigil)) : (s.modVigil f).outs = s.outs := rfl
@[simp] theorem State.modVigil_free (s : State) (f : (Vigil) → (Vigil)) : (s.modVigil f).free = s.free := rfl
@[simp] theorem State.modVigil_pending (s : State) (f : (Vigil) → (Vigil)) : (s.modVigil f).pending = s.pending := rfl

@[simp] theorem State.modMem_clock (s : State) (f : (Mems) → (Mems)) : (s.modMem f).clock = s.clock := rfl
@[simp] theorem State.modMem_alm (s : State) (f : (Mems) → (Mems)) : (s.modMem f).alm = s.alm := rfl
@[simp] theorem State.modMem_dict (s : State) (f : (Mems) → (Mems)) : (s.modMem f).dict = s.dict := rfl
@[simp] theorem State.modMem_hubs (s : State) (f : (Mems) → (Mems)) : (s.modMem f).hubs = s.hubs := rfl
@[simp] theorem State.modMem_dev (s : State) (f : (Mems) → (Mems)) : (s.modMem f).dev = s.dev := rfl
@[simp] theorem State.modMem_slots (s : State) (f : (Mems) → (Mems)) : (s.modMem f).slots = s.slots := rfl
@[simp] theorem State.modMem_claims (s : State) (f : (Mems) → (Mems)) : (s.modMem f).claims = s.claims := rfl
@[simp] theorem State.modMem_levee (s : State) (f : (Mems) → (Mems)) : (s.modMem f).levee = s.levee := rfl
@[simp] theorem State.modMem_host (s : State) (f : (Mems) → (Mems)) : (s.modMem f).host = s.host := rfl
@[simp] theorem State.modMem_carr (s : State) (f : (Mems) → (Mems)) : (s.modMem f).carr = s.carr := rfl
@[simp] theorem State.modMem_cells (s : State) (f : (Mems) → (Mems)) : (s.modMem f).cells = s.cells := rfl
@[simp] theorem State.modMem_tiles (s : State) (f : (Mems) → (Mems)) : (s.modMem f).tiles = s.tiles := rfl
@[simp] theorem State.modMem_mire (s : State) (f : (Mems) → (Mems)) : (s.modMem f).mire = s.mire := rfl
@[simp] theorem State.modMem_units (s : State) (f : (Mems) → (Mems)) : (s.modMem f).units = s.units := rfl
@[simp] theorem State.modMem_data (s : State) (f : (Mems) → (Mems)) : (s.modMem f).data = s.data := rfl
@[simp] theorem State.modMem_fab (s : State) (f : (Mems) → (Mems)) : (s.modMem f).fab = s.fab := rfl
@[simp] theorem State.modMem_tele (s : State) (f : (Mems) → (Mems)) : (s.modMem f).tele = s.tele := rfl
@[simp] theorem State.modMem_island (s : State) (f : (Mems) → (Mems)) : (s.modMem f).island = s.island := rfl
@[simp] theorem State.modMem_vigil (s : State) (f : (Mems) → (Mems)) : (s.modMem f).vigil = s.vigil := rfl
@[simp] theorem State.modMem_mem (s : State) (f : (Mems) → (Mems)) : (s.modMem f).mem = f s.mem := rfl
@[simp] theorem State.modMem_outs (s : State) (f : (Mems) → (Mems)) : (s.modMem f).outs = s.outs := rfl
@[simp] theorem State.modMem_free (s : State) (f : (Mems) → (Mems)) : (s.modMem f).free = s.free := rfl
@[simp] theorem State.modMem_pending (s : State) (f : (Mems) → (Mems)) : (s.modMem f).pending = s.pending := rfl

@[simp] theorem State.modOuts_clock (s : State) (f : (List Out) → (List Out)) : (s.modOuts f).clock = s.clock := rfl
@[simp] theorem State.modOuts_alm (s : State) (f : (List Out) → (List Out)) : (s.modOuts f).alm = s.alm := rfl
@[simp] theorem State.modOuts_dict (s : State) (f : (List Out) → (List Out)) : (s.modOuts f).dict = s.dict := rfl
@[simp] theorem State.modOuts_hubs (s : State) (f : (List Out) → (List Out)) : (s.modOuts f).hubs = s.hubs := rfl
@[simp] theorem State.modOuts_dev (s : State) (f : (List Out) → (List Out)) : (s.modOuts f).dev = s.dev := rfl
@[simp] theorem State.modOuts_slots (s : State) (f : (List Out) → (List Out)) : (s.modOuts f).slots = s.slots := rfl
@[simp] theorem State.modOuts_claims (s : State) (f : (List Out) → (List Out)) : (s.modOuts f).claims = s.claims := rfl
@[simp] theorem State.modOuts_levee (s : State) (f : (List Out) → (List Out)) : (s.modOuts f).levee = s.levee := rfl
@[simp] theorem State.modOuts_host (s : State) (f : (List Out) → (List Out)) : (s.modOuts f).host = s.host := rfl
@[simp] theorem State.modOuts_carr (s : State) (f : (List Out) → (List Out)) : (s.modOuts f).carr = s.carr := rfl
@[simp] theorem State.modOuts_cells (s : State) (f : (List Out) → (List Out)) : (s.modOuts f).cells = s.cells := rfl
@[simp] theorem State.modOuts_tiles (s : State) (f : (List Out) → (List Out)) : (s.modOuts f).tiles = s.tiles := rfl
@[simp] theorem State.modOuts_mire (s : State) (f : (List Out) → (List Out)) : (s.modOuts f).mire = s.mire := rfl
@[simp] theorem State.modOuts_units (s : State) (f : (List Out) → (List Out)) : (s.modOuts f).units = s.units := rfl
@[simp] theorem State.modOuts_data (s : State) (f : (List Out) → (List Out)) : (s.modOuts f).data = s.data := rfl
@[simp] theorem State.modOuts_fab (s : State) (f : (List Out) → (List Out)) : (s.modOuts f).fab = s.fab := rfl
@[simp] theorem State.modOuts_tele (s : State) (f : (List Out) → (List Out)) : (s.modOuts f).tele = s.tele := rfl
@[simp] theorem State.modOuts_island (s : State) (f : (List Out) → (List Out)) : (s.modOuts f).island = s.island := rfl
@[simp] theorem State.modOuts_vigil (s : State) (f : (List Out) → (List Out)) : (s.modOuts f).vigil = s.vigil := rfl
@[simp] theorem State.modOuts_mem (s : State) (f : (List Out) → (List Out)) : (s.modOuts f).mem = s.mem := rfl
@[simp] theorem State.modOuts_outs (s : State) (f : (List Out) → (List Out)) : (s.modOuts f).outs = f s.outs := rfl
@[simp] theorem State.modOuts_free (s : State) (f : (List Out) → (List Out)) : (s.modOuts f).free = s.free := rfl
@[simp] theorem State.modOuts_pending (s : State) (f : (List Out) → (List Out)) : (s.modOuts f).pending = s.pending := rfl

@[simp] theorem State.modFree_clock (s : State) (f : (Nat) → (Nat)) : (s.modFree f).clock = s.clock := rfl
@[simp] theorem State.modFree_alm (s : State) (f : (Nat) → (Nat)) : (s.modFree f).alm = s.alm := rfl
@[simp] theorem State.modFree_dict (s : State) (f : (Nat) → (Nat)) : (s.modFree f).dict = s.dict := rfl
@[simp] theorem State.modFree_hubs (s : State) (f : (Nat) → (Nat)) : (s.modFree f).hubs = s.hubs := rfl
@[simp] theorem State.modFree_dev (s : State) (f : (Nat) → (Nat)) : (s.modFree f).dev = s.dev := rfl
@[simp] theorem State.modFree_slots (s : State) (f : (Nat) → (Nat)) : (s.modFree f).slots = s.slots := rfl
@[simp] theorem State.modFree_claims (s : State) (f : (Nat) → (Nat)) : (s.modFree f).claims = s.claims := rfl
@[simp] theorem State.modFree_levee (s : State) (f : (Nat) → (Nat)) : (s.modFree f).levee = s.levee := rfl
@[simp] theorem State.modFree_host (s : State) (f : (Nat) → (Nat)) : (s.modFree f).host = s.host := rfl
@[simp] theorem State.modFree_carr (s : State) (f : (Nat) → (Nat)) : (s.modFree f).carr = s.carr := rfl
@[simp] theorem State.modFree_cells (s : State) (f : (Nat) → (Nat)) : (s.modFree f).cells = s.cells := rfl
@[simp] theorem State.modFree_tiles (s : State) (f : (Nat) → (Nat)) : (s.modFree f).tiles = s.tiles := rfl
@[simp] theorem State.modFree_mire (s : State) (f : (Nat) → (Nat)) : (s.modFree f).mire = s.mire := rfl
@[simp] theorem State.modFree_units (s : State) (f : (Nat) → (Nat)) : (s.modFree f).units = s.units := rfl
@[simp] theorem State.modFree_data (s : State) (f : (Nat) → (Nat)) : (s.modFree f).data = s.data := rfl
@[simp] theorem State.modFree_fab (s : State) (f : (Nat) → (Nat)) : (s.modFree f).fab = s.fab := rfl
@[simp] theorem State.modFree_tele (s : State) (f : (Nat) → (Nat)) : (s.modFree f).tele = s.tele := rfl
@[simp] theorem State.modFree_island (s : State) (f : (Nat) → (Nat)) : (s.modFree f).island = s.island := rfl
@[simp] theorem State.modFree_vigil (s : State) (f : (Nat) → (Nat)) : (s.modFree f).vigil = s.vigil := rfl
@[simp] theorem State.modFree_mem (s : State) (f : (Nat) → (Nat)) : (s.modFree f).mem = s.mem := rfl
@[simp] theorem State.modFree_outs (s : State) (f : (Nat) → (Nat)) : (s.modFree f).outs = s.outs := rfl
@[simp] theorem State.modFree_free (s : State) (f : (Nat) → (Nat)) : (s.modFree f).free = f s.free := rfl
@[simp] theorem State.modFree_pending (s : State) (f : (Nat) → (Nat)) : (s.modFree f).pending = s.pending := rfl

end Sys2Proof.Machine
end

