-- ==== Sys2Proof/Laws/Carr.lean ====
section
/-! SUPPORT. The laws of the register sets of the Carr cores: what a change of one core leaves, and what an instruction that issues does. -/

namespace Sys2Proof.Machine

open Sys2Proof

/-- A core that has been changed. -/
@[simp] theorem coreAt_modCore (pc mode : Nat) (f : Core → Core) (s : State) :
    coreAt (modCore pc mode f s) pc mode = f (coreAt s pc mode) := by simp [coreAt, modCore]

/-- Every other core is left. -/
theorem coreAt_modCore_other {pc mode pc' mode' : Nat} (f : Core → Core) (s : State) (h : 2 * pc' + mode' ≠ 2 * pc + mode) :
    coreAt (modCore pc mode f s) pc' mode' = coreAt s pc' mode' := by
  simp [coreAt, modCore, KMap.getD_upd_other _ _ _ _ h]

/-- Two changes of one core are one. -/
@[simp] theorem modCore_modCore (pc mode : Nat) (f g : Core → Core) (s : State) :
    modCore pc mode g (modCore pc mode f s) = modCore pc mode (fun k => g (f k)) s := by simp [modCore, State.modCarr]

/-- A change of a core is the core it gives. -/
theorem modCore_eq (pc mode : Nat) (f : Core → Core) (s : State) :
    modCore pc mode f s = modCore pc mode (fun _ => f (coreAt s pc mode)) s := by simp [modCore, State.modCarr, KMap.upd, coreAt]

/-- A write of a general register is a change of its core. -/
theorem setG_eq (pc mode d : Nat) (v : W32) (bad : Bool) (s : State) :
    setG pc mode d v bad s = modCore pc mode (fun k =>
      if d % 16 = 0 then k else { k with g := setAt k.g (d % 16) v, gp := setAt k.gp (d % 16) bad }) s := rfl

/-- An instruction of a core that may issue, with its program counter inside its program, does what its meaning gives. -/
theorem carrIssue_of {pc mode : Nat} {f : Core → Issue} {s : State} (h : coreIssues s pc mode = true)
    (hp : (coreAt s pc mode).pc < coreLength s pc mode) :
    carrIssue pc mode f s = match f (coreAt s pc mode) with
      | .wait => s
      | .exc c => raiseExc pc mode c s
      | .go t => modCore pc mode (fun k => { k with pc := k.pc + 1 }) t
      | .jump n t => if n < coreLength s pc mode then modCore pc mode (fun k => { k with pc := n }) t else raiseExc pc mode 2 s
      | .ended t => t := by
  unfold carrIssue
  rw [if_pos h]
  simp only [if_neg (show ¬ coreLength s pc mode ≤ (coreAt s pc mode).pc by omega)] <;> rfl

end Sys2Proof.Machine
end

