-- ==== Sys2Proof/Laws/Keeps.lean ====
section
/-! SUPPORT. What every command keeps: the rules by which it follows for one operation from the operations it is made of. -/

namespace Sys2Proof.Machine

open Sys2Proof

theorem Keeps.refl (s : State) : Keeps s s := ⟨rfl, id, List.suffix_refl _, Nat.le_refl _⟩

theorem Keeps.trans {s t u : State} (h : Keeps s t) (g : Keeps t u) : Keeps s u :=
  ⟨g.pending.trans h.pending, g.canonical ∘ h.canonical, h.outs.trans g.outs, Nat.le_trans h.free g.free⟩

/-- An update of a group that holds neither the queue, the memories, the outputs nor the free values. -/
theorem Keeps.same {s₀ s t : State} (h : Keeps s₀ s) (hp : t.pending = s.pending) (hm : t.mem = s.mem) (ho : t.outs = s.outs)
    (hf : t.free = s.free) : Keeps s₀ t :=
  ⟨hp.trans h.pending, fun c => by simp only [State.canonical, hm]; exact h.canonical c, ho ▸ h.outs, hf ▸ h.free⟩

section
variable {s₀ s : State}

theorem modClock_keeps {f : (Clock) → (Clock)} (h : Keeps s₀ s) : Keeps s₀ (s.modClock f) := h.same rfl rfl rfl rfl

theorem modAlm_keeps {f : (Almanac) → (Almanac)} (h : Keeps s₀ s) : Keeps s₀ (s.modAlm f) := h.same rfl rfl rfl rfl

theorem modDict_keeps {f : (Dict) → (Dict)} (h : Keeps s₀ s) : Keeps s₀ (s.modDict f) := h.same rfl rfl rfl rfl

theorem modHubs_keeps {f : (Hubs) → (Hubs)} (h : Keeps s₀ s) : Keeps s₀ (s.modHubs f) := h.same rfl rfl rfl rfl

theorem modDev_keeps {f : (Device) → (Device)} (h : Keeps s₀ s) : Keeps s₀ (s.modDev f) := h.same rfl rfl rfl rfl

theorem modSlots_keeps {f : (KMap Slot) → (KMap Slot)} (h : Keeps s₀ s) : Keeps s₀ (s.modSlots f) := h.same rfl rfl rfl rfl

theorem modClaims_keeps {f : (Claims) → (Claims)} (h : Keeps s₀ s) : Keeps s₀ (s.modClaims f) := h.same rfl rfl rfl rfl

theorem modLevee_keeps {f : (Levee) → (Levee)} (h : Keeps s₀ s) : Keeps s₀ (s.modLevee f) := h.same rfl rfl rfl rfl

theorem modHost_keeps {f : (HostPorts) → (HostPorts)} (h : Keeps s₀ s) : Keeps s₀ (s.modHost f) := h.same rfl rfl rfl rfl

theorem modCarr_keeps {f : (Carr) → (Carr)} (h : Keeps s₀ s) : Keeps s₀ (s.modCarr f) := h.same rfl rfl rfl rfl

theorem modCells_keeps {f : (Cells) → (Cells)} (h : Keeps s₀ s) : Keeps s₀ (s.modCells f) := h.same rfl rfl rfl rfl

theorem modTiles_keeps {f : (TileClocks) → (TileClocks)} (h : Keeps s₀ s) : Keeps s₀ (s.modTiles f) := h.same rfl rfl rfl rfl

theorem modMire_keeps {f : (Mire) → (Mire)} (h : Keeps s₀ s) : Keeps s₀ (s.modMire f) := h.same rfl rfl rfl rfl

theorem modUnits_keeps {f : (Units) → (Units)} (h : Keeps s₀ s) : Keeps s₀ (s.modUnits f) := h.same rfl rfl rfl rfl

theorem modData_keeps {f : (Data) → (Data)} (h : Keeps s₀ s) : Keeps s₀ (s.modData f) := h.same rfl rfl rfl rfl

theorem modFab_keeps {f : (Fabric) → (Fabric)} (h : Keeps s₀ s) : Keeps s₀ (s.modFab f) := h.same rfl rfl rfl rfl

theorem modTele_keeps {f : (Tele) → (Tele)} (h : Keeps s₀ s) : Keeps s₀ (s.modTele f) := h.same rfl rfl rfl rfl

theorem modIsland_keeps {f : (Island) → (Island)} (h : Keeps s₀ s) : Keeps s₀ (s.modIsland f) := h.same rfl rfl rfl rfl

theorem modVigil_keeps {f : (Vigil) → (Vigil)} (h : Keeps s₀ s) : Keeps s₀ (s.modVigil f) := h.same rfl rfl rfl rfl
theorem modMem_keeps {f : Mems → Mems} (hf : ∀ m, Mems.wf m = true → Mems.wf (f m) = true) (h : Keeps s₀ s) :
    Keeps s₀ (s.modMem f) := ⟨h.pending, fun c => hf _ (h.canonical c), h.outs, h.free⟩

theorem modFree_keeps {f : Nat → Nat} (hf : ∀ n, n ≤ f n) (h : Keeps s₀ s) : Keeps s₀ (s.modFree f) :=
  ⟨h.pending, h.canonical, h.outs, Nat.le_trans h.free (hf _)⟩

/-- An operation that may give no state. -/
def KeepsO (s₀ : State) (o : Option State) : Prop := ∀ t, o = some t → Keeps s₀ t

/-- An operation that may give no value and state. -/
def KeepsOP {α : Type} (s₀ : State) (o : Option (α × State)) : Prop := ∀ x, o = some x → Keeps s₀ x.2

/-- An operation that may give no values and state. -/
def KeepsOQ {α β : Type} (s₀ : State) (o : Option (α × β × State)) : Prop := ∀ x, o = some x → Keeps s₀ x.2.2

theorem KeepsO.get {o : Option State} {t : State} (h : KeepsO s₀ o) (e : o = some t) : Keeps s₀ t := h t e

theorem KeepsOP.get {α : Type} {o : Option (α × State)} {a : α} {t : State} (h : KeepsOP s₀ o) (e : o = some (a, t)) : Keeps s₀ t :=
  h _ e

theorem KeepsOQ.get {α β : Type} {o : Option (α × β × State)} {a : α} {b : β} {t : State} (h : KeepsOQ s₀ o)
    (e : o = some (a, b, t)) : Keeps s₀ t := h _ e

theorem keeps_of_pair {α : Type} {p : α × State} {a : α} {t : State} (h : Keeps s₀ p.2) (e : p = (a, t)) : Keeps s₀ t := by
  subst e; exact h

theorem keeps_of_triple {α β : Type} {p : α × β × State} {a : α} {b : β} {t : State} (h : Keeps s₀ p.2.2) (e : p = (a, b, t)) :
    Keeps s₀ t := by
  subst e; exact h

theorem keeps_noneO : KeepsO s₀ none := fun _ h => nomatch h

theorem keeps_noneOP {α : Type} : KeepsOP (α := α) s₀ none := fun _ h => nomatch h

theorem keeps_noneOQ {α β : Type} : KeepsOQ (α := α) (β := β) s₀ none := fun _ h => nomatch h

theorem keeps_someO (h : Keeps s₀ s) : KeepsO s₀ (some s) := fun _ e => Option.some.inj e ▸ h

theorem keeps_someOP {α : Type} {x : α × State} (h : Keeps s₀ x.2) : KeepsOP s₀ (some x) := fun _ e => Option.some.inj e ▸ h

theorem keeps_someOQ {α β : Type} {x : α × β × State} (h : Keeps s₀ x.2.2) : KeepsOQ s₀ (some x) := fun _ e => Option.some.inj e ▸ h

/-- A state named in the course of an operation. -/
theorem keeps_cut {G : Prop} {t : State} (ha : Keeps s₀ t) (h : Keeps s₀ t → G) : G := h ha

/-- A state named together with a value. -/
theorem keeps_cut2 {G : Prop} {α : Type} {t : α × State} (ha : Keeps s₀ t.2) (h : Keeps s₀ t.2 → G) : G := h ha

/-- A state named together with two values. -/
theorem keeps_cut3 {G : Prop} {α β : Type} {t : α × β × State} (ha : Keeps s₀ t.2.2) (h : Keeps s₀ t.2.2 → G) : G := h ha

/-- A state that there may be. -/
theorem keeps_cutO {G : Prop} {t : Option State} (ha : KeepsO s₀ t) (h : KeepsO s₀ t → G) : G := h ha

/-- An operation named in the course of another. -/
theorem keeps_cutF {G : Prop} {t : State → State} (ha : ∀ y, Keeps s₀ y → Keeps s₀ (t y)) (h : (∀ y, Keeps s₀ y → Keeps s₀ (t y)) → G) :
    G := h ha

/-- An operation with an operand, named in the course of another. -/
theorem keeps_cutG {G : Prop} {α : Type} {t : α → State → State} (ha : ∀ a y, Keeps s₀ y → Keeps s₀ (t a y))
    (h : (∀ a y, Keeps s₀ y → Keeps s₀ (t a y)) → G) : G := h ha

/-- An operation with two operands, named in the course of another. -/
theorem keeps_cutH {G : Prop} {α β : Type} {t : α → β → State → State} (ha : ∀ a b y, Keeps s₀ y → Keeps s₀ (t a b y))
    (h : (∀ a b y, Keeps s₀ y → Keeps s₀ (t a b y)) → G) : G := h ha

theorem keeps_ite {p : Prop} [Decidable p] {a b : State} (ha : Keeps s₀ (a)) (hb : Keeps s₀ (b)) :
    Keeps s₀ (if p then a else b) := by
  split <;> assumption

theorem keeps_ite2 {γ : Type} {p : Prop} [Decidable p] {a b : γ × State} (ha : Keeps s₀ (a).2) (hb : Keeps s₀ (b).2) :
    Keeps s₀ (if p then a else b).2 := by
  split <;> assumption

theorem keeps_ite3 {γ δ : Type} {p : Prop} [Decidable p] {a b : γ × δ × State} (ha : Keeps s₀ (a).2.2) (hb : Keeps s₀ (b).2.2) :
    Keeps s₀ (if p then a else b).2.2 := by
  split <;> assumption

theorem keeps_iteO {p : Prop} [Decidable p] {a b : Option State} (ha : KeepsO s₀ (a)) (hb : KeepsO s₀ (b)) :
    KeepsO s₀ (if p then a else b) := by
  split <;> assumption

theorem keeps_iteOP {γ : Type} {p : Prop} [Decidable p] {a b : Option (γ × State)} (ha : KeepsOP s₀ (a)) (hb : KeepsOP s₀ (b)) :
    KeepsOP s₀ (if p then a else b) := by
  split <;> assumption

theorem keeps_iteOQ {γ δ : Type} {p : Prop} [Decidable p] {a b : Option (γ × δ × State)} (ha : KeepsOQ s₀ (a)) (hb : KeepsOQ s₀ (b)) :
    KeepsOQ s₀ (if p then a else b) := by
  split <;> assumption

theorem keeps_mapO {α : Type} {f : α → State} {o : Option α} (h : ∀ q, Keeps s₀ (f q)) : KeepsO s₀ (o.map f) := by
  intro t e
  cases o with
  | none => cases e
  | some q => exact Option.some.inj e ▸ h q

theorem keeps_mapOP {α β : Type} {f : α × State → β × State} {o : Option (α × State)} (hf : ∀ x, Keeps s₀ x.2 → Keeps s₀ (f x).2)
    (h : KeepsOP s₀ o) : KeepsOP s₀ (o.map f) := by
  intro x e
  cases o with
  | none => cases e
  | some y => exact Option.some.inj e ▸ hf y (h y rfl)

theorem keeps_bindOP {α β : Type} {f : α → Option (β × State)} {o : Option α} (hf : ∀ x, KeepsOP s₀ (f x)) : KeepsOP s₀ (o.bind f) := by
  intro x e
  cases o with
  | none => cases e
  | some y => exact hf y x e

theorem keeps_getD {o : Option State} {d : State} (ho : KeepsO s₀ o) (hd : Keeps s₀ d) : Keeps s₀ (o.getD d) := by
  cases o with
  | none => exact hd
  | some t => exact ho t rfl

theorem foldl_keeps {α : Type} {f : State → α → State} {l : List α} (hf : ∀ s a, Keeps s₀ s → Keeps s₀ (f s a)) (h : Keeps s₀ s) :
    Keeps s₀ (l.foldl f s) := by
  induction l generalizing s with
  | nil => exact h
  | cons a r ih => exact ih (hf _ _ h)

theorem foldl_pair_keeps {α β : Type} {f : β × State → α → β × State} {l : List α} {b : β × State}
    (hf : ∀ x a, Keeps s₀ x.2 → Keeps s₀ (f x a).2) (h : Keeps s₀ b.2) : Keeps s₀ (l.foldl f b).2 := by
  induction l generalizing b with
  | nil => exact h
  | cons a r ih => exact ih (hf _ _ h)

theorem foldl_fst_keeps {α β : Type} {f : State × β → α → State × β} {l : List α} {b : State × β}
    (hf : ∀ x a, Keeps s₀ x.1 → Keeps s₀ (f x a).1) (h : Keeps s₀ b.1) : Keeps s₀ (l.foldl f b).1 := by
  induction l generalizing b with
  | nil => exact h
  | cons a r ih => exact ih (hf _ _ h)

end

end Sys2Proof.Machine
end

