-- ==== Sys2Proof/Laws/KeepsOps.lean ====
section
/-! SUPPORT. What the operations of Machine/Ops.lean keep. -/

namespace Sys2Proof.Machine

open Sys2Proof

theorem setRw_keeps {s₀ s : State} {idx sub v : Nat} (hk : Keeps s₀ s) :
    Keeps s₀ (setRw idx sub v s) := by
  unfold setRw
  repeat' first
    | with_reducible assumption
    | (with_reducible refine modDict_keeps ?_)

theorem setDom_keeps {s₀ s : State} {idx sub : Nat} {v : Bytes} (hk : Keeps s₀ s) :
    Keeps s₀ (setDom idx sub v s) := by
  unfold setDom
  repeat' first
    | with_reducible assumption
    | (with_reducible refine modDict_keeps ?_)

theorem commitStaged_keeps {s₀ s : State} {idx : Nat} (hk : Keeps s₀ s) :
    Keeps s₀ (commitStaged idx s) := by
  unfold commitStaged
  repeat' first
    | with_reducible assumption
    | (with_reducible refine modDict_keeps ?_)
    | (with_reducible refine foldl_keeps (fun s x h => ?_) ?_)
    | (with_reducible refine foldl_pair_keeps (fun s x h => ?_) ?_)
    | (with_reducible refine foldl_fst_keeps (fun s x h => ?_) ?_)
    | dsimp only

theorem setCount_keeps {s₀ s : State} {idx sub v : Nat} (hk : Keeps s₀ s) :
    Keeps s₀ (setCount idx sub v s) := by
  unfold setCount
  repeat' first
    | with_reducible assumption
    | (with_reducible refine modDict_keeps ?_)

theorem bump_keeps {s₀ s : State} {idx sub n : Nat} (hk : Keeps s₀ s) :
    Keeps s₀ (bump idx sub n s) := by
  unfold bump
  repeat' first
    | with_reducible assumption
    | (with_reducible refine setCount_keeps ?_)

theorem raiseTo_keeps {s₀ s : State} {idx sub v : Nat} (hk : Keeps s₀ s) :
    Keeps s₀ (raiseTo idx sub v s) := by
  unfold raiseTo
  repeat' first
    | with_reducible assumption
    | (with_reducible refine setCount_keeps ?_)

theorem setBlob_keeps {s₀ s : State} {idx sub : Nat} {v : Bytes} (hk : Keeps s₀ s) :
    Keeps s₀ (setBlob idx sub v s) := by
  unfold setBlob
  repeat' first
    | with_reducible assumption
    | (with_reducible refine modDict_keeps ?_)

theorem emit_keeps {s₀ s : State} {o : Out} (h : Keeps s₀ s) : Keeps s₀ (emit o s) :=
  ⟨h.pending, h.canonical, h.outs.trans (List.suffix_cons o s.outs), h.free⟩

theorem drawn_keeps {s₀ s : State} (hk : Keeps s₀ s) :
    Keeps s₀ (drawn s) := by
  unfold drawn
  repeat' first
    | with_reducible assumption
    | (with_reducible refine modFree_keeps (fun n => by omega) ?_)

theorem sendVector_keeps {s₀ s : State} {port vec : Nat} (hk : Keeps s₀ s) :
    Keeps s₀ (sendVector port vec s) := by
  unfold sendVector
  repeat' first
    | with_reducible assumption
    | (with_reducible refine keeps_ite ?_ ?_)
    | (with_reducible refine emit_keeps ?_)
    | split

theorem modHub_keeps {s₀ s : State} {h : Nat} {f : HubSide → HubSide} (hk : Keeps s₀ s) :
    Keeps s₀ (modHub h f s) := by
  unfold modHub
  repeat' first
    | with_reducible assumption
    | (with_reducible refine keeps_ite ?_ ?_)
    | (with_reducible refine modHubs_keeps ?_)
    | split

theorem annal_keeps {s₀ s : State} {code severity owner source : Nat} {data : Bytes} (hk : Keeps s₀ s) :
    Keeps s₀ (annal code severity owner source data s) := by
  unfold annal
  repeat' first
    | with_reducible assumption
    | (extract_lets +onlyGivenNames x; first
        | (refine keeps_cut (s₀ := s₀) (t := x) ?_ fun hx => ?_) <;> first | (revert hx; clear_value x; intro _) | subst x
        | clear_value x
        | subst x)
    | (with_reducible refine keeps_ite ?_ ?_)
    | (with_reducible refine modTele_keeps ?_)
    | (with_reducible refine bump_keeps ?_)
    | split

theorem modLantern_keeps {s₀ s : State} {h : Nat} {f : Lantern → Lantern} (hk : Keeps s₀ s) :
    Keeps s₀ (modLantern h f s) := by
  unfold modLantern
  repeat' first
    | with_reducible assumption
    | (with_reducible refine keeps_ite ?_ ?_)
    | (with_reducible refine modTele_keeps ?_)
    | split

theorem traceTo_keeps {s₀ s : State} {h : Nat} {r : TraceRecord} (hk : Keeps s₀ s) :
    Keeps s₀ (traceTo h r s) := by
  unfold traceTo
  repeat' first
    | with_reducible assumption
    | (extract_lets +onlyGivenNames x; first
        | (refine keeps_cut (s₀ := s₀) (t := x) ?_ fun hx => ?_) <;> first | (revert hx; clear_value x; intro _) | subst x
        | clear_value x
        | subst x)
    | (with_reducible refine keeps_ite ?_ ?_)
    | (with_reducible refine idle_keeps ?_)
    | (with_reducible refine bump_keeps ?_)
    | (with_reducible refine modLantern_keeps ?_)
    | split

theorem trace_keeps {s₀ s : State} {code owner source : Nat} {data : Bytes} (hk : Keeps s₀ s) :
    Keeps s₀ (trace code owner source data s) := by
  unfold trace
  repeat' first
    | with_reducible assumption
    | (extract_lets +onlyGivenNames x; first
        | (refine keeps_cut (s₀ := s₀) (t := x) ?_ fun hx => ?_) <;> first | (revert hx; clear_value x; intro _) | subst x
        | clear_value x
        | subst x)
    | (with_reducible refine traceTo_keeps ?_)

theorem charge_keeps {s₀ s : State} {p sub n : Nat} (hk : Keeps s₀ s) :
    Keeps s₀ (charge p sub n s) := by
  unfold charge
  repeat' first
    | with_reducible assumption
    | (with_reducible refine keeps_ite ?_ ?_)
    | (with_reducible refine modTele_keeps ?_)
    | split

theorem setDevState_keeps {s₀ s : State} {st : DevState} {cause : Nat} (hk : Keeps s₀ s) :
    Keeps s₀ (setDevState st cause s) := by
  unfold setDevState
  repeat' first
    | with_reducible assumption
    | (extract_lets +onlyGivenNames x; first
        | (refine keeps_cut (s₀ := s₀) (t := x) ?_ fun hx => ?_) <;> first | (revert hx; clear_value x; intro _) | subst x
        | clear_value x
        | subst x)
    | (with_reducible refine modDev_keeps ?_)
    | (with_reducible refine annal_keeps ?_)

theorem modSlot_keeps {s₀ s : State} {p sl : Nat} {f : Slot → Slot} (hk : Keeps s₀ s) :
    Keeps s₀ (modSlot p sl f s) := by
  unfold modSlot
  repeat' first
    | with_reducible assumption
    | (with_reducible refine modSlots_keeps ?_)

theorem firewallHit_keeps {s₀ s : State} {p source target : Nat} (hk : Keeps s₀ s) :
    Keeps s₀ (firewallHit p source target s) := by
  unfold firewallHit
  repeat' first
    | with_reducible assumption
    | (with_reducible refine annal_keeps ?_)
    | (with_reducible refine bump_keeps ?_)

end Sys2Proof.Machine
end

