-- ==== Sys2Proof/Laws/KeepsAlarms.lean ====
section
/-! SUPPORT. What the operations of Machine/Alarms.lean keep. -/

namespace Sys2Proof.Machine

open Sys2Proof

theorem alarmVectors_keeps {s₀ s : State} (hk : Keeps s₀ s) :
    Keeps s₀ (alarmVectors s) := by
  unfold alarmVectors
  repeat' first
    | with_reducible assumption
    | (extract_lets +onlyGivenNames x; first
        | (refine keeps_cut (s₀ := s₀) (t := x) ?_ fun hx => ?_) <;> first | (revert hx; clear_value x; intro _) | subst x
        | clear_value x
        | subst x)
    | (with_reducible refine keeps_ite ?_ ?_)
    | (with_reducible refine sendVector_keeps ?_)
    | split

theorem settle_keeps {s₀ s : State} (hk : Keeps s₀ s) :
    Keeps s₀ (settle s) := by
  unfold settle
  repeat' first
    | with_reducible assumption
    | (extract_lets +onlyGivenNames x; first
        | (refine keeps_cut (s₀ := s₀) (t := x) ?_ fun hx => ?_) <;> first | (revert hx; clear_value x; intro _) | subst x
        | clear_value x
        | subst x)
    | (with_reducible refine keeps_ite ?_ ?_)
    | (with_reducible refine modTele_keeps ?_)
    | (with_reducible refine alarmVectors_keeps ?_)
    | (with_reducible refine trace_keeps ?_)
    | split

end Sys2Proof.Machine
end

