-- ==== Sys2Proof/Laws/KeepsRings.lean ====
section
/-! SUPPORT. What the operations of Machine/Rings.lean keep. -/

namespace Sys2Proof.Machine

open Sys2Proof

theorem modSq_keeps {s₀ s : State} {port p n : Nat} {f : SubRing → SubRing} (hk : Keeps s₀ s) :
    Keeps s₀ (modSq port p n f s) := by
  unfold modSq
  repeat' first
    | with_reducible assumption
    | (with_reducible refine modHost_keeps ?_)

theorem modCq_keeps {s₀ s : State} {port p n : Nat} {f : CompRing → CompRing} (hk : Keeps s₀ s) :
    Keeps s₀ (modCq port p n f s) := by
  unfold modCq
  repeat' first
    | with_reducible assumption
    | (with_reducible refine modHost_keeps ?_)

theorem modLink_keeps {s₀ s : State} {port : Nat} {f : Link → Link} (hk : Keeps s₀ s) :
    Keeps s₀ (modLink port f s) := by
  unfold modLink
  repeat' first
    | with_reducible assumption
    | (with_reducible refine modHost_keeps ?_)

theorem ringError_keeps {s₀ s : State} {port p n kind code : Nat} (hk : Keeps s₀ s) :
    Keeps s₀ (ringError port p n kind code s) := by
  unfold ringError
  repeat' first
    | with_reducible assumption
    | (extract_lets +onlyGivenNames x; first
        | (refine keeps_cut (s₀ := s₀) (t := x) ?_ fun hx => ?_) <;> first | (revert hx; clear_value x; intro _) | subst x
        | clear_value x
        | subst x)
    | (with_reducible refine keeps_ite ?_ ?_)
    | (with_reducible refine modSq_keeps ?_)
    | (with_reducible refine modCq_keeps ?_)
    | (with_reducible refine annal_keeps ?_)
    | (with_reducible refine bump_keeps ?_)
    | split

theorem countInterrupt_keeps {s₀ s : State} {port p n : Nat} (hk : Keeps s₀ s) :
    Keeps s₀ (countInterrupt port p n s) := by
  unfold countInterrupt
  repeat' first
    | with_reducible assumption
    | (extract_lets +onlyGivenNames x; first
        | (refine keeps_cut (s₀ := s₀) (t := x) ?_ fun hx => ?_) <;> first | (revert hx; clear_value x; intro _) | subst x
        | clear_value x
        | subst x)
    | (with_reducible refine keeps_ite ?_ ?_)
    | (with_reducible refine sendVector_keeps ?_)
    | (with_reducible refine modCq_keeps ?_)
    | split

theorem writeRecord_keeps {s₀ s : State} {port p n : Nat} {r : Record} {redirected : Bool} {due : Option Nat} (hk : Keeps s₀ s) :
    Keeps s₀ (writeRecord port p n r redirected due s) := by
  unfold writeRecord
  repeat' first
    | with_reducible assumption
    | (extract_lets +onlyGivenNames x; first
        | (refine keeps_cut (s₀ := s₀) (t := x) ?_ fun hx => ?_) <;> first | (revert hx; clear_value x; intro _) | subst x
        | clear_value x
        | subst x)
    | (with_reducible refine keeps_ite ?_ ?_)
    | (with_reducible refine emit_keeps ?_)
    | (with_reducible refine modCq_keeps ?_)
    | (with_reducible refine bump_keeps ?_)
    | (with_reducible refine countInterrupt_keeps ?_)
    | split

theorem leaveUnit_keeps {s₀ s : State} {port : Nat} {u : EgressUnit} (hk : Keeps s₀ s) :
    Keeps s₀ (leaveUnit port u s) := by
  unfold leaveUnit
  repeat' first
    | with_reducible assumption
    | (with_reducible refine keeps_ite ?_ ?_)
    | (with_reducible refine emit_keeps ?_)
    | (with_reducible refine writeRecord_keeps ?_)
    | (with_reducible refine bump_keeps ?_)
    | split

theorem modEgress_keeps {s₀ s : State} {p port kind : Nat} {f : Egress → Egress} (hk : Keeps s₀ s) :
    Keeps s₀ (modEgress p port kind f s) := by
  unfold modEgress
  repeat' first
    | with_reducible assumption
    | (with_reducible refine modLevee_keeps ?_)

theorem sendHead_keeps {s₀ s : State} {p port kind : Nat} (hk : Keeps s₀ s) :
    Keeps s₀ (sendHead p port kind s) := by
  unfold sendHead
  repeat' first
    | with_reducible assumption
    | (extract_lets +onlyGivenNames x; first
        | (refine keeps_cut (s₀ := s₀) (t := x) ?_ fun hx => ?_) <;> first | (revert hx; clear_value x; intro _) | subst x
        | clear_value x
        | subst x)
    | (with_reducible refine keeps_ite ?_ ?_)
    | (with_reducible refine leaveUnit_keeps ?_)
    | (with_reducible refine modEgress_keeps ?_)
    | split

theorem flushUnshaped_keeps {s₀ s : State} {fuel : Nat} {p port kind : Nat} (hk : Keeps s₀ s) :
    Keeps s₀ (flushUnshaped fuel p port kind s) := by
  induction fuel generalizing p port kind s with
  | zero =>
    unfold flushUnshaped
    repeat' first
      | with_reducible assumption
      | (extract_lets +onlyGivenNames x; first
          | (refine keeps_cut (s₀ := s₀) (t := x) ?_ fun hx => ?_) <;> first | (revert hx; clear_value x; intro _) | subst x
          | clear_value x
          | subst x)
      | (with_reducible refine keeps_ite ?_ ?_)
      | (with_reducible refine sendHead_keeps ?_)
      | split
  | succ m ih =>
    unfold flushUnshaped
    repeat' first
      | cases ‹_ + 1 = Nat.succ _›
      | with_reducible assumption
      | (extract_lets +onlyGivenNames x; first
          | (refine keeps_cut (s₀ := s₀) (t := x) ?_ fun hx => ?_) <;> first | (revert hx; clear_value x; intro _) | subst x
          | clear_value x
          | subst x)
      | (with_reducible refine keeps_ite ?_ ?_)
      | (with_reducible refine ih ?_)
      | (with_reducible refine sendHead_keeps ?_)
      | split

theorem enqueueUnits_keeps {s₀ s : State} {p port kind : Nat} {us : List EgressUnit} (hk : Keeps s₀ s) :
    Keeps s₀ (enqueueUnits p port kind us s) := by
  unfold enqueueUnits
  repeat' first
    | with_reducible assumption
    | (extract_lets +onlyGivenNames x; first
        | (refine keeps_cut (s₀ := s₀) (t := x) ?_ fun hx => ?_) <;> first | (revert hx; clear_value x; intro _) | subst x
        | clear_value x
        | subst x)
    | (with_reducible refine modEgress_keeps ?_)
    | (with_reducible refine flushUnshaped_keeps ?_)

theorem postRecord_keeps {s₀ s : State} {port p n addr : Nat} {result : Bytes} {r : Record} {due : Option Nat} (hk : Keeps s₀ s) :
    Keeps s₀ (postRecord port p n addr result r due s) := by
  unfold postRecord
  repeat' first
    | with_reducible assumption
    | (extract_lets +onlyGivenNames x; first
        | (refine keeps_cut (s₀ := s₀) (t := x) ?_ fun hx => ?_) <;> first | (revert hx; clear_value x; intro _) | subst x
        | clear_value x
        | subst x)
    | (with_reducible refine enqueueUnits_keeps ?_)

theorem postBulk_keeps {s₀ s : State} {port p addr : Nat} {bs : Bytes} (hk : Keeps s₀ s) :
    Keeps s₀ (postBulk port p addr bs s) := by
  unfold postBulk
  repeat' first
    | with_reducible assumption
    | (with_reducible refine enqueueUnits_keeps ?_)

theorem stopRings_keeps {s₀ s : State} {port code : Nat} (hk : Keeps s₀ s) :
    Keeps s₀ (stopRings port code s) := by
  unfold stopRings
  repeat' first
    | with_reducible assumption
    | (extract_lets +onlyGivenNames x; first
        | (refine keeps_cut (s₀ := s₀) (t := x) ?_ fun hx => ?_) <;> first | (revert hx; clear_value x; intro _) | subst x
        | (refine keeps_cut2 (s₀ := s₀) (t := x) ?_ fun hx => ?_) <;> first | (revert hx; clear_value x; intro _) | subst x
        | clear_value x
        | subst x)
    | (with_reducible refine keeps_ite ?_ ?_)
    | (with_reducible refine ringError_keeps ?_)
    | (with_reducible refine foldl_keeps (fun s x h => ?_) ?_)
    | (with_reducible refine foldl_pair_keeps (fun s x h => ?_) ?_)
    | (with_reducible refine foldl_fst_keeps (fun s x h => ?_) ?_)
    | dsimp only
    | split

theorem releasePort_keeps {s₀ s : State} {port : Nat} (hk : Keeps s₀ s) :
    Keeps s₀ (releasePort port s) := by
  unfold releasePort
  repeat' first
    | with_reducible assumption
    | (with_reducible refine flushUnshaped_keeps ?_)
    | (with_reducible refine foldl_keeps (fun s x h => ?_) ?_)
    | (with_reducible refine foldl_pair_keeps (fun s x h => ?_) ?_)
    | (with_reducible refine foldl_fst_keeps (fun s x h => ?_) ?_)
    | dsimp only

theorem loseRings_keeps {s₀ s : State} {port code : Nat} (hk : Keeps s₀ s) :
    Keeps s₀ (loseRings port code s) := releasePort_keeps (bump_keeps (stopRings_keeps hk))

theorem loseLink_keeps {s₀ s : State} {port : Nat} (hk : Keeps s₀ s) :
    Keeps s₀ (loseLink port s) := loseRings_keeps hk

end Sys2Proof.Machine
end

