-- ==== Sys2Proof/Laws/KeepsAlmanacOps.lean ====
section
/-! SUPPORT. What the operations of Machine/AlmanacOps.lean keep. -/

namespace Sys2Proof.Machine

open Sys2Proof

theorem putEntry_keeps {s₀ s : State} {n : Nat} {e : Entry} (hk : Keeps s₀ s) :
    Keeps s₀ (putEntry n e s) := by
  unfold putEntry
  repeat' first
    | with_reducible assumption
    | (with_reducible refine modAlm_keeps ?_)

theorem dropEntry_keeps {s₀ s : State} {n : Nat} (hk : Keeps s₀ s) :
    Keeps s₀ (dropEntry n s) := by
  unfold dropEntry
  repeat' first
    | with_reducible assumption
    | (with_reducible refine modAlm_keeps ?_)

theorem placeChain_keeps {s₀ s : State} {n action target period owner policy : Nat} (hk : Keeps s₀ s) :
    Keeps s₀ (placeChain n action target period owner policy s) := by
  unfold placeChain
  repeat' first
    | with_reducible assumption
    | (with_reducible refine putEntry_keeps ?_)

theorem placeShot_keeps {s₀ s : State} {n action target tick owner policy : Nat} (hk : Keeps s₀ s) :
    Keeps s₀ (placeShot n action target tick owner policy s) := by
  unfold placeShot
  repeat' first
    | with_reducible assumption
    | (with_reducible refine putEntry_keeps ?_)

theorem redirectEntry_keeps {s₀ s : State} {n : Nat} {new : Entry} (hk : Keeps s₀ s) :
    Keeps s₀ (redirectEntry n new s) := by
  unfold redirectEntry
  repeat' first
    | with_reducible assumption
    | (with_reducible refine keeps_ite ?_ ?_)
    | (with_reducible refine modAlm_keeps ?_)
    | (with_reducible refine putEntry_keeps ?_)
    | split

theorem cancelEntry_keeps {s₀ s : State} {n : Nat} (hk : Keeps s₀ s) :
    Keeps s₀ (cancelEntry n s) := by
  unfold cancelEntry
  repeat' first
    | with_reducible assumption
    | (with_reducible refine keeps_ite ?_ ?_)
    | (with_reducible refine modAlm_keeps ?_)
    | (with_reducible refine dropEntry_keeps ?_)
    | split

theorem rechain_keeps {s₀ s : State} {n period : Nat} (hk : Keeps s₀ s) :
    Keeps s₀ (rechain n period s) := by
  unfold rechain
  repeat' first
    | with_reducible assumption
    | (with_reducible refine redirectEntry_keeps ?_)
    | split

theorem armLink_keeps {s₀ s : State} {n : Nat} (hk : Keeps s₀ s) :
    Keeps s₀ (armLink n s) := by
  unfold armLink
  repeat' first
    | with_reducible assumption
    | (with_reducible refine keeps_ite ?_ ?_)
    | (with_reducible refine putEntry_keeps ?_)
    | split

theorem endEntry_keeps {s₀ s : State} {n : Nat} {arm : Bool} (hk : Keeps s₀ s) :
    Keeps s₀ (endEntry n arm s) := by
  unfold endEntry
  repeat' first
    | with_reducible assumption
    | (with_reducible refine keeps_ite ?_ ?_)
    | (with_reducible refine armLink_keeps ?_)
    | (with_reducible refine dropEntry_keeps ?_)
    | split

theorem traceFiring_keeps {s₀ s : State} {n : Nat} {e : Entry} {late : Bool} {instant : Nat} (hk : Keeps s₀ s) :
    Keeps s₀ (traceFiring n e late instant s) := by
  unfold traceFiring
  repeat' first
    | with_reducible assumption
    | (with_reducible refine trace_keeps ?_)

theorem slotAction_keeps {s₀ s : State} {p sl action outcome reason : Nat} (hk : Keeps s₀ s) :
    Keeps s₀ (slotAction p sl action outcome reason s) := by
  unfold slotAction
  repeat' first
    | with_reducible assumption
    | (with_reducible refine annal_keeps ?_)

theorem actedFiring_keeps {s₀ s : State} {n : Nat} (hk : Keeps s₀ s) :
    Keeps s₀ (actedFiring n s) := by
  unfold actedFiring
  repeat' first
    | with_reducible assumption
    | (with_reducible refine keeps_ite ?_ ?_)
    | (with_reducible refine modAlm_keeps ?_)
    | split

end Sys2Proof.Machine
end

