-- ==== Sys2Proof/Laws/KeepsCells.lean ====
section
/-! SUPPORT. What the operations of Machine/Cells.lean keep. -/

namespace Sys2Proof.Machine

open Sys2Proof

theorem modCell_keeps {s₀ s : State} {n : Nat} {f : Cell → Cell} (hk : Keeps s₀ s) :
    Keeps s₀ (modCell n f s) := by
  unfold modCell
  repeat' first
    | with_reducible assumption
    | (with_reducible refine modCells_keeps ?_)

theorem fireArm_keeps {s₀ s : State} {n : Nat} (hk : Keeps s₀ s) :
    Keeps s₀ (fireArm n s) := by
  unfold fireArm
  repeat' first
    | with_reducible assumption
    | (extract_lets +onlyGivenNames x; first
        | (refine keeps_cut (s₀ := s₀) (t := x) ?_ fun hx => ?_) <;> first | (revert hx; clear_value x; intro _) | subst x
        | clear_value x
        | subst x)
    | (with_reducible refine keeps_ite ?_ ?_)
    | (with_reducible refine modCell_keeps ?_)
    | (with_reducible refine sendVector_keeps ?_)
    | split

theorem traceSignal_keeps {s₀ s : State} {n : Nat} (hk : Keeps s₀ s) :
    Keeps s₀ (traceSignal n s) := by
  unfold traceSignal
  repeat' first
    | with_reducible assumption
    | (with_reducible refine keeps_ite ?_ ?_)
    | (with_reducible refine drawn_keeps ?_)
    | (with_reducible refine trace_keeps ?_)
    | split

theorem applySignal_keeps {s₀ s : State} {n k : Nat} (hk : Keeps s₀ s) :
    Keeps s₀ (applySignal n k s) := by
  unfold applySignal
  repeat' first
    | with_reducible assumption
    | (extract_lets +onlyGivenNames x; first
        | (refine keeps_cut (s₀ := s₀) (t := x) ?_ fun hx => ?_) <;> first | (revert hx; clear_value x; intro _) | subst x
        | clear_value x
        | subst x)
    | (with_reducible refine keeps_ite ?_ ?_)
    | (with_reducible refine modCells_keeps ?_)
    | (with_reducible refine modCell_keeps ?_)
    | (with_reducible refine bump_keeps ?_)
    | (with_reducible refine fireArm_keeps ?_)
    | (with_reducible refine traceSignal_keeps ?_)
    | split

theorem applyTry_keeps {s₀ s : State} {n : Nat} (hk : Keeps s₀ s) :
    Keeps s₀ (applyTry n s).2 := by
  unfold applyTry
  repeat' first
    | with_reducible assumption
    | (with_reducible refine keeps_ite2 ?_ ?_)
    | (with_reducible refine keeps_ite ?_ ?_)
    | (with_reducible refine modCell_keeps ?_)
    | dsimp only
    | split

theorem setCoreG_keeps {s₀ s : State} {core d : Nat} {v : W32} {poison : Bool} (hk : Keeps s₀ s) :
    Keeps s₀ (setCoreG core d v poison s) := by
  unfold setCoreG
  repeat' first
    | with_reducible assumption
    | (with_reducible refine keeps_ite ?_ ?_)
    | (with_reducible refine modCarr_keeps ?_)
    | split

theorem applyCell_keeps {s₀ s : State} {n : Nat} {a : CellAct} (hk : Keeps s₀ s) :
    Keeps s₀ (applyCell n a s) := by
  unfold applyCell
  repeat' first
    | with_reducible assumption
    | (extract_lets +onlyGivenNames x; first
        | (refine keeps_cut (s₀ := s₀) (t := x) ?_ fun hx => ?_) <;> first | (revert hx; clear_value x; intro _) | subst x
        | (refine keeps_cut2 (s₀ := s₀) (t := x) ?_ fun hx => ?_) <;> first | (revert hx; clear_value x; intro _) | subst x
        | clear_value x
        | subst x)
    | (with_reducible refine keeps_ite ?_ ?_)
    | (with_reducible refine modCarr_keeps ?_)
    | (with_reducible refine modCells_keeps ?_)
    | (with_reducible refine applySignal_keeps ?_)
    | (with_reducible refine applyTry_keeps ?_)
    | (with_reducible refine keeps_of_pair (applyTry_keeps ?_) ‹_›)
    | (with_reducible refine emit_keeps ?_)
    | (with_reducible refine setCoreG_keeps ?_)
    | (with_reducible refine modCell_keeps ?_)
    | (with_reducible refine fireArm_keeps ?_)
    | dsimp only
    | split

theorem issueMirror_keeps {s₀ s : State} (hk : Keeps s₀ s) :
    Keeps s₀ (issueMirror s) := by
  unfold issueMirror
  repeat' first
    | with_reducible assumption
    | (with_reducible refine modHubs_keeps ?_)
    | (with_reducible refine emit_keeps ?_)

theorem flushCells_keeps {s₀ s : State} {fuel : Nat} (hk : Keeps s₀ s) :
    Keeps s₀ (flushCells fuel s) := by
  induction fuel generalizing s with
  | zero =>
    unfold flushCells
    repeat' first
      | with_reducible assumption
      | (with_reducible refine keeps_ite ?_ ?_)
      | (with_reducible refine modCells_keeps ?_)
      | (with_reducible refine applyCell_keeps ?_)
      | split
  | succ m ih =>
    unfold flushCells
    repeat' first
      | cases ‹_ + 1 = Nat.succ _›
      | with_reducible assumption
      | (with_reducible refine keeps_ite ?_ ?_)
      | (with_reducible refine ih ?_)
      | (with_reducible refine modCells_keeps ?_)
      | (with_reducible refine applyCell_keeps ?_)
      | split

theorem mirrorHeld_keeps {s₀ s : State} (hk : Keeps s₀ s) :
    Keeps s₀ (mirrorHeld s) := by
  unfold mirrorHeld
  repeat' first
    | with_reducible assumption
    | (extract_lets +onlyGivenNames x; first
        | (refine keeps_cut (s₀ := s₀) (t := x) ?_ fun hx => ?_) <;> first | (revert hx; clear_value x; intro _) | subst x
        | clear_value x
        | subst x)
    | (with_reducible refine keeps_ite ?_ ?_)
    | (with_reducible refine modCells_keeps ?_)
    | (with_reducible refine issueMirror_keeps ?_)
    | split

theorem resumeCells_keeps {s₀ s : State} (hk : Keeps s₀ s) :
    Keeps s₀ (resumeCells s) := by
  unfold resumeCells
  repeat' first
    | with_reducible assumption
    | (extract_lets +onlyGivenNames x; first
        | (refine keeps_cut (s₀ := s₀) (t := x) ?_ fun hx => ?_) <;> first | (revert hx; clear_value x; intro _) | subst x
        | clear_value x
        | subst x)
    | (with_reducible refine mirrorHeld_keeps ?_)
    | (with_reducible refine flushCells_keeps ?_)

theorem issueCell_keeps {s₀ s : State} {n : Nat} {a : CellAct} (hk : Keeps s₀ s) :
    Keeps s₀ (issueCell n a s) := by
  unfold issueCell
  repeat' first
    | with_reducible assumption
    | (with_reducible refine keeps_ite ?_ ?_)
    | (with_reducible refine modCells_keeps ?_)
    | (with_reducible refine applyCell_keeps ?_)
    | (with_reducible refine resumeCells_keeps ?_)
    | split

theorem signalCell_keeps {s₀ s : State} {p c : Nat} (hk : Keeps s₀ s) :
    Keeps s₀ (signalCell p c s) := by
  unfold signalCell
  repeat' first
    | with_reducible assumption
    | (with_reducible refine issueCell_keeps ?_)

theorem clearOverflows_keeps {s₀ s : State} {p : Nat} {data : Bytes} (hk : Keeps s₀ s) :
    Keeps s₀ (clearOverflows p data s) := by
  unfold clearOverflows
  repeat' first
    | with_reducible assumption
    | (with_reducible refine keeps_ite ?_ ?_)
    | (with_reducible refine issueCell_keeps ?_)
    | (with_reducible refine foldl_keeps (fun s x h => ?_) ?_)
    | (with_reducible refine foldl_pair_keeps (fun s x h => ?_) ?_)
    | (with_reducible refine foldl_fst_keeps (fun s x h => ?_) ?_)
    | dsimp only
    | split

theorem cutCell_keeps {s₀ s : State} {n : Nat} (hk : Keeps s₀ s) :
    Keeps s₀ (cutCell n s) := by
  unfold cutCell
  repeat' first
    | with_reducible assumption
    | (extract_lets +onlyGivenNames x; first
        | (refine keeps_cut (s₀ := s₀) (t := x) ?_ fun hx => ?_) <;> first | (revert hx; clear_value x; intro _) | subst x
        | clear_value x
        | subst x)
    | (with_reducible refine modCells_keeps ?_)
    | (with_reducible refine modCell_keeps ?_)

theorem cutReset_keeps {s₀ s : State} {p sl : Nat} (hk : Keeps s₀ s) :
    Keeps s₀ (cutReset p sl s) := by
  unfold cutReset
  repeat' first
    | with_reducible assumption
    | (extract_lets +onlyGivenNames x; first
        | (refine keeps_cut (s₀ := s₀) (t := x) ?_ fun hx => ?_) <;> first | (revert hx; clear_value x; intro _) | subst x
        | (refine keeps_cut2 (s₀ := s₀) (t := x) ?_ fun hx => ?_) <;> first | (revert hx; clear_value x; intro _) | subst x
        | clear_value x
        | subst x)
    | (with_reducible refine keeps_ite ?_ ?_)
    | (with_reducible refine cutCell_keeps ?_)
    | (with_reducible refine foldl_keeps (fun s x h => ?_) ?_)
    | (with_reducible refine foldl_pair_keeps (fun s x h => ?_) ?_)
    | (with_reducible refine foldl_fst_keeps (fun s x h => ?_) ?_)
    | dsimp only
    | split

end Sys2Proof.Machine
end

