-- ==== Sys2Proof/Laws/KeepsFaults.lean ====
section
/-! SUPPORT. What the operations of Machine/Faults.lean keep. -/

namespace Sys2Proof.Machine

open Sys2Proof

theorem flagQueries_keeps {s₀ s : State} {ids : List Nat} {flag : Nat} (hk : Keeps s₀ s) :
    Keeps s₀ (flagQueries ids flag s) := by
  unfold flagQueries
  repeat' first
    | with_reducible assumption
    | (with_reducible refine keeps_ite ?_ ?_)
    | (with_reducible refine modLevee_keeps ?_)
    | split

theorem lostWork_keeps {s₀ s : State} {p sl stage cause source : Nat} {ids : List Nat} (hk : Keeps s₀ s) :
    Keeps s₀ (lostWork p sl stage cause source ids s) := by
  unfold lostWork
  repeat' first
    | with_reducible assumption
    | (with_reducible refine annal_keeps ?_)
    | (with_reducible refine flagQueries_keeps ?_)

theorem unitLost_keeps {s₀ s : State} {kind unit source : Nat} {at_ : Option Nat} (hk : Keeps s₀ s) :
    Keeps s₀ (unitLost kind unit source at_ s) := by
  unfold unitLost
  repeat' first
    | with_reducible assumption
    | (extract_lets +onlyGivenNames x; first
        | (refine keeps_cut (s₀ := s₀) (t := x) ?_ fun hx => ?_) <;> first | (revert hx; clear_value x; intro _) | subst x
        | clear_value x
        | subst x)
    | (with_reducible refine setCount_keeps ?_)
    | (with_reducible refine annal_keeps ?_)
    | (with_reducible refine bump_keeps ?_)
    | split

theorem visitDone_keeps {s₀ s : State} {entry : Nat} (hk : Keeps s₀ s) :
    Keeps s₀ (visitDone entry s) := by
  unfold visitDone
  repeat' first
    | with_reducible assumption
    | (with_reducible refine bump_keeps ?_)
    | (with_reducible refine actedFiring_keeps ?_)

theorem visitSkipped_keeps {s₀ s : State} (hk : Keeps s₀ s) :
    Keeps s₀ (visitSkipped s) := by
  unfold visitSkipped
  repeat' first
    | with_reducible assumption
    | (with_reducible refine bump_keeps ?_)

theorem spareSwitch_keeps {s₀ s : State} {kind logical old new cause gen source : Nat} (hk : Keeps s₀ s) :
    Keeps s₀ (spareSwitch kind logical old new cause gen source s) := by
  unfold spareSwitch
  repeat' first
    | with_reducible assumption
    | (extract_lets +onlyGivenNames x; first
        | (refine keeps_cut (s₀ := s₀) (t := x) ?_ fun hx => ?_) <;> first | (revert hx; clear_value x; intro _) | subst x
        | clear_value x
        | subst x)
    | (with_reducible refine annal_keeps ?_)
    | (with_reducible refine trace_keeps ?_)

theorem traceCheck_keeps {s₀ s : State} {owner source block unit retried : Nat} (hk : Keeps s₀ s) :
    Keeps s₀ (traceCheck owner source block unit retried s) := by
  unfold traceCheck
  repeat' first
    | with_reducible assumption
    | (with_reducible refine trace_keeps ?_)

end Sys2Proof.Machine
end

