-- ==== Sys2Proof/Laws/KeepsCarr.lean ====
section
/-! SUPPORT. What the operations of Machine/Carr.lean keep. -/

namespace Sys2Proof.Machine

open Sys2Proof

theorem modPc_keeps {s₀ s : State} {pc : Nat} {f : PcState → PcState} (hk : Keeps s₀ s) :
    Keeps s₀ (modPc pc f s) := by
  unfold modPc
  repeat' first
    | with_reducible assumption
    | (with_reducible refine modCarr_keeps ?_)

theorem modCore_keeps {s₀ s : State} {pc mode : Nat} {f : Core → Core} (hk : Keeps s₀ s) :
    Keeps s₀ (modCore pc mode f s) := by
  unfold modCore
  repeat' first
    | with_reducible assumption
    | (with_reducible refine modCarr_keeps ?_)

theorem modWindow_keeps {s₀ s : State} {id : Nat} {f : Window → Window} (hk : Keeps s₀ s) :
    Keeps s₀ (modWindow id f s) := by
  unfold modWindow
  repeat' first
    | with_reducible assumption
    | (with_reducible refine keeps_ite ?_ ?_)
    | (with_reducible refine modCarr_keeps ?_)
    | split

theorem modReady_keeps {s₀ s : State} {id pc : Nat} {f : Ready → Ready} (hk : Keeps s₀ s) :
    Keeps s₀ (modReady id pc f s) := by
  unfold modReady
  repeat' first
    | with_reducible assumption
    | (with_reducible refine modCarr_keeps ?_)

theorem countEcc_keeps {s₀ s : State} {pc l ecc : Nat} (hk : Keeps s₀ s) :
    Keeps s₀ (countEcc pc l ecc s) := by
  unfold countEcc
  repeat' first
    | with_reducible assumption
    | (with_reducible refine keeps_ite ?_ ?_)
    | (with_reducible refine bump_keeps ?_)
    | (with_reducible refine annal_keeps ?_)
    | split

theorem answerCarr_keeps {s₀ s : State} {w : WaitReq} {status : Nat} {bytes : Bytes} {poison : Bool} (hk : Keeps s₀ s) :
    Keeps s₀ (answerCarr w status bytes poison s) := by
  unfold answerCarr
  repeat' first
    | with_reducible assumption
    | (extract_lets +onlyGivenNames x; first
        | (refine keeps_cut (s₀ := s₀) (t := x) ?_ fun hx => ?_) <;> first | (revert hx; clear_value x; intro _) | subst x
        | clear_value x
        | subst x)
    | (with_reducible refine keeps_ite ?_ ?_)
    | (with_reducible refine emit_keeps ?_)
    | (with_reducible refine bump_keeps ?_)
    | split

theorem serveCarr_keeps {s₀ s : State} {w : WaitReq} {pc l : Nat} (hk : Keeps s₀ s) :
    Keeps s₀ (serveCarr w pc l s) := by
  unfold serveCarr
  repeat' first
    | with_reducible assumption
    | (extract_lets +onlyGivenNames x; first
        | (refine keeps_cut (s₀ := s₀) (t := x) ?_ fun hx => ?_) <;> first | (revert hx; clear_value x; intro _) | subst x
        | clear_value x
        | subst x)
    | (with_reducible refine keeps_ite ?_ ?_)
    | (with_reducible refine modCarr_keeps ?_)
    | (with_reducible refine modMem_keeps (fun m hm => by simp_all [Mems.wf, Memory.wf_writeN]) ?_)
    | (with_reducible refine answerCarr_keeps ?_)
    | (with_reducible refine firewallHit_keeps ?_)
    | (with_reducible refine countEcc_keeps ?_)
    | split

theorem takeCarr_keeps {s₀ s : State} {w : WaitReq} (hk : Keeps s₀ s) :
    Keeps s₀ (takeCarr w s) := by
  unfold takeCarr
  repeat' first
    | with_reducible assumption
    | (extract_lets +onlyGivenNames x; first
        | (refine keeps_cut (s₀ := s₀) (t := x) ?_ fun hx => ?_) <;> first | (revert hx; clear_value x; intro _) | subst x
        | clear_value x
        | subst x)
    | (with_reducible refine keeps_ite ?_ ?_)
    | (with_reducible refine answerCarr_keeps ?_)
    | (with_reducible refine bump_keeps ?_)
    | (with_reducible refine serveCarr_keeps ?_)
    | (with_reducible refine modPc_keeps ?_)
    | split

theorem takeParts_keeps {s₀ s : State} {fuel : Nat} {w : WaitReq} (hk : Keeps s₀ s) :
    Keeps s₀ (takeParts fuel w s) := by
  induction fuel generalizing w s with
  | zero =>
    unfold takeParts
    repeat' first
      | with_reducible assumption
      | (extract_lets +onlyGivenNames x; first
          | (refine keeps_cut (s₀ := s₀) (t := x) ?_ fun hx => ?_) <;> first | (revert hx; clear_value x; intro _) | subst x
          | clear_value x
          | subst x)
      | (with_reducible refine keeps_ite ?_ ?_)
      | (with_reducible refine takeCarr_keeps ?_)
      | split
  | succ m ih =>
    unfold takeParts
    repeat' first
      | cases ‹_ + 1 = Nat.succ _›
      | with_reducible assumption
      | (extract_lets +onlyGivenNames x; first
          | (refine keeps_cut (s₀ := s₀) (t := x) ?_ fun hx => ?_) <;> first | (revert hx; clear_value x; intro _) | subst x
          | clear_value x
          | subst x)
      | (with_reducible refine keeps_ite ?_ ?_)
      | (with_reducible refine ih ?_)
      | (with_reducible refine takeCarr_keeps ?_)
      | split

theorem normalAccess_keeps {s₀ s : State} {w : WaitReq} (hk : Keeps s₀ s) :
    Keeps s₀ (normalAccess w s) := by
  unfold normalAccess
  repeat' first
    | with_reducible assumption
    | (with_reducible refine takeParts_keeps ?_)

theorem startProgram_keeps {s₀ s : State} {pc : Nat} (hk : Keeps s₀ s) :
    Keeps s₀ (startProgram pc s) := by
  unfold startProgram
  repeat' first
    | with_reducible assumption
    | (extract_lets +onlyGivenNames x; first
        | (refine keeps_cut (s₀ := s₀) (t := x) ?_ fun hx => ?_) <;> first | (revert hx; clear_value x; intro _) | subst x
        | clear_value x
        | subst x)
    | (with_reducible refine keeps_ite ?_ ?_)
    | (with_reducible refine modWindow_keeps ?_)
    | (with_reducible refine modCore_keeps ?_)
    | split

theorem dropStaging_keeps {s₀ s : State} {pc id : Nat} (hk : Keeps s₀ s) :
    Keeps s₀ (dropStaging pc id s) := by
  unfold dropStaging
  repeat' first
    | with_reducible assumption
    | (with_reducible refine modCarr_keeps ?_)

theorem skipUndone_keeps {s₀ s : State} {w : Window} {pc : Nat} (hk : Keeps s₀ s) :
    Keeps s₀ (skipUndone w pc s) := by
  unfold skipUndone
  repeat' first
    | with_reducible assumption
    | (extract_lets +onlyGivenNames x; first
        | (refine keeps_cut (s₀ := s₀) (t := x) ?_ fun hx => ?_) <;> first | (revert hx; clear_value x; intro _) | subst x
        | clear_value x
        | subst x)
    | (with_reducible refine keeps_ite ?_ ?_)
    | (with_reducible refine bump_keeps ?_)
    | split

theorem windowEnd_keeps {s₀ s : State} {w : Window} (hk : Keeps s₀ s) :
    Keeps s₀ (windowEnd w s) := by
  unfold windowEnd
  repeat' first
    | with_reducible assumption
    | (extract_lets +onlyGivenNames x; first
        | (refine keeps_cut (s₀ := s₀) (t := x) ?_ fun hx => ?_) <;> first | (revert hx; clear_value x; intro _) | subst x
        | clear_value x
        | subst x)
    | (with_reducible refine keeps_ite ?_ ?_)
    | (with_reducible refine modCarr_keeps ?_)
    | (with_reducible refine signalCell_keeps ?_)
    | (with_reducible refine trace_keeps ?_)
    | split

theorem closeOn_keeps {s₀ s : State} {id pc st : Nat} (hk : Keeps s₀ s) :
    Keeps s₀ (closeOn id pc st s) := by
  unfold closeOn
  repeat' first
    | with_reducible assumption
    | (extract_lets +onlyGivenNames x; first
        | (refine keeps_cut (s₀ := s₀) (t := x) ?_ fun hx => ?_) <;> first | (revert hx; clear_value x; intro _) | subst x
        | clear_value x
        | subst x)
    | (with_reducible refine keeps_ite ?_ ?_)
    | (with_reducible refine modCarr_keeps ?_)
    | (with_reducible refine modMem_keeps (fun m hm => by simp_all [Mems.wf, Memory.wf_zero]) ?_)
    | (with_reducible refine modReady_keeps ?_)
    | (with_reducible refine skipUndone_keeps ?_)
    | (with_reducible refine bump_keeps ?_)
    | (with_reducible refine modWindow_keeps ?_)
    | (with_reducible refine modCore_keeps ?_)
    | (with_reducible refine modPc_keeps ?_)
    | (with_reducible refine dropStaging_keeps ?_)
    | (with_reducible refine startProgram_keeps ?_)
    | (with_reducible refine windowEnd_keeps ?_)
    | split

theorem openWindow_keeps {s₀ s : State} {w : Window} (hk : Keeps s₀ s) :
    Keeps s₀ (openWindow w s) := by
  unfold openWindow
  repeat' first
    | with_reducible assumption
    | (extract_lets +onlyGivenNames x; first
        | (refine keeps_cut (s₀ := s₀) (t := x) ?_ fun hx => ?_) <;> first | (revert hx; clear_value x; intro _) | subst x
        | (refine keeps_cut2 (s₀ := s₀) (t := x) ?_ fun hx => ?_) <;> first | (revert hx; clear_value x; intro _) | subst x
        | clear_value x
        | subst x)
    | (with_reducible refine keeps_ite ?_ ?_)
    | (with_reducible refine modCarr_keeps ?_)
    | (with_reducible refine bump_keeps ?_)
    | (with_reducible refine startProgram_keeps ?_)
    | (with_reducible refine modPc_keeps ?_)
    | (with_reducible refine modReady_keeps ?_)
    | (with_reducible refine foldl_keeps (fun s x h => ?_) ?_)
    | (with_reducible refine foldl_pair_keeps (fun s x h => ?_) ?_)
    | (with_reducible refine foldl_fst_keeps (fun s x h => ?_) ?_)
    | dsimp only
    | split

theorem serveWaiting_keeps {s₀ s : State} {pc : Nat} (hk : Keeps s₀ s) :
    Keeps s₀ (serveWaiting pc s) := by
  unfold serveWaiting
  repeat' first
    | with_reducible assumption
    | (extract_lets +onlyGivenNames x; first
        | (refine keeps_cut (s₀ := s₀) (t := x) ?_ fun hx => ?_) <;> first | (revert hx; clear_value x; intro _) | subst x
        | (refine keeps_cut2 (s₀ := s₀) (t := x) ?_ fun hx => ?_) <;> first | (revert hx; clear_value x; intro _) | subst x
        | clear_value x
        | subst x)
    | (with_reducible refine modPc_keeps ?_)
    | (with_reducible refine raiseTo_keeps ?_)
    | (with_reducible refine serveCarr_keeps ?_)
    | (with_reducible refine foldl_keeps (fun s x h => ?_) ?_)
    | (with_reducible refine foldl_pair_keeps (fun s x h => ?_) ?_)
    | (with_reducible refine foldl_fst_keeps (fun s x h => ?_) ?_)
    | dsimp only
    | split

theorem stackMoved_keeps {s₀ s : State} {pc : Nat} (hk : Keeps s₀ s) :
    Keeps s₀ (stackMoved pc s) := by
  unfold stackMoved
  repeat' first
    | with_reducible assumption
    | (extract_lets +onlyGivenNames x; first
        | (refine keeps_cut (s₀ := s₀) (t := x) ?_ fun hx => ?_) <;> first | (revert hx; clear_value x; intro _) | subst x
        | clear_value x
        | subst x)
    | (with_reducible refine keeps_ite ?_ ?_)
    | (with_reducible refine modVigil_keeps ?_)
    | (with_reducible refine visitDone_keeps ?_)
    | split

theorem failStack_keeps {s₀ s : State} {stack : Nat} (hk : Keeps s₀ s) :
    Keeps s₀ (failStack stack s) := by
  unfold failStack
  repeat' first
    | with_reducible assumption
    | (extract_lets +onlyGivenNames x; first
        | (refine keeps_cut (s₀ := s₀) (t := x) ?_ fun hx => ?_) <;> first | (revert hx; clear_value x; intro _) | subst x
        | (refine keeps_cut2 (s₀ := s₀) (t := x) ?_ fun hx => ?_) <;> first | (revert hx; clear_value x; intro _) | subst x
        | clear_value x
        | subst x)
    | (with_reducible refine keeps_ite ?_ ?_)
    | (with_reducible refine modCarr_keeps ?_)
    | (with_reducible refine modVigil_keeps ?_)
    | (with_reducible refine actedFiring_keeps ?_)
    | (with_reducible refine visitSkipped_keeps ?_)
    | (with_reducible refine serveWaiting_keeps ?_)
    | (with_reducible refine modCore_keeps ?_)
    | (with_reducible refine unitLost_keeps ?_)
    | (with_reducible refine foldl_keeps (fun s x h => ?_) ?_)
    | (with_reducible refine foldl_pair_keeps (fun s x h => ?_) ?_)
    | (with_reducible refine foldl_fst_keeps (fun s x h => ?_) ?_)
    | dsimp only
    | split

theorem killCore_keeps {s₀ s : State} {pc cause : Nat} (hk : Keeps s₀ s) :
    Keeps s₀ (killCore pc cause s) := by
  unfold killCore
  repeat' first
    | with_reducible assumption
    | (extract_lets +onlyGivenNames x; first
        | (refine keeps_cut (s₀ := s₀) (t := x) ?_ fun hx => ?_) <;> first | (revert hx; clear_value x; intro _) | subst x
        | clear_value x
        | subst x)
    | (with_reducible refine modCarr_keeps ?_)
    | (with_reducible refine settle_keeps ?_)
    | (with_reducible refine unitLost_keeps ?_)
    | (with_reducible refine modPc_keeps ?_)
    | split

theorem timeoutOn_keeps {s₀ s : State} {w : Window} {pc : Nat} (hk : Keeps s₀ s) :
    Keeps s₀ (timeoutOn w pc s) := by
  unfold timeoutOn
  repeat' first
    | with_reducible assumption
    | (extract_lets +onlyGivenNames x; first
        | (refine keeps_cut (s₀ := s₀) (t := x) ?_ fun hx => ?_) <;> first | (revert hx; clear_value x; intro _) | subst x
        | clear_value x
        | subst x)
    | (with_reducible refine keeps_ite ?_ ?_)
    | (with_reducible refine lostWork_keeps ?_)
    | (with_reducible refine killCore_keeps ?_)
    | (with_reducible refine closeOn_keeps ?_)
    | split

theorem windowTimeout_keeps {s₀ s : State} {id : Nat} (hk : Keeps s₀ s) :
    Keeps s₀ (windowTimeout id s) := by
  unfold windowTimeout
  repeat' first
    | with_reducible assumption
    | (with_reducible refine keeps_ite ?_ ?_)
    | (with_reducible refine timeoutOn_keeps ?_)
    | (with_reducible refine foldl_keeps (fun s x h => ?_) ?_)
    | (with_reducible refine foldl_pair_keeps (fun s x h => ?_) ?_)
    | (with_reducible refine foldl_fst_keeps (fun s x h => ?_) ?_)
    | dsimp only
    | split

theorem writeRow_keeps {s₀ s : State} {pc v : Nat} {w : Option Nat} {bytes : Bytes} {bad : List Nat} (hk : Keeps s₀ s) :
    Keeps s₀ (writeRow pc v w bytes bad s) := by
  unfold writeRow
  repeat' first
    | with_reducible assumption
    | (extract_lets +onlyGivenNames x; first
        | (refine keeps_cut (s₀ := s₀) (t := x) ?_ fun hx => ?_) <;> first | (revert hx; clear_value x; intro _) | subst x
        | clear_value x
        | subst x)
    | (with_reducible refine keeps_ite ?_ ?_)
    | (with_reducible refine modCarr_keeps ?_)
    | (with_reducible refine modMem_keeps (fun m hm => by simp_all [Mems.wf, Memory.wf_writeN]) ?_)
    | split

theorem endRowOp_keeps {s₀ s : State} {pc : Nat} {o : RowOp} {bad : List Nat} (hk : Keeps s₀ s) :
    Keeps s₀ (endRowOp pc o bad s) := by
  unfold endRowOp
  repeat' first
    | with_reducible assumption
    | (extract_lets +onlyGivenNames x; first
        | (refine keeps_cut (s₀ := s₀) (t := x) ?_ fun hx => ?_) <;> first | (revert hx; clear_value x; intro _) | subst x
        | (refine keeps_cut2 (s₀ := s₀) (t := x) ?_ fun hx => ?_) <;> first | (revert hx; clear_value x; intro _) | subst x
        | clear_value x
        | subst x)
    | (with_reducible refine keeps_ite ?_ ?_)
    | (with_reducible refine countEcc_keeps ?_)
    | (with_reducible refine writeRow_keeps ?_)
    | (with_reducible refine foldl_keeps (fun s x h => ?_) ?_)
    | (with_reducible refine foldl_pair_keeps (fun s x h => ?_) ?_)
    | (with_reducible refine foldl_fst_keeps (fun s x h => ?_) ?_)
    | dsimp only
    | split

end Sys2Proof.Machine
end

