-- ==== Sys2Proof/Laws/KeepsNor.lean ====
section
/-! SUPPORT. What the operations of Machine/Nor.lean keep. -/

namespace Sys2Proof.Machine

open Sys2Proof

theorem writeBoot_keeps {s₀ s : State} {r : BootRecord} (hk : Keeps s₀ s) :
    Keeps s₀ (writeBoot r s) := by
  unfold writeBoot
  repeat' first
    | with_reducible assumption
    | (extract_lets +onlyGivenNames x; first
        | (refine keeps_cut (s₀ := s₀) (t := x) ?_ fun hx => ?_) <;> first | (revert hx; clear_value x; intro _) | subst x
        | clear_value x
        | subst x)
    | (with_reducible refine keeps_ite ?_ ?_)
    | (with_reducible refine modIsland_keeps ?_)
    | split

theorem measure_keeps {s₀ s : State} {r : Nat} {digest : Bytes} (hk : Keeps s₀ s) :
    Keeps s₀ (measure r digest s) := by
  unfold measure
  repeat' first
    | with_reducible assumption
    | (extract_lets +onlyGivenNames x; first
        | (refine keeps_cut (s₀ := s₀) (t := x) ?_ fun hx => ?_) <;> first | (revert hx; clear_value x; intro _) | subst x
        | clear_value x
        | subst x)
    | (with_reducible refine setBlob_keeps ?_)

theorem installKeyAt_keeps {s₀ s : State} {id : Nat} {key : Bytes} (hk : Keeps s₀ s) :
    Keeps s₀ (installKeyAt id key s) := by
  unfold installKeyAt
  repeat' first
    | with_reducible assumption
    | (extract_lets +onlyGivenNames x; first
        | (refine keeps_cut (s₀ := s₀) (t := x) ?_ fun hx => ?_) <;> first | (revert hx; clear_value x; intro _) | subst x
        | clear_value x
        | subst x)
    | (with_reducible refine keeps_ite ?_ ?_)
    | (with_reducible refine modIsland_keeps ?_)
    | (with_reducible refine setCount_keeps ?_)
    | split

end Sys2Proof.Machine
end

