-- ==== Sys2Proof/Laws/KeepsMire.lean ====
section
/-! SUPPORT. What the operations of Machine/Mire.lean keep. -/

namespace Sys2Proof.Machine

open Sys2Proof

theorem modDie_keeps {s₀ s : State} {d : Nat} {f : Die → Die} (hk : Keeps s₀ s) :
    Keeps s₀ (modDie d f s) := by
  unfold modDie
  repeat' first
    | with_reducible assumption
    | (with_reducible refine keeps_ite ?_ ?_)
    | (with_reducible refine modMire_keeps ?_)
    | split

theorem modTarget_keeps {s₀ s : State} {t : Nat} {f : Target → Target} (hk : Keeps s₀ s) :
    Keeps s₀ (modTarget t f s) := by
  unfold modTarget
  repeat' first
    | with_reducible assumption
    | (with_reducible refine modMire_keeps ?_)

theorem afterRead_keeps {s₀ s : State} {drew : Bool} (hk : Keeps s₀ s) :
    Keeps s₀ (afterRead drew s) := by
  unfold afterRead
  repeat' first
    | with_reducible assumption
    | (with_reducible refine keeps_ite ?_ ?_)
    | (with_reducible refine drawn_keeps ?_)
    | split

theorem spaceBytes_keeps {s₀ s : State} {fuel : Nat} {ns off len : Nat} (hk : Keeps s₀ s) :
    Keeps s₀ (spaceBytes fuel s ns off len).2 := by
  induction fuel generalizing s ns off len with
  | zero =>
    unfold spaceBytes
    repeat' first
      | with_reducible assumption
      | (extract_lets +onlyGivenNames x; first
          | (refine keeps_cut (s₀ := s₀) (t := x) ?_ fun hx => ?_) <;> first | (revert hx; clear_value x; intro _) | subst x
          | (refine keeps_cut2 (s₀ := s₀) (t := x) ?_ fun hx => ?_) <;> first | (revert hx; clear_value x; intro _) | subst x
          | clear_value x
          | subst x)
      | (with_reducible refine keeps_ite2 ?_ ?_)
      | (with_reducible refine keeps_ite ?_ ?_)
      | (with_reducible refine afterRead_keeps ?_)
      | dsimp only
      | split
  | succ m ih =>
    unfold spaceBytes
    repeat' first
      | cases ‹_ + 1 = Nat.succ _›
      | with_reducible assumption
      | (extract_lets +onlyGivenNames x; first
          | (refine keeps_cut (s₀ := s₀) (t := x) ?_ fun hx => ?_) <;> first | (revert hx; clear_value x; intro _) | subst x
          | (refine keeps_cut2 (s₀ := s₀) (t := x) ?_ fun hx => ?_) <;> first | (revert hx; clear_value x; intro _) | subst x
          | clear_value x
          | subst x)
      | (with_reducible refine keeps_ite2 ?_ ?_)
      | (with_reducible refine keeps_ite ?_ ?_)
      | (with_reducible refine ih ?_)
      | (with_reducible refine afterRead_keeps ?_)
      | dsimp only
      | split

theorem refill_keeps {s₀ s : State} {fuel t : Nat} (hk : Keeps s₀ s) :
    Keeps s₀ (refill fuel t s) := by
  induction fuel generalizing t s with
  | zero =>
    unfold refill
    repeat' first
      | with_reducible assumption
      | (with_reducible refine keeps_ite ?_ ?_)
      | (with_reducible refine modMire_keeps ?_)
      | (with_reducible refine modTarget_keeps ?_)
      | split
  | succ m ih =>
    unfold refill
    repeat' first
      | cases ‹_ + 1 = Nat.succ _›
      | with_reducible assumption
      | (with_reducible refine keeps_ite ?_ ?_)
      | (with_reducible refine ih ?_)
      | (with_reducible refine modMire_keeps ?_)
      | (with_reducible refine modTarget_keeps ?_)
      | split

theorem offerBackground_keeps {s₀ s : State} {t : Nat} {o : FlashOp} (hk : Keeps s₀ s) :
    Keeps s₀ (offerBackground t o s) := by
  unfold offerBackground
  repeat' first
    | with_reducible assumption
    | (with_reducible refine modMire_keeps ?_)
    | (with_reducible refine refill_keeps ?_)

theorem lifeUpdate_keeps {s₀ s : State} (hk : Keeps s₀ s) :
    Keeps s₀ (lifeUpdate s) := by
  unfold lifeUpdate
  repeat' first
    | with_reducible assumption
    | (extract_lets +onlyGivenNames x; first
        | (refine keeps_cut (s₀ := s₀) (t := x) ?_ fun hx => ?_) <;> first | (revert hx; clear_value x; intro _) | subst x
        | (refine keeps_cut2 (s₀ := s₀) (t := x) ?_ fun hx => ?_) <;> first | (revert hx; clear_value x; intro _) | subst x
        | clear_value x
        | subst x)
    | (with_reducible refine keeps_ite ?_ ?_)
    | (with_reducible refine setCount_keeps ?_)
    | (with_reducible refine foldl_keeps (fun s x h => ?_) ?_)
    | (with_reducible refine foldl_pair_keeps (fun s x h => ?_) ?_)
    | (with_reducible refine foldl_fst_keeps (fun s x h => ?_) ?_)
    | dsimp only
    | split

theorem useBlock_keeps {s₀ s : State} {unit entry : Nat} (hk : Keeps s₀ s) :
    Keeps s₀ (useBlock unit entry s) := by
  unfold useBlock
  repeat' first
    | with_reducible assumption
    | (extract_lets +onlyGivenNames x; first
        | (refine keeps_cut (s₀ := s₀) (t := x) ?_ fun hx => ?_) <;> first | (revert hx; clear_value x; intro _) | subst x
        | clear_value x
        | subst x)
    | (with_reducible refine keeps_ite ?_ ?_)
    | (with_reducible refine modMire_keeps ?_)
    | (with_reducible refine lifeUpdate_keeps ?_)
    | split

theorem commitUnit_keeps {s₀ s : State} {unit phys off : Nat} {data : Bytes} {patch : Bool} (hk : Keeps s₀ s) :
    Keeps s₀ (commitUnit unit phys off data patch s) := by
  unfold commitUnit
  repeat' first
    | with_reducible assumption
    | (extract_lets +onlyGivenNames x; first
        | (refine keeps_cut (s₀ := s₀) (t := x) ?_ fun hx => ?_) <;> first | (revert hx; clear_value x; intro _) | subst x
        | (refine keeps_cutF (s₀ := s₀) (t := x) ?_ fun hx => ?_) <;> first | (revert hx; clear_value x; intro hF) | subst x
        | (refine keeps_cutG (s₀ := s₀) (t := x) ?_ fun hx => ?_) <;> first | (revert hx; clear_value x; intro hF) | subst x
        | (refine keeps_cutH (s₀ := s₀) (t := x) ?_ fun hx => ?_) <;> first | (revert hx; clear_value x; intro hF) | subst x
        | clear_value x
        | subst x)
    | (refine fun a b (y : State) (hy : Keeps s₀ y) => ?_; try dsimp only)
    | (refine fun a (y : State) (hy : Keeps s₀ y) => ?_; try dsimp only)
    | (refine fun (y : State) (hy : Keeps s₀ y) => ?_; try dsimp only)
    | (with_reducible refine keeps_ite ?_ ?_)
    | (with_reducible refine modMire_keeps ?_)
    | (with_reducible refine modMem_keeps (fun m hm => by simp_all [Mems.wf, Memory.wf_writeN, Memory.wf_zero]) ?_)
    | (with_reducible refine modDie_keeps ?_)
    | (with_reducible refine drawn_keeps ?_)
    | (with_reducible refine hF _ _ _ ?_)
    | (with_reducible refine hF _ _ ?_)
    | (with_reducible refine hF _ ?_)
    | (with_reducible refine (‹∀ y, Keeps s₀ y → Keeps s₀ _›) _ ?_)
    | (with_reducible refine (‹∀ a y, Keeps s₀ y → Keeps s₀ _›) _ _ ?_)
    | (with_reducible refine (‹∀ a b y, Keeps s₀ y → Keeps s₀ _›) _ _ _ ?_)
    | split

theorem takeWrite_keeps {s₀ s : State} {w : FlashWait} (hk : Keeps s₀ s) :
    Keeps s₀ (takeWrite w s) := by
  unfold takeWrite
  repeat' first
    | with_reducible assumption
    | (extract_lets +onlyGivenNames x; first
        | (refine keeps_cut (s₀ := s₀) (t := x) ?_ fun hx => ?_) <;> first | (revert hx; clear_value x; intro _) | subst x
        | clear_value x
        | subst x)
    | (with_reducible refine keeps_ite ?_ ?_)
    | (with_reducible refine commitUnit_keeps ?_)
    | (with_reducible refine charge_keeps ?_)
    | (with_reducible refine offerBackground_keeps ?_)
    | (with_reducible refine useBlock_keeps ?_)
    | (with_reducible refine emit_keeps ?_)
    | split

theorem offerWrite_keeps {s₀ s : State} {w : FlashWait} (hk : Keeps s₀ s) :
    Keeps s₀ (offerWrite w s) := by
  unfold offerWrite
  repeat' first
    | with_reducible assumption
    | (extract_lets +onlyGivenNames x; first
        | (refine keeps_cut (s₀ := s₀) (t := x) ?_ fun hx => ?_) <;> first | (revert hx; clear_value x; intro _) | subst x
        | clear_value x
        | subst x)
    | (with_reducible refine keeps_ite ?_ ?_)
    | (with_reducible refine emit_keeps ?_)
    | (with_reducible refine firewallHit_keeps ?_)
    | (with_reducible refine takeWrite_keeps ?_)
    | (with_reducible refine modDie_keeps ?_)
    | split

theorem drainWaiting_keeps {s₀ s : State} {fuel d : Nat} (hk : Keeps s₀ s) :
    Keeps s₀ (drainWaiting fuel d s) := by
  induction fuel generalizing d s with
  | zero =>
    unfold drainWaiting
    repeat' first
      | with_reducible assumption
      | (with_reducible refine keeps_ite ?_ ?_)
      | (with_reducible refine takeWrite_keeps ?_)
      | (with_reducible refine modDie_keeps ?_)
      | split
  | succ m ih =>
    unfold drainWaiting
    repeat' first
      | cases ‹_ + 1 = Nat.succ _›
      | with_reducible assumption
      | (with_reducible refine keeps_ite ?_ ?_)
      | (with_reducible refine ih ?_)
      | (with_reducible refine takeWrite_keeps ?_)
      | (with_reducible refine modDie_keeps ?_)
      | split

theorem dropOp_keeps {s₀ s : State} {t : Nat} {o : FlashOp} (hk : Keeps s₀ s) :
    Keeps s₀ (dropOp t o s) := by
  unfold dropOp
  repeat' first
    | with_reducible assumption
    | (with_reducible refine modTarget_keeps ?_)

theorem modRound_keeps {s₀ s : State} {slot : Nat} {f : Round → Round} (hk : Keeps s₀ s) :
    Keeps s₀ (modRound slot f s) := by
  unfold modRound
  repeat' first
    | with_reducible assumption
    | (with_reducible refine keeps_ite ?_ ?_)
    | (with_reducible refine modMire_keeps ?_)
    | split

theorem modRead_keeps {s₀ s : State} {id : Nat} {f : QRead → QRead} (hk : Keeps s₀ s) :
    Keeps s₀ (modRead id f s) := by
  unfold modRead
  repeat' first
    | with_reducible assumption
    | (with_reducible refine keeps_ite ?_ ?_)
    | (with_reducible refine modMire_keeps ?_)
    | split

theorem writeTile_keeps {s₀ s : State} {tile addr : Nat} {bs : Bytes} (hk : Keeps s₀ s) :
    Keeps s₀ (writeTile tile addr bs s) := by
  unfold writeTile
  repeat' first
    | with_reducible assumption
    | (with_reducible refine modMem_keeps (fun m hm => by simp_all [Mems.wf, Memory.wf_writeN]) ?_)

theorem endRead_keeps {s₀ s : State} {q : QRead} {st : Nat} {data : Bytes} (hk : Keeps s₀ s) :
    Keeps s₀ (endRead q st data s) := by
  unfold endRead
  repeat' first
    | with_reducible assumption
    | (with_reducible refine keeps_ite ?_ ?_)
    | (with_reducible refine writeTile_keeps ?_)
    | (with_reducible refine modRead_keeps ?_)
    | split

theorem deliver_keeps {s₀ s : State} {q : QRead} (hk : Keeps s₀ s) :
    Keeps s₀ (deliver q s) := by
  unfold deliver
  repeat' first
    | with_reducible assumption
    | (extract_lets +onlyGivenNames x; first
        | (refine keeps_cut (s₀ := s₀) (t := x) ?_ fun hx => ?_) <;> first | (revert hx; clear_value x; intro _) | subst x
        | clear_value x
        | subst x)
    | (with_reducible refine endRead_keeps ?_)
    | (with_reducible refine afterRead_keeps ?_)

theorem placeRead_keeps {s₀ s : State} {q : QRead} (hk : Keeps s₀ s) :
    Keeps s₀ (placeRead q s) := by
  unfold placeRead
  repeat' first
    | with_reducible assumption
    | (extract_lets +onlyGivenNames x; first
        | (refine keeps_cut (s₀ := s₀) (t := x) ?_ fun hx => ?_) <;> first | (revert hx; clear_value x; intro _) | subst x
        | clear_value x
        | subst x)
    | (with_reducible refine keeps_ite ?_ ?_)
    | (with_reducible refine modMire_keeps ?_)
    | (with_reducible refine deliver_keeps ?_)
    | (with_reducible refine endRead_keeps ?_)
    | (with_reducible refine bump_keeps ?_)
    | (with_reducible refine modTarget_keeps ?_)
    | split

theorem queryRead_keeps {s₀ s : State} {fuel part slot stage tile chan index ns off len dest : Nat} (hk : Keeps s₀ s) :
    Keeps s₀ (queryRead fuel part slot stage tile chan index ns off len dest s) := by
  induction fuel generalizing part slot stage tile chan index ns off len dest s with
  | zero =>
    unfold queryRead
    repeat' first
      | with_reducible assumption
      | (extract_lets +onlyGivenNames x; first
          | (refine keeps_cut (s₀ := s₀) (t := x) ?_ fun hx => ?_) <;> first | (revert hx; clear_value x; intro _) | subst x
          | clear_value x
          | subst x)
      | (with_reducible refine keeps_ite ?_ ?_)
      | (with_reducible refine modMire_keeps ?_)
      | (with_reducible refine modRound_keeps ?_)
      | (with_reducible refine charge_keeps ?_)
      | (with_reducible refine bump_keeps ?_)
      | (with_reducible refine endRead_keeps ?_)
      | (with_reducible refine firewallHit_keeps ?_)
      | (with_reducible refine placeRead_keeps ?_)
      | split
  | succ m ih =>
    unfold queryRead
    repeat' first
      | cases ‹_ + 1 = Nat.succ _›
      | with_reducible assumption
      | (extract_lets +onlyGivenNames x; first
          | (refine keeps_cut (s₀ := s₀) (t := x) ?_ fun hx => ?_) <;> first | (revert hx; clear_value x; intro _) | subst x
          | clear_value x
          | subst x)
      | (with_reducible refine keeps_ite ?_ ?_)
      | (with_reducible refine ih ?_)
      | (with_reducible refine modMire_keeps ?_)
      | (with_reducible refine modRound_keeps ?_)
      | (with_reducible refine charge_keeps ?_)
      | (with_reducible refine bump_keeps ?_)
      | (with_reducible refine endRead_keeps ?_)
      | (with_reducible refine firewallHit_keeps ?_)
      | (with_reducible refine placeRead_keeps ?_)
      | split

theorem writeStatuses_keeps {s₀ s : State} {slot : Nat} {qs : List QRead} (hk : Keeps s₀ s) :
    Keeps s₀ (writeStatuses slot qs s) := by
  unfold writeStatuses
  repeat' first
    | with_reducible assumption
    | (extract_lets +onlyGivenNames x; first
        | (refine keeps_cut (s₀ := s₀) (t := x) ?_ fun hx => ?_) <;> first | (revert hx; clear_value x; intro _) | subst x
        | (refine keeps_cut2 (s₀ := s₀) (t := x) ?_ fun hx => ?_) <;> first | (revert hx; clear_value x; intro _) | subst x
        | clear_value x
        | subst x)
    | (with_reducible refine writeTile_keeps ?_)
    | (with_reducible refine foldl_keeps (fun s x h => ?_) ?_)
    | (with_reducible refine foldl_pair_keeps (fun s x h => ?_) ?_)
    | (with_reducible refine foldl_fst_keeps (fun s x h => ?_) ?_)
    | dsimp only

theorem takeSpares_keeps {s₀ s : State} {d n : Nat} (hk : Keeps s₀ s) :
    Keeps s₀ (takeSpares d n s) := by
  unfold takeSpares
  repeat' first
    | with_reducible assumption
    | (extract_lets +onlyGivenNames x; first
        | (refine keeps_cut (s₀ := s₀) (t := x) ?_ fun hx => ?_) <;> first | (revert hx; clear_value x; intro _) | subst x
        | clear_value x
        | subst x)
    | (with_reducible refine keeps_ite ?_ ?_)
    | (with_reducible refine setCount_keeps ?_)
    | (with_reducible refine modDie_keeps ?_)
    | (with_reducible refine annal_keeps ?_)
    | split

theorem loseDie_keeps {s₀ s : State} {die : Nat} (hk : Keeps s₀ s) :
    Keeps s₀ (loseDie die s) := by
  unfold loseDie
  repeat' first
    | with_reducible assumption
    | (extract_lets +onlyGivenNames x; first
        | (refine keeps_cut (s₀ := s₀) (t := x) ?_ fun hx => ?_) <;> first | (revert hx; clear_value x; intro _) | subst x
        | (refine keeps_cut2 (s₀ := s₀) (t := x) ?_ fun hx => ?_) <;> first | (revert hx; clear_value x; intro _) | subst x
        | clear_value x
        | subst x)
    | (with_reducible refine keeps_ite ?_ ?_)
    | (with_reducible refine modDie_keeps ?_)
    | (with_reducible refine endRead_keeps ?_)
    | (with_reducible refine unitLost_keeps ?_)
    | (with_reducible refine foldl_keeps (fun s x h => ?_) ?_)
    | (with_reducible refine foldl_pair_keeps (fun s x h => ?_) ?_)
    | (with_reducible refine foldl_fst_keeps (fun s x h => ?_) ?_)
    | dsimp only
    | split

theorem powerFail_keeps {s₀ s : State} (hk : Keeps s₀ s) :
    Keeps s₀ (powerFail s) := by
  unfold powerFail
  repeat' first
    | with_reducible assumption
    | (with_reducible refine modMire_keeps ?_)

theorem undoRecords_keeps {s₀ s : State} {rs : List JournalRec} (hk : Keeps s₀ s) :
    Keeps s₀ (undoRecords rs s) := by
  unfold undoRecords
  repeat' first
    | with_reducible assumption
    | (with_reducible refine modMire_keeps ?_)
    | (with_reducible refine modMem_keeps (fun m hm => by simp_all [Mems.wf, Memory.wf_writeN]) ?_)
    | (with_reducible refine foldl_keeps (fun s x h => ?_) ?_)
    | (with_reducible refine foldl_pair_keeps (fun s x h => ?_) ?_)
    | (with_reducible refine foldl_fst_keeps (fun s x h => ?_) ?_)
    | dsimp only
    | split

theorem endDump_keeps {s₀ s : State} {d n found : Nat} (hk : Keeps s₀ s) :
    Keeps s₀ (endDump d n found s) := by
  unfold endDump
  repeat' first
    | with_reducible assumption
    | (extract_lets +onlyGivenNames x; first
        | (refine keeps_cut (s₀ := s₀) (t := x) ?_ fun hx => ?_) <;> first | (revert hx; clear_value x; intro _) | subst x
        | clear_value x
        | subst x)
    | (with_reducible refine keeps_ite ?_ ?_)
    | (with_reducible refine modDie_keeps ?_)
    | (with_reducible refine undoRecords_keeps ?_)
    | split

theorem formatFlash_keeps {s₀ s : State} {good : List (Nat × Nat × Nat)} {aside : Nat} (hk : Keeps s₀ s) :
    Keeps s₀ (formatFlash good aside s).2 := by
  unfold formatFlash
  repeat' first
    | with_reducible assumption
    | (extract_lets +onlyGivenNames x; first
        | (refine keeps_cut (s₀ := s₀) (t := x) ?_ fun hx => ?_) <;> first | (revert hx; clear_value x; intro _) | subst x
        | (refine keeps_cut2 (s₀ := s₀) (t := x) ?_ fun hx => ?_) <;> first | (revert hx; clear_value x; intro _) | subst x
        | clear_value x
        | subst x)
    | (with_reducible refine keeps_ite2 ?_ ?_)
    | (with_reducible refine keeps_ite ?_ ?_)
    | (with_reducible refine modMire_keeps ?_)
    | (with_reducible refine modMem_keeps (fun m hm => by simp_all [Mems.wf]) ?_)
    | (with_reducible refine setCount_keeps ?_)
    | (with_reducible refine foldl_keeps (fun s x h => ?_) ?_)
    | (with_reducible refine foldl_pair_keeps (fun s x h => ?_) ?_)
    | (with_reducible refine foldl_fst_keeps (fun s x h => ?_) ?_)
    | dsimp only
    | split

theorem nsResult_keeps {s₀ s : State} {n code : Nat} (hk : Keeps s₀ s) :
    Keeps s₀ (nsResult n code s) := by
  unfold nsResult
  repeat' first
    | with_reducible assumption
    | (with_reducible refine setCount_keeps ?_)

theorem createSpace_keeps {s₀ s : State} {n : Nat} (hk : Keeps s₀ s) :
    Keeps s₀ (createSpace n s) := by
  unfold createSpace
  repeat' first
    | with_reducible assumption
    | (extract_lets +onlyGivenNames x; first
        | (refine keeps_cut (s₀ := s₀) (t := x) ?_ fun hx => ?_) <;> first | (revert hx; clear_value x; intro _) | subst x
        | clear_value x
        | subst x)
    | (with_reducible refine keeps_ite ?_ ?_)
    | (with_reducible refine modMire_keeps ?_)
    | (with_reducible refine nsResult_keeps ?_)
    | split

theorem clearUnits_keeps {s₀ s : State} {a b : Nat} (hk : Keeps s₀ s) :
    Keeps s₀ (clearUnits a b s) := by
  unfold clearUnits
  repeat' first
    | with_reducible assumption
    | (with_reducible refine modMire_keeps ?_)
    | (with_reducible refine modMem_keeps (fun m hm => by simp_all [Mems.wf, Memory.wf_zero]) ?_)

theorem destroySpace_keeps {s₀ s : State} {n : Nat} {used : Bool} (hk : Keeps s₀ s) :
    Keeps s₀ (destroySpace n used s) := by
  unfold destroySpace
  repeat' first
    | with_reducible assumption
    | (with_reducible refine keeps_ite ?_ ?_)
    | (with_reducible refine modMire_keeps ?_)
    | (with_reducible refine nsResult_keeps ?_)
    | (with_reducible refine clearUnits_keeps ?_)
    | split

theorem discardUnits_keeps {s₀ s : State} {n : Nat} (hk : Keeps s₀ s) :
    Keeps s₀ (discardUnits n s) := by
  unfold discardUnits
  repeat' first
    | with_reducible assumption
    | (extract_lets +onlyGivenNames x; first
        | (refine keeps_cut (s₀ := s₀) (t := x) ?_ fun hx => ?_) <;> first | (revert hx; clear_value x; intro _) | subst x
        | clear_value x
        | subst x)
    | (with_reducible refine keeps_ite ?_ ?_)
    | (with_reducible refine modMire_keeps ?_)
    | (with_reducible refine nsResult_keeps ?_)
    | split

theorem writeFlashKey_keeps {s₀ s : State} {p : Nat} {key : Bytes} (hk : Keeps s₀ s) :
    Keeps s₀ (writeFlashKey p key s).2 := by
  unfold writeFlashKey
  repeat' first
    | with_reducible assumption
    | (with_reducible refine keeps_ite2 ?_ ?_)
    | (with_reducible refine keeps_ite ?_ ?_)
    | (with_reducible refine modMire_keeps ?_)
    | (with_reducible refine installKeyAt_keeps ?_)
    | dsimp only
    | split

end Sys2Proof.Machine
end

