-- ==== Sys2Proof/Laws/KeepsTiers.lean ====
section
/-! SUPPORT. What the operations of Machine/Tiers.lean keep. -/

namespace Sys2Proof.Machine

open Sys2Proof

theorem addRegion_keeps {s₀ s : State} {r : Region} (hk : Keeps s₀ s) :
    Keeps s₀ (addRegion r s) := by
  unfold addRegion
  repeat' first
    | with_reducible assumption
    | (with_reducible refine modClaims_keeps ?_)

theorem zeroCarr_keeps {s₀ s : State} {base size : Nat} (hk : Keeps s₀ s) :
    Keeps s₀ (zeroCarr base size s) := by
  unfold zeroCarr
  repeat' first
    | with_reducible assumption
    | (extract_lets +onlyGivenNames x; first
        | (refine keeps_cut (s₀ := s₀) (t := x) ?_ fun hx => ?_) <;> first | (revert hx; clear_value x; intro _) | subst x
        | clear_value x
        | subst x)
    | (with_reducible refine modCarr_keeps ?_)
    | (with_reducible refine modMem_keeps (fun m hm => by simp_all [Mems.wf, Memory.wf_filter]) ?_)

theorem zeroRegion_keeps {s₀ s : State} {r : Region} (hk : Keeps s₀ s) :
    Keeps s₀ (zeroRegion r s) := by
  unfold zeroRegion
  repeat' first
    | with_reducible assumption
    | (with_reducible refine keeps_ite ?_ ?_)
    | (with_reducible refine modMem_keeps (fun m hm => by simp_all [Mems.wf, Memory.wf_zero]) ?_)
    | (with_reducible refine zeroCarr_keeps ?_)
    | split

theorem releaseRegions_keeps {s₀ s : State} {use : RegionUse} (hk : Keeps s₀ s) :
    Keeps s₀ (releaseRegions use s) := by
  unfold releaseRegions
  repeat' first
    | with_reducible assumption
    | (extract_lets +onlyGivenNames x; first
        | (refine keeps_cut (s₀ := s₀) (t := x) ?_ fun hx => ?_) <;> first | (revert hx; clear_value x; intro _) | subst x
        | (refine keeps_cut2 (s₀ := s₀) (t := x) ?_ fun hx => ?_) <;> first | (revert hx; clear_value x; intro _) | subst x
        | clear_value x
        | subst x)
    | (with_reducible refine modClaims_keeps ?_)
    | (with_reducible refine zeroRegion_keeps ?_)
    | (with_reducible refine foldl_keeps (fun s x h => ?_) ?_)
    | (with_reducible refine foldl_pair_keeps (fun s x h => ?_) ?_)
    | (with_reducible refine foldl_fst_keeps (fun s x h => ?_) ?_)
    | dsimp only

theorem writePc_keeps {s₀ s : State} {pc l : Nat} {bs : Bytes} (hk : Keeps s₀ s) :
    Keeps s₀ (writePc pc l bs s) := by
  unfold writePc
  repeat' first
    | with_reducible assumption
    | (with_reducible refine modCarr_keeps ?_)
    | (with_reducible refine modMem_keeps (fun m hm => by simp_all [Mems.wf, Memory.wf_writeN]) ?_)

theorem writeParts_keeps {s₀ s : State} {fuel a : Nat} {bs : Bytes} (hk : Keeps s₀ s) :
    Keeps s₀ (writeParts fuel a bs s) := by
  induction fuel generalizing a bs s with
  | zero =>
    unfold writeParts
    repeat' first
      | with_reducible assumption
      | (extract_lets +onlyGivenNames x; first
          | (refine keeps_cut (s₀ := s₀) (t := x) ?_ fun hx => ?_) <;> first | (revert hx; clear_value x; intro _) | subst x
          | clear_value x
          | subst x)
      | (with_reducible refine keeps_ite ?_ ?_)
      | (with_reducible refine writePc_keeps ?_)
      | split
  | succ m ih =>
    unfold writeParts
    repeat' first
      | cases ‹_ + 1 = Nat.succ _›
      | with_reducible assumption
      | (extract_lets +onlyGivenNames x; first
          | (refine keeps_cut (s₀ := s₀) (t := x) ?_ fun hx => ?_) <;> first | (revert hx; clear_value x; intro _) | subst x
          | clear_value x
          | subst x)
      | (with_reducible refine keeps_ite ?_ ?_)
      | (with_reducible refine ih ?_)
      | (with_reducible refine writePc_keeps ?_)
      | split

theorem writeI_keeps {s₀ s : State} {a : Nat} {bs : Bytes} (hk : Keeps s₀ s) :
    Keeps s₀ (writeI a bs s) := by
  unfold writeI
  repeat' first
    | with_reducible assumption
    | (with_reducible refine writeParts_keeps ?_)

theorem modTiers_keeps {s₀ s : State} {f : Tiers → Tiers} (hk : Keeps s₀ s) :
    Keeps s₀ (modTiers f s) := by
  unfold modTiers
  repeat' first
    | with_reducible assumption
    | (with_reducible refine modData_keeps ?_)

theorem readObj_keeps {s₀ s : State} {o : TierObj} {off n : Nat} (hk : Keeps s₀ s) :
    Keeps s₀ (readObj o off n s).2 := by
  unfold readObj
  repeat' first
    | with_reducible assumption
    | (with_reducible refine keeps_ite2 ?_ ?_)
    | (with_reducible refine keeps_ite ?_ ?_)
    | (with_reducible refine spaceBytes_keeps ?_)
    | (with_reducible refine keeps_of_pair (spaceBytes_keeps ?_) ‹_›)
    | dsimp only
    | split

theorem writeSpace_keeps {s₀ s : State} {fuel ns off : Nat} {bs : Bytes} (hk : Keeps s₀ s) :
    Keeps s₀ (writeSpace fuel ns off bs s) := by
  induction fuel generalizing ns off bs s with
  | zero =>
    unfold writeSpace
    repeat' first
      | with_reducible assumption
      | (extract_lets +onlyGivenNames x; first
          | (refine keeps_cut (s₀ := s₀) (t := x) ?_ fun hx => ?_) <;> first | (revert hx; clear_value x; intro _) | subst x
          | clear_value x
          | subst x)
      | (with_reducible refine keeps_ite ?_ ?_)
      | (with_reducible refine commitUnit_keeps ?_)
      | split
  | succ m ih =>
    unfold writeSpace
    repeat' first
      | cases ‹_ + 1 = Nat.succ _›
      | with_reducible assumption
      | (extract_lets +onlyGivenNames x; first
          | (refine keeps_cut (s₀ := s₀) (t := x) ?_ fun hx => ?_) <;> first | (revert hx; clear_value x; intro _) | subst x
          | clear_value x
          | subst x)
      | (with_reducible refine keeps_ite ?_ ?_)
      | (with_reducible refine ih ?_)
      | (with_reducible refine commitUnit_keeps ?_)
      | split

theorem writeObj_keeps {s₀ s : State} {o : TierObj} {off : Nat} {bs : Bytes} (hk : Keeps s₀ s) :
    Keeps s₀ (writeObj o off bs s) := by
  unfold writeObj
  repeat' first
    | with_reducible assumption
    | (with_reducible refine keeps_ite ?_ ?_)
    | (with_reducible refine modMem_keeps (fun m hm => by simp_all [Mems.wf, Memory.wf_writeN]) ?_)
    | (with_reducible refine writeSpace_keeps ?_)
    | (with_reducible refine writeI_keeps ?_)
    | split

theorem zeroObj_keeps {s₀ s : State} {o : TierObj} (hk : Keeps s₀ s) :
    Keeps s₀ (zeroObj o s) := by
  unfold zeroObj
  repeat' first
    | with_reducible assumption
    | (extract_lets +onlyGivenNames x; first
        | (refine keeps_cut (s₀ := s₀) (t := x) ?_ fun hx => ?_) <;> first | (revert hx; clear_value x; intro _) | subst x
        | clear_value x
        | subst x)
    | (with_reducible refine keeps_ite ?_ ?_)
    | (with_reducible refine modMem_keeps (fun m hm => by simp_all [Mems.wf, Memory.wf_zero]) ?_)
    | (with_reducible refine clearUnits_keeps ?_)
    | (with_reducible refine zeroCarr_keeps ?_)
    | split

theorem tierResult_keeps {s₀ s : State} {p code : Nat} (hk : Keeps s₀ s) :
    Keeps s₀ (tierResult p code s).2 := by
  unfold tierResult
  repeat' first
    | with_reducible assumption
    | (with_reducible refine setCount_keeps ?_)
    | dsimp only

theorem putObject_keeps {s₀ s : State} {p n : Nat} {o : TierObj} (hk : Keeps s₀ s) :
    Keeps s₀ (putObject p n o s) := by
  unfold putObject
  repeat' first
    | with_reducible assumption
    | (extract_lets +onlyGivenNames x; first
        | (refine keeps_cut (s₀ := s₀) (t := x) ?_ fun hx => ?_) <;> first | (revert hx; clear_value x; intro _) | subst x
        | clear_value x
        | subst x)
    | (with_reducible refine keeps_ite ?_ ?_)
    | (with_reducible refine addRegion_keeps ?_)
    | (with_reducible refine zeroObj_keeps ?_)
    | (with_reducible refine modTiers_keeps ?_)
    | split

theorem startHotArea_keeps {s₀ s : State} {p id : Nat} {o : TierObj} (hk : Keeps s₀ s) :
    Keeps s₀ (startHotArea p id o s) := by
  unfold startHotArea
  repeat' first
    | with_reducible assumption
    | (extract_lets +onlyGivenNames x; first
        | (refine keeps_cut (s₀ := s₀) (t := x) ?_ fun hx => ?_) <;> first | (revert hx; clear_value x; intro _) | subst x
        | clear_value x
        | subst x)
    | (with_reducible refine modData_keeps ?_)
    | (with_reducible refine writeObj_keeps ?_)
    | split

theorem tierCreate_keeps {s₀ s : State} {p : Nat} (hk : Keeps s₀ s) :
    Keeps s₀ (tierCreate p s).2 := by
  unfold tierCreate
  repeat' first
    | with_reducible assumption
    | (extract_lets +onlyGivenNames x; first
        | (refine keeps_cut (s₀ := s₀) (t := x) ?_ fun hx => ?_) <;> first | (revert hx; clear_value x; intro _) | subst x
        | (refine keeps_cut2 (s₀ := s₀) (t := x) ?_ fun hx => ?_) <;> first | (revert hx; clear_value x; intro _) | subst x
        | clear_value x
        | subst x)
    | (with_reducible refine keeps_ite2 ?_ ?_)
    | (with_reducible refine keeps_ite ?_ ?_)
    | (with_reducible refine tierResult_keeps ?_)
    | (with_reducible refine keeps_of_pair (tierResult_keeps ?_) ‹_›)
    | (with_reducible refine putObject_keeps ?_)
    | (with_reducible refine startHotArea_keeps ?_)
    | (with_reducible refine setCount_keeps ?_)
    | dsimp only
    | split

theorem dropObject_keeps {s₀ s : State} {id : Nat} (hk : Keeps s₀ s) :
    Keeps s₀ (dropObject id s) := by
  unfold dropObject
  repeat' first
    | with_reducible assumption
    | (extract_lets +onlyGivenNames x; first
        | (refine keeps_cut (s₀ := s₀) (t := x) ?_ fun hx => ?_) <;> first | (revert hx; clear_value x; intro _) | subst x
        | clear_value x
        | subst x)
    | (with_reducible refine keeps_ite ?_ ?_)
    | (with_reducible refine modData_keeps ?_)
    | (with_reducible refine releaseRegions_keeps ?_)
    | (with_reducible refine zeroObj_keeps ?_)
    | (with_reducible refine modTiers_keeps ?_)
    | split

theorem tierDestroy_keeps {s₀ s : State} {p : Nat} (hk : Keeps s₀ s) :
    Keeps s₀ (tierDestroy p s).2 := by
  unfold tierDestroy
  repeat' first
    | with_reducible assumption
    | (extract_lets +onlyGivenNames x; first
        | (refine keeps_cut (s₀ := s₀) (t := x) ?_ fun hx => ?_) <;> first | (revert hx; clear_value x; intro _) | subst x
        | (refine keeps_cut2 (s₀ := s₀) (t := x) ?_ fun hx => ?_) <;> first | (revert hx; clear_value x; intro _) | subst x
        | clear_value x
        | subst x)
    | (with_reducible refine keeps_ite2 ?_ ?_)
    | (with_reducible refine keeps_ite ?_ ?_)
    | (with_reducible refine tierResult_keeps ?_)
    | (with_reducible refine keeps_of_pair (tierResult_keeps ?_) ‹_›)
    | (with_reducible refine dropObject_keeps ?_)
    | dsimp only
    | split

theorem tierMove_keeps {s₀ s : State} {p : Nat} (hk : Keeps s₀ s) :
    Keeps s₀ (tierMove p s).2 := by
  unfold tierMove
  repeat' first
    | with_reducible assumption
    | (extract_lets +onlyGivenNames x; first
        | (refine keeps_cut (s₀ := s₀) (t := x) ?_ fun hx => ?_) <;> first | (revert hx; clear_value x; intro _) | subst x
        | (refine keeps_cut2 (s₀ := s₀) (t := x) ?_ fun hx => ?_) <;> first | (revert hx; clear_value x; intro _) | subst x
        | clear_value x
        | subst x)
    | (with_reducible refine keeps_ite2 ?_ ?_)
    | (with_reducible refine keeps_ite ?_ ?_)
    | (with_reducible refine tierResult_keeps ?_)
    | (with_reducible refine keeps_of_pair (tierResult_keeps ?_) ‹_›)
    | (with_reducible refine modTiers_keeps ?_)
    | dsimp only
    | split

end Sys2Proof.Machine
end

