-- ==== Sys2Proof/Laws/KeepsAccess.lean ====
section
/-! SUPPORT. What the operations of Machine/Access.lean keep. -/

namespace Sys2Proof.Machine

open Sys2Proof

theorem tileGet_keeps {s₀ s : State} {own t a n : Nat} (hk : Keeps s₀ s) :
    Keeps s₀ (tileGet own t a n s).2 := by
  unfold tileGet
  repeat' first
    | with_reducible assumption
    | (with_reducible refine keeps_ite2 ?_ ?_)
    | (with_reducible refine keeps_ite ?_ ?_)
    | (with_reducible refine firewallHit_keeps ?_)
    | dsimp only
    | split

theorem tilePut_keeps {s₀ s : State} {own t a : Nat} {bs : Bytes} (hk : Keeps s₀ s) :
    Keeps s₀ (tilePut own t a bs s) := by
  unfold tilePut
  repeat' first
    | with_reducible assumption
    | (with_reducible refine keeps_ite ?_ ?_)
    | (with_reducible refine modMem_keeps (fun m hm => by simp_all [Mems.wf, Memory.wf_writeN]) ?_)
    | (with_reducible refine firewallHit_keeps ?_)
    | split

theorem carrPut_keeps {s₀ s : State} {fuel a : Nat} {bs : Bytes} (hk : Keeps s₀ s) :
    Keeps s₀ (carrPut fuel a bs s) := by
  induction fuel generalizing a bs s with
  | zero =>
    unfold carrPut
    repeat' first
      | with_reducible assumption
      | (extract_lets +onlyGivenNames x; first
          | (refine keeps_cut (s₀ := s₀) (t := x) ?_ fun hx => ?_) <;> first | (revert hx; clear_value x; intro _) | subst x
          | clear_value x
          | subst x)
      | (with_reducible refine keeps_ite ?_ ?_)
      | (with_reducible refine writePc_keeps ?_)
      | split
  | succ m ih =>
    unfold carrPut
    repeat' first
      | cases ‹_ + 1 = Nat.succ _›
      | with_reducible assumption
      | (extract_lets +onlyGivenNames x; first
          | (refine keeps_cut (s₀ := s₀) (t := x) ?_ fun hx => ?_) <;> first | (revert hx; clear_value x; intro _) | subst x
          | clear_value x
          | subst x)
      | (with_reducible refine keeps_ite ?_ ?_)
      | (with_reducible refine ih ?_)
      | (with_reducible refine writePc_keeps ?_)
      | split

theorem noteCarrWait_keeps {s₀ s : State} {a : Nat} (hk : Keeps s₀ s) :
    Keeps s₀ (noteCarrWait a s) := by
  unfold noteCarrWait
  repeat' first
    | with_reducible assumption
    | (with_reducible refine keeps_ite ?_ ?_)
    | (with_reducible refine bump_keeps ?_)
    | split

theorem raiseField_keeps {s₀ s : State} {part field : Nat} (hk : Keeps s₀ s) :
    Keeps s₀ (raiseField part field s) := by
  unfold raiseField
  repeat' first
    | with_reducible assumption
    | (with_reducible refine keeps_ite ?_ ?_)
    | (with_reducible refine signalCell_keeps ?_)
    | split

theorem markError_keeps {s₀ s : State} {k stage : Nat} (hk : Keeps s₀ s) :
    Keeps s₀ (markError k stage s).2 := by
  unfold markError
  repeat' first
    | with_reducible assumption
    | (with_reducible refine keeps_ite2 ?_ ?_)
    | (with_reducible refine keeps_ite ?_ ?_)
    | (with_reducible refine modUnits_keeps ?_)
    | dsimp only
    | split

end Sys2Proof.Machine
end

