-- ==== Sys2Proof/Laws/KeepsIndex.lean ====
section
/-! SUPPORT. What the operations of Machine/Index.lean keep. -/

namespace Sys2Proof.Machine

open Sys2Proof

theorem putIndex_keeps {s₀ s : State} {k : Nat} {x : SearchIndex} (hk : Keeps s₀ s) :
    Keeps s₀ (putIndex k x s) := by
  unfold putIndex
  repeat' first
    | with_reducible assumption
    | (with_reducible refine modData_keeps ?_)

theorem linkKey_keeps {s₀ s : State} {k : Nat} {x : SearchIndex} {h key : Nat} (hk : Keeps s₀ s) :
    Keeps s₀ (linkKey k x h key s) := by
  unfold linkKey
  repeat' first
    | with_reducible assumption
    | (extract_lets +onlyGivenNames x; first
        | (refine keeps_cut (s₀ := s₀) (t := x) ?_ fun hx => ?_) <;> first | (revert hx; clear_value x; intro _) | subst x
        | clear_value x
        | subst x)
    | (with_reducible refine writeI_keeps ?_)

theorem unlinkKey_keeps {s₀ s : State} {k : Nat} {x : SearchIndex} {h key : Nat} (hk : Keeps s₀ s) :
    Keeps s₀ (unlinkKey k x h key s) := by
  unfold unlinkKey
  repeat' first
    | with_reducible assumption
    | (extract_lets +onlyGivenNames x; first
        | (refine keeps_cut (s₀ := s₀) (t := x) ?_ fun hx => ?_) <;> first | (revert hx; clear_value x; intro _) | subst x
        | clear_value x
        | subst x)
    | (with_reducible refine keeps_ite ?_ ?_)
    | (with_reducible refine writeI_keeps ?_)
    | split

theorem writeBit_keeps {s₀ s : State} {pc : Nat} {at_ : Nat × Nat} {v : Bool} (hk : Keeps s₀ s) :
    Keeps s₀ (writeBit pc at_ v s) := by
  unfold writeBit
  repeat' first
    | with_reducible assumption
    | (extract_lets +onlyGivenNames x; first
        | (refine keeps_cut (s₀ := s₀) (t := x) ?_ fun hx => ?_) <;> first | (revert hx; clear_value x; intro _) | subst x
        | clear_value x
        | subst x)
    | (with_reducible refine keeps_ite ?_ ?_)
    | (with_reducible refine writePc_keeps ?_)
    | split

theorem writeTomb_keeps {s₀ s : State} {x : SearchIndex} {h : Nat} {dead : Bool} (hk : Keeps s₀ s) :
    Keeps s₀ (writeTomb x h dead s) := by
  unfold writeTomb
  repeat' first
    | with_reducible assumption
    | (with_reducible refine writeBit_keeps ?_)

theorem writeAttrs_keeps {s₀ s : State} {x : SearchIndex} {h attrs : Nat} (hk : Keeps s₀ s) :
    Keeps s₀ (writeAttrs x h attrs s) := by
  unfold writeAttrs
  repeat' first
    | with_reducible assumption
    | (with_reducible refine writeBit_keeps ?_)
    | (with_reducible refine foldl_keeps (fun s x h => ?_) ?_)
    | (with_reducible refine foldl_pair_keeps (fun s x h => ?_) ?_)
    | (with_reducible refine foldl_fst_keeps (fun s x h => ?_) ?_)
    | dsimp only

theorem writeCell_keeps {s₀ s : State} {x : SearchIndex} {c : Nat} (hk : Keeps s₀ s) :
    Keeps s₀ (writeCell x c s) := by
  unfold writeCell
  repeat' first
    | with_reducible assumption
    | (extract_lets +onlyGivenNames x; first
        | (refine keeps_cut (s₀ := s₀) (t := x) ?_ fun hx => ?_) <;> first | (revert hx; clear_value x; intro _) | subst x
        | clear_value x
        | subst x)
    | (with_reducible refine writeI_keeps ?_)

theorem writeSide_keeps {s₀ s : State} {k : Nat} {x : SearchIndex} {pos : Nat} {bytes : Bytes} {gen : Nat} (hk : Keeps s₀ s) :
    Keeps s₀ (writeSide k x pos bytes gen s) := by
  unfold writeSide
  repeat' first
    | with_reducible assumption
    | (extract_lets +onlyGivenNames x; first
        | (refine keeps_cut (s₀ := s₀) (t := x) ?_ fun hx => ?_) <;> first | (revert hx; clear_value x; intro _) | subst x
        | (refine keeps_cut2 (s₀ := s₀) (t := x) ?_ fun hx => ?_) <;> first | (revert hx; clear_value x; intro _) | subst x
        | clear_value x
        | subst x)
    | (with_reducible refine modMem_keeps (fun m hm => by simp_all [Mems.wf, Memory.wf_writeN, Memory.wf_write]) ?_)
    | (with_reducible refine writeI_keeps ?_)
    | (with_reducible refine foldl_keeps (fun s x h => ?_) ?_)
    | (with_reducible refine foldl_pair_keeps (fun s x h => ?_) ?_)
    | (with_reducible refine foldl_fst_keeps (fun s x h => ?_) ?_)
    | dsimp only

theorem copySides_keeps {s₀ s : State} {k : Nat} (hk : Keeps s₀ s) :
    Keeps s₀ (copySides k s) := by
  unfold copySides
  repeat' first
    | with_reducible assumption
    | (with_reducible refine keeps_ite ?_ ?_)
    | (with_reducible refine writeSide_keeps ?_)
    | (with_reducible refine foldl_keeps (fun s x h => ?_) ?_)
    | (with_reducible refine foldl_pair_keeps (fun s x h => ?_) ?_)
    | (with_reducible refine foldl_fst_keeps (fun s x h => ?_) ?_)
    | dsimp only
    | split

theorem writeLog_keeps {s₀ s : State} {k pc : Nat} {e : LogEntry} (hk : Keeps s₀ s) :
    Keeps s₀ (writeLog k pc e s) := by
  unfold writeLog
  repeat' first
    | with_reducible assumption
    | (with_reducible refine putIndex_keeps ?_)
    | (with_reducible refine writePc_keeps ?_)
    | split

theorem sweepIndex_keeps {s₀ s : State} {k : Nat} (hk : Keeps s₀ s) :
    Keeps s₀ (sweepIndex k s) := by
  unfold sweepIndex
  repeat' first
    | with_reducible assumption
    | (extract_lets +onlyGivenNames x; first
        | (refine keeps_cut (s₀ := s₀) (t := x) ?_ fun hx => ?_) <;> first | (revert hx; clear_value x; intro _) | subst x
        | (refine keeps_cut2 (s₀ := s₀) (t := x) ?_ fun hx => ?_) <;> first | (revert hx; clear_value x; intro _) | subst x
        | clear_value x
        | subst x)
    | (with_reducible refine writeSide_keeps ?_)
    | (with_reducible refine putIndex_keeps ?_)
    | (with_reducible refine writeCell_keeps ?_)
    | (with_reducible refine foldl_keeps (fun s x h => ?_) ?_)
    | (with_reducible refine foldl_pair_keeps (fun s x h => ?_) ?_)
    | (with_reducible refine foldl_fst_keeps (fun s x h => ?_) ?_)
    | dsimp only
    | split

theorem countThrough_keeps {s₀ s : State} (hk : Keeps s₀ s) :
    Keeps s₀ (countThrough s) := by
  unfold countThrough
  repeat' first
    | with_reducible assumption
    | (extract_lets +onlyGivenNames x; first
        | (refine keeps_cut (s₀ := s₀) (t := x) ?_ fun hx => ?_) <;> first | (revert hx; clear_value x; intro _) | subst x
        | clear_value x
        | subst x)
    | (with_reducible refine keeps_ite ?_ ?_)
    | (with_reducible refine annal_keeps ?_)
    | (with_reducible refine bump_keeps ?_)
    | split

theorem patchSpace_keeps {s₀ s : State} {fuel ns off : Nat} {bs : Bytes} (hk : Keeps s₀ s) :
    Keeps s₀ (patchSpace fuel ns off bs s) := by
  induction fuel generalizing ns off bs s with
  | zero =>
    unfold patchSpace
    repeat' first
      | with_reducible assumption
      | (extract_lets +onlyGivenNames x; first
          | (refine keeps_cut (s₀ := s₀) (t := x) ?_ fun hx => ?_) <;> first | (revert hx; clear_value x; intro _) | subst x
          | clear_value x
          | subst x)
      | (with_reducible refine keeps_ite ?_ ?_)
      | (with_reducible refine charge_keeps ?_)
      | (with_reducible refine commitUnit_keeps ?_)
      | split
  | succ m ih =>
    unfold patchSpace
    repeat' first
      | cases ‹_ + 1 = Nat.succ _›
      | with_reducible assumption
      | (extract_lets +onlyGivenNames x; first
          | (refine keeps_cut (s₀ := s₀) (t := x) ?_ fun hx => ?_) <;> first | (revert hx; clear_value x; intro _) | subst x
          | clear_value x
          | subst x)
      | (with_reducible refine keeps_ite ?_ ?_)
      | (with_reducible refine ih ?_)
      | (with_reducible refine charge_keeps ?_)
      | (with_reducible refine commitUnit_keeps ?_)
      | split

theorem takeUpdate_keeps {s₀ s : State} {u : Update} {c detail : Nat} (hk : Keeps s₀ s) :
    Keeps s₀ (takeUpdate u c detail s) := by
  unfold takeUpdate
  repeat' first
    | with_reducible assumption
    | (with_reducible refine modLevee_keeps ?_)

theorem endItem_keeps {s₀ s : State} {k h : Nat} {it : Item} {c : Nat} (hk : Keeps s₀ s) :
    Keeps s₀ (endItem k h it c s) := by
  unfold endItem
  repeat' first
    | with_reducible assumption
    | (extract_lets +onlyGivenNames x; first
        | (refine keeps_cut (s₀ := s₀) (t := x) ?_ fun hx => ?_) <;> first | (revert hx; clear_value x; intro _) | subst x
        | clear_value x
        | subst x)
    | (with_reducible refine keeps_ite ?_ ?_)
    | (with_reducible refine putIndex_keeps ?_)
    | (with_reducible refine writeSide_keeps ?_)
    | (with_reducible refine writeLog_keeps ?_)
    | (with_reducible refine writeTomb_keeps ?_)
    | split

theorem settleIndex_keeps {s₀ s : State} {k : Nat} {hs : List Nat} {c : Nat} (hk : Keeps s₀ s) :
    Keeps s₀ (settleIndex k hs c s) := by
  unfold settleIndex
  repeat' first
    | with_reducible assumption
    | (extract_lets +onlyGivenNames x; first
        | (refine keeps_cut (s₀ := s₀) (t := x) ?_ fun hx => ?_) <;> first | (revert hx; clear_value x; intro _) | subst x
        | (refine keeps_cut2 (s₀ := s₀) (t := x) ?_ fun hx => ?_) <;> first | (revert hx; clear_value x; intro _) | subst x
        | clear_value x
        | subst x)
    | (with_reducible refine sweepIndex_keeps ?_)
    | (with_reducible refine writeCell_keeps ?_)
    | (with_reducible refine putIndex_keeps ?_)
    | (with_reducible refine foldl_keeps (fun s x h => ?_) ?_)
    | (with_reducible refine foldl_pair_keeps (fun s x h => ?_) ?_)
    | (with_reducible refine foldl_fst_keeps (fun s x h => ?_) ?_)
    | dsimp only
    | split

theorem stallIndex_keeps {s₀ s : State} {k : Nat} {x : SearchIndex} (hk : Keeps s₀ s) :
    Keeps s₀ (stallIndex k x s) := by
  unfold stallIndex
  repeat' first
    | with_reducible assumption
    | (with_reducible refine keeps_ite ?_ ?_)
    | (with_reducible refine bump_keeps ?_)
    | (with_reducible refine putIndex_keeps ?_)
    | split

theorem dropRecord_keeps {s₀ s : State} {p i cause key : Nat} (hk : Keeps s₀ s) :
    Keeps s₀ (dropRecord p i cause key s) := by
  unfold dropRecord
  repeat' first
    | with_reducible assumption
    | (with_reducible refine annal_keeps ?_)

theorem placeItem_keeps {s₀ s : State} {k : Nat} {x : SearchIndex} {h : Nat} {u : Update} {c : Nat} (hk : Keeps s₀ s) :
    Keeps s₀ (placeItem k x h u c s) := by
  unfold placeItem
  repeat' first
    | with_reducible assumption
    | (extract_lets +onlyGivenNames x; first
        | (refine keeps_cut (s₀ := s₀) (t := x) ?_ fun hx => ?_) <;> first | (revert hx; clear_value x; intro _) | subst x
        | clear_value x
        | subst x)
    | (with_reducible refine keeps_ite ?_ ?_)
    | (with_reducible refine writeI_keeps ?_)
    | (with_reducible refine linkKey_keeps ?_)
    | (with_reducible refine writeAttrs_keeps ?_)
    | (with_reducible refine patchSpace_keeps ?_)
    | (with_reducible refine writeSide_keeps ?_)
    | (with_reducible refine putIndex_keeps ?_)
    | (with_reducible refine writeTomb_keeps ?_)
    | (with_reducible refine writePc_keeps ?_)
    | (with_reducible refine writeLog_keeps ?_)
    | split

theorem upsertIndex_keeps {s₀ s : State} {u : Update} (hk : Keeps s₀ s) :
    Keeps s₀ (upsertIndex u s) := by
  unfold upsertIndex
  repeat' first
    | with_reducible assumption
    | (extract_lets +onlyGivenNames x; first
        | (refine keeps_cut (s₀ := s₀) (t := x) ?_ fun hx => ?_) <;> first | (revert hx; clear_value x; intro _) | subst x
        | (refine keeps_cut2 (s₀ := s₀) (t := x) ?_ fun hx => ?_) <;> first | (revert hx; clear_value x; intro _) | subst x
        | clear_value x
        | subst x)
    | (with_reducible refine keeps_ite ?_ ?_)
    | (with_reducible refine takeUpdate_keeps ?_)
    | (with_reducible refine dropRecord_keeps ?_)
    | (with_reducible refine bump_keeps ?_)
    | (with_reducible refine putIndex_keeps ?_)
    | (with_reducible refine stallIndex_keeps ?_)
    | (with_reducible refine unlinkKey_keeps ?_)
    | (with_reducible refine placeItem_keeps ?_)
    | (with_reducible refine endItem_keeps ?_)
    | (with_reducible refine settleIndex_keeps ?_)
    | (with_reducible refine countThrough_keeps ?_)
    | split

theorem deleteIndex_keeps {s₀ s : State} {u : Update} (hk : Keeps s₀ s) :
    Keeps s₀ (deleteIndex u s) := by
  unfold deleteIndex
  repeat' first
    | with_reducible assumption
    | (extract_lets +onlyGivenNames x; first
        | (refine keeps_cut (s₀ := s₀) (t := x) ?_ fun hx => ?_) <;> first | (revert hx; clear_value x; intro _) | subst x
        | clear_value x
        | subst x)
    | (with_reducible refine keeps_ite ?_ ?_)
    | (with_reducible refine takeUpdate_keeps ?_)
    | (with_reducible refine putIndex_keeps ?_)
    | (with_reducible refine dropRecord_keeps ?_)
    | (with_reducible refine bump_keeps ?_)
    | (with_reducible refine stallIndex_keeps ?_)
    | (with_reducible refine settleIndex_keeps ?_)
    | (with_reducible refine countThrough_keeps ?_)
    | (with_reducible refine endItem_keeps ?_)
    | (with_reducible refine unlinkKey_keeps ?_)
    | split

theorem foldEntry_keeps {s₀ s : State} {k c : Nat} {e : SideEntry} (hk : Keeps s₀ s) :
    Keeps s₀ (foldEntry k c e s) := by
  unfold foldEntry
  repeat' first
    | with_reducible assumption
    | (extract_lets +onlyGivenNames x; first
        | (refine keeps_cut (s₀ := s₀) (t := x) ?_ fun hx => ?_) <;> first | (revert hx; clear_value x; intro _) | subst x
        | clear_value x
        | subst x)
    | (with_reducible refine keeps_ite ?_ ?_)
    | (with_reducible refine writeTomb_keeps ?_)
    | (with_reducible refine writePc_keeps ?_)
    | (with_reducible refine writeSide_keeps ?_)
    | (with_reducible refine putIndex_keeps ?_)
    | (with_reducible refine writeLog_keeps ?_)
    | split

theorem reencode_keeps {s₀ s : State} {k book : Nat} {e : Nat × Item} (hk : Keeps s₀ s) :
    Keeps s₀ (reencode k book e s) := by
  unfold reencode
  repeat' first
    | with_reducible assumption
    | (extract_lets +onlyGivenNames x; first
        | (refine keeps_cut (s₀ := s₀) (t := x) ?_ fun hx => ?_) <;> first | (revert hx; clear_value x; intro _) | subst x
        | (refine keeps_cut2 (s₀ := s₀) (t := x) ?_ fun hx => ?_) <;> first | (revert hx; clear_value x; intro _) | subst x
        | clear_value x
        | subst x)
    | (with_reducible refine keeps_ite ?_ ?_)
    | (with_reducible refine spaceBytes_keeps ?_)
    | (with_reducible refine keeps_of_pair (spaceBytes_keeps ?_) ‹_›)
    | (with_reducible refine putIndex_keeps ?_)
    | (with_reducible refine writeI_keeps ?_)
    | (with_reducible refine writeSide_keeps ?_)
    | (with_reducible refine writePc_keeps ?_)
    | dsimp only
    | split

theorem reindexStep_keeps {s₀ s : State} {k : Nat} (hk : Keeps s₀ s) :
    Keeps s₀ (reindexStep k s) := by
  unfold reindexStep
  repeat' first
    | with_reducible assumption
    | (extract_lets +onlyGivenNames x; first
        | (refine keeps_cut (s₀ := s₀) (t := x) ?_ fun hx => ?_) <;> first | (revert hx; clear_value x; intro _) | subst x
        | (refine keeps_cut2 (s₀ := s₀) (t := x) ?_ fun hx => ?_) <;> first | (revert hx; clear_value x; intro _) | subst x
        | clear_value x
        | subst x)
    | (with_reducible refine keeps_ite ?_ ?_)
    | (with_reducible refine reencode_keeps ?_)
    | (with_reducible refine writeCell_keeps ?_)
    | (with_reducible refine putIndex_keeps ?_)
    | (with_reducible refine cancelEntry_keeps ?_)
    | (with_reducible refine foldl_keeps (fun s x h => ?_) ?_)
    | (with_reducible refine foldl_pair_keeps (fun s x h => ?_) ?_)
    | (with_reducible refine foldl_fst_keeps (fun s x h => ?_) ?_)
    | dsimp only
    | split

theorem claimRun_keeps {s₀ : State} {k size align : Nat} {r : Option (List Nat × State)} (h : KeepsOP s₀ r) :
    KeepsOP s₀ (claimRun k size align r) := by
  unfold claimRun
  split
  · exact keeps_noneOP
  · next l s =>
    have hs : Keeps s₀ s := h _ rfl
    split
    · exact keeps_someOP hs
    · split
      · exact keeps_noneOP
      · exact keeps_someOP (addRegion_keeps hs)

theorem placeIndex_keeps {s₀ s : State} {k : Nat} {x : SearchIndex} (hk : Keeps s₀ s) : KeepsOP s₀ (placeIndex k x s) := by
  unfold placeIndex
  exact keeps_mapOP (fun _ h => h) (claimRun_keeps (claimRun_keeps (claimRun_keeps (claimRun_keeps (claimRun_keeps
    (claimRun_keeps (keeps_someOP hk)))))))

theorem indexObjects_keeps {s₀ s : State} {k : Nat} (hk : Keeps s₀ s) :
    Keeps s₀ (indexObjects k s) := by
  unfold indexObjects
  repeat' first
    | with_reducible assumption
    | (extract_lets +onlyGivenNames x; first
        | (refine keeps_cut (s₀ := s₀) (t := x) ?_ fun hx => ?_) <;> first | (revert hx; clear_value x; intro _) | subst x
        | (refine keeps_cut2 (s₀ := s₀) (t := x) ?_ fun hx => ?_) <;> first | (revert hx; clear_value x; intro _) | subst x
        | clear_value x
        | subst x)
    | (with_reducible refine modTiers_keeps ?_)
    | (with_reducible refine foldl_keeps (fun s x h => ?_) ?_)
    | (with_reducible refine foldl_pair_keeps (fun s x h => ?_) ?_)
    | (with_reducible refine foldl_fst_keeps (fun s x h => ?_) ?_)
    | dsimp only
    | split

theorem blankIndex_keeps {s₀ s : State} {k : Nat} {x : SearchIndex} (hk : Keeps s₀ s) :
    Keeps s₀ (blankIndex k x s) := by
  unfold blankIndex
  repeat' first
    | with_reducible assumption
    | (extract_lets +onlyGivenNames x; first
        | (refine keeps_cut (s₀ := s₀) (t := x) ?_ fun hx => ?_) <;> first | (revert hx; clear_value x; intro _) | subst x
        | (refine keeps_cut2 (s₀ := s₀) (t := x) ?_ fun hx => ?_) <;> first | (revert hx; clear_value x; intro _) | subst x
        | clear_value x
        | subst x)
    | (with_reducible refine keeps_ite ?_ ?_)
    | (with_reducible refine writePc_keeps ?_)
    | (with_reducible refine writeI_keeps ?_)
    | (with_reducible refine writeCell_keeps ?_)
    | (with_reducible refine writeSide_keeps ?_)
    | (with_reducible refine foldl_keeps (fun s x h => ?_) ?_)
    | (with_reducible refine foldl_pair_keeps (fun s x h => ?_) ?_)
    | (with_reducible refine foldl_fst_keeps (fun s x h => ?_) ?_)
    | dsimp only
    | split

theorem indexResult_keeps {s₀ s : State} {k code : Nat} (hk : Keeps s₀ s) :
    Keeps s₀ (indexResult k code s).2 := by
  unfold indexResult
  repeat' first
    | with_reducible assumption
    | (with_reducible refine keeps_ite2 ?_ ?_)
    | (with_reducible refine keeps_ite ?_ ?_)
    | (with_reducible refine setCount_keeps ?_)
    | dsimp only
    | split

theorem indexCreate_keeps {s₀ s : State} {k : Nat} (hk : Keeps s₀ s) : Keeps s₀ (indexCreate k s).2 := by
  have hr {c : Nat} {t : State} (h : Keeps s₀ t) : Keeps s₀ (indexResult k c t).2 := indexResult_keeps h
  unfold indexCreate
  refine keeps_ite2 hk (keeps_ite2 (hr hk) (keeps_ite2 (hr hk) (keeps_ite2 (hr hk) (keeps_ite2 (hr hk) (keeps_ite2 (hr hk) ?_)))))
  split
  · exact hr hk
  · next e =>
    exact hr (indexObjects_keeps (blankIndex_keeps (putIndex_keeps (foldl_keeps (fun _ _ h => setCount_keeps h)
      (KeepsOP.get (placeIndex_keeps hk) e)))))

theorem indexSeal_keeps {s₀ s : State} {k : Nat} (hk : Keeps s₀ s) :
    Keeps s₀ (indexSeal k s).2 := by
  unfold indexSeal
  repeat' first
    | with_reducible assumption
    | (extract_lets +onlyGivenNames x; first
        | (refine keeps_cut (s₀ := s₀) (t := x) ?_ fun hx => ?_) <;> first | (revert hx; clear_value x; intro _) | subst x
        | (refine keeps_cut2 (s₀ := s₀) (t := x) ?_ fun hx => ?_) <;> first | (revert hx; clear_value x; intro _) | subst x
        | clear_value x
        | subst x)
    | (with_reducible refine keeps_ite2 ?_ ?_)
    | (with_reducible refine keeps_ite ?_ ?_)
    | (with_reducible refine indexResult_keeps ?_)
    | (with_reducible refine keeps_of_pair (indexResult_keeps ?_) ‹_›)
    | (with_reducible refine writeCell_keeps ?_)
    | (with_reducible refine putIndex_keeps ?_)
    | (with_reducible refine placeChain_keeps ?_)
    | (with_reducible refine foldl_keeps (fun s x h => ?_) ?_)
    | (with_reducible refine foldl_pair_keeps (fun s x h => ?_) ?_)
    | (with_reducible refine foldl_fst_keeps (fun s x h => ?_) ?_)
    | dsimp only
    | split

theorem indexDestroy_keeps {s₀ s : State} {k : Nat} (hk : Keeps s₀ s) :
    Keeps s₀ (indexDestroy k s).2 := by
  unfold indexDestroy
  repeat' first
    | with_reducible assumption
    | (extract_lets +onlyGivenNames x; first
        | (refine keeps_cut (s₀ := s₀) (t := x) ?_ fun hx => ?_) <;> first | (revert hx; clear_value x; intro _) | subst x
        | (refine keeps_cut2 (s₀ := s₀) (t := x) ?_ fun hx => ?_) <;> first | (revert hx; clear_value x; intro _) | subst x
        | clear_value x
        | subst x)
    | (with_reducible refine keeps_ite2 ?_ ?_)
    | (with_reducible refine keeps_ite ?_ ?_)
    | (with_reducible refine modData_keeps ?_)
    | (with_reducible refine indexResult_keeps ?_)
    | (with_reducible refine keeps_of_pair (indexResult_keeps ?_) ‹_›)
    | (with_reducible refine releaseRegions_keeps ?_)
    | (with_reducible refine cancelEntry_keeps ?_)
    | (with_reducible refine modTiers_keeps ?_)
    | dsimp only
    | split

theorem indexReindex_keeps {s₀ s : State} {k : Nat} (hk : Keeps s₀ s) :
    Keeps s₀ (indexReindex k s).2 := by
  unfold indexReindex
  repeat' first
    | with_reducible assumption
    | (extract_lets +onlyGivenNames x; first
        | (refine keeps_cut (s₀ := s₀) (t := x) ?_ fun hx => ?_) <;> first | (revert hx; clear_value x; intro _) | subst x
        | (refine keeps_cut2 (s₀ := s₀) (t := x) ?_ fun hx => ?_) <;> first | (revert hx; clear_value x; intro _) | subst x
        | clear_value x
        | subst x)
    | (with_reducible refine keeps_ite2 ?_ ?_)
    | (with_reducible refine keeps_ite ?_ ?_)
    | (with_reducible refine indexResult_keeps ?_)
    | (with_reducible refine keeps_of_pair (indexResult_keeps ?_) ‹_›)
    | (with_reducible refine putIndex_keeps ?_)
    | (with_reducible refine placeChain_keeps ?_)
    | dsimp only
    | split

end Sys2Proof.Machine
end

