-- ==== Sys2Proof/Laws/KeepsCauseway.lean ====
section
/-! SUPPORT. What the operations of Machine/Causeway.lean keep. -/

namespace Sys2Proof.Machine

open Sys2Proof

theorem modPort_keeps {s₀ s : State} {n : Nat} {f : FabPort → FabPort} (hk : Keeps s₀ s) :
    Keeps s₀ (modPort n f s) := by
  unfold modPort
  repeat' first
    | with_reducible assumption
    | (with_reducible refine modFab_keeps ?_)

theorem tracePort_keeps {s₀ s : State} {n arg : Nat} (hk : Keeps s₀ s) :
    Keeps s₀ (tracePort n arg s) := by
  unfold tracePort
  repeat' first
    | with_reducible assumption
    | (extract_lets +onlyGivenNames x; first
        | (refine keeps_cut (s₀ := s₀) (t := x) ?_ fun hx => ?_) <;> first | (revert hx; clear_value x; intro _) | subst x
        | clear_value x
        | subst x)
    | (with_reducible refine trace_keeps ?_)

theorem setPort_keeps {s₀ s : State} {n st : Nat} (hk : Keeps s₀ s) :
    Keeps s₀ (setPort n st s) := by
  unfold setPort
  repeat' first
    | with_reducible assumption
    | (with_reducible refine tracePort_keeps ?_)
    | (with_reducible refine modPort_keeps ?_)

theorem dropPort_keeps {s₀ s : State} {n st cause : Nat} (hk : Keeps s₀ s) :
    Keeps s₀ (dropPort n st cause s) := by
  unfold dropPort
  repeat' first
    | with_reducible assumption
    | (extract_lets +onlyGivenNames x; first
        | (refine keeps_cut (s₀ := s₀) (t := x) ?_ fun hx => ?_) <;> first | (revert hx; clear_value x; intro _) | subst x
        | clear_value x
        | subst x)
    | (with_reducible refine keeps_ite ?_ ?_)
    | (with_reducible refine modPort_keeps ?_)
    | (with_reducible refine actedFiring_keeps ?_)
    | (with_reducible refine visitSkipped_keeps ?_)
    | (with_reducible refine bump_keeps ?_)
    | (with_reducible refine tracePort_keeps ?_)
    | (with_reducible refine annal_keeps ?_)
    | split

theorem deliverFlit_keeps {s₀ s : State} {f : Flit} (hk : Keeps s₀ s) :
    Keeps s₀ (deliverFlit f s) := by
  unfold deliverFlit
  repeat' first
    | with_reducible assumption
    | (with_reducible refine modFab_keeps ?_)
    | (with_reducible refine charge_keeps ?_)

theorem routeFlit_keeps {s₀ s : State} {f : Flit} (hk : Keeps s₀ s) :
    Keeps s₀ (routeFlit f s) := by
  unfold routeFlit
  repeat' first
    | with_reducible assumption
    | (with_reducible refine keeps_ite ?_ ?_)
    | (with_reducible refine bump_keeps ?_)
    | (with_reducible refine deliver_keeps ?_)
    | (with_reducible refine deliverFlit_keeps ?_)
    | (with_reducible refine modPort_keeps ?_)
    | split

theorem sendFlit_keeps {s₀ s : State} {type cls dst owner tag : Nat} {last : Bool} {data : Bytes} (hk : Keeps s₀ s) :
    Keeps s₀ (sendFlit type cls dst owner tag last data s) := by
  unfold sendFlit
  repeat' first
    | with_reducible assumption
    | (with_reducible refine routeFlit_keeps ?_)

theorem freshTag_keeps {s₀ s : State} (hk : Keeps s₀ s) :
    Keeps s₀ (freshTag s).2 := by
  unfold freshTag
  repeat' first
    | with_reducible assumption
    | (with_reducible refine modFab_keeps ?_)
    | dsimp only

theorem sendMessage_keeps {s₀ s : State} {type cls dst owner tag : Nat} {low : Bytes} {base status tab : Nat} {data : Bytes} (hk : Keeps s₀ s) :
    Keeps s₀ (sendMessage type cls dst owner tag low base status tab data s) := by
  unfold sendMessage
  repeat' first
    | with_reducible assumption
    | (with_reducible refine sendFlit_keeps ?_)
    | (with_reducible refine foldl_keeps (fun s x h => ?_) ?_)
    | (with_reducible refine foldl_pair_keeps (fun s x h => ?_) ?_)
    | (with_reducible refine foldl_fst_keeps (fun s x h => ?_) ?_)
    | dsimp only

theorem releaseFlit_keeps {s₀ s : State} {n : Nat} {f : Flit} (hk : Keeps s₀ s) :
    Keeps s₀ (releaseFlit n f s) := by
  unfold releaseFlit
  repeat' first
    | with_reducible assumption
    | (extract_lets +onlyGivenNames x; first
        | (refine keeps_cut (s₀ := s₀) (t := x) ?_ fun hx => ?_) <;> first | (revert hx; clear_value x; intro _) | subst x
        | clear_value x
        | subst x)
    | (with_reducible refine keeps_ite ?_ ?_)
    | (with_reducible refine modPort_keeps ?_)
    | (with_reducible refine bump_keeps ?_)
    | (with_reducible refine routeFlit_keeps ?_)
    | split

theorem askMove_keeps {s₀ s : State} {n lane old : Nat} {bad : Bool} {cause : Nat} (hk : Keeps s₀ s) :
    Keeps s₀ (askMove n lane old bad cause s) := by
  unfold askMove
  repeat' first
    | with_reducible assumption
    | (extract_lets +onlyGivenNames x; first
        | (refine keeps_cut (s₀ := s₀) (t := x) ?_ fun hx => ?_) <;> first | (revert hx; clear_value x; intro _) | subst x
        | clear_value x
        | subst x)
    | (with_reducible refine keeps_ite ?_ ?_)
    | (with_reducible refine dropPort_keeps ?_)
    | (with_reducible refine modPort_keeps ?_)
    | (with_reducible refine tracePort_keeps ?_)
    | split

theorem nextMove_keeps {s₀ s : State} {n : Nat} (hk : Keeps s₀ s) :
    Keeps s₀ (nextMove n s) := by
  unfold nextMove
  repeat' first
    | with_reducible assumption
    | (with_reducible refine askMove_keeps ?_)
    | (with_reducible refine modPort_keeps ?_)
    | split

theorem switchLane_keeps {s₀ s : State} {n : Nat} (hk : Keeps s₀ s) :
    Keeps s₀ (switchLane n s) := by
  unfold switchLane
  repeat' first
    | with_reducible assumption
    | (extract_lets +onlyGivenNames x; first
        | (refine keeps_cut (s₀ := s₀) (t := x) ?_ fun hx => ?_) <;> first | (revert hx; clear_value x; intro _) | subst x
        | clear_value x
        | subst x)
    | (with_reducible refine keeps_ite ?_ ?_)
    | (with_reducible refine modPort_keeps ?_)
    | (with_reducible refine spareSwitch_keeps ?_)
    | (with_reducible refine tracePort_keeps ?_)
    | (with_reducible refine bump_keeps ?_)
    | split

theorem raiseNak_keeps {s₀ s : State} {n : Nat} (hk : Keeps s₀ s) :
    Keeps s₀ (raiseNak n s) := by
  unfold raiseNak
  repeat' first
    | with_reducible assumption
    | (with_reducible refine keeps_ite ?_ ?_)
    | (with_reducible refine modPort_keeps ?_)
    | split

theorem takeSlot_keeps {s₀ s : State} {n : Nat} {blocks : List Nat} {k : Nat} {r : RxSlot} (hk : Keeps s₀ s) :
    Keeps s₀ (takeSlot n blocks k r s) := by
  unfold takeSlot
  repeat' first
    | with_reducible assumption
    | (extract_lets +onlyGivenNames x; first
        | (refine keeps_cut (s₀ := s₀) (t := x) ?_ fun hx => ?_) <;> first | (revert hx; clear_value x; intro _) | subst x
        | clear_value x
        | subst x)
    | (with_reducible refine keeps_ite ?_ ?_)
    | (with_reducible refine bump_keeps ?_)
    | (with_reducible refine raiseNak_keeps ?_)
    | (with_reducible refine modPort_keeps ?_)
    | split

theorem bringUp_keeps {s₀ s : State} {n partner version : Nat} (hk : Keeps s₀ s) :
    Keeps s₀ (bringUp n partner version s) := by
  unfold bringUp
  repeat' first
    | with_reducible assumption
    | (with_reducible refine setPort_keeps ?_)
    | (with_reducible refine modPort_keeps ?_)

theorem trainPort_keeps {s₀ s : State} {n : Nat} {c : Ctl} {ok : Bool} (hk : Keeps s₀ s) :
    Keeps s₀ (trainPort n c ok s) := by
  unfold trainPort
  repeat' first
    | with_reducible assumption
    | (extract_lets +onlyGivenNames x; first
        | (refine keeps_cut (s₀ := s₀) (t := x) ?_ fun hx => ?_) <;> first | (revert hx; clear_value x; intro _) | subst x
        | clear_value x
        | subst x)
    | (with_reducible refine keeps_ite ?_ ?_)
    | (with_reducible refine dropPort_keeps ?_)
    | (with_reducible refine modPort_keeps ?_)
    | (with_reducible refine bringUp_keeps ?_)
    | split

theorem sealAgain_keeps {s₀ s : State} {n seq count : Nat} (hk : Keeps s₀ s) :
    Keeps s₀ (sealAgain n seq count s) := by
  unfold sealAgain
  repeat' first
    | with_reducible assumption
    | (extract_lets +onlyGivenNames x; first
        | (refine keeps_cut (s₀ := s₀) (t := x) ?_ fun hx => ?_) <;> first | (revert hx; clear_value x; intro _) | subst x
        | clear_value x
        | subst x)
    | (with_reducible refine emit_keeps ?_)
    | (with_reducible refine modPort_keeps ?_)

theorem resend_keeps {s₀ s : State} {n : Nat} (hk : Keeps s₀ s) :
    Keeps s₀ (resend n s) := by
  unfold resend
  repeat' first
    | with_reducible assumption
    | (extract_lets +onlyGivenNames x; first
        | (refine keeps_cut (s₀ := s₀) (t := x) ?_ fun hx => ?_) <;> first | (revert hx; clear_value x; intro _) | subst x
        | (refine keeps_cut2 (s₀ := s₀) (t := x) ?_ fun hx => ?_) <;> first | (revert hx; clear_value x; intro _) | subst x
        | clear_value x
        | subst x)
    | (with_reducible refine keeps_ite ?_ ?_)
    | (with_reducible refine dropPort_keeps ?_)
    | (with_reducible refine emit_keeps ?_)
    | (with_reducible refine sealAgain_keeps ?_)
    | (with_reducible refine bump_keeps ?_)
    | (with_reducible refine modPort_keeps ?_)
    | (with_reducible refine foldl_keeps (fun s x h => ?_) ?_)
    | (with_reducible refine foldl_pair_keeps (fun s x h => ?_) ?_)
    | (with_reducible refine foldl_fst_keeps (fun s x h => ?_) ?_)
    | dsimp only
    | split

theorem takeAck_keeps {s₀ s : State} {n : Nat} {c : Ctl} (hk : Keeps s₀ s) :
    Keeps s₀ (takeAck n c s) := by
  unfold takeAck
  repeat' first
    | with_reducible assumption
    | (extract_lets +onlyGivenNames x; first
        | (refine keeps_cut (s₀ := s₀) (t := x) ?_ fun hx => ?_) <;> first | (revert hx; clear_value x; intro _) | subst x
        | clear_value x
        | subst x)
    | (with_reducible refine keeps_ite ?_ ?_)
    | (with_reducible refine modPort_keeps ?_)
    | (with_reducible refine resend_keeps ?_)
    | split

theorem sealFailed_keeps {s₀ s : State} {n : Nat} (hk : Keeps s₀ s) :
    Keeps s₀ (sealFailed n s) := by
  unfold sealFailed
  repeat' first
    | with_reducible assumption
    | (extract_lets +onlyGivenNames x; first
        | (refine keeps_cut (s₀ := s₀) (t := x) ?_ fun hx => ?_) <;> first | (revert hx; clear_value x; intro _) | subst x
        | clear_value x
        | subst x)
    | (with_reducible refine keeps_ite ?_ ?_)
    | (with_reducible refine bump_keeps ?_)
    | (with_reducible refine dropPort_keeps ?_)
    | (with_reducible refine raiseNak_keeps ?_)
    | (with_reducible refine modPort_keeps ?_)
    | split

theorem sendRun_keeps {s₀ s : State} {fuel n : Nat} (hk : Keeps s₀ s) :
    Keeps s₀ (sendRun fuel n s) := by
  induction fuel generalizing n s with
  | zero =>
    unfold sendRun
    repeat' first
      | with_reducible assumption
      | (extract_lets +onlyGivenNames x; first
          | (refine keeps_cut (s₀ := s₀) (t := x) ?_ fun hx => ?_) <;> first | (revert hx; clear_value x; intro _) | subst x
          | clear_value x
          | subst x)
      | (with_reducible refine keeps_ite ?_ ?_)
      | (with_reducible refine emit_keeps ?_)
      | (with_reducible refine modPort_keeps ?_)
      | (with_reducible refine charge_keeps ?_)
      | split
  | succ m ih =>
    unfold sendRun
    repeat' first
      | cases ‹_ + 1 = Nat.succ _›
      | with_reducible assumption
      | (extract_lets +onlyGivenNames x; first
          | (refine keeps_cut (s₀ := s₀) (t := x) ?_ fun hx => ?_) <;> first | (revert hx; clear_value x; intro _) | subst x
          | clear_value x
          | subst x)
      | (with_reducible refine keeps_ite ?_ ?_)
      | (with_reducible refine ih ?_)
      | (with_reducible refine emit_keeps ?_)
      | (with_reducible refine modPort_keeps ?_)
      | (with_reducible refine charge_keeps ?_)
      | split

theorem rotateLane_keeps {s₀ s : State} {n : Nat} (hk : Keeps s₀ s) :
    Keeps s₀ (rotateLane n s) := by
  unfold rotateLane
  repeat' first
    | with_reducible assumption
    | (with_reducible refine askMove_keeps ?_)
    | split

theorem goOnRotating_keeps {s₀ s : State} {n : Nat} (hk : Keeps s₀ s) :
    Keeps s₀ (goOnRotating n s) := by
  unfold goOnRotating
  repeat' first
    | with_reducible assumption
    | (extract_lets +onlyGivenNames x; first
        | (refine keeps_cut (s₀ := s₀) (t := x) ?_ fun hx => ?_) <;> first | (revert hx; clear_value x; intro _) | subst x
        | clear_value x
        | subst x)
    | (with_reducible refine keeps_ite ?_ ?_)
    | (with_reducible refine visitDone_keeps ?_)
    | (with_reducible refine modPort_keeps ?_)
    | (with_reducible refine rotateLane_keeps ?_)
    | split

theorem rotatePort_keeps {s₀ s : State} {n : Nat} (hk : Keeps s₀ s) :
    Keeps s₀ (rotatePort n s) := by
  unfold rotatePort
  repeat' first
    | with_reducible assumption
    | (with_reducible refine keeps_ite ?_ ?_)
    | (with_reducible refine goOnRotating_keeps ?_)
    | (with_reducible refine modPort_keeps ?_)
    | (with_reducible refine actedFiring_keeps ?_)
    | (with_reducible refine visitSkipped_keeps ?_)
    | split

theorem loseLight_keeps {s₀ s : State} {e : Nat} (hk : Keeps s₀ s) :
    Keeps s₀ (loseLight e s) := by
  unfold loseLight
  repeat' first
    | with_reducible assumption
    | (with_reducible refine keeps_ite ?_ ?_)
    | (with_reducible refine dropPort_keeps ?_)
    | (with_reducible refine foldl_keeps (fun s x h => ?_) ?_)
    | (with_reducible refine foldl_pair_keeps (fun s x h => ?_) ?_)
    | (with_reducible refine foldl_fst_keeps (fun s x h => ?_) ?_)
    | dsimp only
    | split

theorem writePortEnable_keeps {s₀ s : State} {n v : Nat} (hk : Keeps s₀ s) :
    Keeps s₀ (writePortEnable n v s) := by
  unfold writePortEnable
  repeat' first
    | with_reducible assumption
    | (extract_lets +onlyGivenNames x; first
        | (refine keeps_cut (s₀ := s₀) (t := x) ?_ fun hx => ?_) <;> first | (revert hx; clear_value x; intro _) | subst x
        | clear_value x
        | subst x)
    | (with_reducible refine keeps_ite ?_ ?_)
    | (with_reducible refine setRw_keeps ?_)
    | (with_reducible refine dropPort_keeps ?_)
    | (with_reducible refine setPort_keeps ?_)
    | (with_reducible refine modPort_keeps ?_)
    | split

theorem commitTables_keeps {s₀ s : State} (hk : Keeps s₀ s) :
    Keeps s₀ (commitTables s) := by
  unfold commitTables
  repeat' first
    | with_reducible assumption
    | (extract_lets +onlyGivenNames x; first
        | (refine keeps_cut (s₀ := s₀) (t := x) ?_ fun hx => ?_) <;> first | (revert hx; clear_value x; intro _) | subst x
        | (refine keeps_cutF (s₀ := s₀) (t := x) ?_ fun hx => ?_) <;> first | (revert hx; clear_value x; intro hF) | subst x
        | (refine keeps_cutG (s₀ := s₀) (t := x) ?_ fun hx => ?_) <;> first | (revert hx; clear_value x; intro hF) | subst x
        | (refine keeps_cutH (s₀ := s₀) (t := x) ?_ fun hx => ?_) <;> first | (revert hx; clear_value x; intro hF) | subst x
        | clear_value x
        | subst x)
    | (refine fun a b (y : State) (hy : Keeps s₀ y) => ?_; try dsimp only)
    | (refine fun a (y : State) (hy : Keeps s₀ y) => ?_; try dsimp only)
    | (refine fun (y : State) (hy : Keeps s₀ y) => ?_; try dsimp only)
    | (with_reducible refine modDict_keeps ?_)
    | (with_reducible refine setDom_keeps ?_)
    | (with_reducible refine bump_keeps ?_)
    | (with_reducible refine hF _ _ _ ?_)
    | (with_reducible refine hF _ _ ?_)
    | (with_reducible refine hF _ ?_)
    | (with_reducible refine (‹∀ y, Keeps s₀ y → Keeps s₀ _›) _ ?_)
    | (with_reducible refine (‹∀ a y, Keeps s₀ y → Keeps s₀ _›) _ _ ?_)
    | (with_reducible refine (‹∀ a b y, Keeps s₀ y → Keeps s₀ _›) _ _ _ ?_)
    | split

theorem takeInbox_keeps {s₀ s : State} {type : Nat} (hk : Keeps s₀ s) :
    KeepsOP s₀ (takeInbox type s) := by
  unfold takeInbox
  repeat' first
    | with_reducible assumption
    | (with_reducible refine keeps_someOP ?_)
    | with_reducible exact keeps_noneOP
    | (with_reducible refine modFab_keeps ?_)
    | dsimp only
    | split

theorem takeWhole_keeps {s₀ s : State} {type : Nat} (hk : Keeps s₀ s) :
    KeepsOQ s₀ (takeWhole type s) := by
  unfold takeWhole
  repeat' first
    | with_reducible assumption
    | (with_reducible refine keeps_someOQ ?_)
    | with_reducible exact keeps_noneOQ
    | (extract_lets +onlyGivenNames x; first
        | (refine keeps_cut (s₀ := s₀) (t := x) ?_ fun hx => ?_) <;> first | (revert hx; clear_value x; intro _) | subst x
        | (refine keeps_cut2 (s₀ := s₀) (t := x) ?_ fun hx => ?_) <;> first | (revert hx; clear_value x; intro _) | subst x
        | clear_value x
        | subst x)
    | (with_reducible refine modFab_keeps ?_)
    | (with_reducible refine foldl_keeps (fun s x h => ?_) ?_)
    | (with_reducible refine foldl_pair_keeps (fun s x h => ?_) ?_)
    | (with_reducible refine foldl_fst_keeps (fun s x h => ?_) ?_)
    | dsimp only
    | split

end Sys2Proof.Machine
end

