-- ==== Sys2Proof/Laws/KeepsHubs.lean ====
section
/-! SUPPORT. What the operations of Machine/Hubs.lean keep. -/

namespace Sys2Proof.Machine

open Sys2Proof

theorem loseStaging_keeps {s₀ s : State} {h o : Nat} (hk : Keeps s₀ s) :
    Keeps s₀ (loseStaging h o s) := by
  unfold loseStaging
  repeat' first
    | with_reducible assumption
    | (with_reducible refine keeps_ite ?_ ?_)
    | (with_reducible refine modTele_keeps ?_)
    | (with_reducible refine annal_keeps ?_)
    | split

theorem takePrimacy_keeps {s₀ s : State} {h : Nat} {solo : Bool} {epoch cause : Nat} (hk : Keeps s₀ s) :
    Keeps s₀ (takePrimacy h solo epoch cause s) := by
  unfold takePrimacy
  repeat' first
    | with_reducible assumption
    | (extract_lets +onlyGivenNames x; first
        | (refine keeps_cut (s₀ := s₀) (t := x) ?_ fun hx => ?_) <;> first | (revert hx; clear_value x; intro _) | subst x
        | clear_value x
        | subst x)
    | (with_reducible refine keeps_ite ?_ ?_)
    | (with_reducible refine modClock_keeps ?_)
    | (with_reducible refine modAlm_keeps ?_)
    | (with_reducible refine modHubs_keeps ?_)
    | (with_reducible refine modHub_keeps ?_)
    | (with_reducible refine loseStaging_keeps ?_)
    | (with_reducible refine resumeCells_keeps ?_)
    | (with_reducible refine annal_keeps ?_)
    | (with_reducible refine bump_keeps ?_)
    | split

theorem settleAfterSilence_keeps {s₀ s : State} {hub epoch : Nat} {peerPrimary peerDeciding : Bool} (hk : Keeps s₀ s) :
    Keeps s₀ (settleAfterSilence hub epoch peerPrimary peerDeciding s) := by
  unfold settleAfterSilence
  repeat' first
    | with_reducible assumption
    | (extract_lets +onlyGivenNames x; first
        | (refine keeps_cut (s₀ := s₀) (t := x) ?_ fun hx => ?_) <;> first | (revert hx; clear_value x; intro _) | subst x
        | clear_value x
        | subst x)
    | (with_reducible refine keeps_ite ?_ ?_)
    | (with_reducible refine modHubs_keeps ?_)
    | (with_reducible refine modHub_keeps ?_)
    | (with_reducible refine emit_keeps ?_)
    | split

theorem takeSilent_keeps {s₀ s : State} {hub : Nat} (hk : Keeps s₀ s) :
    Keeps s₀ (takeSilent hub s) := by
  unfold takeSilent
  repeat' first
    | with_reducible assumption
    | (extract_lets +onlyGivenNames x; first
        | (refine keeps_cut (s₀ := s₀) (t := x) ?_ fun hx => ?_) <;> first | (revert hx; clear_value x; intro _) | subst x
        | clear_value x
        | subst x)
    | (with_reducible refine keeps_ite ?_ ?_)
    | (with_reducible refine modHub_keeps ?_)
    | (with_reducible refine emit_keeps ?_)
    | split

theorem setFirmware_keeps {s₀ s : State} {state result : Nat} (hk : Keeps s₀ s) :
    Keeps s₀ (setFirmware state result s) := by
  unfold setFirmware
  repeat' first
    | with_reducible assumption
    | (with_reducible refine annal_keeps ?_)
    | (with_reducible refine setCount_keeps ?_)

theorem finishRecord_keeps {s₀ s : State} (hk : Keeps s₀ s) :
    Keeps s₀ (finishRecord s) := by
  unfold finishRecord
  repeat' first
    | with_reducible assumption
    | (with_reducible refine writeBoot_keeps ?_)
    | split

theorem failUpdate_keeps {s₀ s : State} (hk : Keeps s₀ s) :
    Keeps s₀ (failUpdate s) := by
  unfold failUpdate
  repeat' first
    | with_reducible assumption
    | (extract_lets +onlyGivenNames x; first
        | (refine keeps_cut (s₀ := s₀) (t := x) ?_ fun hx => ?_) <;> first | (revert hx; clear_value x; intro _) | subst x
        | clear_value x
        | subst x)
    | (with_reducible refine modIsland_keeps ?_)
    | (with_reducible refine writeBoot_keeps ?_)
    | (with_reducible refine setFirmware_keeps ?_)
    | split

theorem updateHandover_keeps {s₀ s : State} (hk : Keeps s₀ s) :
    Keeps s₀ (updateHandover s) := by
  unfold updateHandover
  repeat' first
    | with_reducible assumption
    | (with_reducible refine redirectEntry_keeps ?_)
    | (with_reducible refine placeShot_keeps ?_)
    | split

theorem updateResynced_keeps {s₀ s : State} (hk : Keeps s₀ s) :
    Keeps s₀ (updateResynced s) := by
  unfold updateResynced
  repeat' first
    | with_reducible assumption
    | (with_reducible refine keeps_ite ?_ ?_)
    | (with_reducible refine modIsland_keeps ?_)
    | (with_reducible refine setFirmware_keeps ?_)
    | (with_reducible refine finishRecord_keeps ?_)
    | (with_reducible refine updateHandover_keeps ?_)
    | split

theorem updateHandedOver_keeps {s₀ s : State} (hk : Keeps s₀ s) :
    Keeps s₀ (updateHandedOver s) := by
  unfold updateHandedOver
  repeat' first
    | with_reducible assumption
    | (extract_lets +onlyGivenNames x; first
        | (refine keeps_cut (s₀ := s₀) (t := x) ?_ fun hx => ?_) <;> first | (revert hx; clear_value x; intro _) | subst x
        | clear_value x
        | subst x)
    | (with_reducible refine keeps_ite ?_ ?_)
    | (with_reducible refine modHubs_keeps ?_)
    | (with_reducible refine modIsland_keeps ?_)
    | (with_reducible refine modHub_keeps ?_)
    | (with_reducible refine setFirmware_keeps ?_)
    | split

theorem updateRefused_keeps {s₀ s : State} (hk : Keeps s₀ s) :
    Keeps s₀ (updateRefused s) := by
  unfold updateRefused
  repeat' first
    | with_reducible assumption
    | (with_reducible refine keeps_ite ?_ ?_)
    | (with_reducible refine modIsland_keeps ?_)
    | (with_reducible refine updateHandover_keeps ?_)
    | (with_reducible refine failUpdate_keeps ?_)
    | split

theorem requestHandover_keeps {s₀ s : State} {v : Nat} (hk : Keeps s₀ s) :
    Keeps s₀ (requestHandover v s).2 := by
  unfold requestHandover
  repeat' first
    | with_reducible assumption
    | (with_reducible refine placeShot_keeps ?_)
    | dsimp only
    | split

theorem writePreferred_keeps {s₀ s : State} {path : Path} {v : Nat} (hk : Keeps s₀ s) :
    Keeps s₀ (writePreferred path v s).2 := by
  unfold writePreferred
  repeat' first
    | with_reducible assumption
    | (extract_lets +onlyGivenNames x; first
        | (refine keeps_cut (s₀ := s₀) (t := x) ?_ fun hx => ?_) <;> first | (revert hx; clear_value x; intro _) | subst x
        | (refine keeps_cut2 (s₀ := s₀) (t := x) ?_ fun hx => ?_) <;> first | (revert hx; clear_value x; intro _) | subst x
        | clear_value x
        | subst x)
    | (with_reducible refine keeps_ite2 ?_ ?_)
    | (with_reducible refine keeps_ite ?_ ?_)
    | (with_reducible refine setRw_keeps ?_)
    | (with_reducible refine requestHandover_keeps ?_)
    | (with_reducible refine keeps_of_pair (requestHandover_keeps ?_) ‹_›)
    | (with_reducible refine takePrimacy_keeps ?_)
    | dsimp only
    | split

end Sys2Proof.Machine
end

