-- ==== Sys2Proof/Laws/KeepsTables.lean ====
section
/-! SUPPORT. What the operations of Machine/Tables.lean keep. -/

namespace Sys2Proof.Machine

open Sys2Proof

theorem putTable_keeps {s₀ s : State} {k : Nat} {t : Table} (hk : Keeps s₀ s) :
    Keeps s₀ (putTable k t s) := by
  unfold putTable
  repeat' first
    | with_reducible assumption
    | (with_reducible refine modData_keeps ?_)

theorem writeRecord14_keeps {s₀ s : State} {k : Nat} {t : Table} {key : Nat} {rec : Bytes} (hk : Keeps s₀ s) :
    Keeps s₀ (writeRecord14 k t key rec s) := by
  unfold writeRecord14
  repeat' first
    | with_reducible assumption
    | (extract_lets +onlyGivenNames x; first
        | (refine keeps_cut (s₀ := s₀) (t := x) ?_ fun hx => ?_) <;> first | (revert hx; clear_value x; intro _) | subst x
        | clear_value x
        | subst x)
    | (with_reducible refine keeps_ite ?_ ?_)
    | (with_reducible refine writeI_keeps ?_)
    | (with_reducible refine patchSpace_keeps ?_)
    | (with_reducible refine countThrough_keeps ?_)
    | split

theorem tableResult_keeps {s₀ s : State} {k code : Nat} (hk : Keeps s₀ s) :
    Keeps s₀ (tableResult k code s).2 := by
  unfold tableResult
  repeat' first
    | with_reducible assumption
    | (with_reducible refine keeps_ite2 ?_ ?_)
    | (with_reducible refine keeps_ite ?_ ?_)
    | (with_reducible refine setCount_keeps ?_)
    | dsimp only
    | split

theorem placeRecord_keeps {s₀ : State} {k n : Nat} {x : Table × State} (hk : Keeps s₀ x.2) : KeepsOP s₀ (placeRecord k n x) := by
  unfold placeRecord
  refine keeps_bindOP fun m => ?_
  intro y e
  obtain ⟨a, -, rfl⟩ := Option.map_eq_some_iff.mp e
  dsimp only
  exact zeroObj_keeps (modTiers_keeps (addRegion_keeps hk))

theorem placeRecords_keeps {s₀ s : State} {k : Nat} {t : Table} {todo : List Nat} (hk : Keeps s₀ s) :
    KeepsOP s₀ (placeRecords k t todo s) := by
  have hf (l : List Nat) (r : Option (Table × State)) (h : KeepsOP s₀ r) :
      KeepsOP s₀ (l.foldl (fun r n => r.bind (placeRecord k n)) r) := by
    induction l generalizing r with
    | nil => exact h
    | cons n l ih =>
      refine ih _ fun y e => ?_
      obtain ⟨x, hx, e⟩ := Option.bind_eq_some_iff.mp e
      exact placeRecord_keeps (h x hx) y e
  exact hf todo _ (keeps_someOP hk)

theorem tableCreate_keeps {s₀ s : State} {k : Nat} (hk : Keeps s₀ s) :
    Keeps s₀ (tableCreate k s).2 := by
  unfold tableCreate
  repeat' first
    | with_reducible assumption
    | (extract_lets +onlyGivenNames x; first
        | (refine keeps_cut (s₀ := s₀) (t := x) ?_ fun hx => ?_) <;> first | (revert hx; clear_value x; intro _) | subst x
        | (refine keeps_cut2 (s₀ := s₀) (t := x) ?_ fun hx => ?_) <;> first | (revert hx; clear_value x; intro _) | subst x
        | clear_value x
        | subst x)
    | (with_reducible refine keeps_ite2 ?_ ?_)
    | (with_reducible refine keeps_ite ?_ ?_)
    | (with_reducible refine tableResult_keeps ?_)
    | (with_reducible refine keeps_of_pair (tableResult_keeps ?_) ‹_›)
    | (with_reducible refine placeRecords_keeps ?_)
    | (with_reducible refine KeepsOP.get (placeRecords_keeps ?_) ‹_›)
    | (with_reducible refine setDom_keeps ?_)
    | (with_reducible refine putTable_keeps ?_)
    | dsimp only
    | split

theorem tableSeal_keeps {s₀ s : State} {k : Nat} (hk : Keeps s₀ s) :
    Keeps s₀ (tableSeal k s).2 := by
  unfold tableSeal
  repeat' first
    | with_reducible assumption
    | (extract_lets +onlyGivenNames x; first
        | (refine keeps_cut (s₀ := s₀) (t := x) ?_ fun hx => ?_) <;> first | (revert hx; clear_value x; intro _) | subst x
        | (refine keeps_cut2 (s₀ := s₀) (t := x) ?_ fun hx => ?_) <;> first | (revert hx; clear_value x; intro _) | subst x
        | clear_value x
        | subst x)
    | (with_reducible refine keeps_ite2 ?_ ?_)
    | (with_reducible refine keeps_ite ?_ ?_)
    | (with_reducible refine putTable_keeps ?_)
    | (with_reducible refine patchSpace_keeps ?_)
    | (with_reducible refine placeChain_keeps ?_)
    | (with_reducible refine tableResult_keeps ?_)
    | (with_reducible refine keeps_of_pair (tableResult_keeps ?_) ‹_›)
    | (with_reducible refine foldl_keeps (fun s x h => ?_) ?_)
    | (with_reducible refine foldl_pair_keeps (fun s x h => ?_) ?_)
    | (with_reducible refine foldl_fst_keeps (fun s x h => ?_) ?_)
    | dsimp only
    | split

theorem tableDestroy_keeps {s₀ s : State} {k : Nat} (hk : Keeps s₀ s) :
    Keeps s₀ (tableDestroy k s).2 := by
  unfold tableDestroy
  repeat' first
    | with_reducible assumption
    | (extract_lets +onlyGivenNames x; first
        | (refine keeps_cut (s₀ := s₀) (t := x) ?_ fun hx => ?_) <;> first | (revert hx; clear_value x; intro _) | subst x
        | (refine keeps_cut2 (s₀ := s₀) (t := x) ?_ fun hx => ?_) <;> first | (revert hx; clear_value x; intro _) | subst x
        | clear_value x
        | subst x)
    | (with_reducible refine keeps_ite2 ?_ ?_)
    | (with_reducible refine keeps_ite ?_ ?_)
    | (with_reducible refine modData_keeps ?_)
    | (with_reducible refine tableResult_keeps ?_)
    | (with_reducible refine keeps_of_pair (tableResult_keeps ?_) ‹_›)
    | (with_reducible refine releaseRegions_keeps ?_)
    | (with_reducible refine cancelEntry_keeps ?_)
    | (with_reducible refine modTiers_keeps ?_)
    | (with_reducible refine foldl_keeps (fun s x h => ?_) ?_)
    | (with_reducible refine foldl_pair_keeps (fun s x h => ?_) ?_)
    | (with_reducible refine foldl_fst_keeps (fun s x h => ?_) ?_)
    | dsimp only
    | split

theorem staleCopies_keeps {s₀ s : State} {k key c : Nat} (hk : Keeps s₀ s) :
    Keeps s₀ (staleCopies k key c s) := by
  unfold staleCopies
  repeat' first
    | with_reducible assumption
    | (with_reducible refine keeps_ite ?_ ?_)
    | (with_reducible refine modData_keeps ?_)
    | split

theorem applyRow_keeps {s₀ s : State} {k : Nat} {t : Table} {u : RowUpdate} (hk : Keeps s₀ s) :
    Keeps s₀ (applyRow k t u s).2 := by
  unfold applyRow
  repeat' first
    | with_reducible assumption
    | (extract_lets +onlyGivenNames x; first
        | (refine keeps_cut (s₀ := s₀) (t := x) ?_ fun hx => ?_) <;> first | (revert hx; clear_value x; intro _) | subst x
        | (refine keeps_cut2 (s₀ := s₀) (t := x) ?_ fun hx => ?_) <;> first | (revert hx; clear_value x; intro _) | subst x
        | clear_value x
        | subst x)
    | (with_reducible refine keeps_ite2 ?_ ?_)
    | (with_reducible refine keeps_ite ?_ ?_)
    | (with_reducible refine bump_keeps ?_)
    | (with_reducible refine staleCopies_keeps ?_)
    | (with_reducible refine writeRecord14_keeps ?_)
    | dsimp only
    | split

theorem forwardRow_keeps {s₀ s : State} {k : Nat} {t : Table} {u : RowUpdate} {prev : Nat} (hk : Keeps s₀ s) :
    Keeps s₀ (forwardRow k t u prev s) := by
  unfold forwardRow
  repeat' first
    | with_reducible assumption
    | (extract_lets +onlyGivenNames x; first
        | (refine keeps_cut (s₀ := s₀) (t := x) ?_ fun hx => ?_) <;> first | (revert hx; clear_value x; intro _) | subst x
        | (refine keeps_cut2 (s₀ := s₀) (t := x) ?_ fun hx => ?_) <;> first | (revert hx; clear_value x; intro _) | subst x
        | clear_value x
        | subst x)
    | (with_reducible refine keeps_ite ?_ ?_)
    | (with_reducible refine freshTag_keeps ?_)
    | (with_reducible refine keeps_of_pair (freshTag_keeps ?_) ‹_›)
    | (with_reducible refine bump_keeps ?_)
    | (with_reducible refine sendMessage_keeps ?_)
    | (with_reducible refine foldl_keeps (fun s x h => ?_) ?_)
    | (with_reducible refine foldl_pair_keeps (fun s x h => ?_) ?_)
    | (with_reducible refine foldl_fst_keeps (fun s x h => ?_) ?_)
    | dsimp only
    | split

theorem embedUpdate_keeps {s₀ s : State} {v : Update} (hk : Keeps s₀ s) :
    Keeps s₀ (embedUpdate v s) := by
  unfold embedUpdate
  repeat' first
    | with_reducible assumption
    | (extract_lets +onlyGivenNames x; first
        | (refine keeps_cut (s₀ := s₀) (t := x) ?_ fun hx => ?_) <;> first | (revert hx; clear_value x; intro _) | subst x
        | (refine keeps_cut2 (s₀ := s₀) (t := x) ?_ fun hx => ?_) <;> first | (revert hx; clear_value x; intro _) | subst x
        | (refine keeps_cutF (s₀ := s₀) (t := x) ?_ fun hx => ?_) <;> first | (revert hx; clear_value x; intro hF) | subst x
        | (refine keeps_cutG (s₀ := s₀) (t := x) ?_ fun hx => ?_) <;> first | (revert hx; clear_value x; intro hF) | subst x
        | (refine keeps_cutH (s₀ := s₀) (t := x) ?_ fun hx => ?_) <;> first | (revert hx; clear_value x; intro hF) | subst x
        | clear_value x
        | subst x)
    | (refine fun a b (y : State) (hy : Keeps s₀ y) => ?_; try dsimp only)
    | (refine fun a (y : State) (hy : Keeps s₀ y) => ?_; try dsimp only)
    | (refine fun (y : State) (hy : Keeps s₀ y) => ?_; try dsimp only)
    | (with_reducible refine keeps_ite ?_ ?_)
    | (with_reducible refine setCount_keeps ?_)
    | (with_reducible refine bump_keeps ?_)
    | (with_reducible refine takeUpdate_keeps ?_)
    | (with_reducible refine applyRow_keeps ?_)
    | (with_reducible refine keeps_of_pair (applyRow_keeps ?_) ‹_›)
    | (with_reducible refine forwardRow_keeps ?_)
    | (with_reducible refine hF _ _ _ ?_)
    | (with_reducible refine hF _ _ ?_)
    | (with_reducible refine hF _ ?_)
    | (with_reducible refine (‹∀ y, Keeps s₀ y → Keeps s₀ _›) _ ?_)
    | (with_reducible refine (‹∀ a y, Keeps s₀ y → Keeps s₀ _›) _ _ ?_)
    | (with_reducible refine (‹∀ a b y, Keeps s₀ y → Keeps s₀ _›) _ _ _ ?_)
    | dsimp only
    | split

theorem needResync_keeps {s₀ s : State} {k key : Nat} (hk : Keeps s₀ s) :
    Keeps s₀ (needResync k key s) := by
  unfold needResync
  repeat' first
    | with_reducible assumption
    | (with_reducible refine keeps_ite ?_ ?_)
    | (with_reducible refine modData_keeps ?_)
    | split

theorem updateCurrent_keeps {s₀ s : State} {k : Nat} (hk : Keeps s₀ s) :
    Keeps s₀ (updateCurrent k s) := by
  unfold updateCurrent
  repeat' first
    | with_reducible assumption
    | (extract_lets +onlyGivenNames x; first
        | (refine keeps_cut (s₀ := s₀) (t := x) ?_ fun hx => ?_) <;> first | (revert hx; clear_value x; intro _) | subst x
        | (refine keeps_cut2 (s₀ := s₀) (t := x) ?_ fun hx => ?_) <;> first | (revert hx; clear_value x; intro _) | subst x
        | clear_value x
        | subst x)
    | (with_reducible refine writeObj_keeps ?_)
    | (with_reducible refine putTable_keeps ?_)
    | (with_reducible refine foldl_keeps (fun s x h => ?_) ?_)
    | (with_reducible refine foldl_pair_keeps (fun s x h => ?_) ?_)
    | (with_reducible refine foldl_fst_keeps (fun s x h => ?_) ?_)
    | dsimp only
    | split

theorem writeBucket_keeps {s₀ s : State} {o : TierObj} {t : Table} {key i : Nat} {e : Bytes} (hk : Keeps s₀ s) :
    Keeps s₀ (writeBucket o t key i e s) := by
  unfold writeBucket
  repeat' first
    | with_reducible assumption
    | (with_reducible refine writeObj_keeps ?_)

theorem putArea_keeps {s₀ s : State} {k : Nat} {a : HotArea} (hk : Keeps s₀ s) :
    Keeps s₀ (putArea k a s) := by
  unfold putArea
  repeat' first
    | with_reducible assumption
    | (with_reducible refine keeps_ite ?_ ?_)
    | (with_reducible refine modData_keeps ?_)
    | split

theorem dropCopy_keeps {s₀ s : State} {k : Nat} {t : Table} {o : TierObj} {h : HotCopy} {a : HotArea} (hk : Keeps s₀ s) :
    Keeps s₀ (dropCopy k t o h a s).2 := by
  unfold dropCopy
  repeat' first
    | with_reducible assumption
    | (extract_lets +onlyGivenNames x; first
        | (refine keeps_cut (s₀ := s₀) (t := x) ?_ fun hx => ?_) <;> first | (revert hx; clear_value x; intro _) | subst x
        | (refine keeps_cut2 (s₀ := s₀) (t := x) ?_ fun hx => ?_) <;> first | (revert hx; clear_value x; intro _) | subst x
        | clear_value x
        | subst x)
    | (with_reducible refine writeBucket_keeps ?_)
    | (with_reducible refine putArea_keeps ?_)
    | dsimp only
    | split

theorem installKey_keeps {s₀ s : State} {k : Nat} {t : Table} {o : TierObj} {key : Nat} (hk : Keeps s₀ s) :
    Keeps s₀ (installKey k t o key s) := by
  unfold installKey
  repeat' first
    | with_reducible assumption
    | (extract_lets +onlyGivenNames x; first
        | (refine keeps_cut (s₀ := s₀) (t := x) ?_ fun hx => ?_) <;> first | (revert hx; clear_value x; intro _) | subst x
        | clear_value x
        | subst x)
    | (with_reducible refine bump_keeps ?_)
    | (with_reducible refine writeObj_keeps ?_)
    | (with_reducible refine writeBucket_keeps ?_)
    | (with_reducible refine putArea_keeps ?_)
    | split

theorem refreshArea_keeps {s₀ s : State} {k : Nat} {t : Table} {a : HotArea} (hk : Keeps s₀ s) :
    Keeps s₀ (refreshArea k t a s) := by
  unfold refreshArea
  repeat' first
    | with_reducible assumption
    | (extract_lets +onlyGivenNames x; first
        | (refine keeps_cut (s₀ := s₀) (t := x) ?_ fun hx => ?_) <;> first | (revert hx; clear_value x; intro _) | subst x
        | (refine keeps_cut2 (s₀ := s₀) (t := x) ?_ fun hx => ?_) <;> first | (revert hx; clear_value x; intro _) | subst x
        | clear_value x
        | subst x)
    | (with_reducible refine keeps_ite ?_ ?_)
    | (with_reducible refine dropCopy_keeps ?_)
    | (with_reducible refine keeps_of_pair (dropCopy_keeps ?_) ‹_›)
    | (with_reducible refine installKey_keeps ?_)
    | (with_reducible refine bump_keeps ?_)
    | (with_reducible refine writeObj_keeps ?_)
    | (with_reducible refine foldl_keeps (fun s x h => ?_) ?_)
    | (with_reducible refine foldl_pair_keeps (fun s x h => ?_) ?_)
    | (with_reducible refine foldl_fst_keeps (fun s x h => ?_) ?_)
    | dsimp only
    | split

theorem freeRetired_keeps {s₀ s : State} {p sl : Nat} (hk : Keeps s₀ s) :
    Keeps s₀ (freeRetired p sl s) := by
  unfold freeRetired
  repeat' first
    | with_reducible assumption
    | (with_reducible refine keeps_ite ?_ ?_)
    | (with_reducible refine modData_keeps ?_)
    | split

end Sys2Proof.Machine
end

