-- ==== Sys2Proof/Laws/KeepsLevee.lean ====
section
/-! SUPPORT. What the operations of Machine/Levee.lean keep. -/

namespace Sys2Proof.Machine

open Sys2Proof

theorem traceAdmit_keeps {s₀ s : State} {r : Request} {reason ft : Nat} (hk : Keeps s₀ s) :
    Keeps s₀ (traceAdmit r reason ft s) := by
  unfold traceAdmit
  repeat' first
    | with_reducible assumption
    | (with_reducible refine trace_keeps ?_)

theorem traceRecord_keeps {s₀ s : State} {port p cid status degraded : Nat} (hk : Keeps s₀ s) :
    Keeps s₀ (traceRecord port p cid status degraded s) := by
  unfold traceRecord
  repeat' first
    | with_reducible assumption
    | (with_reducible refine trace_keeps ?_)

theorem refuseRecord_keeps {s₀ s : State} {r : Request} {status reason : Nat} (hk : Keeps s₀ s) :
    Keeps s₀ (refuseRecord r status reason s) := by
  unfold refuseRecord
  repeat' first
    | with_reducible assumption
    | (with_reducible refine postRecord_keeps ?_)
    | (with_reducible refine traceRecord_keeps ?_)

theorem invalidRequest_keeps {s₀ s : State} {r : Request} {code : Nat} (hk : Keeps s₀ s) :
    Keeps s₀ (invalidRequest r code s) := by
  unfold invalidRequest
  repeat' first
    | with_reducible assumption
    | (with_reducible refine keeps_ite ?_ ?_)
    | (with_reducible refine refuseRecord_keeps ?_)
    | (with_reducible refine charge_keeps ?_)
    | (with_reducible refine traceAdmit_keeps ?_)
    | split

theorem refuseRequest_keeps {s₀ s : State} {r : Request} {reason : Nat} (hk : Keeps s₀ s) :
    Keeps s₀ (refuseRequest r reason s) := by
  unfold refuseRequest
  repeat' first
    | with_reducible assumption
    | (extract_lets +onlyGivenNames x; first
        | (refine keeps_cut (s₀ := s₀) (t := x) ?_ fun hx => ?_) <;> first | (revert hx; clear_value x; intro _) | subst x
        | clear_value x
        | subst x)
    | (with_reducible refine keeps_ite ?_ ?_)
    | (with_reducible refine modTele_keeps ?_)
    | (with_reducible refine charge_keeps ?_)
    | (with_reducible refine traceAdmit_keeps ?_)
    | (with_reducible refine bump_keeps ?_)
    | (with_reducible refine refuseRecord_keeps ?_)
    | split

theorem policerMark_keeps {s₀ s : State} {p c : Nat} (hk : Keeps s₀ s) :
    Keeps s₀ (policerMark p c s).2 := by
  unfold policerMark
  repeat' first
    | with_reducible assumption
    | (extract_lets +onlyGivenNames x; first
        | (refine keeps_cut (s₀ := s₀) (t := x) ?_ fun hx => ?_) <;> first | (revert hx; clear_value x; intro _) | subst x
        | (refine keeps_cut2 (s₀ := s₀) (t := x) ?_ fun hx => ?_) <;> first | (revert hx; clear_value x; intro _) | subst x
        | clear_value x
        | subst x)
    | (with_reducible refine modLevee_keeps ?_)
    | (with_reducible refine bump_keeps ?_)
    | dsimp only

theorem loadPolicer_keeps {s₀ s : State} {p c : Nat} (hk : Keeps s₀ s) :
    Keeps s₀ (loadPolicer p c s) := by
  unfold loadPolicer
  repeat' first
    | with_reducible assumption
    | (extract_lets +onlyGivenNames x; first
        | (refine keeps_cut (s₀ := s₀) (t := x) ?_ fun hx => ?_) <;> first | (revert hx; clear_value x; intro _) | subst x
        | clear_value x
        | subst x)
    | (with_reducible refine modLevee_keeps ?_)

theorem policerCommit_keeps {s₀ s : State} {p c : Nat} (hk : Keeps s₀ s) :
    Keeps s₀ (policerCommit p c s).2 := by
  unfold policerCommit
  repeat' first
    | with_reducible assumption
    | (extract_lets +onlyGivenNames x; first
        | (refine keeps_cut (s₀ := s₀) (t := x) ?_ fun hx => ?_) <;> first | (revert hx; clear_value x; intro _) | subst x
        | (refine keeps_cut2 (s₀ := s₀) (t := x) ?_ fun hx => ?_) <;> first | (revert hx; clear_value x; intro _) | subst x
        | clear_value x
        | subst x)
    | (with_reducible refine keeps_ite2 ?_ ?_)
    | (with_reducible refine keeps_ite ?_ ?_)
    | (with_reducible refine loadPolicer_keeps ?_)
    | (with_reducible refine commitStaged_keeps ?_)
    | dsimp only
    | split

theorem loadShaper_keeps {s₀ s : State} {p : Nat} (hk : Keeps s₀ s) :
    Keeps s₀ (loadShaper p s) := by
  unfold loadShaper
  repeat' first
    | with_reducible assumption
    | (extract_lets +onlyGivenNames x; first
        | (refine keeps_cut (s₀ := s₀) (t := x) ?_ fun hx => ?_) <;> first | (revert hx; clear_value x; intro _) | subst x
        | (refine keeps_cut2 (s₀ := s₀) (t := x) ?_ fun hx => ?_) <;> first | (revert hx; clear_value x; intro _) | subst x
        | (refine keeps_cutF (s₀ := s₀) (t := x) ?_ fun hx => ?_) <;> first | (revert hx; clear_value x; intro hF) | subst x
        | (refine keeps_cutG (s₀ := s₀) (t := x) ?_ fun hx => ?_) <;> first | (revert hx; clear_value x; intro hF) | subst x
        | (refine keeps_cutH (s₀ := s₀) (t := x) ?_ fun hx => ?_) <;> first | (revert hx; clear_value x; intro hF) | subst x
        | clear_value x
        | subst x)
    | (refine fun a b (y : State) (hy : Keeps s₀ y) => ?_; try dsimp only)
    | (refine fun a (y : State) (hy : Keeps s₀ y) => ?_; try dsimp only)
    | (refine fun (y : State) (hy : Keeps s₀ y) => ?_; try dsimp only)
    | (with_reducible refine modEgress_keeps ?_)
    | (with_reducible refine flushUnshaped_keeps ?_)
    | (with_reducible refine foldl_keeps (fun s x h => ?_) ?_)
    | (with_reducible refine foldl_pair_keeps (fun s x h => ?_) ?_)
    | (with_reducible refine foldl_fst_keeps (fun s x h => ?_) ?_)
    | (with_reducible refine hF _ _ _ ?_)
    | (with_reducible refine hF _ _ ?_)
    | (with_reducible refine hF _ ?_)
    | (with_reducible refine (‹∀ y, Keeps s₀ y → Keeps s₀ _›) _ ?_)
    | (with_reducible refine (‹∀ a y, Keeps s₀ y → Keeps s₀ _›) _ _ ?_)
    | (with_reducible refine (‹∀ a b y, Keeps s₀ y → Keeps s₀ _›) _ _ _ ?_)
    | dsimp only

theorem shaperCommit_keeps {s₀ s : State} {p : Nat} (hk : Keeps s₀ s) :
    Keeps s₀ (shaperCommit p s).2 := by
  unfold shaperCommit
  repeat' first
    | with_reducible assumption
    | (extract_lets +onlyGivenNames x; first
        | (refine keeps_cut (s₀ := s₀) (t := x) ?_ fun hx => ?_) <;> first | (revert hx; clear_value x; intro _) | subst x
        | (refine keeps_cut2 (s₀ := s₀) (t := x) ?_ fun hx => ?_) <;> first | (revert hx; clear_value x; intro _) | subst x
        | clear_value x
        | subst x)
    | (with_reducible refine keeps_ite2 ?_ ?_)
    | (with_reducible refine keeps_ite ?_ ?_)
    | (with_reducible refine loadShaper_keeps ?_)
    | (with_reducible refine commitStaged_keeps ?_)
    | dsimp only
    | split

theorem fixSnapshot_keeps {s₀ s : State} {p : Nat} {is : List Nat} {snap : Nat} (hk : Keeps s₀ s) :
    Keeps s₀ (fixSnapshot p is snap s).2 := by
  unfold fixSnapshot
  repeat' first
    | with_reducible assumption
    | (extract_lets +onlyGivenNames x; first
        | (refine keeps_cut (s₀ := s₀) (t := x) ?_ fun hx => ?_) <;> first | (revert hx; clear_value x; intro _) | subst x
        | (refine keeps_cut2 (s₀ := s₀) (t := x) ?_ fun hx => ?_) <;> first | (revert hx; clear_value x; intro _) | subst x
        | clear_value x
        | subst x)
    | (with_reducible refine keeps_ite2 ?_ ?_)
    | (with_reducible refine keeps_ite ?_ ?_)
    | (with_reducible refine putIndex_keeps ?_)
    | (with_reducible refine bump_keeps ?_)
    | (with_reducible refine foldl_keeps (fun s x h => ?_) ?_)
    | (with_reducible refine foldl_pair_keeps (fun s x h => ?_) ?_)
    | (with_reducible refine foldl_fst_keeps (fun s x h => ?_) ?_)
    | dsimp only
    | split

theorem retireDone_keeps {s₀ s : State} {p sl : Nat} (hk : Keeps s₀ s) :
    Keeps s₀ (retireDone p sl s) := by
  unfold retireDone
  repeat' first
    | with_reducible assumption
    | (with_reducible refine keeps_ite ?_ ?_)
    | (with_reducible refine modSlot_keeps ?_)
    | split

theorem drainDone_keeps {s₀ s : State} (hk : Keeps s₀ s) :
    Keeps s₀ (drainDone s) := by
  unfold drainDone
  repeat' first
    | with_reducible assumption
    | (with_reducible refine keeps_ite ?_ ?_)
    | (with_reducible refine setDevState_keeps ?_)
    | split

theorem leaveQuery_keeps {s₀ s : State} {q : Query} (hk : Keeps s₀ s) :
    Keeps s₀ (leaveQuery q s) := by
  unfold leaveQuery
  repeat' first
    | with_reducible assumption
    | (extract_lets +onlyGivenNames x; first
        | (refine keeps_cut (s₀ := s₀) (t := x) ?_ fun hx => ?_) <;> first | (revert hx; clear_value x; intro _) | subst x
        | clear_value x
        | subst x)
    | (with_reducible refine modLevee_keeps ?_)
    | (with_reducible refine modSlot_keeps ?_)
    | (with_reducible refine drainDone_keeps ?_)
    | (with_reducible refine retireDone_keeps ?_)

theorem composeQuery_keeps {s₀ s : State} {q : Query} {status reason degraded detail : Nat} {result : Bytes} (hk : Keeps s₀ s) :
    Keeps s₀ (composeQuery q status reason degraded detail result s) := by
  unfold composeQuery
  repeat' first
    | with_reducible assumption
    | (extract_lets +onlyGivenNames x; first
        | (refine keeps_cut (s₀ := s₀) (t := x) ?_ fun hx => ?_) <;> first | (revert hx; clear_value x; intro _) | subst x
        | clear_value x
        | subst x)
    | (with_reducible refine keeps_ite ?_ ?_)
    | (with_reducible refine charge_keeps ?_)
    | (with_reducible refine traceRecord_keeps ?_)
    | (with_reducible refine postRecord_keeps ?_)
    | (with_reducible refine leaveQuery_keeps ?_)
    | split

theorem faultCompletion_keeps {s₀ s : State} {q : Query} (hk : Keeps s₀ s) :
    Keeps s₀ (faultCompletion q s) := by
  unfold faultCompletion
  repeat' first
    | with_reducible assumption
    | (with_reducible refine composeQuery_keeps ?_)
    | (with_reducible refine bump_keeps ?_)

theorem acceptQuery_keeps {s₀ s : State} {r : Request} {sl lmax : Nat} (hk : Keeps s₀ s) :
    Keeps s₀ (acceptQuery r sl lmax s) := by
  unfold acceptQuery
  repeat' first
    | with_reducible assumption
    | (extract_lets +onlyGivenNames x; first
        | (refine keeps_cut (s₀ := s₀) (t := x) ?_ fun hx => ?_) <;> first | (revert hx; clear_value x; intro _) | subst x
        | (refine keeps_cut2 (s₀ := s₀) (t := x) ?_ fun hx => ?_) <;> first | (revert hx; clear_value x; intro _) | subst x
        | clear_value x
        | subst x)
    | (with_reducible refine keeps_ite ?_ ?_)
    | (with_reducible refine modLevee_keeps ?_)
    | (with_reducible refine fixSnapshot_keeps ?_)
    | (with_reducible refine keeps_of_pair (fixSnapshot_keeps ?_) ‹_›)
    | (with_reducible refine charge_keeps ?_)
    | (with_reducible refine traceAdmit_keeps ?_)
    | (with_reducible refine modSlot_keeps ?_)
    | (with_reducible refine faultCompletion_keeps ?_)
    | dsimp only
    | split

theorem acceptUpdate_keeps {s₀ s : State} {r : Request} (hk : Keeps s₀ s) :
    Keeps s₀ (acceptUpdate r s) := by
  unfold acceptUpdate
  repeat' first
    | with_reducible assumption
    | (extract_lets +onlyGivenNames x; first
        | (refine keeps_cut (s₀ := s₀) (t := x) ?_ fun hx => ?_) <;> first | (revert hx; clear_value x; intro _) | subst x
        | clear_value x
        | subst x)
    | (with_reducible refine modLevee_keeps ?_)
    | (with_reducible refine charge_keeps ?_)
    | (with_reducible refine traceAdmit_keeps ?_)

theorem acceptRequest_keeps {s₀ s : State} {r : Request} (hk : Keeps s₀ s) :
    Keeps s₀ (acceptRequest r s) := by
  unfold acceptRequest
  repeat' first
    | with_reducible assumption
    | (with_reducible refine keeps_ite ?_ ?_)
    | (with_reducible refine acceptQuery_keeps ?_)
    | (with_reducible refine acceptUpdate_keeps ?_)
    | split

theorem decide__keeps {s₀ s : State} {r : Request} (hk : Keeps s₀ s) :
    Keeps s₀ (decide_ r s).2 := by
  unfold decide_
  repeat' first
    | with_reducible assumption
    | (extract_lets +onlyGivenNames x; first
        | (refine keeps_cut (s₀ := s₀) (t := x) ?_ fun hx => ?_) <;> first | (revert hx; clear_value x; intro _) | subst x
        | (refine keeps_cut2 (s₀ := s₀) (t := x) ?_ fun hx => ?_) <;> first | (revert hx; clear_value x; intro _) | subst x
        | clear_value x
        | subst x)
    | (with_reducible refine keeps_ite2 ?_ ?_)
    | (with_reducible refine keeps_ite ?_ ?_)
    | (with_reducible refine policerMark_keeps ?_)
    | (with_reducible refine keeps_of_pair (policerMark_keeps ?_) ‹_›)
    | dsimp only
    | split

theorem dropRequest_keeps {s₀ s : State} {r : Request} (hk : Keeps s₀ s) :
    Keeps s₀ (dropRequest r s) := by
  unfold dropRequest
  repeat' first
    | with_reducible assumption
    | (with_reducible refine modLevee_keeps ?_)

theorem takeAcked_keeps {s₀ s : State} (hk : Keeps s₀ s) :
    Keeps s₀ (takeAcked s) := by
  unfold takeAcked
  repeat' first
    | with_reducible assumption
    | (with_reducible refine acceptRequest_keeps ?_)
    | (with_reducible refine dropRequest_keeps ?_)
    | (with_reducible refine foldl_keeps (fun s x h => ?_) ?_)
    | (with_reducible refine foldl_pair_keeps (fun s x h => ?_) ?_)
    | (with_reducible refine foldl_fst_keeps (fun s x h => ?_) ?_)
    | dsimp only
    | split

theorem sampleQueue_keeps {s₀ s : State} {p n : Nat} (hk : Keeps s₀ s) :
    Keeps s₀ (sampleQueue p n s) := by
  unfold sampleQueue
  repeat' first
    | with_reducible assumption
    | (extract_lets +onlyGivenNames x; first
        | (refine keeps_cut (s₀ := s₀) (t := x) ?_ fun hx => ?_) <;> first | (revert hx; clear_value x; intro _) | subst x
        | clear_value x
        | subst x)
    | (with_reducible refine modLevee_keeps ?_)
    | split

theorem resetPeaks_keeps {s₀ s : State} {p : Nat} (hk : Keeps s₀ s) :
    Keeps s₀ (resetPeaks p s) := by
  unfold resetPeaks
  repeat' first
    | with_reducible assumption
    | (with_reducible refine keeps_ite ?_ ?_)
    | (with_reducible refine modLevee_keeps ?_)
    | split

end Sys2Proof.Machine
end

