-- ==== Sys2Proof/Laws/KeepsCarrCore.lean ====
section
/-! SUPPORT. What the operations of Machine/CarrCore.lean keep. -/

namespace Sys2Proof.Machine

open Sys2Proof

/-- What an issue keeps: the state it goes on with. -/
def Issue.keeps (s₀ : State) : Issue → Prop
  | .go t => Keeps s₀ t
  | .jump _ t => Keeps s₀ t
  | .ended t => Keeps s₀ t
  | _ => True

/-- What a load keeps: the state it goes on with. -/
def Loaded.keeps (s₀ : State) : Loaded → Prop
  | .val _ _ t => Keeps s₀ t
  | _ => True

section
variable {s₀ t : State}

theorem Issue.keeps_go (h : Keeps s₀ t) : Issue.keeps s₀ (.go t) := h
theorem Issue.keeps_jump {n : Nat} (h : Keeps s₀ t) : Issue.keeps s₀ (.jump n t) := h
theorem Issue.keeps_ended (h : Keeps s₀ t) : Issue.keeps s₀ (.ended t) := h
theorem Loaded.keeps_val {b : Bytes} {p : Bool} (h : Keeps s₀ t) : Loaded.keeps s₀ (.val b p t) := h
theorem Issue.keeps_of_go {i : Issue} (h : Issue.keeps s₀ i) (e : i = .go t) : Keeps s₀ t := by subst e; exact h
theorem Issue.keeps_of_jump {i : Issue} {n : Nat} (h : Issue.keeps s₀ i) (e : i = .jump n t) : Keeps s₀ t := by subst e; exact h
theorem Issue.keeps_of_ended {i : Issue} (h : Issue.keeps s₀ i) (e : i = .ended t) : Keeps s₀ t := by subst e; exact h
theorem Loaded.keeps_of_val {i : Loaded} {b : Bytes} {p : Bool} (h : Loaded.keeps s₀ i) (e : i = .val b p t) : Keeps s₀ t := by
  subst e; exact h

theorem keeps_iteI {p : Prop} [Decidable p] {a b : Issue} (ha : Issue.keeps s₀ a) (hb : Issue.keeps s₀ b) :
    Issue.keeps s₀ (if p then a else b) := by
  split <;> assumption

theorem keeps_iteL {p : Prop} [Decidable p] {a b : Loaded} (ha : Loaded.keeps s₀ a) (hb : Loaded.keeps s₀ b) :
    Loaded.keeps s₀ (if p then a else b) := by
  split <;> assumption

end

theorem raiseExc_keeps {s₀ s : State} {pc mode code : Nat} (hk : Keeps s₀ s) :
    Keeps s₀ (raiseExc pc mode code s) := by
  unfold raiseExc
  repeat' first
    | with_reducible assumption
    | (extract_lets +onlyGivenNames x; first
        | (refine keeps_cut (s₀ := s₀) (t := x) ?_ fun hx => ?_) <;> first | (revert hx; clear_value x; intro _) | subst x
        | clear_value x
        | subst x)
    | (with_reducible refine keeps_ite ?_ ?_)
    | (with_reducible refine setCount_keeps ?_)
    | (with_reducible refine bump_keeps ?_)
    | (with_reducible refine annal_keeps ?_)
    | (with_reducible refine modCore_keeps ?_)
    | (with_reducible refine modReady_keeps ?_)
    | (with_reducible refine modWindow_keeps ?_)
    | (with_reducible refine killCore_keeps ?_)
    | (with_reducible refine closeOn_keeps ?_)
    | split

theorem carrIssue_keeps {s₀ s : State} {pc mode : Nat} {f : Core → Issue} (hf : ∀ k, Issue.keeps s₀ (f k)) (hk : Keeps s₀ s) :
    Keeps s₀ (carrIssue pc mode f s) := by
  unfold carrIssue
  repeat' first
    | with_reducible assumption
    | (extract_lets +onlyGivenNames x; first
        | (refine keeps_cut (s₀ := s₀) (t := x) ?_ fun hx => ?_) <;> first | (revert hx; clear_value x; intro _) | subst x
        | clear_value x
        | subst x)
    | (with_reducible refine keeps_ite ?_ ?_)
    | (with_reducible refine raiseExc_keeps ?_)
    | (with_reducible refine modCore_keeps ?_)
    | (with_reducible refine Issue.keeps_of_go (hf _) ‹_›)
    | (with_reducible refine Issue.keeps_of_jump (hf _) ‹_›)
    | (with_reducible refine Issue.keeps_of_ended (hf _) ‹_›)
    | split

theorem setG_keeps {s₀ s : State} {pc mode d : Nat} {v : W32} {bad : Bool} (hk : Keeps s₀ s) :
    Keeps s₀ (setG pc mode d v bad s) := by
  unfold setG
  repeat' first
    | with_reducible assumption
    | (with_reducible refine setCoreG_keeps ?_)

theorem setV_keeps {s₀ s : State} {pc mode d : Nat} {v : W512} {bad : Bool} (hk : Keeps s₀ s) :
    Keeps s₀ (setV pc mode d v bad s) := by
  unfold setV
  repeat' first
    | with_reducible assumption
    | (with_reducible refine modCore_keeps ?_)

theorem aluRR_keeps {s₀ s : State} {pc mode d a b : Nat} {f : W32 → W32 → W32} (hk : Keeps s₀ s) :
    Keeps s₀ (aluRR pc mode d a b f s) := by
  unfold aluRR
  repeat' first
    | with_reducible assumption
    | (with_reducible refine keeps_iteI ?_ ?_)
    | exact trivial
    | (with_reducible refine Issue.keeps_go ?_)
    | (with_reducible refine Issue.keeps_jump ?_)
    | (with_reducible refine Issue.keeps_ended ?_)
    | (with_reducible refine carrIssue_keeps (fun k => ?_) ?_)
    | (with_reducible refine setG_keeps ?_)

theorem aluRI_keeps {s₀ s : State} {pc mode d a : Nat} {f : W32 → W32} (hk : Keeps s₀ s) :
    Keeps s₀ (aluRI pc mode d a f s) := by
  unfold aluRI
  repeat' first
    | with_reducible assumption
    | (with_reducible refine keeps_iteI ?_ ?_)
    | exact trivial
    | (with_reducible refine Issue.keeps_go ?_)
    | (with_reducible refine Issue.keeps_jump ?_)
    | (with_reducible refine Issue.keeps_ended ?_)
    | (with_reducible refine carrIssue_keeps (fun k => ?_) ?_)
    | (with_reducible refine setG_keeps ?_)

theorem vop_keeps {s₀ s : State} {pc mode d a b : Nat} {f : W512 → W512 → W512} (hk : Keeps s₀ s) :
    Keeps s₀ (vop pc mode d a b f s) := by
  unfold vop
  repeat' first
    | with_reducible assumption
    | (with_reducible refine keeps_iteI ?_ ?_)
    | exact trivial
    | (with_reducible refine Issue.keeps_go ?_)
    | (with_reducible refine Issue.keeps_jump ?_)
    | (with_reducible refine Issue.keeps_ended ?_)
    | (with_reducible refine carrIssue_keeps (fun k => ?_) ?_)
    | (with_reducible refine setV_keeps ?_)

theorem branch_keeps {s₀ s : State} {pc mode a b off : Nat} {f : W32 → W32 → Bool} (hk : Keeps s₀ s) :
    Keeps s₀ (branch pc mode a b off f s) := by
  unfold branch
  repeat' first
    | with_reducible assumption
    | (with_reducible refine keeps_iteI ?_ ?_)
    | exact trivial
    | (with_reducible refine Issue.keeps_go ?_)
    | (with_reducible refine Issue.keeps_jump ?_)
    | (with_reducible refine Issue.keeps_ended ?_)
    | (with_reducible refine keeps_ite ?_ ?_)
    | (with_reducible refine carrIssue_keeps (fun k => ?_) ?_)
    | split

theorem loadCore_keeps {s₀ s : State} {pc mode : Nat} {k : Core} {addr n al : Nat} (hk : Keeps s₀ s) :
    Loaded.keeps s₀ (loadCore pc mode k addr n al s) := by
  unfold loadCore
  repeat' first
    | with_reducible assumption
    | exact trivial
    | (with_reducible refine Loaded.keeps_val ?_)
    | (extract_lets +onlyGivenNames x; first
        | (refine keeps_cut (s₀ := s₀) (t := x) ?_ fun hx => ?_) <;> first | (revert hx; clear_value x; intro _) | subst x
        | clear_value x
        | subst x)
    | (with_reducible refine keeps_iteL ?_ ?_)
    | (with_reducible refine keeps_ite ?_ ?_)
    | (with_reducible refine firewallHit_keeps ?_)
    | dsimp only
    | split

theorem storeCore_keeps {s₀ s : State} {pc mode : Nat} {k : Core} {addr : Nat} {bytes : Bytes} {bad : Bool} (hk : Keeps s₀ s) :
    Issue.keeps s₀ (storeCore pc mode k addr bytes bad s) := by
  unfold storeCore
  repeat' first
    | with_reducible assumption
    | exact trivial
    | (with_reducible refine Issue.keeps_go ?_)
    | (with_reducible refine Issue.keeps_jump ?_)
    | (with_reducible refine Issue.keeps_ended ?_)
    | (extract_lets +onlyGivenNames x; first
        | (refine keeps_cut (s₀ := s₀) (t := x) ?_ fun hx => ?_) <;> first | (revert hx; clear_value x; intro _) | subst x
        | clear_value x
        | subst x)
    | (with_reducible refine keeps_iteI ?_ ?_)
    | (with_reducible refine keeps_ite ?_ ?_)
    | (with_reducible refine modCarr_keeps ?_)
    | (with_reducible refine modMem_keeps (fun m hm => by simp_all [Mems.wf, Memory.wf_writeN]) ?_)
    | dsimp only
    | split

theorem loadG_keeps {s₀ s : State} {pc mode d a imm n : Nat} (hk : Keeps s₀ s) :
    Keeps s₀ (loadG pc mode d a imm n s) := by
  unfold loadG
  repeat' first
    | with_reducible assumption
    | (with_reducible refine keeps_iteI ?_ ?_)
    | exact trivial
    | (with_reducible refine Issue.keeps_go ?_)
    | (with_reducible refine Issue.keeps_jump ?_)
    | (with_reducible refine Issue.keeps_ended ?_)
    | (with_reducible refine keeps_ite ?_ ?_)
    | (with_reducible refine carrIssue_keeps (fun k => ?_) ?_)
    | (with_reducible refine loadCore_keeps ?_)
    | (with_reducible refine Loaded.keeps_of_val (loadCore_keeps ?_) ‹_›)
    | (with_reducible refine setG_keeps ?_)
    | split

theorem storeG_keeps {s₀ s : State} {pc mode v a imm n : Nat} (hk : Keeps s₀ s) :
    Keeps s₀ (storeG pc mode v a imm n s) := by
  unfold storeG
  repeat' first
    | with_reducible assumption
    | (with_reducible refine keeps_iteI ?_ ?_)
    | exact trivial
    | (with_reducible refine Issue.keeps_go ?_)
    | (with_reducible refine Issue.keeps_jump ?_)
    | (with_reducible refine Issue.keeps_ended ?_)
    | (with_reducible refine keeps_ite ?_ ?_)
    | (with_reducible refine carrIssue_keeps (fun k => ?_) ?_)
    | (with_reducible refine storeCore_keeps ?_)
    | split

theorem runRow_keeps {s₀ s : State} {pc mode : Nat} {r : AdcRow} (hk : Keeps s₀ s) :
    Keeps s₀ (runRow pc mode r s) := by
  unfold runRow
  repeat' first
    | with_reducible assumption
    | (extract_lets +onlyGivenNames x; first
        | (refine keeps_cut (s₀ := s₀) (t := x) ?_ fun hx => ?_) <;> first | (revert hx; clear_value x; intro _) | subst x
        | (refine keeps_cut2 (s₀ := s₀) (t := x) ?_ fun hx => ?_) <;> first | (revert hx; clear_value x; intro _) | subst x
        | clear_value x
        | subst x)
    | (with_reducible refine keeps_ite ?_ ?_)
    | (with_reducible refine firewallHit_keeps ?_)
    | (with_reducible refine charge_keeps ?_)
    | (with_reducible refine modCore_keeps ?_)
    | (with_reducible refine foldl_keeps (fun s x h => ?_) ?_)
    | (with_reducible refine foldl_pair_keeps (fun s x h => ?_) ?_)
    | (with_reducible refine foldl_fst_keeps (fun s x h => ?_) ?_)
    | dsimp only
    | split

theorem queueRow_keeps {s₀ s : State} {pc mode op d a b : Nat} (hk : Keeps s₀ s) :
    Keeps s₀ (queueRow pc mode op d a b s) := by
  unfold queueRow
  repeat' first
    | with_reducible assumption
    | (with_reducible refine keeps_iteI ?_ ?_)
    | exact trivial
    | (with_reducible refine Issue.keeps_go ?_)
    | (with_reducible refine Issue.keeps_jump ?_)
    | (with_reducible refine Issue.keeps_ended ?_)
    | (extract_lets +onlyGivenNames x; first
        | (refine keeps_cut (s₀ := s₀) (t := x) ?_ fun hx => ?_) <;> first | (revert hx; clear_value x; intro _) | subst x
        | (refine keeps_cut2 (s₀ := s₀) (t := x) ?_ fun hx => ?_) <;> first | (revert hx; clear_value x; intro _) | subst x
        | clear_value x
        | subst x)
    | (with_reducible refine keeps_ite ?_ ?_)
    | (with_reducible refine carrIssue_keeps (fun k => ?_) ?_)
    | (with_reducible refine modCore_keeps ?_)
    | split

theorem postDone_keeps {s₀ s : State} {pc : Nat} {k : Core} {items : Option Nat} (hk : Keeps s₀ s) :
    Issue.keeps s₀ (postDone pc k items s) := by
  unfold postDone
  repeat' first
    | with_reducible assumption
    | exact trivial
    | (with_reducible refine Issue.keeps_go ?_)
    | (with_reducible refine Issue.keeps_jump ?_)
    | (with_reducible refine Issue.keeps_ended ?_)
    | (extract_lets +onlyGivenNames x; first
        | (refine keeps_cut (s₀ := s₀) (t := x) ?_ fun hx => ?_) <;> first | (revert hx; clear_value x; intro _) | subst x
        | clear_value x
        | subst x)
    | (with_reducible refine keeps_iteI ?_ ?_)
    | (with_reducible refine keeps_ite ?_ ?_)
    | (with_reducible refine modReady_keeps ?_)
    | (with_reducible refine closeOn_keeps ?_)
    | dsimp only
    | split

end Sys2Proof.Machine
end

