-- ==== Sys2Proof/Laws/KeepsArrays.lean ====
section
/-! SUPPORT. What the operations of Machine/Arrays.lean keep. -/

namespace Sys2Proof.Machine

open Sys2Proof

theorem modArray_keeps {s₀ s : State} {n : Nat} {f : ArrayUnit → ArrayUnit} (hk : Keeps s₀ s) :
    Keeps s₀ (modArray n f s) := by
  unfold modArray
  repeat' first
    | with_reducible assumption
    | (with_reducible refine modUnits_keeps ?_)

theorem loseTile_keeps {s₀ s : State} {t : Nat} (hk : Keeps s₀ s) :
    Keeps s₀ (loseTile t s) := by
  unfold loseTile
  repeat' first
    | with_reducible assumption
    | (extract_lets +onlyGivenNames x; first
        | (refine keeps_cut (s₀ := s₀) (t := x) ?_ fun hx => ?_) <;> first | (revert hx; clear_value x; intro _) | subst x
        | clear_value x
        | subst x)
    | (with_reducible refine keeps_ite ?_ ?_)
    | (with_reducible refine modTiles_keeps ?_)
    | (with_reducible refine modUnits_keeps ?_)
    | (with_reducible refine modVigil_keeps ?_)
    | (with_reducible refine actedFiring_keeps ?_)
    | (with_reducible refine settle_keeps ?_)
    | (with_reducible refine unitLost_keeps ?_)
    | split

theorem breakArray_keeps {s₀ s : State} {n : Nat} (hk : Keeps s₀ s) :
    Keeps s₀ (breakArray n s) := by
  unfold breakArray
  repeat' first
    | with_reducible assumption
    | (with_reducible refine loseTile_keeps ?_)
    | (with_reducible refine modArray_keeps ?_)

theorem switchColumn_keeps {s₀ s : State} {n col dst cause : Nat} {retire : Bool} (hk : Keeps s₀ s) :
    Keeps s₀ (switchColumn n col dst cause retire s) := by
  unfold switchColumn
  repeat' first
    | with_reducible assumption
    | (extract_lets +onlyGivenNames x; first
        | (refine keeps_cut (s₀ := s₀) (t := x) ?_ fun hx => ?_) <;> first | (revert hx; clear_value x; intro _) | subst x
        | clear_value x
        | subst x)
    | (with_reducible refine keeps_ite ?_ ?_)
    | (with_reducible refine modArray_keeps ?_)
    | (with_reducible refine spareSwitch_keeps ?_)
    | split

theorem failColumn_keeps {s₀ s : State} {n phys : Nat} (hk : Keeps s₀ s) :
    Keeps s₀ (failColumn n phys s) := by
  unfold failColumn
  repeat' first
    | with_reducible assumption
    | (with_reducible refine keeps_ite ?_ ?_)
    | (with_reducible refine modArray_keeps ?_)
    | split

theorem retireColumn_keeps {s₀ s : State} {n col dst : Nat} (hk : Keeps s₀ s) :
    Keeps s₀ (retireColumn n col dst s) := by
  unfold retireColumn
  repeat' first
    | with_reducible assumption
    | (with_reducible refine modArray_keeps ?_)

theorem arrayBoundary_keeps {s₀ s : State} {n : Nat} (hk : Keeps s₀ s) :
    Keeps s₀ (arrayBoundary n s) := by
  unfold arrayBoundary
  repeat' first
    | with_reducible assumption
    | (extract_lets +onlyGivenNames x; first
        | (refine keeps_cut (s₀ := s₀) (t := x) ?_ fun hx => ?_) <;> first | (revert hx; clear_value x; intro _) | subst x
        | (refine keeps_cut2 (s₀ := s₀) (t := x) ?_ fun hx => ?_) <;> first | (revert hx; clear_value x; intro _) | subst x
        | clear_value x
        | subst x)
    | (with_reducible refine keeps_ite ?_ ?_)
    | (with_reducible refine modArray_keeps ?_)
    | (with_reducible refine switchColumn_keeps ?_)
    | (with_reducible refine foldl_keeps (fun s x h => ?_) ?_)
    | (with_reducible refine foldl_pair_keeps (fun s x h => ?_) ?_)
    | (with_reducible refine foldl_fst_keeps (fun s x h => ?_) ?_)
    | dsimp only
    | split

theorem startSearch_keeps {s₀ s : State} {n : Nat} (hk : Keeps s₀ s) :
    Keeps s₀ (startSearch n s) := by
  unfold startSearch
  repeat' first
    | with_reducible assumption
    | (with_reducible refine keeps_ite ?_ ?_)
    | (with_reducible refine modArray_keeps ?_)
    | split

theorem disagree_keeps {s₀ s : State} {n phys : Nat} (hk : Keeps s₀ s) :
    Keeps s₀ (disagree n phys s) := by
  unfold disagree
  repeat' first
    | with_reducible assumption
    | (extract_lets +onlyGivenNames x; first
        | (refine keeps_cut (s₀ := s₀) (t := x) ?_ fun hx => ?_) <;> first | (revert hx; clear_value x; intro _) | subst x
        | clear_value x
        | subst x)
    | (with_reducible refine retireColumn_keeps ?_)
    | (with_reducible refine modArray_keeps ?_)
    | split

theorem advanceShadows_keeps {s₀ s : State} {n : Nat} (hk : Keeps s₀ s) :
    Keeps s₀ (advanceShadows n s) := by
  unfold advanceShadows
  repeat' first
    | with_reducible assumption
    | (extract_lets +onlyGivenNames x; first
        | (refine keeps_cut (s₀ := s₀) (t := x) ?_ fun hx => ?_) <;> first | (revert hx; clear_value x; intro _) | subst x
        | clear_value x
        | subst x)
    | (with_reducible refine keeps_ite ?_ ?_)
    | (with_reducible refine failColumn_keeps ?_)
    | (with_reducible refine modArray_keeps ?_)
    | (with_reducible refine bump_keeps ?_)
    | split

theorem writeOutputs_keeps {s₀ s : State} {t k n : Nat} {p : Pass} {lost : Bool} (hk : Keeps s₀ s) :
    Keeps s₀ (writeOutputs t k n p lost s) := by
  unfold writeOutputs
  repeat' first
    | with_reducible assumption
    | (extract_lets +onlyGivenNames x; first
        | (refine keeps_cut (s₀ := s₀) (t := x) ?_ fun hx => ?_) <;> first | (revert hx; clear_value x; intro _) | subst x
        | (refine keeps_cut2 (s₀ := s₀) (t := x) ?_ fun hx => ?_) <;> first | (revert hx; clear_value x; intro _) | subst x
        | clear_value x
        | subst x)
    | (with_reducible refine keeps_ite ?_ ?_)
    | (with_reducible refine modUnits_keeps ?_)
    | (with_reducible refine bump_keeps ?_)
    | (with_reducible refine tilePut_keeps ?_)
    | (with_reducible refine foldl_keeps (fun s x h => ?_) ?_)
    | (with_reducible refine foldl_pair_keeps (fun s x h => ?_) ?_)
    | (with_reducible refine foldl_fst_keeps (fun s x h => ?_) ?_)
    | dsimp only
    | split

theorem passError_keeps {s₀ s : State} {t k st n : Nat} {errs : List Nat} {d : Bytes} (hk : Keeps s₀ s) :
    Keeps s₀ (passError t k st n errs d s).2 := by
  unfold passError
  repeat' first
    | with_reducible assumption
    | (extract_lets +onlyGivenNames x; first
        | (refine keeps_cut (s₀ := s₀) (t := x) ?_ fun hx => ?_) <;> first | (revert hx; clear_value x; intro _) | subst x
        | (refine keeps_cut2 (s₀ := s₀) (t := x) ?_ fun hx => ?_) <;> first | (revert hx; clear_value x; intro _) | subst x
        | clear_value x
        | subst x)
    | (with_reducible refine keeps_ite2 ?_ ?_)
    | (with_reducible refine keeps_ite ?_ ?_)
    | (with_reducible refine traceCheck_keeps ?_)
    | (with_reducible refine startSearch_keeps ?_)
    | (with_reducible refine bump_keeps ?_)
    | (with_reducible refine markError_keeps ?_)
    | (with_reducible refine keeps_of_pair (markError_keeps ?_) ‹_›)
    | (with_reducible refine modArray_keeps ?_)
    | (with_reducible refine lostWork_keeps ?_)
    | (with_reducible refine foldl_keeps (fun s x h => ?_) ?_)
    | (with_reducible refine foldl_pair_keeps (fun s x h => ?_) ?_)
    | (with_reducible refine foldl_fst_keeps (fun s x h => ?_) ?_)
    | dsimp only
    | split

theorem finishPass_keeps {s₀ s : State} {t k n : Nat} {d : Bytes} (hk : Keeps s₀ s) :
    Keeps s₀ (finishPass t k n d s) := by
  unfold finishPass
  repeat' first
    | with_reducible assumption
    | (extract_lets +onlyGivenNames x; first
        | (refine keeps_cut (s₀ := s₀) (t := x) ?_ fun hx => ?_) <;> first | (revert hx; clear_value x; intro _) | subst x
        | clear_value x
        | subst x)
    | (with_reducible refine keeps_ite ?_ ?_)
    | (with_reducible refine writeOutputs_keeps ?_)
    | (with_reducible refine bump_keeps ?_)
    | (with_reducible refine modArray_keeps ?_)
    | (with_reducible refine raiseField_keeps ?_)
    | split

theorem streamPass_keeps {s₀ s : State} {t k n : Nat} {p : Pass} (hk : Keeps s₀ s) :
    Keeps s₀ (streamPass t k n p s) := by
  unfold streamPass
  repeat' first
    | with_reducible assumption
    | (extract_lets +onlyGivenNames x; first
        | (refine keeps_cut (s₀ := s₀) (t := x) ?_ fun hx => ?_) <;> first | (revert hx; clear_value x; intro _) | subst x
        | (refine keeps_cut2 (s₀ := s₀) (t := x) ?_ fun hx => ?_) <;> first | (revert hx; clear_value x; intro _) | subst x
        | clear_value x
        | subst x)
    | (with_reducible refine keeps_ite ?_ ?_)
    | (with_reducible refine tileGet_keeps ?_)
    | (with_reducible refine keeps_of_pair (tileGet_keeps ?_) ‹_›)
    | (with_reducible refine bump_keeps ?_)
    | (with_reducible refine modArray_keeps ?_)
    | (with_reducible refine foldl_keeps (fun s x h => ?_) ?_)
    | (with_reducible refine foldl_pair_keeps (fun s x h => ?_) ?_)
    | (with_reducible refine foldl_fst_keeps (fun s x h => ?_) ?_)
    | dsimp only
    | split

theorem enqueuePass_keeps {s₀ s : State} {n : Nat} {d : Bytes} (hk : Keeps s₀ s) :
    KeepsO s₀ (enqueuePass n d s) := by
  unfold enqueuePass
  repeat' first
    | with_reducible assumption
    | (with_reducible refine keeps_someO ?_)
    | with_reducible exact keeps_noneO
    | (with_reducible refine keeps_mapO fun q => ?_)
    | (with_reducible refine modArray_keeps ?_)
    | dsimp only

theorem cutArray_keeps {s₀ s : State} {n : Nat} (hk : Keeps s₀ s) :
    Keeps s₀ (cutArray n s) := by
  unfold cutArray
  repeat' first
    | with_reducible assumption
    | (extract_lets +onlyGivenNames x; first
        | (refine keeps_cut (s₀ := s₀) (t := x) ?_ fun hx => ?_) <;> first | (revert hx; clear_value x; intro _) | subst x
        | (refine keeps_cut2 (s₀ := s₀) (t := x) ?_ fun hx => ?_) <;> first | (revert hx; clear_value x; intro _) | subst x
        | clear_value x
        | subst x)
    | (with_reducible refine modArray_keeps ?_)
    | (with_reducible refine drawn_keeps ?_)
    | (with_reducible refine foldl_keeps (fun s x h => ?_) ?_)
    | (with_reducible refine foldl_pair_keeps (fun s x h => ?_) ?_)
    | (with_reducible refine foldl_fst_keeps (fun s x h => ?_) ?_)
    | dsimp only
    | split

end Sys2Proof.Machine
end

