-- ==== Sys2Proof/Laws/KeepsSedge.lean ====
section
/-! SUPPORT. What the operations of Machine/Sedge.lean keep. -/

namespace Sys2Proof.Machine

open Sys2Proof

theorem modSedge_keeps {s₀ s : State} {n : Nat} {f : SedgeUnit → SedgeUnit} (hk : Keeps s₀ s) :
    Keeps s₀ (modSedge n f s) := by
  unfold modSedge
  repeat' first
    | with_reducible assumption
    | (with_reducible refine modUnits_keeps ?_)

theorem modOpen_keeps {s₀ s : State} {n : Nat} {f : OpenBatch → OpenBatch} (hk : Keeps s₀ s) :
    Keeps s₀ (modOpen n f s) := by
  unfold modOpen
  repeat' first
    | with_reducible assumption
    | (with_reducible refine modSedge_keeps ?_)

theorem giveEnt_keeps {s₀ s : State} {n k j : Nat} {e : Ent} (hk : Keeps s₀ s) :
    Keeps s₀ (giveEnt n k j e s) := by
  unfold giveEnt
  repeat' first
    | with_reducible assumption
    | (extract_lets +onlyGivenNames x; first
        | (refine keeps_cut (s₀ := s₀) (t := x) ?_ fun hx => ?_) <;> first | (revert hx; clear_value x; intro _) | subst x
        | clear_value x
        | subst x)
    | (with_reducible refine modOpen_keeps ?_)
    | (with_reducible refine bump_keeps ?_)
    | split

theorem enqueueSedge_keeps {s₀ s : State} {n : Nat} {d : Bytes} (hk : Keeps s₀ s) :
    KeepsO s₀ (enqueueSedge n d s) := by
  unfold enqueueSedge
  repeat' first
    | with_reducible assumption
    | (with_reducible refine keeps_someO ?_)
    | with_reducible exact keeps_noneO
    | (with_reducible refine keeps_mapO fun q => ?_)
    | (with_reducible refine modSedge_keeps ?_)
    | dsimp only

theorem refuseSedge_keeps {s₀ s : State} {n : Nat} (hk : Keeps s₀ s) :
    Keeps s₀ (refuseSedge n s) := by
  unfold refuseSedge
  repeat' first
    | with_reducible assumption
    | (with_reducible refine bump_keeps ?_)
    | (with_reducible refine modSedge_keeps ?_)

theorem captureScore_keeps {s₀ s : State} {own t q item base score : Nat} {d : Bytes} (hk : Keeps s₀ s) :
    Keeps s₀ (captureScore own t q item base score d s) := by
  unfold captureScore
  repeat' first
    | with_reducible assumption
    | (extract_lets +onlyGivenNames x; first
        | (refine keeps_cut (s₀ := s₀) (t := x) ?_ fun hx => ?_) <;> first | (revert hx; clear_value x; intro _) | subst x
        | (refine keeps_cut2 (s₀ := s₀) (t := x) ?_ fun hx => ?_) <;> first | (revert hx; clear_value x; intro _) | subst x
        | clear_value x
        | subst x)
    | (with_reducible refine keeps_ite ?_ ?_)
    | (with_reducible refine tileGet_keeps ?_)
    | (with_reducible refine keeps_of_pair (tileGet_keeps ?_) ‹_›)
    | (with_reducible refine tilePut_keeps ?_)
    | dsimp only
    | split

theorem columnsVector_keeps {s₀ s : State} {t n k a v : Nat} {vec : List Nat} {b : OpenBatch} (hk : Keeps s₀ s) :
    Keeps s₀ (columnsVector t n k a v vec b s) := by
  unfold columnsVector
  repeat' first
    | with_reducible assumption
    | (extract_lets +onlyGivenNames x; first
        | (refine keeps_cut (s₀ := s₀) (t := x) ?_ fun hx => ?_) <;> first | (revert hx; clear_value x; intro _) | subst x
        | (refine keeps_cut2 (s₀ := s₀) (t := x) ?_ fun hx => ?_) <;> first | (revert hx; clear_value x; intro _) | subst x
        | clear_value x
        | subst x)
    | (with_reducible refine keeps_ite ?_ ?_)
    | (with_reducible refine captureScore_keeps ?_)
    | (with_reducible refine giveEnt_keeps ?_)
    | (with_reducible refine foldl_keeps (fun s x h => ?_) ?_)
    | (with_reducible refine foldl_pair_keeps (fun s x h => ?_) ?_)
    | (with_reducible refine foldl_fst_keeps (fun s x h => ?_) ?_)
    | dsimp only
    | split

theorem candidateVector_keeps {s₀ s : State} {t n k c : Nat} {vec : List Nat} {d : Bytes} (hk : Keeps s₀ s) :
    Keeps s₀ (candidateVector t n k c vec d s) := by
  unfold candidateVector
  repeat' first
    | with_reducible assumption
    | (extract_lets +onlyGivenNames x; first
        | (refine keeps_cut (s₀ := s₀) (t := x) ?_ fun hx => ?_) <;> first | (revert hx; clear_value x; intro _) | subst x
        | (refine keeps_cut2 (s₀ := s₀) (t := x) ?_ fun hx => ?_) <;> first | (revert hx; clear_value x; intro _) | subst x
        | clear_value x
        | subst x)
    | (with_reducible refine tileGet_keeps ?_)
    | (with_reducible refine keeps_of_pair (tileGet_keeps ?_) ‹_›)
    | (with_reducible refine giveEnt_keeps ?_)
    | dsimp only

theorem sedgeParity_keeps {s₀ s : State} {tile n k st : Nat} (hk : Keeps s₀ s) :
    Keeps s₀ (sedgeParity tile n k st s) := by
  unfold sedgeParity
  repeat' first
    | with_reducible assumption
    | (extract_lets +onlyGivenNames x; first
        | (refine keeps_cut (s₀ := s₀) (t := x) ?_ fun hx => ?_) <;> first | (revert hx; clear_value x; intro _) | subst x
        | clear_value x
        | subst x)
    | (with_reducible refine keeps_ite ?_ ?_)
    | (with_reducible refine modUnits_keeps ?_)
    | (with_reducible refine traceCheck_keeps ?_)
    | (with_reducible refine lostWork_keeps ?_)
    | (with_reducible refine modOpen_keeps ?_)
    | (with_reducible refine loseTile_keeps ?_)
    | split

theorem mergeMessage_keeps {s₀ s : State} {n k slot header : Nat} {data : Bytes} (hk : Keeps s₀ s) :
    Keeps s₀ (mergeMessage n k slot header data s) := by
  unfold mergeMessage
  repeat' first
    | with_reducible assumption
    | (extract_lets +onlyGivenNames x; first
        | (refine keeps_cut (s₀ := s₀) (t := x) ?_ fun hx => ?_) <;> first | (revert hx; clear_value x; intro _) | subst x
        | (refine keeps_cut2 (s₀ := s₀) (t := x) ?_ fun hx => ?_) <;> first | (revert hx; clear_value x; intro _) | subst x
        | (refine keeps_cutF (s₀ := s₀) (t := x) ?_ fun hx => ?_) <;> first | (revert hx; clear_value x; intro hF) | subst x
        | (refine keeps_cutG (s₀ := s₀) (t := x) ?_ fun hx => ?_) <;> first | (revert hx; clear_value x; intro hF) | subst x
        | (refine keeps_cutH (s₀ := s₀) (t := x) ?_ fun hx => ?_) <;> first | (revert hx; clear_value x; intro hF) | subst x
        | clear_value x
        | subst x)
    | (refine fun a b (y : State) (hy : Keeps s₀ y) => ?_; try dsimp only)
    | (refine fun a (y : State) (hy : Keeps s₀ y) => ?_; try dsimp only)
    | (refine fun (y : State) (hy : Keeps s₀ y) => ?_; try dsimp only)
    | (with_reducible refine keeps_ite ?_ ?_)
    | (with_reducible refine bump_keeps ?_)
    | (with_reducible refine modOpen_keeps ?_)
    | (with_reducible refine giveEnt_keeps ?_)
    | (with_reducible refine foldl_keeps (fun s x h => ?_) ?_)
    | (with_reducible refine foldl_pair_keeps (fun s x h => ?_) ?_)
    | (with_reducible refine foldl_fst_keeps (fun s x h => ?_) ?_)
    | (with_reducible refine hF _ _ _ ?_)
    | (with_reducible refine hF _ _ ?_)
    | (with_reducible refine hF _ ?_)
    | (with_reducible refine (‹∀ y, Keeps s₀ y → Keeps s₀ _›) _ ?_)
    | (with_reducible refine (‹∀ a y, Keeps s₀ y → Keeps s₀ _›) _ _ ?_)
    | (with_reducible refine (‹∀ a b y, Keeps s₀ y → Keeps s₀ _›) _ _ _ ?_)
    | dsimp only
    | split

theorem writeLists_keeps {s₀ s : State} {tile n k st : Nat} {b : OpenBatch} {fin : Bytes} (hk : Keeps s₀ s) :
    Keeps s₀ (writeLists tile n k st b fin s) := by
  unfold writeLists
  repeat' first
    | with_reducible assumption
    | (extract_lets +onlyGivenNames x; first
        | (refine keeps_cut (s₀ := s₀) (t := x) ?_ fun hx => ?_) <;> first | (revert hx; clear_value x; intro _) | subst x
        | (refine keeps_cut2 (s₀ := s₀) (t := x) ?_ fun hx => ?_) <;> first | (revert hx; clear_value x; intro _) | subst x
        | clear_value x
        | subst x)
    | (with_reducible refine keeps_ite ?_ ?_)
    | (with_reducible refine modUnits_keeps ?_)
    | (with_reducible refine bump_keeps ?_)
    | (with_reducible refine flagQueries_keeps ?_)
    | (with_reducible refine tilePut_keeps ?_)
    | (with_reducible refine raiseField_keeps ?_)
    | (with_reducible refine modSedge_keeps ?_)
    | (with_reducible refine foldl_keeps (fun s x h => ?_) ?_)
    | (with_reducible refine foldl_pair_keeps (fun s x h => ?_) ?_)
    | (with_reducible refine foldl_fst_keeps (fun s x h => ?_) ?_)
    | dsimp only
    | split

theorem cutSedge_keeps {s₀ s : State} {n : Nat} (hk : Keeps s₀ s) :
    Keeps s₀ (cutSedge n s) := by
  unfold cutSedge
  repeat' first
    | with_reducible assumption
    | (with_reducible refine modSedge_keeps ?_)

end Sys2Proof.Machine
end

