-- ==== Sys2Proof/Laws/KeepsMere.lean ====
section
/-! SUPPORT. What the operations of Machine/Mere.lean keep. -/

namespace Sys2Proof.Machine

open Sys2Proof

theorem modEngine_keeps {s₀ s : State} {n : Nat} {f : MereEng → MereEng} (hk : Keeps s₀ s) :
    Keeps s₀ (modEngine n f s) := by
  unfold modEngine
  repeat' first
    | with_reducible assumption
    | (with_reducible refine modUnits_keeps ?_)

theorem modMere_keeps {s₀ s : State} {t : Nat} {f : MereTile → MereTile} (hk : Keeps s₀ s) :
    Keeps s₀ (modMere t f s) := by
  unfold modMere
  repeat' first
    | with_reducible assumption
    | (with_reducible refine modUnits_keeps ?_)

theorem modJob_keeps {s₀ s : State} {n : Nat} {f : Job → Job} (hk : Keeps s₀ s) :
    Keeps s₀ (modJob n f s) := by
  unfold modJob
  repeat' first
    | with_reducible assumption
    | (with_reducible refine modEngine_keeps ?_)

theorem packMessage_keeps {s₀ s : State} {n own : Nat} {d : Bytes} {recs : List Bytes} (hk : Keeps s₀ s) :
    Keeps s₀ (packMessage n own d recs s) := by
  unfold packMessage
  repeat' first
    | with_reducible assumption
    | (extract_lets +onlyGivenNames x; first
        | (refine keeps_cut (s₀ := s₀) (t := x) ?_ fun hx => ?_) <;> first | (revert hx; clear_value x; intro _) | subst x
        | clear_value x
        | subst x)
    | (with_reducible refine modUnits_keeps ?_)

theorem emitRecord_keeps {s₀ s : State} {t n own place : Nat} {r : Bytes} (hk : Keeps s₀ s) :
    Keeps s₀ (emitRecord t n own place r s) := by
  unfold emitRecord
  repeat' first
    | with_reducible assumption
    | (extract_lets +onlyGivenNames x; first
        | (refine keeps_cut (s₀ := s₀) (t := x) ?_ fun hx => ?_) <;> first | (revert hx; clear_value x; intro _) | subst x
        | clear_value x
        | subst x)
    | (with_reducible refine keeps_ite ?_ ?_)
    | (with_reducible refine bump_keeps ?_)
    | (with_reducible refine tilePut_keeps ?_)
    | (with_reducible refine packMessage_keeps ?_)
    | (with_reducible refine modJob_keeps ?_)
    | split

theorem endJob_keeps {s₀ s : State} {t n k : Nat} (hk : Keeps s₀ s) :
    Keeps s₀ (endJob t n k s) := by
  unfold endJob
  repeat' first
    | with_reducible assumption
    | (extract_lets +onlyGivenNames x; first
        | (refine keeps_cut (s₀ := s₀) (t := x) ?_ fun hx => ?_) <;> first | (revert hx; clear_value x; intro _) | subst x
        | clear_value x
        | subst x)
    | (with_reducible refine keeps_ite ?_ ?_)
    | (with_reducible refine modFab_keeps ?_)
    | (with_reducible refine packMessage_keeps ?_)
    | (with_reducible refine tilePut_keeps ?_)
    | (with_reducible refine raiseField_keeps ?_)
    | (with_reducible refine modEngine_keeps ?_)
    | split

theorem settleJob_keeps {s₀ s : State} {t n k : Nat} (hk : Keeps s₀ s) :
    Keeps s₀ (settleJob t n k s) := by
  unfold settleJob
  repeat' first
    | with_reducible assumption
    | (with_reducible refine keeps_ite ?_ ?_)
    | (with_reducible refine endJob_keeps ?_)
    | split

theorem nextItem_keeps {s₀ s : State} {n c : Nat} (hk : Keeps s₀ s) :
    Keeps s₀ (nextItem n c s) := by
  unfold nextItem
  repeat' first
    | with_reducible assumption
    | (with_reducible refine keeps_ite ?_ ?_)
    | (with_reducible refine modJob_keeps ?_)
    | split

theorem startJob_keeps {s₀ s : State} {op t m win until_ : Nat} (hk : Keeps s₀ s) :
    Keeps s₀ (startJob op t m win until_ s) := by
  unfold startJob
  repeat' first
    | with_reducible assumption
    | (extract_lets +onlyGivenNames x; first
        | (refine keeps_cut (s₀ := s₀) (t := x) ?_ fun hx => ?_) <;> first | (revert hx; clear_value x; intro _) | subst x
        | (refine keeps_cut2 (s₀ := s₀) (t := x) ?_ fun hx => ?_) <;> first | (revert hx; clear_value x; intro _) | subst x
        | clear_value x
        | subst x)
    | (with_reducible refine keeps_ite ?_ ?_)
    | (with_reducible refine bump_keeps ?_)
    | (with_reducible refine modEngine_keeps ?_)
    | (with_reducible refine tileGet_keeps ?_)
    | (with_reducible refine keeps_of_pair (tileGet_keeps ?_) ‹_›)
    | (with_reducible refine settleJob_keeps ?_)
    | (with_reducible refine raiseTo_keeps ?_)
    | (with_reducible refine foldl_keeps (fun s x h => ?_) ?_)
    | (with_reducible refine foldl_pair_keeps (fun s x h => ?_) ?_)
    | (with_reducible refine foldl_fst_keeps (fun s x h => ?_) ?_)
    | dsimp only
    | split

theorem refuseUnknown_keeps {s₀ s : State} {t m : Nat} (hk : Keeps s₀ s) :
    Keeps s₀ (refuseUnknown t m s) := by
  unfold refuseUnknown
  repeat' first
    | with_reducible assumption
    | (extract_lets +onlyGivenNames x; first
        | (refine keeps_cut (s₀ := s₀) (t := x) ?_ fun hx => ?_) <;> first | (revert hx; clear_value x; intro _) | subst x
        | clear_value x
        | subst x)
    | (with_reducible refine keeps_ite ?_ ?_)
    | (with_reducible refine bump_keeps ?_)
    | (with_reducible refine modEngine_keeps ?_)
    | split

theorem enqueueJob_keeps {s₀ s : State} {n : Nat} {d : Bytes} (hk : Keeps s₀ s) :
    KeepsO s₀ (enqueueJob n d s) := by
  unfold enqueueJob
  repeat' first
    | with_reducible assumption
    | (with_reducible refine keeps_someO ?_)
    | with_reducible exact keeps_noneO
    | (with_reducible refine keeps_mapO fun q => ?_)
    | (with_reducible refine modEngine_keeps ?_)
    | dsimp only

theorem scanPositions_keeps {s₀ s : State} {fuel t n k c : Nat} {lost : Bool} (hk : Keeps s₀ s) :
    Keeps s₀ (scanPositions fuel t n k c lost s) := by
  induction fuel generalizing t n k c lost s with
  | zero =>
    unfold scanPositions
    repeat' first
      | with_reducible assumption
      | (extract_lets +onlyGivenNames x; first
          | (refine keeps_cut (s₀ := s₀) (t := x) ?_ fun hx => ?_) <;> first | (revert hx; clear_value x; intro _) | subst x
          | (refine keeps_cut2 (s₀ := s₀) (t := x) ?_ fun hx => ?_) <;> first | (revert hx; clear_value x; intro _) | subst x
          | clear_value x
          | subst x)
      | (with_reducible refine keeps_ite ?_ ?_)
      | (with_reducible refine bump_keeps ?_)
      | (with_reducible refine charge_keeps ?_)
      | (with_reducible refine modJob_keeps ?_)
      | (with_reducible refine emitRecord_keeps ?_)
      | (with_reducible refine nextItem_keeps ?_)
      | (with_reducible refine foldl_keeps (fun s x h => ?_) ?_)
      | (with_reducible refine foldl_pair_keeps (fun s x h => ?_) ?_)
      | (with_reducible refine foldl_fst_keeps (fun s x h => ?_) ?_)
      | dsimp only
      | split
  | succ m ih =>
    unfold scanPositions
    repeat' first
      | cases ‹_ + 1 = Nat.succ _›
      | with_reducible assumption
      | (extract_lets +onlyGivenNames x; first
          | (refine keeps_cut (s₀ := s₀) (t := x) ?_ fun hx => ?_) <;> first | (revert hx; clear_value x; intro _) | subst x
          | (refine keeps_cut2 (s₀ := s₀) (t := x) ?_ fun hx => ?_) <;> first | (revert hx; clear_value x; intro _) | subst x
          | clear_value x
          | subst x)
      | (with_reducible refine keeps_ite ?_ ?_)
      | (with_reducible refine ih ?_)
      | (with_reducible refine bump_keeps ?_)
      | (with_reducible refine charge_keeps ?_)
      | (with_reducible refine modJob_keeps ?_)
      | (with_reducible refine emitRecord_keeps ?_)
      | (with_reducible refine nextItem_keeps ?_)
      | (with_reducible refine foldl_keeps (fun s x h => ?_) ?_)
      | (with_reducible refine foldl_pair_keeps (fun s x h => ?_) ?_)
      | (with_reducible refine foldl_fst_keeps (fun s x h => ?_) ?_)
      | dsimp only
      | split

theorem refineItem_keeps {s₀ s : State} {t n k item : Nat} {lost : Bool} (hk : Keeps s₀ s) :
    KeepsO s₀ (refineItem t n k item lost s) := by
  unfold refineItem
  repeat' first
    | with_reducible assumption
    | (with_reducible refine keeps_someO ?_)
    | with_reducible exact keeps_noneO
    | (extract_lets +onlyGivenNames x; first
        | (refine keeps_cut (s₀ := s₀) (t := x) ?_ fun hx => ?_) <;> first | (revert hx; clear_value x; intro _) | subst x
        | (refine keeps_cut2 (s₀ := s₀) (t := x) ?_ fun hx => ?_) <;> first | (revert hx; clear_value x; intro _) | subst x
        | (refine keeps_cutF (s₀ := s₀) (t := x) ?_ fun hx => ?_) <;> first | (revert hx; clear_value x; intro hF) | subst x
        | (refine keeps_cutG (s₀ := s₀) (t := x) ?_ fun hx => ?_) <;> first | (revert hx; clear_value x; intro hF) | subst x
        | (refine keeps_cutH (s₀ := s₀) (t := x) ?_ fun hx => ?_) <;> first | (revert hx; clear_value x; intro hF) | subst x
        | clear_value x
        | subst x)
    | (refine fun a b (y : State) (hy : Keeps s₀ y) => ?_; try dsimp only)
    | (refine fun a (y : State) (hy : Keeps s₀ y) => ?_; try dsimp only)
    | (refine fun (y : State) (hy : Keeps s₀ y) => ?_; try dsimp only)
    | (with_reducible refine keeps_iteO ?_ ?_)
    | (with_reducible refine keeps_ite ?_ ?_)
    | (with_reducible refine tileGet_keeps ?_)
    | (with_reducible refine keeps_of_pair (tileGet_keeps ?_) ‹_›)
    | (with_reducible refine emitRecord_keeps ?_)
    | (with_reducible refine bump_keeps ?_)
    | (with_reducible refine firewallHit_keeps ?_)
    | (with_reducible refine hF _ _ _ ?_)
    | (with_reducible refine hF _ _ ?_)
    | (with_reducible refine hF _ ?_)
    | (with_reducible refine (‹∀ y, Keeps s₀ y → Keeps s₀ _›) _ ?_)
    | (with_reducible refine (‹∀ a y, Keeps s₀ y → Keeps s₀ _›) _ _ ?_)
    | (with_reducible refine (‹∀ a b y, Keeps s₀ y → Keeps s₀ _›) _ _ _ ?_)
    | dsimp only
    | split

theorem distItem_keeps {s₀ s : State} {t n k item : Nat} {lost : Bool} (hk : Keeps s₀ s) :
    Keeps s₀ (distItem t n k item lost s) := by
  unfold distItem
  repeat' first
    | with_reducible assumption
    | (extract_lets +onlyGivenNames x; first
        | (refine keeps_cut (s₀ := s₀) (t := x) ?_ fun hx => ?_) <;> first | (revert hx; clear_value x; intro _) | subst x
        | (refine keeps_cut2 (s₀ := s₀) (t := x) ?_ fun hx => ?_) <;> first | (revert hx; clear_value x; intro _) | subst x
        | (refine keeps_cutF (s₀ := s₀) (t := x) ?_ fun hx => ?_) <;> first | (revert hx; clear_value x; intro hF) | subst x
        | (refine keeps_cutG (s₀ := s₀) (t := x) ?_ fun hx => ?_) <;> first | (revert hx; clear_value x; intro hF) | subst x
        | (refine keeps_cutH (s₀ := s₀) (t := x) ?_ fun hx => ?_) <;> first | (revert hx; clear_value x; intro hF) | subst x
        | clear_value x
        | subst x)
    | (refine fun a b (y : State) (hy : Keeps s₀ y) => ?_; try dsimp only)
    | (refine fun a (y : State) (hy : Keeps s₀ y) => ?_; try dsimp only)
    | (refine fun (y : State) (hy : Keeps s₀ y) => ?_; try dsimp only)
    | (with_reducible refine keeps_ite ?_ ?_)
    | (with_reducible refine tileGet_keeps ?_)
    | (with_reducible refine keeps_of_pair (tileGet_keeps ?_) ‹_›)
    | (with_reducible refine emitRecord_keeps ?_)
    | (with_reducible refine hF _ _ _ ?_)
    | (with_reducible refine hF _ _ ?_)
    | (with_reducible refine hF _ ?_)
    | (with_reducible refine (‹∀ y, Keeps s₀ y → Keeps s₀ _›) _ ?_)
    | (with_reducible refine (‹∀ a y, Keeps s₀ y → Keeps s₀ _›) _ _ ?_)
    | (with_reducible refine (‹∀ a b y, Keeps s₀ y → Keeps s₀ _›) _ _ _ ?_)
    | dsimp only
    | split

theorem gatherItem_keeps {s₀ s : State} {t n k item : Nat} (hk : Keeps s₀ s) :
    KeepsO s₀ (gatherItem t n k item s) := by
  unfold gatherItem
  repeat' first
    | with_reducible assumption
    | (with_reducible refine keeps_someO ?_)
    | with_reducible exact keeps_noneO
    | (extract_lets +onlyGivenNames x; first
        | (refine keeps_cut (s₀ := s₀) (t := x) ?_ fun hx => ?_) <;> first | (revert hx; clear_value x; intro _) | subst x
        | (refine keeps_cut2 (s₀ := s₀) (t := x) ?_ fun hx => ?_) <;> first | (revert hx; clear_value x; intro _) | subst x
        | (refine keeps_cutF (s₀ := s₀) (t := x) ?_ fun hx => ?_) <;> first | (revert hx; clear_value x; intro hF) | subst x
        | (refine keeps_cutG (s₀ := s₀) (t := x) ?_ fun hx => ?_) <;> first | (revert hx; clear_value x; intro hF) | subst x
        | (refine keeps_cutH (s₀ := s₀) (t := x) ?_ fun hx => ?_) <;> first | (revert hx; clear_value x; intro hF) | subst x
        | clear_value x
        | subst x)
    | (refine fun a b (y : State) (hy : Keeps s₀ y) => ?_; try dsimp only)
    | (refine fun a (y : State) (hy : Keeps s₀ y) => ?_; try dsimp only)
    | (refine fun (y : State) (hy : Keeps s₀ y) => ?_; try dsimp only)
    | (with_reducible refine keeps_iteO ?_ ?_)
    | (with_reducible refine keeps_ite ?_ ?_)
    | (with_reducible refine tileGet_keeps ?_)
    | (with_reducible refine keeps_of_pair (tileGet_keeps ?_) ‹_›)
    | (with_reducible refine tilePut_keeps ?_)
    | (with_reducible refine modJob_keeps ?_)
    | (with_reducible refine bump_keeps ?_)
    | (with_reducible refine firewallHit_keeps ?_)
    | (with_reducible refine hF _ _ _ ?_)
    | (with_reducible refine hF _ _ ?_)
    | (with_reducible refine hF _ ?_)
    | (with_reducible refine (‹∀ y, Keeps s₀ y → Keeps s₀ _›) _ ?_)
    | (with_reducible refine (‹∀ a y, Keeps s₀ y → Keeps s₀ _›) _ _ ?_)
    | (with_reducible refine (‹∀ a b y, Keeps s₀ y → Keeps s₀ _›) _ _ _ ?_)
    | dsimp only
    | split

theorem killEngine_keeps {s₀ s : State} {t m cause : Nat} (hk : Keeps s₀ s) :
    Keeps s₀ (killEngine t m cause s) := by
  unfold killEngine
  repeat' first
    | with_reducible assumption
    | (extract_lets +onlyGivenNames x; first
        | (refine keeps_cut (s₀ := s₀) (t := x) ?_ fun hx => ?_) <;> first | (revert hx; clear_value x; intro _) | subst x
        | clear_value x
        | subst x)
    | (with_reducible refine keeps_ite ?_ ?_)
    | (with_reducible refine loseTile_keeps ?_)
    | (with_reducible refine bump_keeps ?_)
    | (with_reducible refine modMere_keeps ?_)
    | split

theorem mereBoundary_keeps {s₀ s : State} {t : Nat} (hk : Keeps s₀ s) :
    Keeps s₀ (mereBoundary t s) := by
  unfold mereBoundary
  repeat' first
    | with_reducible assumption
    | (extract_lets +onlyGivenNames x; first
        | (refine keeps_cut (s₀ := s₀) (t := x) ?_ fun hx => ?_) <;> first | (revert hx; clear_value x; intro _) | subst x
        | clear_value x
        | subst x)
    | (with_reducible refine keeps_ite ?_ ?_)
    | (with_reducible refine modMere_keeps ?_)
    | (with_reducible refine spareSwitch_keeps ?_)
    | (with_reducible refine modEngine_keeps ?_)
    | split

theorem mereError_keeps {s₀ s : State} {t n k st : Nat} {errs : List Nat} {ids : List Nat} (hk : Keeps s₀ s) :
    Keeps s₀ (mereError t n k st errs ids s).2 := by
  unfold mereError
  repeat' first
    | with_reducible assumption
    | (extract_lets +onlyGivenNames x; first
        | (refine keeps_cut (s₀ := s₀) (t := x) ?_ fun hx => ?_) <;> first | (revert hx; clear_value x; intro _) | subst x
        | (refine keeps_cut2 (s₀ := s₀) (t := x) ?_ fun hx => ?_) <;> first | (revert hx; clear_value x; intro _) | subst x
        | clear_value x
        | subst x)
    | (with_reducible refine keeps_ite2 ?_ ?_)
    | (with_reducible refine keeps_ite ?_ ?_)
    | (with_reducible refine traceCheck_keeps ?_)
    | (with_reducible refine bump_keeps ?_)
    | (with_reducible refine markError_keeps ?_)
    | (with_reducible refine keeps_of_pair (markError_keeps ?_) ‹_›)
    | (with_reducible refine modEngine_keeps ?_)
    | (with_reducible refine lostWork_keeps ?_)
    | (with_reducible refine killEngine_keeps ?_)
    | (with_reducible refine foldl_keeps (fun s x h => ?_) ?_)
    | (with_reducible refine foldl_pair_keeps (fun s x h => ?_) ?_)
    | (with_reducible refine foldl_fst_keeps (fun s x h => ?_) ?_)
    | dsimp only
    | split

theorem abandonItem_keeps {s₀ s : State} {t n k item : Nat} (hk : Keeps s₀ s) :
    Keeps s₀ (abandonItem t n k item s) := by
  unfold abandonItem
  repeat' first
    | with_reducible assumption
    | (extract_lets +onlyGivenNames x; first
        | (refine keeps_cut (s₀ := s₀) (t := x) ?_ fun hx => ?_) <;> first | (revert hx; clear_value x; intro _) | subst x
        | (refine keeps_cut2 (s₀ := s₀) (t := x) ?_ fun hx => ?_) <;> first | (revert hx; clear_value x; intro _) | subst x
        | clear_value x
        | subst x)
    | (with_reducible refine keeps_ite ?_ ?_)
    | (with_reducible refine tileGet_keeps ?_)
    | (with_reducible refine keeps_of_pair (tileGet_keeps ?_) ‹_›)
    | (with_reducible refine emitRecord_keeps ?_)
    | (with_reducible refine drawn_keeps ?_)
    | (with_reducible refine bump_keeps ?_)
    | (with_reducible refine tilePut_keeps ?_)
    | dsimp only
    | split

theorem stopScan_keeps {s₀ s : State} {n : Nat} (hk : Keeps s₀ s) :
    Keeps s₀ (stopScan n s) := by
  unfold stopScan
  repeat' first
    | with_reducible assumption
    | (extract_lets +onlyGivenNames x; first
        | (refine keeps_cut (s₀ := s₀) (t := x) ?_ fun hx => ?_) <;> first | (revert hx; clear_value x; intro _) | subst x
        | (refine keeps_cut2 (s₀ := s₀) (t := x) ?_ fun hx => ?_) <;> first | (revert hx; clear_value x; intro _) | subst x
        | clear_value x
        | subst x)
    | (with_reducible refine keeps_ite ?_ ?_)
    | (with_reducible refine emitRecord_keeps ?_)
    | (with_reducible refine bump_keeps ?_)
    | (with_reducible refine endJob_keeps ?_)
    | (with_reducible refine foldl_keeps (fun s x h => ?_) ?_)
    | (with_reducible refine foldl_pair_keeps (fun s x h => ?_) ?_)
    | (with_reducible refine foldl_fst_keeps (fun s x h => ?_) ?_)
    | dsimp only
    | split

theorem cutEngine_keeps {s₀ s : State} {n : Nat} (hk : Keeps s₀ s) :
    Keeps s₀ (cutEngine n s) := by
  unfold cutEngine
  repeat' first
    | with_reducible assumption
    | (with_reducible refine modEngine_keeps ?_)

end Sys2Proof.Machine
end

