-- ==== Sys2Proof/Laws/KeepsSluice.lean ====
section
/-! SUPPORT. What the operations of Machine/Sluice.lean keep. -/

namespace Sys2Proof.Machine

open Sys2Proof

/-- What the write of a unit keeps: the state it leaves. -/
def Put.keeps (s₀ : State) : Put → Prop
  | .part _ t => Keeps s₀ t
  | .done t => Keeps s₀ t
  | _ => True

section
variable {s₀ t : State}

theorem Put.keeps_part {n : Nat} (h : Keeps s₀ t) : Put.keeps s₀ (.part n t) := h
theorem Put.keeps_done (h : Keeps s₀ t) : Put.keeps s₀ (.done t) := h
theorem Put.keeps_of_part {i : Put} {n : Nat} (h : Put.keeps s₀ i) (e : i = .part n t) : Keeps s₀ t := by subst e; exact h
theorem Put.keeps_of_done {i : Put} (h : Put.keeps s₀ i) (e : i = .done t) : Keeps s₀ t := by subst e; exact h
theorem keeps_iteU {p : Prop} [Decidable p] {a b : Put} (ha : Put.keeps s₀ a) (hb : Put.keeps s₀ b) :
    Put.keeps s₀ (if p then a else b) := by
  split <;> assumption

end

theorem modChan_keeps {s₀ s : State} {c : Nat} {f : Chan → Chan} (hk : Keeps s₀ s) :
    Keeps s₀ (modChan c f s) := by
  unfold modChan
  repeat' first
    | with_reducible assumption
    | (with_reducible refine modUnits_keeps ?_)

theorem haltChan_keeps {s₀ s : State} {c code word addr : Nat} (hk : Keeps s₀ s) :
    Keeps s₀ (haltChan c code word addr s) := by
  unfold haltChan
  repeat' first
    | with_reducible assumption
    | (extract_lets +onlyGivenNames x; first
        | (refine keeps_cut (s₀ := s₀) (t := x) ?_ fun hx => ?_) <;> first | (revert hx; clear_value x; intro _) | subst x
        | (refine keeps_cut2 (s₀ := s₀) (t := x) ?_ fun hx => ?_) <;> first | (revert hx; clear_value x; intro _) | subst x
        | clear_value x
        | subst x)
    | (with_reducible refine keeps_ite ?_ ?_)
    | (with_reducible refine modChan_keeps ?_)
    | (with_reducible refine bump_keeps ?_)
    | (with_reducible refine annal_keeps ?_)
    | (with_reducible refine lostWork_keeps ?_)
    | (with_reducible refine settle_keeps ?_)
    | (with_reducible refine signalCell_keeps ?_)
    | (with_reducible refine foldl_keeps (fun s x h => ?_) ?_)
    | (with_reducible refine foldl_pair_keeps (fun s x h => ?_) ?_)
    | (with_reducible refine foldl_fst_keeps (fun s x h => ?_) ?_)
    | dsimp only
    | split

theorem askHost_keeps {s₀ s : State} {c : Nat} {u : SUnit} (hk : Keeps s₀ s) :
    Keeps s₀ (askHost c u s).2 := by
  unfold askHost
  repeat' first
    | with_reducible assumption
    | (extract_lets +onlyGivenNames x; first
        | (refine keeps_cut (s₀ := s₀) (t := x) ?_ fun hx => ?_) <;> first | (revert hx; clear_value x; intro _) | subst x
        | (refine keeps_cut2 (s₀ := s₀) (t := x) ?_ fun hx => ?_) <;> first | (revert hx; clear_value x; intro _) | subst x
        | clear_value x
        | subst x)
    | (with_reducible refine modHost_keeps ?_)
    | (with_reducible refine emit_keeps ?_)
    | dsimp only

theorem issueUnit_keeps {s₀ s : State} {c : Nat} {g : Seg} (hk : Keeps s₀ s) :
    Keeps s₀ (issueUnit c g s) := by
  unfold issueUnit
  repeat' first
    | with_reducible assumption
    | (extract_lets +onlyGivenNames x; first
        | (refine keeps_cut (s₀ := s₀) (t := x) ?_ fun hx => ?_) <;> first | (revert hx; clear_value x; intro _) | subst x
        | (refine keeps_cut2 (s₀ := s₀) (t := x) ?_ fun hx => ?_) <;> first | (revert hx; clear_value x; intro _) | subst x
        | (refine keeps_cutF (s₀ := s₀) (t := x) ?_ fun hx => ?_) <;> first | (revert hx; clear_value x; intro hF) | subst x
        | (refine keeps_cutG (s₀ := s₀) (t := x) ?_ fun hx => ?_) <;> first | (revert hx; clear_value x; intro hF) | subst x
        | (refine keeps_cutH (s₀ := s₀) (t := x) ?_ fun hx => ?_) <;> first | (revert hx; clear_value x; intro hF) | subst x
        | clear_value x
        | subst x)
    | (refine fun a b (y : State) (hy : Keeps s₀ y) => ?_; try dsimp only)
    | (refine fun a (y : State) (hy : Keeps s₀ y) => ?_; try dsimp only)
    | (refine fun (y : State) (hy : Keeps s₀ y) => ?_; try dsimp only)
    | (with_reducible refine keeps_ite ?_ ?_)
    | (with_reducible refine haltChan_keeps ?_)
    | (with_reducible refine modChan_keeps ?_)
    | (with_reducible refine bump_keeps ?_)
    | (with_reducible refine askHost_keeps ?_)
    | (with_reducible refine keeps_of_pair (askHost_keeps ?_) ‹_›)
    | (with_reducible refine queryRead_keeps ?_)
    | (with_reducible refine noteCarrWait_keeps ?_)
    | (with_reducible refine hF _ _ _ ?_)
    | (with_reducible refine hF _ _ ?_)
    | (with_reducible refine hF _ ?_)
    | (with_reducible refine (‹∀ y, Keeps s₀ y → Keeps s₀ _›) _ ?_)
    | (with_reducible refine (‹∀ a y, Keeps s₀ y → Keeps s₀ _›) _ _ ?_)
    | (with_reducible refine (‹∀ a b y, Keeps s₀ y → Keeps s₀ _›) _ _ _ ?_)
    | dsimp only
    | split

theorem issueUnits_keeps {s₀ s : State} {n c : Nat} (hk : Keeps s₀ s) :
    Keeps s₀ (issueUnits n c s) := by
  induction n generalizing c s with
  | zero =>
    unfold issueUnits
    repeat' first
      | with_reducible assumption
      | (extract_lets +onlyGivenNames x; first
          | (refine keeps_cut (s₀ := s₀) (t := x) ?_ fun hx => ?_) <;> first | (revert hx; clear_value x; intro _) | subst x
          | clear_value x
          | subst x)
      | (with_reducible refine keeps_ite ?_ ?_)
      | (with_reducible refine issueUnit_keeps ?_)
      | split
  | succ m ih =>
    unfold issueUnits
    repeat' first
      | cases ‹_ + 1 = Nat.succ _›
      | with_reducible assumption
      | (extract_lets +onlyGivenNames x; first
          | (refine keeps_cut (s₀ := s₀) (t := x) ?_ fun hx => ?_) <;> first | (revert hx; clear_value x; intro _) | subst x
          | clear_value x
          | subst x)
      | (with_reducible refine keeps_ite ?_ ?_)
      | (with_reducible refine ih ?_)
      | (with_reducible refine issueUnit_keeps ?_)
      | split

theorem takeRedirect_keeps {s₀ s : State} {c w : Nat} (hk : Keeps s₀ s) :
    Keeps s₀ (takeRedirect c w s) := by
  unfold takeRedirect
  repeat' first
    | with_reducible assumption
    | (with_reducible refine bump_keeps ?_)
    | (with_reducible refine modChan_keeps ?_)

theorem sluiceStep_keeps {s₀ s : State} {c : Nat} {f : Chan → SInstr → State → State} (hf : ∀ c i s, Keeps s₀ s → Keeps s₀ (f c i s)) (hk : Keeps s₀ s) :
    Keeps s₀ (sluiceStep c f s) := by
  unfold sluiceStep
  repeat' first
    | with_reducible assumption
    | (extract_lets +onlyGivenNames x; first
        | (refine keeps_cut (s₀ := s₀) (t := x) ?_ fun hx => ?_) <;> first | (revert hx; clear_value x; intro _) | subst x
        | clear_value x
        | subst x)
    | (with_reducible refine keeps_ite ?_ ?_)
    | (with_reducible refine takeRedirect_keeps ?_)
    | (with_reducible refine haltChan_keeps ?_)
    | (refine hf _ _ _ ?_)
    | split

theorem runMove_keeps {s₀ s : State} {x : Bool} {n c : Nat} {ch : Chan} {i : SInstr} (hk : Keeps s₀ s) :
    Keeps s₀ (runMove x n c ch i s) := by
  unfold runMove
  repeat' first
    | with_reducible assumption
    | (extract_lets +onlyGivenNames x; first
        | (refine keeps_cut (s₀ := s₀) (t := x) ?_ fun hx => ?_) <;> first | (revert hx; clear_value x; intro _) | subst x
        | (refine keeps_cut2 (s₀ := s₀) (t := x) ?_ fun hx => ?_) <;> first | (revert hx; clear_value x; intro _) | subst x
        | clear_value x
        | subst x)
    | (with_reducible refine keeps_ite ?_ ?_)
    | (with_reducible refine issueUnits_keeps ?_)
    | (with_reducible refine haltChan_keeps ?_)
    | (with_reducible refine tileGet_keeps ?_)
    | (with_reducible refine keeps_of_pair (tileGet_keeps ?_) ‹_›)
    | (with_reducible refine modChan_keeps ?_)
    | dsimp only
    | split

theorem takeGrant_keeps {s₀ s : State} {c n : Nat} (hk : Keeps s₀ s) :
    Keeps s₀ (takeGrant c n s) := by
  unfold takeGrant
  repeat' first
    | with_reducible assumption
    | (with_reducible refine modCells_keeps ?_)

theorem modUnit_keeps {s₀ s : State} {c id : Nat} {f : SUnit → SUnit} (hk : Keeps s₀ s) :
    Keeps s₀ (modUnit c id f s) := by
  unfold modUnit
  repeat' first
    | with_reducible assumption
    | (with_reducible refine keeps_ite ?_ ?_)
    | (with_reducible refine modChan_keeps ?_)
    | split

theorem endUnit_keeps {s₀ s : State} {c : Nat} {u : SUnit} (hk : Keeps s₀ s) :
    Keeps s₀ (endUnit c u s) := by
  unfold endUnit
  repeat' first
    | with_reducible assumption
    | (with_reducible refine keeps_ite ?_ ?_)
    | (with_reducible refine modChan_keeps ?_)
    | split

theorem undefineAt_keeps {s₀ s : State} {c a n : Nat} (hk : Keeps s₀ s) :
    Keeps s₀ (undefineAt c a n s) := by
  unfold undefineAt
  repeat' first
    | with_reducible assumption
    | (extract_lets +onlyGivenNames x; first
        | (refine keeps_cut (s₀ := s₀) (t := x) ?_ fun hx => ?_) <;> first | (revert hx; clear_value x; intro _) | subst x
        | clear_value x
        | subst x)
    | (with_reducible refine keeps_ite ?_ ?_)
    | (with_reducible refine modMem_keeps (fun m hm => by simp_all [Mems.wf, Memory.wf_writeN]) ?_)
    | (with_reducible refine drawn_keeps ?_)
    | (with_reducible refine tilePut_keeps ?_)
    | (with_reducible refine carrPut_keeps ?_)
    | split

theorem busError_keeps {s₀ s : State} {c : Nat} {u : SUnit} (hk : Keeps s₀ s) :
    Keeps s₀ (busError c u s) := by
  unfold busError
  repeat' first
    | with_reducible assumption
    | (extract_lets +onlyGivenNames x; first
        | (refine keeps_cut (s₀ := s₀) (t := x) ?_ fun hx => ?_) <;> first | (revert hx; clear_value x; intro _) | subst x
        | (refine keeps_cut2 (s₀ := s₀) (t := x) ?_ fun hx => ?_) <;> first | (revert hx; clear_value x; intro _) | subst x
        | clear_value x
        | subst x)
    | (with_reducible refine keeps_ite ?_ ?_)
    | (with_reducible refine bump_keeps ?_)
    | (with_reducible refine modUnit_keeps ?_)
    | (with_reducible refine modChan_keeps ?_)
    | (with_reducible refine askHost_keeps ?_)
    | (with_reducible refine keeps_of_pair (askHost_keeps ?_) ‹_›)
    | (with_reducible refine undefineAt_keeps ?_)
    | (with_reducible refine haltChan_keeps ?_)
    | dsimp only
    | split

theorem unitRead_keeps {s₀ s : State} {c : Nat} {u : SUnit} {b : Bytes} (hk : Keeps s₀ s) :
    Keeps s₀ (unitRead c u b s) := by
  unfold unitRead
  repeat' first
    | with_reducible assumption
    | (extract_lets +onlyGivenNames x; first
        | (refine keeps_cut (s₀ := s₀) (t := x) ?_ fun hx => ?_) <;> first | (revert hx; clear_value x; intro _) | subst x
        | clear_value x
        | subst x)
    | (with_reducible refine keeps_ite ?_ ?_)
    | (with_reducible refine modUnit_keeps ?_)
    | (with_reducible refine bump_keeps ?_)
    | split

theorem windowWrite_keeps {s₀ s : State} {t a : Nat} {d : Bytes} (hk : Keeps s₀ s) :
    KeepsO s₀ (windowWrite t a d s) := by
  unfold windowWrite
  repeat' first
    | with_reducible assumption
    | (with_reducible refine keeps_someO ?_)
    | with_reducible exact keeps_noneO
    | (extract_lets +onlyGivenNames x; first
        | (refine keeps_cut (s₀ := s₀) (t := x) ?_ fun hx => ?_) <;> first | (revert hx; clear_value x; intro _) | subst x
        | (refine keeps_cutO (s₀ := s₀) (t := x) ?_ fun hx => ?_) <;> first | (revert hx; clear_value x; intro _) | subst x
        | clear_value x
        | subst x)
    | (with_reducible refine keeps_iteO ?_ ?_)
    | (with_reducible refine keeps_ite ?_ ?_)
    | (with_reducible refine enqueuePass_keeps ?_)
    | (with_reducible refine KeepsO.get (enqueuePass_keeps ?_) ‹_›)
    | (with_reducible refine enqueueJob_keeps ?_)
    | (with_reducible refine KeepsO.get (enqueueJob_keeps ?_) ‹_›)
    | (with_reducible refine enqueueSedge_keeps ?_)
    | (with_reducible refine KeepsO.get (enqueueSedge_keeps ?_) ‹_›)
    | dsimp only
    | split

theorem feedArray_keeps {s₀ s : State} {c : Nat} {u : SUnit} {d : Bytes} (hk : Keeps s₀ s) :
    KeepsO s₀ (feedArray c u d s) := by
  unfold feedArray
  repeat' first
    | with_reducible assumption
    | (with_reducible refine keeps_someO ?_)
    | with_reducible exact keeps_noneO
    | (extract_lets +onlyGivenNames x; first
        | (refine keeps_cut (s₀ := s₀) (t := x) ?_ fun hx => ?_) <;> first | (revert hx; clear_value x; intro _) | subst x
        | clear_value x
        | subst x)
    | (with_reducible refine keeps_iteO ?_ ?_)
    | (with_reducible refine keeps_ite ?_ ?_)
    | (with_reducible refine modArray_keeps ?_)
    | dsimp only
    | split

theorem roundFor_keeps {s₀ s : State} {k st b : Nat} (hk : Keeps s₀ s) :
    Keeps s₀ (roundFor s k st b) := by
  unfold roundFor
  repeat' first
    | with_reducible assumption
    | (with_reducible refine keeps_ite ?_ ?_)
    | (with_reducible refine modFab_keeps ?_)
    | split

theorem roundBytes_keeps {s₀ s : State} {k st b n : Nat} (hk : Keeps s₀ s) :
    Keeps s₀ (roundBytes k st b n s).2 := by
  unfold roundBytes
  repeat' first
    | with_reducible assumption
    | (extract_lets +onlyGivenNames x; first
        | (refine keeps_cut (s₀ := s₀) (t := x) ?_ fun hx => ?_) <;> first | (revert hx; clear_value x; intro _) | subst x
        | (refine keeps_cut2 (s₀ := s₀) (t := x) ?_ fun hx => ?_) <;> first | (revert hx; clear_value x; intro _) | subst x
        | clear_value x
        | subst x)
    | (with_reducible refine keeps_ite2 ?_ ?_)
    | (with_reducible refine keeps_ite ?_ ?_)
    | (with_reducible refine modFab_keeps ?_)
    | (with_reducible refine roundFor_keeps ?_)
    | dsimp only
    | split

theorem exchangeSend_keeps {s₀ s : State} {c : Nat} {u : SUnit} {d : Bytes} (hk : Keeps s₀ s) :
    Keeps s₀ (exchangeSend c u d s) := by
  unfold exchangeSend
  repeat' first
    | with_reducible assumption
    | (extract_lets +onlyGivenNames x; first
        | (refine keeps_cut (s₀ := s₀) (t := x) ?_ fun hx => ?_) <;> first | (revert hx; clear_value x; intro _) | subst x
        | (refine keeps_cut2 (s₀ := s₀) (t := x) ?_ fun hx => ?_) <;> first | (revert hx; clear_value x; intro _) | subst x
        | clear_value x
        | subst x)
    | (with_reducible refine keeps_ite ?_ ?_)
    | (with_reducible refine modFab_keeps ?_)
    | (with_reducible refine endUnit_keeps ?_)
    | (with_reducible refine sendFlit_keeps ?_)
    | (with_reducible refine freshTag_keeps ?_)
    | (with_reducible refine keeps_of_pair (freshTag_keeps ?_) ‹_›)
    | (with_reducible refine roundBytes_keeps ?_)
    | (with_reducible refine keeps_of_pair (roundBytes_keeps ?_) ‹_›)
    | (with_reducible refine modUnit_keeps ?_)
    | (with_reducible refine bump_keeps ?_)
    | (with_reducible refine foldl_keeps (fun s x h => ?_) ?_)
    | (with_reducible refine foldl_pair_keeps (fun s x h => ?_) ?_)
    | (with_reducible refine foldl_fst_keeps (fun s x h => ?_) ?_)
    | dsimp only
    | split

theorem tileWrite_keeps {s₀ s : State} {own t a : Nat} {d : Bytes} (hk : Keeps s₀ s) :
    Put.keeps s₀ (tileWrite own t a d s) := by
  unfold tileWrite
  repeat' first
    | with_reducible assumption
    | exact trivial
    | (with_reducible refine Put.keeps_part ?_)
    | (with_reducible refine Put.keeps_done ?_)
    | (with_reducible refine keeps_iteU ?_ ?_)
    | (with_reducible refine keeps_ite ?_ ?_)
    | (with_reducible refine tilePut_keeps ?_)
    | dsimp only
    | split

theorem unitWrite_keeps {s₀ s : State} {c : Nat} {u : SUnit} {d : Bytes} (hk : Keeps s₀ s) :
    Put.keeps s₀ (unitWrite c u d s) := by
  unfold unitWrite
  repeat' first
    | with_reducible assumption
    | exact trivial
    | (with_reducible refine Put.keeps_part ?_)
    | (with_reducible refine Put.keeps_done ?_)
    | (extract_lets +onlyGivenNames x; first
        | (refine keeps_cut (s₀ := s₀) (t := x) ?_ fun hx => ?_) <;> first | (revert hx; clear_value x; intro _) | subst x
        | (refine keeps_cutO (s₀ := s₀) (t := x) ?_ fun hx => ?_) <;> first | (revert hx; clear_value x; intro _) | subst x
        | clear_value x
        | subst x)
    | (with_reducible refine keeps_iteU ?_ ?_)
    | (with_reducible refine keeps_ite ?_ ?_)
    | (with_reducible refine modMem_keeps (fun m hm => by simp_all [Mems.wf, Memory.wf_writeN]) ?_)
    | (with_reducible refine tileWrite_keeps ?_)
    | (with_reducible refine Put.keeps_of_part (tileWrite_keeps ?_) ‹_›)
    | (with_reducible refine Put.keeps_of_done (tileWrite_keeps ?_) ‹_›)
    | (with_reducible refine windowWrite_keeps ?_)
    | (with_reducible refine KeepsO.get (windowWrite_keeps ?_) ‹_›)
    | (with_reducible refine feedArray_keeps ?_)
    | (with_reducible refine KeepsO.get (feedArray_keeps ?_) ‹_›)
    | (with_reducible refine firewallHit_keeps ?_)
    | (with_reducible refine carrPut_keeps ?_)
    | (with_reducible refine charge_keeps ?_)
    | (with_reducible refine writeSpace_keeps ?_)
    | dsimp only
    | split

theorem dropPark_keeps {s₀ s : State} {c : Nat} (hk : Keeps s₀ s) :
    Keeps s₀ (dropPark c s) := by
  unfold dropPark
  repeat' first
    | with_reducible assumption
    | (extract_lets +onlyGivenNames x; first
        | (refine keeps_cut (s₀ := s₀) (t := x) ?_ fun hx => ?_) <;> first | (revert hx; clear_value x; intro _) | subst x
        | clear_value x
        | subst x)
    | (with_reducible refine keeps_ite ?_ ?_)
    | (with_reducible refine modCells_keeps ?_)
    | (with_reducible refine issueCell_keeps ?_)
    | (with_reducible refine takeGrant_keeps ?_)
    | split

theorem redirectChan_keeps {s₀ s : State} {c w : Nat} (hk : Keeps s₀ s) :
    Keeps s₀ (redirectChan c w s) := by
  unfold redirectChan
  repeat' first
    | with_reducible assumption
    | (extract_lets +onlyGivenNames x; first
        | (refine keeps_cut (s₀ := s₀) (t := x) ?_ fun hx => ?_) <;> first | (revert hx; clear_value x; intro _) | subst x
        | clear_value x
        | subst x)
    | (with_reducible refine keeps_ite ?_ ?_)
    | (with_reducible refine bump_keeps ?_)
    | (with_reducible refine takeRedirect_keeps ?_)
    | (with_reducible refine takeGrant_keeps ?_)
    | (with_reducible refine dropPark_keeps ?_)
    | (with_reducible refine modChan_keeps ?_)
    | split

theorem disableChan_keeps {s₀ s : State} {c : Nat} (hk : Keeps s₀ s) :
    Keeps s₀ (disableChan c s) := by
  unfold disableChan
  repeat' first
    | with_reducible assumption
    | (extract_lets +onlyGivenNames x; first
        | (refine keeps_cut (s₀ := s₀) (t := x) ?_ fun hx => ?_) <;> first | (revert hx; clear_value x; intro _) | subst x
        | (refine keeps_cut2 (s₀ := s₀) (t := x) ?_ fun hx => ?_) <;> first | (revert hx; clear_value x; intro _) | subst x
        | clear_value x
        | subst x)
    | (with_reducible refine keeps_ite ?_ ?_)
    | (with_reducible refine dropPark_keeps ?_)
    | (with_reducible refine drawn_keeps ?_)
    | (with_reducible refine unitWrite_keeps ?_)
    | (with_reducible refine Put.keeps_of_part (unitWrite_keeps ?_) ‹_›)
    | (with_reducible refine Put.keeps_of_done (unitWrite_keeps ?_) ‹_›)
    | (with_reducible refine modChan_keeps ?_)
    | (with_reducible refine foldl_keeps (fun s x h => ?_) ?_)
    | (with_reducible refine foldl_pair_keeps (fun s x h => ?_) ?_)
    | (with_reducible refine foldl_fst_keeps (fun s x h => ?_) ?_)
    | dsimp only
    | split

theorem enableChan_keeps {s₀ s : State} {c : Nat} (hk : Keeps s₀ s) :
    Keeps s₀ (enableChan c s) := by
  unfold enableChan
  repeat' first
    | with_reducible assumption
    | (with_reducible refine keeps_ite ?_ ?_)
    | (with_reducible refine modChan_keeps ?_)
    | split

theorem startChan_keeps {s₀ s : State} {c : Nat} (hk : Keeps s₀ s) :
    Keeps s₀ (startChan c s) := by
  unfold startChan
  repeat' first
    | with_reducible assumption
    | (with_reducible refine keeps_ite ?_ ?_)
    | (with_reducible refine modChan_keeps ?_)
    | split

theorem cutChan_keeps {s₀ s : State} {c : Nat} (hk : Keeps s₀ s) :
    Keeps s₀ (cutChan c s) := by
  unfold cutChan
  repeat' first
    | with_reducible assumption
    | (with_reducible refine enableChan_keeps ?_)
    | (with_reducible refine disableChan_keeps ?_)

end Sys2Proof.Machine
end

