-- ==== Sys2Proof/Laws/KeepsExchange.lean ====
section
/-! SUPPORT. What the operations of Machine/Exchange.lean keep. -/

namespace Sys2Proof.Machine

open Sys2Proof

theorem modExRound_keeps {s₀ s : State} {k st b : Nat} {f : ExRound → ExRound} (hk : Keeps s₀ s) :
    Keeps s₀ (modExRound k st b f s) := by
  unfold modExRound
  repeat' first
    | with_reducible assumption
    | (with_reducible refine keeps_ite ?_ ?_)
    | (with_reducible refine modFab_keeps ?_)
    | split

theorem sendAsks_keeps {s₀ s : State} {k st b node tab : Nat} {asks : List Ask} (hk : Keeps s₀ s) :
    Keeps s₀ (sendAsks k st b node tab asks s) := by
  unfold sendAsks
  repeat' first
    | with_reducible assumption
    | (extract_lets +onlyGivenNames x; first
        | (refine keeps_cut (s₀ := s₀) (t := x) ?_ fun hx => ?_) <;> first | (revert hx; clear_value x; intro _) | subst x
        | (refine keeps_cut2 (s₀ := s₀) (t := x) ?_ fun hx => ?_) <;> first | (revert hx; clear_value x; intro _) | subst x
        | clear_value x
        | subst x)
    | (with_reducible refine keeps_ite ?_ ?_)
    | (with_reducible refine freshTag_keeps ?_)
    | (with_reducible refine keeps_of_pair (freshTag_keeps ?_) ‹_›)
    | (with_reducible refine roundBytes_keeps ?_)
    | (with_reducible refine keeps_of_pair (roundBytes_keeps ?_) ‹_›)
    | (with_reducible refine sendFlit_keeps ?_)
    | (with_reducible refine modExRound_keeps ?_)
    | (with_reducible refine bump_keeps ?_)
    | (with_reducible refine foldl_keeps (fun s x h => ?_) ?_)
    | (with_reducible refine foldl_pair_keeps (fun s x h => ?_) ?_)
    | (with_reducible refine foldl_fst_keeps (fun s x h => ?_) ?_)
    | dsimp only
    | split

theorem sendTable_keeps {s₀ s : State} {k st b tab : Nat} {node : Ask → Option Nat} {asks : List Ask} (hk : Keeps s₀ s) :
    Keeps s₀ (sendTable k st b tab node asks s) := by
  unfold sendTable
  repeat' first
    | with_reducible assumption
    | (extract_lets +onlyGivenNames x; first
        | (refine keeps_cut (s₀ := s₀) (t := x) ?_ fun hx => ?_) <;> first | (revert hx; clear_value x; intro _) | subst x
        | (refine keeps_cut2 (s₀ := s₀) (t := x) ?_ fun hx => ?_) <;> first | (revert hx; clear_value x; intro _) | subst x
        | clear_value x
        | subst x)
    | (with_reducible refine modExRound_keeps ?_)
    | (with_reducible refine sendAsks_keeps ?_)
    | (with_reducible refine foldl_keeps (fun s x h => ?_) ?_)
    | (with_reducible refine foldl_pair_keeps (fun s x h => ?_) ?_)
    | (with_reducible refine foldl_fst_keeps (fun s x h => ?_) ?_)
    | dsimp only
    | split

theorem openRound_keeps {s₀ s : State} {k st b : Nat} {embed : Bool} (hk : Keeps s₀ s) :
    Keeps s₀ (openRound k st b embed s) := by
  unfold openRound
  repeat' first
    | with_reducible assumption
    | (extract_lets +onlyGivenNames x; first
        | (refine keeps_cut (s₀ := s₀) (t := x) ?_ fun hx => ?_) <;> first | (revert hx; clear_value x; intro _) | subst x
        | (refine keeps_cut2 (s₀ := s₀) (t := x) ?_ fun hx => ?_) <;> first | (revert hx; clear_value x; intro _) | subst x
        | clear_value x
        | subst x)
    | (with_reducible refine keeps_ite ?_ ?_)
    | (with_reducible refine modFab_keeps ?_)
    | (with_reducible refine modExRound_keeps ?_)
    | (with_reducible refine roundFor_keeps ?_)
    | (with_reducible refine sendTable_keeps ?_)
    | (with_reducible refine foldl_keeps (fun s x h => ?_) ?_)
    | (with_reducible refine foldl_pair_keeps (fun s x h => ?_) ?_)
    | (with_reducible refine foldl_fst_keeps (fun s x h => ?_) ?_)
    | dsimp only
    | split

theorem endWrites_keeps {s₀ s : State} {k : Nat} {tags : List Nat} (hk : Keeps s₀ s) :
    Keeps s₀ (endWrites k tags s) := by
  unfold endWrites
  repeat' first
    | with_reducible assumption
    | (extract_lets +onlyGivenNames x; first
        | (refine keeps_cut (s₀ := s₀) (t := x) ?_ fun hx => ?_) <;> first | (revert hx; clear_value x; intro _) | subst x
        | (refine keeps_cut2 (s₀ := s₀) (t := x) ?_ fun hx => ?_) <;> first | (revert hx; clear_value x; intro _) | subst x
        | clear_value x
        | subst x)
    | (with_reducible refine endUnit_keeps ?_)
    | (with_reducible refine bump_keeps ?_)
    | (with_reducible refine foldl_keeps (fun s x h => ?_) ?_)
    | (with_reducible refine foldl_pair_keeps (fun s x h => ?_) ?_)
    | (with_reducible refine foldl_fst_keeps (fun s x h => ?_) ?_)
    | dsimp only
    | split

theorem replaceRow_keeps {s₀ s : State} {k : Nat} {a : Ask} (hk : Keeps s₀ s) :
    Keeps s₀ (replaceRow k a s) := by
  unfold replaceRow
  repeat' first
    | with_reducible assumption
    | (extract_lets +onlyGivenNames x; first
        | (refine keeps_cut (s₀ := s₀) (t := x) ?_ fun hx => ?_) <;> first | (revert hx; clear_value x; intro _) | subst x
        | clear_value x
        | subst x)
    | (with_reducible refine keeps_ite ?_ ?_)
    | (with_reducible refine bump_keeps ?_)
    | (with_reducible refine tilePut_keeps ?_)
    | split

theorem startExtra_keeps {s₀ s : State} {k st b : Nat} {ids : List Nat} {miss : List Ask} (hk : Keeps s₀ s) :
    Keeps s₀ (startExtra k st b ids miss s) := by
  unfold startExtra
  repeat' first
    | with_reducible assumption
    | (extract_lets +onlyGivenNames x; first
        | (refine keeps_cut (s₀ := s₀) (t := x) ?_ fun hx => ?_) <;> first | (revert hx; clear_value x; intro _) | subst x
        | (refine keeps_cut2 (s₀ := s₀) (t := x) ?_ fun hx => ?_) <;> first | (revert hx; clear_value x; intro _) | subst x
        | clear_value x
        | subst x)
    | (with_reducible refine keeps_ite ?_ ?_)
    | (with_reducible refine modSlots_keeps ?_)
    | (with_reducible refine modExRound_keeps ?_)
    | (with_reducible refine sendTable_keeps ?_)
    | (with_reducible refine foldl_keeps (fun s x h => ?_) ?_)
    | (with_reducible refine foldl_pair_keeps (fun s x h => ?_) ?_)
    | (with_reducible refine foldl_fst_keeps (fun s x h => ?_) ?_)
    | dsimp only
    | split

end Sys2Proof.Machine
end

