-- ==== Sys2Proof/Laws/KeepsPower.lean ====
section
/-! SUPPORT. What the operations of Machine/Power.lean keep. -/

namespace Sys2Proof.Machine

open Sys2Proof

theorem restrictSlots_keeps {s₀ s : State} (hk : Keeps s₀ s) :
    Keeps s₀ (restrictSlots s) := by
  unfold restrictSlots
  repeat' first
    | with_reducible assumption
    | (extract_lets +onlyGivenNames x; first
        | (refine keeps_cut (s₀ := s₀) (t := x) ?_ fun hx => ?_) <;> first | (revert hx; clear_value x; intro _) | subst x
        | clear_value x
        | subst x)
    | (with_reducible refine keeps_ite ?_ ?_)
    | (with_reducible refine modSlots_keeps ?_)
    | split

theorem boundaryPoint_keeps {s₀ s : State} {k : Nat} (hk : Keeps s₀ s) :
    Keeps s₀ (boundaryPoint k s) := by
  unfold boundaryPoint
  repeat' first
    | with_reducible assumption
    | (extract_lets +onlyGivenNames x; first
        | (refine keeps_cut (s₀ := s₀) (t := x) ?_ fun hx => ?_) <;> first | (revert hx; clear_value x; intro _) | subst x
        | clear_value x
        | subst x)
    | (with_reducible refine keeps_ite ?_ ?_)
    | (with_reducible refine modSlots_keeps ?_)
    | split

theorem writeCap_keeps {s₀ s : State} {cls v : Nat} (hk : Keeps s₀ s) :
    Keeps s₀ (writeCap cls v s).2 := by
  unfold writeCap
  repeat' first
    | with_reducible assumption
    | (extract_lets +onlyGivenNames x; first
        | (refine keeps_cut (s₀ := s₀) (t := x) ?_ fun hx => ?_) <;> first | (revert hx; clear_value x; intro _) | subst x
        | (refine keeps_cut2 (s₀ := s₀) (t := x) ?_ fun hx => ?_) <;> first | (revert hx; clear_value x; intro _) | subst x
        | clear_value x
        | subst x)
    | (with_reducible refine keeps_ite2 ?_ ?_)
    | (with_reducible refine keeps_ite ?_ ?_)
    | (with_reducible refine setRw_keeps ?_)
    | (with_reducible refine restrictSlots_keeps ?_)
    | (with_reducible refine settle_keeps ?_)
    | (with_reducible refine annal_keeps ?_)
    | dsimp only
    | split

end Sys2Proof.Machine
end

