-- ==== Sys2Proof/Laws/KeepsLoad.lean ====
section
/-! SUPPORT. What the operations of Machine/Load.lean keep. -/

namespace Sys2Proof.Machine

open Sys2Proof

theorem setRefusal_keeps {s₀ s : State} {p sl : Nat} {r : Nat × Nat} (hk : Keeps s₀ s) :
    Keeps s₀ (setRefusal p sl r s) := by
  unfold setRefusal
  repeat' first
    | with_reducible assumption
    | (with_reducible refine setCount_keeps ?_)

theorem layPrograms_keeps {s₀ s : State} {f : Bytes} {cellBase tile : Nat} {ps : List (Nat × Prog)} {at_ i : Nat} (hk : Keeps s₀ s) :
    Keeps s₀ (layPrograms f cellBase tile ps at_ i s) := by
  induction ps generalizing f cellBase tile at_ i s with
  | nil =>
    unfold layPrograms
    repeat' first
      | with_reducible assumption
      | (extract_lets +onlyGivenNames x; first
          | (refine keeps_cut (s₀ := s₀) (t := x) ?_ fun hx => ?_) <;> first | (revert hx; clear_value x; intro _) | subst x
          | clear_value x
          | subst x)
      | (with_reducible refine modMem_keeps (fun m hm => by simp_all [Mems.wf, Memory.wf_writeN]) ?_)
      | (with_reducible refine modChan_keeps ?_)
      | split
  | cons a r ih =>
    unfold layPrograms
    repeat' first
      | cases ‹_ + 1 = Nat.succ _›
      | with_reducible assumption
      | (extract_lets +onlyGivenNames x; first
          | (refine keeps_cut (s₀ := s₀) (t := x) ?_ fun hx => ?_) <;> first | (revert hx; clear_value x; intro _) | subst x
          | clear_value x
          | subst x)
      | (with_reducible refine ih ?_)
      | (with_reducible refine modMem_keeps (fun m hm => by simp_all [Mems.wf, Memory.wf_writeN]) ?_)
      | (with_reducible refine modChan_keeps ?_)
      | split

theorem writeImage_keeps {s₀ s : State} {k : Nat} (hk : Keeps s₀ s) :
    Keeps s₀ (writeImage k s) := by
  unfold writeImage
  repeat' first
    | with_reducible assumption
    | (extract_lets +onlyGivenNames x; first
        | (refine keeps_cut (s₀ := s₀) (t := x) ?_ fun hx => ?_) <;> first | (revert hx; clear_value x; intro _) | subst x
        | (refine keeps_cut2 (s₀ := s₀) (t := x) ?_ fun hx => ?_) <;> first | (revert hx; clear_value x; intro _) | subst x
        | clear_value x
        | subst x)
    | (with_reducible refine keeps_ite ?_ ?_)
    | (with_reducible refine modMem_keeps (fun m hm => by simp_all [Mems.wf, Memory.wf_writeN, Memory.wf_filter]) ?_)
    | (with_reducible refine layPrograms_keeps ?_)
    | (with_reducible refine copySides_keeps ?_)
    | (with_reducible refine foldl_keeps (fun s x h => ?_) ?_)
    | (with_reducible refine foldl_pair_keeps (fun s x h => ?_) ?_)
    | (with_reducible refine foldl_fst_keeps (fun s x h => ?_) ?_)
    | dsimp only
    | split

theorem claimImage_keeps {s₀ s : State} {k : Nat} (hk : Keeps s₀ s) :
    Keeps s₀ (claimImage k s) := by
  unfold claimImage
  repeat' first
    | with_reducible assumption
    | (extract_lets +onlyGivenNames x; first
        | (refine keeps_cut (s₀ := s₀) (t := x) ?_ fun hx => ?_) <;> first | (revert hx; clear_value x; intro _) | subst x
        | (refine keeps_cut2 (s₀ := s₀) (t := x) ?_ fun hx => ?_) <;> first | (revert hx; clear_value x; intro _) | subst x
        | clear_value x
        | subst x)
    | (with_reducible refine modSlots_keeps ?_)
    | (with_reducible refine modClaims_keeps ?_)
    | (with_reducible refine measure_keeps ?_)
    | (with_reducible refine writeImage_keeps ?_)
    | (with_reducible refine foldl_keeps (fun s x h => ?_) ?_)
    | (with_reducible refine foldl_pair_keeps (fun s x h => ?_) ?_)
    | (with_reducible refine foldl_fst_keeps (fun s x h => ?_) ?_)
    | dsimp only

theorem slotLoad_keeps {s₀ s : State} {p sl : Nat} (hk : Keeps s₀ s) :
    Keeps s₀ (slotLoad p sl s).2 := by
  unfold slotLoad
  repeat' first
    | with_reducible assumption
    | (extract_lets +onlyGivenNames x; first
        | (refine keeps_cut (s₀ := s₀) (t := x) ?_ fun hx => ?_) <;> first | (revert hx; clear_value x; intro _) | subst x
        | (refine keeps_cut2 (s₀ := s₀) (t := x) ?_ fun hx => ?_) <;> first | (revert hx; clear_value x; intro _) | subst x
        | clear_value x
        | subst x)
    | (with_reducible refine keeps_ite2 ?_ ?_)
    | (with_reducible refine keeps_ite ?_ ?_)
    | (with_reducible refine setRefusal_keeps ?_)
    | (with_reducible refine settle_keeps ?_)
    | (with_reducible refine claimImage_keeps ?_)
    | dsimp only
    | split

theorem clearTile_keeps {s₀ s : State} {t : Nat} (hk : Keeps s₀ s) :
    Keeps s₀ (clearTile t s) := by
  unfold clearTile
  repeat' first
    | with_reducible assumption
    | (extract_lets +onlyGivenNames x; first
        | (refine keeps_cut (s₀ := s₀) (t := x) ?_ fun hx => ?_) <;> first | (revert hx; clear_value x; intro _) | subst x
        | (refine keeps_cut2 (s₀ := s₀) (t := x) ?_ fun hx => ?_) <;> first | (revert hx; clear_value x; intro _) | subst x
        | clear_value x
        | subst x)
    | (with_reducible refine keeps_ite ?_ ?_)
    | (with_reducible refine modUnits_keeps ?_)
    | (with_reducible refine dropPark_keeps ?_)
    | (with_reducible refine foldl_keeps (fun s x h => ?_) ?_)
    | (with_reducible refine foldl_pair_keeps (fun s x h => ?_) ?_)
    | (with_reducible refine foldl_fst_keeps (fun s x h => ?_) ?_)
    | dsimp only
    | split

theorem zeroAreas_keeps {s₀ s : State} {x : Slot} (hk : Keeps s₀ s) :
    Keeps s₀ (zeroAreas x s) := by
  unfold zeroAreas
  repeat' first
    | with_reducible assumption
    | (extract_lets +onlyGivenNames x; first
        | (refine keeps_cut (s₀ := s₀) (t := x) ?_ fun hx => ?_) <;> first | (revert hx; clear_value x; intro _) | subst x
        | (refine keeps_cut2 (s₀ := s₀) (t := x) ?_ fun hx => ?_) <;> first | (revert hx; clear_value x; intro _) | subst x
        | clear_value x
        | subst x)
    | (with_reducible refine modCarr_keeps ?_)
    | (with_reducible refine modMem_keeps (fun m hm => by simp_all [Mems.wf, Memory.wf_filter]) ?_)

theorem releaseImage_keeps {s₀ s : State} {k : Nat} (hk : Keeps s₀ s) :
    Keeps s₀ (releaseImage k s) := by
  unfold releaseImage
  repeat' first
    | with_reducible assumption
    | (extract_lets +onlyGivenNames x; first
        | (refine keeps_cut (s₀ := s₀) (t := x) ?_ fun hx => ?_) <;> first | (revert hx; clear_value x; intro _) | subst x
        | (refine keeps_cut2 (s₀ := s₀) (t := x) ?_ fun hx => ?_) <;> first | (revert hx; clear_value x; intro _) | subst x
        | clear_value x
        | subst x)
    | (with_reducible refine modClaims_keeps ?_)
    | (with_reducible refine modUnits_keeps ?_)
    | (with_reducible refine modMem_keeps (fun m hm => by simp_all [Mems.wf, Memory.wf_zero, Memory.wf_zeros]) ?_)
    | (with_reducible refine dropObject_keeps ?_)
    | (with_reducible refine releaseRegions_keeps ?_)
    | (with_reducible refine clearTile_keeps ?_)
    | (with_reducible refine zeroAreas_keeps ?_)
    | (with_reducible refine foldl_keeps (fun s x h => ?_) ?_)
    | (with_reducible refine foldl_pair_keeps (fun s x h => ?_) ?_)
    | (with_reducible refine foldl_fst_keeps (fun s x h => ?_) ?_)
    | dsimp only

end Sys2Proof.Machine
end

