-- ==== Sys2Proof/Laws/KeepsSlots.lean ====
section
/-! SUPPORT. What the operations of Machine/Slots.lean keep. -/

namespace Sys2Proof.Machine

open Sys2Proof

theorem makeActive_keeps {s₀ s : State} {p sl : Nat} {atOnce : Bool} (hk : Keeps s₀ s) :
    Keeps s₀ (makeActive p sl atOnce s) := by
  unfold makeActive
  repeat' first
    | with_reducible assumption
    | (extract_lets +onlyGivenNames x; first
        | (refine keeps_cut (s₀ := s₀) (t := x) ?_ fun hx => ?_) <;> first | (revert hx; clear_value x; intro _) | subst x
        | clear_value x
        | subst x)
    | (with_reducible refine keeps_ite ?_ ?_)
    | (with_reducible refine modSlot_keeps ?_)
    | (with_reducible refine retireDone_keeps ?_)
    | split

theorem placeSlotEntry_keeps {s₀ s : State} {n action p sl v : Nat} (hk : Keeps s₀ s) :
    KeepsO s₀ (placeSlotEntry n action p sl v s) := by
  unfold placeSlotEntry
  repeat' first
    | with_reducible assumption
    | (with_reducible refine keeps_someO ?_)
    | with_reducible exact keeps_noneO
    | (extract_lets +onlyGivenNames x; first
        | (refine keeps_cut (s₀ := s₀) (t := x) ?_ fun hx => ?_) <;> first | (revert hx; clear_value x; intro _) | subst x
        | clear_value x
        | subst x)
    | (with_reducible refine keeps_iteO ?_ ?_)
    | (with_reducible refine keeps_ite ?_ ?_)
    | (with_reducible refine placeShot_keeps ?_)
    | dsimp only
    | split

theorem slotActivate_keeps {s₀ s : State} {p sl : Nat} (hk : Keeps s₀ s) :
    Keeps s₀ (slotActivate p sl s).2 := by
  unfold slotActivate
  repeat' first
    | with_reducible assumption
    | (with_reducible refine keeps_ite2 ?_ ?_)
    | (with_reducible refine keeps_ite ?_ ?_)
    | (with_reducible refine setRefusal_keeps ?_)
    | (with_reducible refine makeActive_keeps ?_)
    | (with_reducible refine placeSlotEntry_keeps ?_)
    | (with_reducible refine KeepsO.get (placeSlotEntry_keeps ?_) ‹_›)
    | (with_reducible refine modSlot_keeps ?_)
    | dsimp only
    | split

theorem slotRetire_keeps {s₀ s : State} {p sl : Nat} (hk : Keeps s₀ s) :
    Keeps s₀ (slotRetire p sl s).2 := by
  unfold slotRetire
  repeat' first
    | with_reducible assumption
    | (with_reducible refine keeps_ite2 ?_ ?_)
    | (with_reducible refine keeps_ite ?_ ?_)
    | (with_reducible refine setRefusal_keeps ?_)
    | (with_reducible refine modSlot_keeps ?_)
    | (with_reducible refine cancelEntry_keeps ?_)
    | (with_reducible refine retireDone_keeps ?_)
    | dsimp only
    | split

theorem slotUnload_keeps {s₀ s : State} {p sl : Nat} (hk : Keeps s₀ s) :
    Keeps s₀ (slotUnload p sl s).2 := by
  unfold slotUnload
  repeat' first
    | with_reducible assumption
    | (extract_lets +onlyGivenNames x; first
        | (refine keeps_cut (s₀ := s₀) (t := x) ?_ fun hx => ?_) <;> first | (revert hx; clear_value x; intro _) | subst x
        | (refine keeps_cut2 (s₀ := s₀) (t := x) ?_ fun hx => ?_) <;> first | (revert hx; clear_value x; intro _) | subst x
        | clear_value x
        | subst x)
    | (with_reducible refine keeps_ite2 ?_ ?_)
    | (with_reducible refine keeps_ite ?_ ?_)
    | (with_reducible refine modSlots_keeps ?_)
    | (with_reducible refine releaseImage_keeps ?_)
    | (with_reducible refine settle_keeps ?_)
    | (with_reducible refine setCount_keeps ?_)
    | (with_reducible refine setRefusal_keeps ?_)
    | dsimp only
    | split

theorem slotSwap_keeps {s₀ s : State} {p sl : Nat} (hk : Keeps s₀ s) :
    Keeps s₀ (slotSwap p sl s).2 := by
  unfold slotSwap
  repeat' first
    | with_reducible assumption
    | (with_reducible refine keeps_ite2 ?_ ?_)
    | (with_reducible refine keeps_ite ?_ ?_)
    | (with_reducible refine placeSlotEntry_keeps ?_)
    | (with_reducible refine KeepsO.get (placeSlotEntry_keeps ?_) ‹_›)
    | (with_reducible refine setRefusal_keeps ?_)
    | dsimp only
    | split

theorem slotRevalidate_keeps {s₀ s : State} {p sl : Nat} (hk : Keeps s₀ s) :
    Keeps s₀ (slotRevalidate p sl s).2 := by
  unfold slotRevalidate
  repeat' first
    | with_reducible assumption
    | (extract_lets +onlyGivenNames x; first
        | (refine keeps_cut (s₀ := s₀) (t := x) ?_ fun hx => ?_) <;> first | (revert hx; clear_value x; intro _) | subst x
        | (refine keeps_cut2 (s₀ := s₀) (t := x) ?_ fun hx => ?_) <;> first | (revert hx; clear_value x; intro _) | subst x
        | clear_value x
        | subst x)
    | (with_reducible refine keeps_ite2 ?_ ?_)
    | (with_reducible refine keeps_ite ?_ ?_)
    | (with_reducible refine setRefusal_keeps ?_)
    | (with_reducible refine modSlot_keeps ?_)
    | dsimp only
    | split

theorem slotCommand_keeps {s₀ s : State} {p sl code : Nat} (hk : Keeps s₀ s) :
    Keeps s₀ (slotCommand p sl code s).2 := by
  unfold slotCommand
  repeat' first
    | with_reducible assumption
    | (with_reducible refine keeps_ite2 ?_ ?_)
    | (with_reducible refine keeps_ite ?_ ?_)
    | (with_reducible refine slotLoad_keeps ?_)
    | (with_reducible refine keeps_of_pair (slotLoad_keeps ?_) ‹_›)
    | (with_reducible refine slotActivate_keeps ?_)
    | (with_reducible refine keeps_of_pair (slotActivate_keeps ?_) ‹_›)
    | (with_reducible refine slotRetire_keeps ?_)
    | (with_reducible refine keeps_of_pair (slotRetire_keeps ?_) ‹_›)
    | (with_reducible refine slotUnload_keeps ?_)
    | (with_reducible refine keeps_of_pair (slotUnload_keeps ?_) ‹_›)
    | (with_reducible refine slotSwap_keeps ?_)
    | (with_reducible refine keeps_of_pair (slotSwap_keeps ?_) ‹_›)
    | (with_reducible refine slotRevalidate_keeps ?_)
    | (with_reducible refine keeps_of_pair (slotRevalidate_keeps ?_) ‹_›)
    | dsimp only
    | split

theorem slotFile_keeps {s₀ s : State} {p sl : Nat} {f : Bytes} (hk : Keeps s₀ s) :
    Keeps s₀ (slotFile p sl f s).2 := by
  unfold slotFile
  repeat' first
    | with_reducible assumption
    | (with_reducible refine keeps_ite2 ?_ ?_)
    | (with_reducible refine keeps_ite ?_ ?_)
    | (with_reducible refine modSlot_keeps ?_)
    | dsimp only
    | split

theorem slotUnfired_keeps {s₀ s : State} {e : Entry} (hk : Keeps s₀ s) :
    Keeps s₀ (slotUnfired e s) := by
  unfold slotUnfired
  repeat' first
    | with_reducible assumption
    | (extract_lets +onlyGivenNames x; first
        | (refine keeps_cut (s₀ := s₀) (t := x) ?_ fun hx => ?_) <;> first | (revert hx; clear_value x; intro _) | subst x
        | clear_value x
        | subst x)
    | (with_reducible refine keeps_ite ?_ ?_)
    | (with_reducible refine modSlot_keeps ?_)
    | (with_reducible refine slotAction_keeps ?_)
    | split

theorem cutTile_keeps {s₀ s : State} {t : Nat} (hk : Keeps s₀ s) :
    Keeps s₀ (cutTile t s) := by
  unfold cutTile
  repeat' first
    | with_reducible assumption
    | (extract_lets +onlyGivenNames x; first
        | (refine keeps_cut (s₀ := s₀) (t := x) ?_ fun hx => ?_) <;> first | (revert hx; clear_value x; intro _) | subst x
        | (refine keeps_cut2 (s₀ := s₀) (t := x) ?_ fun hx => ?_) <;> first | (revert hx; clear_value x; intro _) | subst x
        | clear_value x
        | subst x)
    | (with_reducible refine cutChan_keeps ?_)
    | (with_reducible refine cutSedge_keeps ?_)
    | (with_reducible refine cutArray_keeps ?_)
    | (with_reducible refine cutEngine_keeps ?_)
    | (with_reducible refine foldl_keeps (fun s x h => ?_) ?_)
    | (with_reducible refine foldl_pair_keeps (fun s x h => ?_) ?_)
    | (with_reducible refine foldl_fst_keeps (fun s x h => ?_) ?_)
    | dsimp only

theorem cutQueries_keeps {s₀ s : State} {ids : List Nat} (hk : Keeps s₀ s) :
    Keeps s₀ (cutQueries ids s) := by
  unfold cutQueries
  repeat' first
    | with_reducible assumption
    | (with_reducible refine composeQuery_keeps ?_)
    | (with_reducible refine foldl_keeps (fun s x h => ?_) ?_)
    | (with_reducible refine foldl_pair_keeps (fun s x h => ?_) ?_)
    | (with_reducible refine foldl_fst_keeps (fun s x h => ?_) ?_)
    | dsimp only
    | split

theorem cutStage_keeps {s₀ s : State} {p sl : Nat} {b : Batch} {i : Nat} (hk : Keeps s₀ s) :
    Keeps s₀ (cutStage p sl b i s) := by
  unfold cutStage
  repeat' first
    | with_reducible assumption
    | (extract_lets +onlyGivenNames x; first
        | (refine keeps_cut (s₀ := s₀) (t := x) ?_ fun hx => ?_) <;> first | (revert hx; clear_value x; intro _) | subst x
        | (refine keeps_cut2 (s₀ := s₀) (t := x) ?_ fun hx => ?_) <;> first | (revert hx; clear_value x; intro _) | subst x
        | clear_value x
        | subst x)
    | (with_reducible refine cutTile_keeps ?_)
    | (with_reducible refine cutQueries_keeps ?_)
    | (with_reducible refine bump_keeps ?_)
    | (with_reducible refine cutReset_keeps ?_)
    | (with_reducible refine modSlot_keeps ?_)
    | (with_reducible refine foldl_keeps (fun s x h => ?_) ?_)
    | (with_reducible refine foldl_pair_keeps (fun s x h => ?_) ?_)
    | (with_reducible refine foldl_fst_keeps (fun s x h => ?_) ?_)
    | dsimp only

theorem haltSlot_keeps {s₀ s : State} {p sl : Nat} (hk : Keeps s₀ s) :
    Keeps s₀ (haltSlot p sl s) := by
  unfold haltSlot
  repeat' first
    | with_reducible assumption
    | (extract_lets +onlyGivenNames x; first
        | (refine keeps_cut (s₀ := s₀) (t := x) ?_ fun hx => ?_) <;> first | (revert hx; clear_value x; intro _) | subst x
        | (refine keeps_cut2 (s₀ := s₀) (t := x) ?_ fun hx => ?_) <;> first | (revert hx; clear_value x; intro _) | subst x
        | clear_value x
        | subst x)
    | (with_reducible refine cutTile_keeps ?_)
    | (with_reducible refine disableChan_keeps ?_)
    | (with_reducible refine drawn_keeps ?_)
    | (with_reducible refine modCell_keeps ?_)
    | (with_reducible refine setCount_keeps ?_)
    | (with_reducible refine slotAction_keeps ?_)
    | (with_reducible refine modSlot_keeps ?_)
    | (with_reducible refine faultCompletion_keeps ?_)
    | (with_reducible refine foldl_keeps (fun s x h => ?_) ?_)
    | (with_reducible refine foldl_pair_keeps (fun s x h => ?_) ?_)
    | (with_reducible refine foldl_fst_keeps (fun s x h => ?_) ?_)
    | dsimp only

theorem openRounds_keeps {s₀ s : State} {k : Nat} {im : Image} {bs : List Batch} (hk : Keeps s₀ s) :
    Keeps s₀ (openRounds k im bs s) := by
  unfold openRounds
  repeat' first
    | with_reducible assumption
    | (extract_lets +onlyGivenNames x; first
        | (refine keeps_cut (s₀ := s₀) (t := x) ?_ fun hx => ?_) <;> first | (revert hx; clear_value x; intro _) | subst x
        | (refine keeps_cut2 (s₀ := s₀) (t := x) ?_ fun hx => ?_) <;> first | (revert hx; clear_value x; intro _) | subst x
        | clear_value x
        | subst x)
    | (with_reducible refine keeps_ite ?_ ?_)
    | (with_reducible refine openRound_keeps ?_)
    | (with_reducible refine foldl_keeps (fun s x h => ?_) ?_)
    | (with_reducible refine foldl_pair_keeps (fun s x h => ?_) ?_)
    | (with_reducible refine foldl_fst_keeps (fun s x h => ?_) ?_)
    | dsimp only
    | split

theorem tileBoundary_keeps {s₀ s : State} {t : Nat} (hk : Keeps s₀ s) :
    Keeps s₀ (tileBoundary t s) := by
  unfold tileBoundary
  repeat' first
    | with_reducible assumption
    | (extract_lets +onlyGivenNames x; first
        | (refine keeps_cut (s₀ := s₀) (t := x) ?_ fun hx => ?_) <;> first | (revert hx; clear_value x; intro _) | subst x
        | (refine keeps_cut2 (s₀ := s₀) (t := x) ?_ fun hx => ?_) <;> first | (revert hx; clear_value x; intro _) | subst x
        | clear_value x
        | subst x)
    | (with_reducible refine keeps_ite ?_ ?_)
    | (with_reducible refine modVigil_keeps ?_)
    | (with_reducible refine arrayBoundary_keeps ?_)
    | (with_reducible refine modArray_keeps ?_)
    | (with_reducible refine modEngine_keeps ?_)
    | (with_reducible refine mereBoundary_keeps ?_)
    | (with_reducible refine visitDone_keeps ?_)
    | (with_reducible refine foldl_keeps (fun s x h => ?_) ?_)
    | (with_reducible refine foldl_pair_keeps (fun s x h => ?_) ?_)
    | (with_reducible refine foldl_fst_keeps (fun s x h => ?_) ?_)
    | dsimp only
    | split

theorem startStage_keeps {s₀ s : State} {x : Slot} {g : Stage} {im : Image} (hk : Keeps s₀ s) :
    Keeps s₀ (startStage x g im s) := by
  unfold startStage
  repeat' first
    | with_reducible assumption
    | (extract_lets +onlyGivenNames x; first
        | (refine keeps_cut (s₀ := s₀) (t := x) ?_ fun hx => ?_) <;> first | (revert hx; clear_value x; intro _) | subst x
        | (refine keeps_cut2 (s₀ := s₀) (t := x) ?_ fun hx => ?_) <;> first | (revert hx; clear_value x; intro _) | subst x
        | clear_value x
        | subst x)
    | (with_reducible refine keeps_ite ?_ ?_)
    | (with_reducible refine startChan_keeps ?_)
    | (with_reducible refine cutChan_keeps ?_)
    | (with_reducible refine foldl_keeps (fun s x h => ?_) ?_)
    | (with_reducible refine foldl_pair_keeps (fun s x h => ?_) ?_)
    | (with_reducible refine foldl_fst_keeps (fun s x h => ?_) ?_)
    | dsimp only
    | split

theorem chargeSlots_keeps {s₀ s : State} {p : Nat} {x : Slot} {im : Image} (hk : Keeps s₀ s) :
    Keeps s₀ (chargeSlots p x im s) := by
  unfold chargeSlots
  repeat' first
    | with_reducible assumption
    | (with_reducible refine charge_keeps ?_)
    | (with_reducible refine foldl_keeps (fun s x h => ?_) ?_)
    | (with_reducible refine foldl_pair_keeps (fun s x h => ?_) ?_)
    | (with_reducible refine foldl_fst_keeps (fun s x h => ?_) ?_)
    | dsimp only
    | split

theorem endSlot_keeps {s₀ s : State} {p sl : Nat} {im : Image} {unfinished : List Nat} (hk : Keeps s₀ s) :
    Keeps s₀ (endSlot p sl im unfinished s) := by
  unfold endSlot
  repeat' first
    | with_reducible assumption
    | (extract_lets +onlyGivenNames x; first
        | (refine keeps_cut (s₀ := s₀) (t := x) ?_ fun hx => ?_) <;> first | (revert hx; clear_value x; intro _) | subst x
        | (refine keeps_cut2 (s₀ := s₀) (t := x) ?_ fun hx => ?_) <;> first | (revert hx; clear_value x; intro _) | subst x
        | clear_value x
        | subst x)
    | (with_reducible refine keeps_ite ?_ ?_)
    | (with_reducible refine chargeSlots_keeps ?_)
    | (with_reducible refine cutStage_keeps ?_)
    | (with_reducible refine boundaryPoint_keeps ?_)
    | (with_reducible refine foldl_keeps (fun s x h => ?_) ?_)
    | (with_reducible refine foldl_pair_keeps (fun s x h => ?_) ?_)
    | (with_reducible refine foldl_fst_keeps (fun s x h => ?_) ?_)
    | dsimp only
    | split

theorem beginSlot_keeps {s₀ s : State} {p sl : Nat} {im : Image} (hk : Keeps s₀ s) :
    Keeps s₀ (beginSlot p sl im s) := by
  unfold beginSlot
  repeat' first
    | with_reducible assumption
    | (extract_lets +onlyGivenNames x; first
        | (refine keeps_cut (s₀ := s₀) (t := x) ?_ fun hx => ?_) <;> first | (revert hx; clear_value x; intro _) | subst x
        | (refine keeps_cut2 (s₀ := s₀) (t := x) ?_ fun hx => ?_) <;> first | (revert hx; clear_value x; intro _) | subst x
        | clear_value x
        | subst x)
    | (with_reducible refine modUnits_keeps ?_)
    | (with_reducible refine openRounds_keeps ?_)
    | (with_reducible refine modSlot_keeps ?_)
    | (with_reducible refine trace_keeps ?_)
    | (with_reducible refine tileBoundary_keeps ?_)
    | (with_reducible refine freeRetired_keeps ?_)
    | (with_reducible refine startStage_keeps ?_)
    | (with_reducible refine foldl_keeps (fun s x h => ?_) ?_)
    | (with_reducible refine foldl_pair_keeps (fun s x h => ?_) ?_)
    | (with_reducible refine foldl_fst_keeps (fun s x h => ?_) ?_)
    | dsimp only
    | split

end Sys2Proof.Machine
end

