-- ==== Sys2Proof/Laws/KeepsAlmanacRun.lean ====
section
/-! SUPPORT. What the operations of Machine/AlmanacRun.lean keep. -/

namespace Sys2Proof.Machine

open Sys2Proof

theorem skipRecord_keeps {s₀ s : State} {n : Nat} {e : Entry} {missed : Nat} (hk : Keeps s₀ s) :
    Keeps s₀ (skipRecord n e missed s) := by
  unfold skipRecord
  repeat' first
    | with_reducible assumption
    | (with_reducible refine keeps_ite ?_ ?_)
    | (with_reducible refine annal_keeps ?_)
    | (with_reducible refine bump_keeps ?_)
    | split

theorem passLate_keeps {s₀ s : State} {unset : Bool} {t n : Nat} {e : Entry} (hk : Keeps s₀ s) :
    Keeps s₀ (passLate unset t n e s) := by
  unfold passLate
  repeat' first
    | with_reducible assumption
    | (extract_lets +onlyGivenNames x; first
        | (refine keeps_cut (s₀ := s₀) (t := x) ?_ fun hx => ?_) <;> first | (revert hx; clear_value x; intro _) | subst x
        | clear_value x
        | subst x)
    | (with_reducible refine keeps_ite ?_ ?_)
    | (with_reducible refine skipRecord_keeps ?_)
    | (with_reducible refine endEntry_keeps ?_)
    | (with_reducible refine slotUnfired_keeps ?_)
    | (with_reducible refine putEntry_keeps ?_)
    | split

theorem endFiring_keeps {s₀ s : State} {n : Nat} (hk : Keeps s₀ s) :
    Keeps s₀ (endFiring n s) := by
  unfold endFiring
  repeat' first
    | with_reducible assumption
    | (extract_lets +onlyGivenNames x; first
        | (refine keeps_cut (s₀ := s₀) (t := x) ?_ fun hx => ?_) <;> first | (revert hx; clear_value x; intro _) | subst x
        | clear_value x
        | subst x)
    | (with_reducible refine keeps_ite ?_ ?_)
    | (with_reducible refine modAlm_keeps ?_)
    | (with_reducible refine dropEntry_keeps ?_)
    | (with_reducible refine putEntry_keeps ?_)
    | (with_reducible refine endEntry_keeps ?_)
    | split

theorem admitNode_keeps {s₀ s : State} {t : Nat} (hk : Keeps s₀ s) :
    Keeps s₀ (admitNode t s) := by
  unfold admitNode
  repeat' first
    | with_reducible assumption
    | (extract_lets +onlyGivenNames x; first
        | (refine keeps_cut (s₀ := s₀) (t := x) ?_ fun hx => ?_) <;> first | (revert hx; clear_value x; intro _) | subst x
        | clear_value x
        | subst x)
    | (with_reducible refine keeps_ite ?_ ?_)
    | (with_reducible refine modDev_keeps ?_)
    | (with_reducible refine setCount_keeps ?_)
    | (with_reducible refine setDevState_keeps ?_)
    | split

theorem fireEntry_keeps {s₀ s : State} {unset : Bool} {t n : Nat} (hk : Keeps s₀ s) :
    Keeps s₀ (fireEntry unset t n s) := by
  unfold fireEntry
  repeat' first
    | with_reducible assumption
    | (extract_lets +onlyGivenNames x; first
        | (refine keeps_cut (s₀ := s₀) (t := x) ?_ fun hx => ?_) <;> first | (revert hx; clear_value x; intro _) | subst x
        | clear_value x
        | subst x)
    | (with_reducible refine keeps_ite ?_ ?_)
    | (with_reducible refine modAlm_keeps ?_)
    | (with_reducible refine traceFiring_keeps ?_)
    | (with_reducible refine putEntry_keeps ?_)
    | (with_reducible refine bump_keeps ?_)
    | (with_reducible refine endFiring_keeps ?_)
    | (with_reducible refine admitNode_keeps ?_)
    | (with_reducible refine issueCell_keeps ?_)
    | split

theorem entryResult_keeps {s₀ s : State} {code n : Nat} (hk : Keeps s₀ s) :
    Keeps s₀ (entryResult code n s) := by
  unfold entryResult
  repeat' first
    | with_reducible assumption
    | (with_reducible refine setCount_keeps ?_)

theorem entryCommand_keeps {s₀ s : State} {code : Nat} (hk : Keeps s₀ s) :
    Keeps s₀ (entryCommand code s).2 := by
  unfold entryCommand
  repeat' first
    | with_reducible assumption
    | (extract_lets +onlyGivenNames x; first
        | (refine keeps_cut (s₀ := s₀) (t := x) ?_ fun hx => ?_) <;> first | (revert hx; clear_value x; intro _) | subst x
        | (refine keeps_cut2 (s₀ := s₀) (t := x) ?_ fun hx => ?_) <;> first | (revert hx; clear_value x; intro _) | subst x
        | clear_value x
        | subst x)
    | (with_reducible refine keeps_ite2 ?_ ?_)
    | (with_reducible refine keeps_ite ?_ ?_)
    | (with_reducible refine modAlm_keeps ?_)
    | (with_reducible refine entryResult_keeps ?_)
    | (with_reducible refine bump_keeps ?_)
    | (with_reducible refine putEntry_keeps ?_)
    | (with_reducible refine commitStaged_keeps ?_)
    | (with_reducible refine redirectEntry_keeps ?_)
    | (with_reducible refine cancelEntry_keeps ?_)
    | dsimp only
    | split

end Sys2Proof.Machine
end

