-- ==== Sys2Proof/Laws/KeepsCxl.lean ====
section
/-! SUPPORT. What the operations of Machine/Cxl.lean keep. -/

namespace Sys2Proof.Machine

open Sys2Proof

theorem claimWindow_keeps {s₀ s : State} {port v : Nat} (hk : Keeps s₀ s) :
    KeepsO s₀ (claimWindow port v s) := by
  unfold claimWindow
  repeat' first
    | with_reducible assumption
    | (with_reducible refine keeps_someO ?_)
    | with_reducible exact keeps_noneO
    | (extract_lets +onlyGivenNames x; first
        | (refine keeps_cut (s₀ := s₀) (t := x) ?_ fun hx => ?_) <;> first | (revert hx; clear_value x; intro _) | subst x
        | clear_value x
        | subst x)
    | (with_reducible refine keeps_iteO ?_ ?_)
    | (with_reducible refine keeps_ite ?_ ?_)
    | (with_reducible refine releaseRegions_keeps ?_)
    | (with_reducible refine setRw_keeps ?_)
    | (with_reducible refine modLink_keeps ?_)
    | (with_reducible refine addRegion_keeps ?_)
    | dsimp only
    | split

theorem writeWindowSize_keeps {s₀ s : State} {port v : Nat} (hk : Keeps s₀ s) :
    Keeps s₀ (writeWindowSize port v s).2 := by
  unfold writeWindowSize
  repeat' first
    | with_reducible assumption
    | (with_reducible refine keeps_ite2 ?_ ?_)
    | (with_reducible refine keeps_ite ?_ ?_)
    | (with_reducible refine setRw_keeps ?_)
    | (with_reducible refine claimWindow_keeps ?_)
    | (with_reducible refine KeepsO.get (claimWindow_keeps ?_) ‹_›)
    | dsimp only
    | split

theorem writeWindowOwner_keeps {s₀ s : State} {port v : Nat} (hk : Keeps s₀ s) :
    Keeps s₀ (writeWindowOwner port v s).2 := by
  unfold writeWindowOwner
  repeat' first
    | with_reducible assumption
    | (extract_lets +onlyGivenNames x; first
        | (refine keeps_cut (s₀ := s₀) (t := x) ?_ fun hx => ?_) <;> first | (revert hx; clear_value x; intro _) | subst x
        | (refine keeps_cut2 (s₀ := s₀) (t := x) ?_ fun hx => ?_) <;> first | (revert hx; clear_value x; intro _) | subst x
        | clear_value x
        | subst x)
    | (with_reducible refine keeps_ite2 ?_ ?_)
    | (with_reducible refine keeps_ite ?_ ?_)
    | (with_reducible refine modClaims_keeps ?_)
    | (with_reducible refine zeroRegion_keeps ?_)
    | (with_reducible refine setRw_keeps ?_)
    | (with_reducible refine foldl_keeps (fun s x h => ?_) ?_)
    | (with_reducible refine foldl_pair_keeps (fun s x h => ?_) ?_)
    | (with_reducible refine foldl_fst_keeps (fun s x h => ?_) ?_)
    | dsimp only
    | split

end Sys2Proof.Machine
end

