-- ==== Sys2Proof/Laws/KeepsFabricTime.lean ====
section
/-! SUPPORT. What the operations of Machine/FabricTime.lean keep. -/

namespace Sys2Proof.Machine

open Sys2Proof

theorem sendTime_keeps {s₀ s : State} {port kind sq t1 t2 t3 : Nat} (hk : Keeps s₀ s) :
    Keeps s₀ (sendTime port kind sq t1 t2 t3 s) := by
  unfold sendTime
  repeat' first
    | with_reducible assumption
    | (extract_lets +onlyGivenNames x; first
        | (refine keeps_cut (s₀ := s₀) (t := x) ?_ fun hx => ?_) <;> first | (revert hx; clear_value x; intro _) | subst x
        | clear_value x
        | subst x)
    | (with_reducible refine modClock_keeps ?_)
    | (with_reducible refine emit_keeps ?_)

theorem ftAlarm_keeps {s₀ s : State} {b : Nat} {theta : Int} (hk : Keeps s₀ s) :
    Keeps s₀ (ftAlarm b theta s) := by
  unfold ftAlarm
  repeat' first
    | with_reducible assumption
    | (extract_lets +onlyGivenNames x; first
        | (refine keeps_cut (s₀ := s₀) (t := x) ?_ fun hx => ?_) <;> first | (revert hx; clear_value x; intro _) | subst x
        | clear_value x
        | subst x)
    | (with_reducible refine modClock_keeps ?_)
    | (with_reducible refine annal_keeps ?_)

theorem discardTime_keeps {s₀ s : State} (hk : Keeps s₀ s) :
    Keeps s₀ (discardTime s) := by
  unfold discardTime
  repeat' first
    | with_reducible assumption
    | (extract_lets +onlyGivenNames x; first
        | (refine keeps_cut (s₀ := s₀) (t := x) ?_ fun hx => ?_) <;> first | (revert hx; clear_value x; intro _) | subst x
        | clear_value x
        | subst x)
    | (with_reducible refine keeps_ite ?_ ?_)
    | (with_reducible refine bump_keeps ?_)
    | (with_reducible refine ftAlarm_keeps ?_)
    | split

theorem enterHoldover_keeps {s₀ s : State} {cause alarm : Nat} {theta : Int} (hk : Keeps s₀ s) :
    Keeps s₀ (enterHoldover cause alarm theta s) := by
  unfold enterHoldover
  repeat' first
    | with_reducible assumption
    | (with_reducible refine modClock_keeps ?_)
    | (with_reducible refine ftAlarm_keeps ?_)
    | (with_reducible refine setCount_keeps ?_)
    | (with_reducible refine bump_keeps ?_)

theorem stepForward_keeps {s₀ s : State} {d : Int} (hk : Keeps s₀ s) :
    Keeps s₀ (stepForward d s) := by
  unfold stepForward
  repeat' first
    | with_reducible assumption
    | (extract_lets +onlyGivenNames x; first
        | (refine keeps_cut (s₀ := s₀) (t := x) ?_ fun hx => ?_) <;> first | (revert hx; clear_value x; intro _) | subst x
        | clear_value x
        | subst x)
    | (with_reducible refine modClock_keeps ?_)
    | (with_reducible refine modAlm_keeps ?_)
    | (with_reducible refine setCount_keeps ?_)
    | (with_reducible refine annal_keeps ?_)

theorem stepUnset_keeps {s₀ s : State} {d : Int} {st : FtState} (hk : Keeps s₀ s) :
    Keeps s₀ (stepUnset d st s) := by
  unfold stepUnset
  repeat' first
    | with_reducible assumption
    | (extract_lets +onlyGivenNames x; first
        | (refine keeps_cut (s₀ := s₀) (t := x) ?_ fun hx => ?_) <;> first | (revert hx; clear_value x; intro _) | subst x
        | clear_value x
        | subst x)
    | (with_reducible refine keeps_ite ?_ ?_)
    | (with_reducible refine modClock_keeps ?_)
    | (with_reducible refine modAlm_keeps ?_)
    | split

theorem enterLocked_keeps {s₀ s : State} (hk : Keeps s₀ s) :
    Keeps s₀ (enterLocked s) := by
  unfold enterLocked
  repeat' first
    | with_reducible assumption
    | (with_reducible refine modClock_keeps ?_)

theorem correct_keeps {s₀ s : State} {theta : Int} (hk : Keeps s₀ s) :
    Keeps s₀ (correct theta s) := by
  unfold correct
  repeat' first
    | with_reducible assumption
    | (extract_lets +onlyGivenNames x; first
        | (refine keeps_cut (s₀ := s₀) (t := x) ?_ fun hx => ?_) <;> first | (revert hx; clear_value x; intro _) | subst x
        | clear_value x
        | subst x)
    | (with_reducible refine keeps_ite ?_ ?_)
    | (with_reducible refine modClock_keeps ?_)
    | (with_reducible refine ftAlarm_keeps ?_)
    | (with_reducible refine stepForward_keeps ?_)
    | (with_reducible refine enterHoldover_keeps ?_)
    | (with_reducible refine enterLocked_keeps ?_)
    | split

theorem setFt_keeps {s₀ s : State} {v : Nat} (hk : Keeps s₀ s) :
    Keeps s₀ (setFt v s).2 := by
  unfold setFt
  repeat' first
    | with_reducible assumption
    | (extract_lets +onlyGivenNames x; first
        | (refine keeps_cut (s₀ := s₀) (t := x) ?_ fun hx => ?_) <;> first | (revert hx; clear_value x; intro _) | subst x
        | (refine keeps_cut2 (s₀ := s₀) (t := x) ?_ fun hx => ?_) <;> first | (revert hx; clear_value x; intro _) | subst x
        | clear_value x
        | subst x)
    | (with_reducible refine keeps_ite2 ?_ ?_)
    | (with_reducible refine keeps_ite ?_ ?_)
    | (with_reducible refine settle_keeps ?_)
    | (with_reducible refine enterLocked_keeps ?_)
    | (with_reducible refine stepUnset_keeps ?_)
    | (with_reducible refine ftAlarm_keeps ?_)
    | (with_reducible refine stepForward_keeps ?_)
    | dsimp only
    | split

theorem relock_keeps {s₀ s : State} {v : Nat} (hk : Keeps s₀ s) :
    Keeps s₀ (relock v s).2 := by
  unfold relock
  repeat' first
    | with_reducible assumption
    | (extract_lets +onlyGivenNames x; first
        | (refine keeps_cut (s₀ := s₀) (t := x) ?_ fun hx => ?_) <;> first | (revert hx; clear_value x; intro _) | subst x
        | (refine keeps_cut2 (s₀ := s₀) (t := x) ?_ fun hx => ?_) <;> first | (revert hx; clear_value x; intro _) | subst x
        | clear_value x
        | subst x)
    | (with_reducible refine keeps_ite2 ?_ ?_)
    | (with_reducible refine keeps_ite ?_ ?_)
    | (with_reducible refine modClock_keeps ?_)
    | (with_reducible refine settle_keeps ?_)
    | dsimp only
    | split

theorem writeTimeRole_keeps {s₀ s : State} {v : Nat} (hk : Keeps s₀ s) :
    Keeps s₀ (writeTimeRole v s).2 := by
  unfold writeTimeRole
  repeat' first
    | with_reducible assumption
    | (extract_lets +onlyGivenNames x; first
        | (refine keeps_cut (s₀ := s₀) (t := x) ?_ fun hx => ?_) <;> first | (revert hx; clear_value x; intro _) | subst x
        | (refine keeps_cut2 (s₀ := s₀) (t := x) ?_ fun hx => ?_) <;> first | (revert hx; clear_value x; intro _) | subst x
        | clear_value x
        | subst x)
    | (with_reducible refine keeps_ite2 ?_ ?_)
    | (with_reducible refine keeps_ite ?_ ?_)
    | (with_reducible refine modClock_keeps ?_)
    | (with_reducible refine setRw_keeps ?_)
    | (with_reducible refine settle_keeps ?_)
    | (with_reducible refine enterLocked_keeps ?_)
    | dsimp only
    | split

end Sys2Proof.Machine
end

