-- ==== Sys2Proof/Laws/KeepsVigil.lean ====
section
/-! SUPPORT. What the operations of Machine/Vigil.lean keep. -/

namespace Sys2Proof.Machine

open Sys2Proof

theorem loseEngine_keeps {s₀ s : State} {e : Nat} (hk : Keeps s₀ s) :
    Keeps s₀ (loseEngine e s) := by
  unfold loseEngine
  repeat' first
    | with_reducible assumption
    | (with_reducible refine keeps_ite ?_ ?_)
    | (with_reducible refine unitLost_keeps ?_)
    | (with_reducible refine loseLight_keeps ?_)
    | (with_reducible refine setCount_keeps ?_)
    | split

theorem wakeTile_keeps {s₀ s : State} {t : Nat} (hk : Keeps s₀ s) :
    Keeps s₀ (wakeTile t s) := by
  unfold wakeTile
  repeat' first
    | with_reducible assumption
    | (with_reducible refine modTiles_keeps ?_)

theorem placeVigil_keeps {s₀ s : State} (hk : Keeps s₀ s) :
    Keeps s₀ (placeVigil s) := by
  unfold placeVigil
  repeat' first
    | with_reducible assumption
    | (with_reducible refine placeChain_keeps ?_)
    | (with_reducible refine foldl_keeps (fun s x h => ?_) ?_)
    | (with_reducible refine foldl_pair_keeps (fun s x h => ?_) ?_)
    | (with_reducible refine foldl_fst_keeps (fun s x h => ?_) ?_)
    | dsimp only

theorem rechainVigil_keeps {s₀ s : State} (hk : Keeps s₀ s) :
    Keeps s₀ (rechainVigil s) := by
  unfold rechainVigil
  repeat' first
    | with_reducible assumption
    | (with_reducible refine rechain_keeps ?_)
    | (with_reducible refine foldl_keeps (fun s x h => ?_) ?_)
    | (with_reducible refine foldl_pair_keeps (fun s x h => ?_) ?_)
    | (with_reducible refine foldl_fst_keeps (fun s x h => ?_) ?_)
    | dsimp only

theorem sweepUnit_keeps {s₀ s : State} {n : Nat} (hk : Keeps s₀ s) :
    Keeps s₀ (sweepUnit n s) := by
  unfold sweepUnit
  repeat' first
    | with_reducible assumption
    | (extract_lets +onlyGivenNames x; first
        | (refine keeps_cut (s₀ := s₀) (t := x) ?_ fun hx => ?_) <;> first | (revert hx; clear_value x; intro _) | subst x
        | clear_value x
        | subst x)
    | (with_reducible refine keeps_ite ?_ ?_)
    | (with_reducible refine modIsland_keeps ?_)
    | (with_reducible refine rechainVigil_keeps ?_)
    | (with_reducible refine setFirmware_keeps ?_)
    | (with_reducible refine finishRecord_keeps ?_)
    | split

theorem putVisit_keeps {s₀ s : State} {tile : Nat} {v : Visit} (hk : Keeps s₀ s) :
    Keeps s₀ (putVisit tile v s) := by
  unfold putVisit
  repeat' first
    | with_reducible assumption
    | (with_reducible refine modVigil_keeps ?_)

theorem bistFailed_keeps {s₀ s : State} {tile : Nat} {u : Nat × Nat} (hk : Keeps s₀ s) :
    Keeps s₀ (bistFailed tile u s) := by
  unfold bistFailed
  repeat' first
    | with_reducible assumption
    | (extract_lets +onlyGivenNames x; first
        | (refine keeps_cut (s₀ := s₀) (t := x) ?_ fun hx => ?_) <;> first | (revert hx; clear_value x; intro _) | subst x
        | clear_value x
        | subst x)
    | (with_reducible refine keeps_ite ?_ ?_)
    | (with_reducible refine modMere_keeps ?_)
    | (with_reducible refine failColumn_keeps ?_)
    | (with_reducible refine annal_keeps ?_)
    | (with_reducible refine bump_keeps ?_)
    | split

theorem stampTests_keeps {s₀ s : State} {die : Nat} {us : List (Nat × Nat)} (hk : Keeps s₀ s) :
    Keeps s₀ (stampTests die us s) := by
  unfold stampTests
  repeat' first
    | with_reducible assumption
    | (with_reducible refine modVigil_keeps ?_)
    | (with_reducible refine foldl_keeps (fun s x h => ?_) ?_)
    | (with_reducible refine foldl_pair_keeps (fun s x h => ?_) ?_)
    | (with_reducible refine foldl_fst_keeps (fun s x h => ?_) ?_)
    | dsimp only

theorem placeSwitch_keeps {s₀ s : State} {tile : Nat} {v : Visit} (hk : Keeps s₀ s) :
    Keeps s₀ (placeSwitch tile v s) := by
  unfold placeSwitch
  repeat' first
    | with_reducible assumption
    | (extract_lets +onlyGivenNames x; first
        | (refine keeps_cut (s₀ := s₀) (t := x) ?_ fun hx => ?_) <;> first | (revert hx; clear_value x; intro _) | subst x
        | (refine keeps_cut2 (s₀ := s₀) (t := x) ?_ fun hx => ?_) <;> first | (revert hx; clear_value x; intro _) | subst x
        | clear_value x
        | subst x)
    | (with_reducible refine keeps_ite ?_ ?_)
    | (with_reducible refine modArray_keeps ?_)
    | (with_reducible refine modMere_keeps ?_)
    | (with_reducible refine foldl_keeps (fun s x h => ?_) ?_)
    | (with_reducible refine foldl_pair_keeps (fun s x h => ?_) ?_)
    | (with_reducible refine foldl_fst_keeps (fun s x h => ?_) ?_)
    | dsimp only
    | split

end Sys2Proof.Machine
end

