-- ==== Sys2Proof/Laws/KeepsFirmware.lean ====
section
/-! SUPPORT. What the operations of Machine/Firmware.lean keep. -/

namespace Sys2Proof.Machine

open Sys2Proof

theorem writePackage_keeps {s₀ s : State} {f : Bytes} (hk : Keeps s₀ s) :
    Keeps s₀ (writePackage f s).2 := by
  unfold writePackage
  repeat' first
    | with_reducible assumption
    | (extract_lets +onlyGivenNames x; first
        | (refine keeps_cut (s₀ := s₀) (t := x) ?_ fun hx => ?_) <;> first | (revert hx; clear_value x; intro _) | subst x
        | (refine keeps_cut2 (s₀ := s₀) (t := x) ?_ fun hx => ?_) <;> first | (revert hx; clear_value x; intro _) | subst x
        | clear_value x
        | subst x)
    | (with_reducible refine keeps_ite2 ?_ ?_)
    | (with_reducible refine keeps_ite ?_ ?_)
    | (with_reducible refine modIsland_keeps ?_)
    | (with_reducible refine setFirmware_keeps ?_)
    | (with_reducible refine setCount_keeps ?_)
    | dsimp only
    | split

theorem startHubUpdate_keeps {s₀ s : State} (hk : Keeps s₀ s) :
    Keeps s₀ (startHubUpdate s) := by
  unfold startHubUpdate
  repeat' first
    | with_reducible assumption
    | (extract_lets +onlyGivenNames x; first
        | (refine keeps_cut (s₀ := s₀) (t := x) ?_ fun hx => ?_) <;> first | (revert hx; clear_value x; intro _) | subst x
        | clear_value x
        | subst x)
    | (with_reducible refine modHubs_keeps ?_)
    | (with_reducible refine modIsland_keeps ?_)
    | (with_reducible refine writeBoot_keeps ?_)
    | (with_reducible refine modHub_keeps ?_)
    | (with_reducible refine setFirmware_keeps ?_)
    | (with_reducible refine resumeCells_keeps ?_)
    | split

theorem firmwareCommand_keeps {s₀ s : State} {code : Nat} (hk : Keeps s₀ s) :
    Keeps s₀ (firmwareCommand code s).2 := by
  unfold firmwareCommand
  repeat' first
    | with_reducible assumption
    | (extract_lets +onlyGivenNames x; first
        | (refine keeps_cut (s₀ := s₀) (t := x) ?_ fun hx => ?_) <;> first | (revert hx; clear_value x; intro _) | subst x
        | (refine keeps_cut2 (s₀ := s₀) (t := x) ?_ fun hx => ?_) <;> first | (revert hx; clear_value x; intro _) | subst x
        | clear_value x
        | subst x)
    | (with_reducible refine keeps_ite2 ?_ ?_)
    | (with_reducible refine keeps_ite ?_ ?_)
    | (with_reducible refine modIsland_keeps ?_)
    | (with_reducible refine setCount_keeps ?_)
    | (with_reducible refine startHubUpdate_keeps ?_)
    | (with_reducible refine rechainVigil_keeps ?_)
    | (with_reducible refine setFirmware_keeps ?_)
    | dsimp only
    | split

theorem newHubVersion_keeps {s₀ s : State} {hub : Nat} (hk : Keeps s₀ s) :
    Keeps s₀ (newHubVersion hub s) := by
  unfold newHubVersion
  repeat' first
    | with_reducible assumption
    | (extract_lets +onlyGivenNames x; first
        | (refine keeps_cut (s₀ := s₀) (t := x) ?_ fun hx => ?_) <;> first | (revert hx; clear_value x; intro _) | subst x
        | clear_value x
        | subst x)
    | (with_reducible refine keeps_ite ?_ ?_)
    | (with_reducible refine drawn_keeps ?_)
    | (with_reducible refine setCount_keeps ?_)
    | split

end Sys2Proof.Machine
end

