-- ==== Sys2Proof/Laws/KeepsSupply.lean ====
section
/-! SUPPORT. What the operations of Machine/Supply.lean keep. -/

namespace Sys2Proof.Machine

open Sys2Proof

theorem powerRecord_keeps {s₀ s : State} {rail word : Nat} (hk : Keeps s₀ s) :
    Keeps s₀ (powerRecord rail word s) := by
  unfold powerRecord
  repeat' first
    | with_reducible assumption
    | (extract_lets +onlyGivenNames x; first
        | (refine keeps_cut (s₀ := s₀) (t := x) ?_ fun hx => ?_) <;> first | (revert hx; clear_value x; intro _) | subst x
        | clear_value x
        | subst x)
    | (with_reducible refine keeps_ite ?_ ?_)
    | (with_reducible refine modTele_keeps ?_)
    | (with_reducible refine bump_keeps ?_)
    | split

theorem assertPwrfail_keeps {s₀ s : State} (hk : Keeps s₀ s) :
    Keeps s₀ (assertPwrfail s) := by
  unfold assertPwrfail
  repeat' first
    | with_reducible assumption
    | (with_reducible refine keeps_ite ?_ ?_)
    | (with_reducible refine modTele_keeps ?_)
    | (with_reducible refine powerFail_keeps ?_)
    | split

theorem enterThermal_keeps {s₀ s : State} {st : Nat} {hot : Int} (hk : Keeps s₀ s) :
    Keeps s₀ (enterThermal st hot s) := by
  unfold enterThermal
  repeat' first
    | with_reducible assumption
    | (extract_lets +onlyGivenNames x; first
        | (refine keeps_cut (s₀ := s₀) (t := x) ?_ fun hx => ?_) <;> first | (revert hx; clear_value x; intro _) | subst x
        | clear_value x
        | subst x)
    | (with_reducible refine keeps_ite ?_ ?_)
    | (with_reducible refine modIsland_keeps ?_)
    | (with_reducible refine setCount_keeps ?_)
    | (with_reducible refine bump_keeps ?_)
    | (with_reducible refine annal_keeps ?_)
    | (with_reducible refine assertPwrfail_keeps ?_)
    | split

end Sys2Proof.Machine
end

