-- ==== Sys2Proof/Laws/KeepsDrop.lean ====
section
/-! SUPPORT. What the operations of Machine/Drop.lean keep. -/

namespace Sys2Proof.Machine

open Sys2Proof

theorem dropMain_keeps {s₀ s : State} (hk : Keeps s₀ s) : Keeps s₀ (dropMain s) :=
  ⟨hk.pending, fun c => by
    have h := hk.canonical c
    simp only [State.canonical, Mems.wf, Bool.and_eq_true] at h
    simp [State.canonical, Mems.wf, dropMain, h.2], hk.outs, hk.free⟩

theorem railsOff_keeps {s₀ s : State} (hk : Keeps s₀ s) :
    Keeps s₀ (railsOff s) := by
  unfold railsOff
  repeat' first
    | with_reducible assumption
    | (with_reducible refine modIsland_keeps ?_)

theorem toStandby_keeps {s₀ s : State} {cause : Nat} (hk : Keeps s₀ s) :
    Keeps s₀ (toStandby cause s) := by
  unfold toStandby
  repeat' first
    | with_reducible assumption
    | (with_reducible refine setDevState_keeps ?_)
    | (with_reducible refine railsOff_keeps ?_)
    | (with_reducible refine dropMain_keeps ?_)

theorem enableGroup_keeps {s₀ s : State} {g : Nat} (hk : Keeps s₀ s) :
    Keeps s₀ (enableGroup g s) := by
  unfold enableGroup
  repeat' first
    | with_reducible assumption
    | (extract_lets +onlyGivenNames x; first
        | (refine keeps_cut (s₀ := s₀) (t := x) ?_ fun hx => ?_) <;> first | (revert hx; clear_value x; intro _) | subst x
        | (refine keeps_cut2 (s₀ := s₀) (t := x) ?_ fun hx => ?_) <;> first | (revert hx; clear_value x; intro _) | subst x
        | clear_value x
        | subst x)
    | (with_reducible refine modIsland_keeps ?_)
    | (with_reducible refine foldl_keeps (fun s x h => ?_) ?_)
    | (with_reducible refine foldl_pair_keeps (fun s x h => ?_) ?_)
    | (with_reducible refine foldl_fst_keeps (fun s x h => ?_) ?_)
    | dsimp only

theorem powerOn_keeps {s₀ s : State} {cause : Nat} (hk : Keeps s₀ s) :
    Keeps s₀ (powerOn cause s) := by
  unfold powerOn
  repeat' first
    | with_reducible assumption
    | (with_reducible refine modIsland_keeps ?_)
    | (with_reducible refine enableGroup_keeps ?_)
    | (with_reducible refine setDevState_keeps ?_)

theorem rebootMain_keeps {s₀ s : State} {cause : Nat} (hk : Keeps s₀ s) :
    Keeps s₀ (rebootMain cause s) := by
  unfold rebootMain
  repeat' first
    | with_reducible assumption
    | (extract_lets +onlyGivenNames x; first
        | (refine keeps_cut (s₀ := s₀) (t := x) ?_ fun hx => ?_) <;> first | (revert hx; clear_value x; intro _) | subst x
        | clear_value x
        | subst x)
    | (with_reducible refine keeps_ite ?_ ?_)
    | (with_reducible refine modIsland_keeps ?_)
    | (with_reducible refine dropMain_keeps ?_)
    | (with_reducible refine setDevState_keeps ?_)
    | (with_reducible refine powerOn_keeps ?_)
    | (with_reducible refine railsOff_keeps ?_)
    | split

end Sys2Proof.Machine
end

