-- ==== Sys2Proof/Laws/KeepsLifeCycle.lean ====
section
/-! SUPPORT. What the operations of Machine/LifeCycle.lean keep. -/

namespace Sys2Proof.Machine

open Sys2Proof

theorem newChallenge_keeps {s₀ s : State} (hk : Keeps s₀ s) :
    Keeps s₀ (newChallenge s) := by
  unfold newChallenge
  repeat' first
    | with_reducible assumption
    | (with_reducible refine drawn_keeps ?_)
    | (with_reducible refine setCount_keeps ?_)

theorem clearSteps_keeps {s₀ s : State} {steps : Nat} (hk : Keeps s₀ s) :
    Keeps s₀ (clearSteps steps s) := by
  unfold clearSteps
  repeat' first
    | with_reducible assumption
    | (extract_lets +onlyGivenNames x; first
        | (refine keeps_cut (s₀ := s₀) (t := x) ?_ fun hx => ?_) <;> first | (revert hx; clear_value x; intro _) | subst x
        | clear_value x
        | subst x)
    | (with_reducible refine keeps_ite ?_ ?_)
    | (with_reducible refine modDict_keeps ?_)
    | (with_reducible refine modMire_keeps ?_)
    | (with_reducible refine modData_keeps ?_)
    | (with_reducible refine modIsland_keeps ?_)
    | (with_reducible refine modMem_keeps (fun m hm => by simp_all [Mems.wf]) ?_)
    | (with_reducible refine setCount_keeps ?_)
    | split

theorem enterLife_keeps {s₀ s : State} {target : Nat} (hk : Keeps s₀ s) :
    Keeps s₀ (enterLife target s) := by
  unfold enterLife
  repeat' first
    | with_reducible assumption
    | (extract_lets +onlyGivenNames x; first
        | (refine keeps_cut (s₀ := s₀) (t := x) ?_ fun hx => ?_) <;> first | (revert hx; clear_value x; intro _) | subst x
        | clear_value x
        | subst x)
    | (with_reducible refine keeps_ite ?_ ?_)
    | (with_reducible refine modIsland_keeps ?_)
    | (with_reducible refine setCount_keeps ?_)
    | (with_reducible refine annal_keeps ?_)
    | (with_reducible refine newChallenge_keeps ?_)
    | split

theorem finishClear_keeps {s₀ s : State} {target : Nat} (hk : Keeps s₀ s) :
    Keeps s₀ (finishClear target s) := by
  unfold finishClear
  repeat' first
    | with_reducible assumption
    | (extract_lets +onlyGivenNames x; first
        | (refine keeps_cut (s₀ := s₀) (t := x) ?_ fun hx => ?_) <;> first | (revert hx; clear_value x; intro _) | subst x
        | clear_value x
        | subst x)
    | (with_reducible refine keeps_ite ?_ ?_)
    | (with_reducible refine enterLife_keeps ?_)
    | (with_reducible refine toStandby_keeps ?_)
    | (with_reducible refine rebootMain_keeps ?_)
    | split

theorem clearTo_keeps {s₀ s : State} {target steps : Nat} (hk : Keeps s₀ s) :
    Keeps s₀ (clearTo target steps s) := by
  unfold clearTo
  repeat' first
    | with_reducible assumption
    | (extract_lets +onlyGivenNames x; first
        | (refine keeps_cut (s₀ := s₀) (t := x) ?_ fun hx => ?_) <;> first | (revert hx; clear_value x; intro _) | subst x
        | clear_value x
        | subst x)
    | (with_reducible refine keeps_ite ?_ ?_)
    | (with_reducible refine finishClear_keeps ?_)
    | (with_reducible refine clearSteps_keeps ?_)
    | split

theorem lifeCommand_keeps {s₀ s : State} {pa : Path} {target : Nat} {tokenOk : Bool} {steps : Nat} (hk : Keeps s₀ s) :
    Keeps s₀ (lifeCommand pa target tokenOk steps s).2 := by
  unfold lifeCommand
  repeat' first
    | with_reducible assumption
    | (extract_lets +onlyGivenNames x; first
        | (refine keeps_cut (s₀ := s₀) (t := x) ?_ fun hx => ?_) <;> first | (revert hx; clear_value x; intro _) | subst x
        | (refine keeps_cut2 (s₀ := s₀) (t := x) ?_ fun hx => ?_) <;> first | (revert hx; clear_value x; intro _) | subst x
        | clear_value x
        | subst x)
    | (with_reducible refine keeps_ite2 ?_ ?_)
    | (with_reducible refine keeps_ite ?_ ?_)
    | (with_reducible refine bump_keeps ?_)
    | (with_reducible refine clearTo_keeps ?_)
    | (with_reducible refine enterLife_keeps ?_)
    | dsimp only
    | split

theorem scrapArm_keeps {s₀ s : State} {v : Nat} (hk : Keeps s₀ s) :
    Keeps s₀ (scrapArm v s).2 := by
  unfold scrapArm
  repeat' first
    | with_reducible assumption
    | (with_reducible refine keeps_ite2 ?_ ?_)
    | (with_reducible refine keeps_ite ?_ ?_)
    | (with_reducible refine modIsland_keeps ?_)
    | dsimp only
    | split

theorem writeMinSvn_keeps {s₀ s : State} {v : Nat} (hk : Keeps s₀ s) :
    Keeps s₀ (writeMinSvn v s).2 := by
  unfold writeMinSvn
  repeat' first
    | with_reducible assumption
    | (with_reducible refine keeps_ite2 ?_ ?_)
    | (with_reducible refine keeps_ite ?_ ?_)
    | (with_reducible refine setCount_keeps ?_)
    | dsimp only
    | split

theorem revokeKeys_keeps {s₀ s : State} {v : Nat} (hk : Keeps s₀ s) :
    Keeps s₀ (revokeKeys v s).2 := by
  unfold revokeKeys
  repeat' first
    | with_reducible assumption
    | (extract_lets +onlyGivenNames x; first
        | (refine keeps_cut (s₀ := s₀) (t := x) ?_ fun hx => ?_) <;> first | (revert hx; clear_value x; intro _) | subst x
        | (refine keeps_cut2 (s₀ := s₀) (t := x) ?_ fun hx => ?_) <;> first | (revert hx; clear_value x; intro _) | subst x
        | clear_value x
        | subst x)
    | (with_reducible refine keeps_ite2 ?_ ?_)
    | (with_reducible refine keeps_ite ?_ ?_)
    | (with_reducible refine setCount_keeps ?_)
    | dsimp only
    | split

theorem writeSideKey_keeps {s₀ s : State} {key : Bytes} (hk : Keeps s₀ s) :
    Keeps s₀ (writeSideKey key s).2 := by
  unfold writeSideKey
  repeat' first
    | with_reducible assumption
    | (extract_lets +onlyGivenNames x; first
        | (refine keeps_cut (s₀ := s₀) (t := x) ?_ fun hx => ?_) <;> first | (revert hx; clear_value x; intro _) | subst x
        | (refine keeps_cut2 (s₀ := s₀) (t := x) ?_ fun hx => ?_) <;> first | (revert hx; clear_value x; intro _) | subst x
        | clear_value x
        | subst x)
    | (with_reducible refine keeps_ite2 ?_ ?_)
    | (with_reducible refine keeps_ite ?_ ?_)
    | (with_reducible refine modIsland_keeps ?_)
    | (with_reducible refine installKeyAt_keeps ?_)
    | (with_reducible refine setCount_keeps ?_)
    | dsimp only
    | split

theorem writeNonce_keeps {s₀ s : State} {n : Bytes} (hk : Keeps s₀ s) :
    Keeps s₀ (writeNonce n s) := by
  unfold writeNonce
  repeat' first
    | with_reducible assumption
    | (with_reducible refine modIsland_keeps ?_)

end Sys2Proof.Machine
end

