-- ==== Sys2Proof/Laws/KeepsTelemetry.lean ====
section
/-! SUPPORT. What the operations of Machine/Telemetry.lean keep. -/

namespace Sys2Proof.Machine

open Sys2Proof

theorem keepPost_keeps {s₀ s : State} {h : Nat} {r : TraceRecord} (hk : Keeps s₀ s) :
    Keeps s₀ (keepPost h r s) := by
  unfold keepPost
  repeat' first
    | with_reducible assumption
    | (extract_lets +onlyGivenNames x; first
        | (refine keeps_cut (s₀ := s₀) (t := x) ?_ fun hx => ?_) <;> first | (revert hx; clear_value x; intro _) | subst x
        | clear_value x
        | subst x)
    | (with_reducible refine keeps_ite ?_ ?_)
    | (with_reducible refine modLantern_keeps ?_)
    | (with_reducible refine bump_keeps ?_)
    | split

theorem triggerRecord_keeps {s₀ s : State} {h : Nat} {r : TraceRecord} (hk : Keeps s₀ s) :
    Keeps s₀ (triggerRecord h r s) := by
  unfold triggerRecord
  repeat' first
    | with_reducible assumption
    | (with_reducible refine keepPost_keeps ?_)
    | (with_reducible refine modLantern_keeps ?_)

theorem lanternTake_keeps {s₀ s : State} {h : Nat} {r : TraceRecord} (hk : Keeps s₀ s) :
    Keeps s₀ (lanternTake h r s) := by
  unfold lanternTake
  repeat' first
    | with_reducible assumption
    | (extract_lets +onlyGivenNames x; first
        | (refine keeps_cut (s₀ := s₀) (t := x) ?_ fun hx => ?_) <;> first | (revert hx; clear_value x; intro _) | subst x
        | (refine keeps_cutF (s₀ := s₀) (t := x) ?_ fun hx => ?_) <;> first | (revert hx; clear_value x; intro hF) | subst x
        | (refine keeps_cutG (s₀ := s₀) (t := x) ?_ fun hx => ?_) <;> first | (revert hx; clear_value x; intro hF) | subst x
        | (refine keeps_cutH (s₀ := s₀) (t := x) ?_ fun hx => ?_) <;> first | (revert hx; clear_value x; intro hF) | subst x
        | clear_value x
        | subst x)
    | (refine fun a b (y : State) (hy : Keeps s₀ y) => ?_; try dsimp only)
    | (refine fun a (y : State) (hy : Keeps s₀ y) => ?_; try dsimp only)
    | (refine fun (y : State) (hy : Keeps s₀ y) => ?_; try dsimp only)
    | (with_reducible refine keeps_ite ?_ ?_)
    | (with_reducible refine modLantern_keeps ?_)
    | (with_reducible refine idle_keeps ?_)
    | (with_reducible refine triggerRecord_keeps ?_)
    | (with_reducible refine keepPost_keeps ?_)
    | (with_reducible refine bump_keeps ?_)
    | (with_reducible refine hF _ _ _ ?_)
    | (with_reducible refine hF _ _ ?_)
    | (with_reducible refine hF _ ?_)
    | (with_reducible refine (‹∀ y, Keeps s₀ y → Keeps s₀ _›) _ ?_)
    | (with_reducible refine (‹∀ a y, Keeps s₀ y → Keeps s₀ _›) _ _ ?_)
    | (with_reducible refine (‹∀ a b y, Keeps s₀ y → Keeps s₀ _›) _ _ _ ?_)
    | split

theorem lanternArm_keeps {s₀ s : State} {h : Nat} (hk : Keeps s₀ s) :
    Keeps s₀ (lanternArm h s).2 := by
  unfold lanternArm
  repeat' first
    | with_reducible assumption
    | (extract_lets +onlyGivenNames x; first
        | (refine keeps_cut (s₀ := s₀) (t := x) ?_ fun hx => ?_) <;> first | (revert hx; clear_value x; intro _) | subst x
        | (refine keeps_cut2 (s₀ := s₀) (t := x) ?_ fun hx => ?_) <;> first | (revert hx; clear_value x; intro _) | subst x
        | clear_value x
        | subst x)
    | (with_reducible refine keeps_ite2 ?_ ?_)
    | (with_reducible refine keeps_ite ?_ ?_)
    | (with_reducible refine idle_keeps ?_)
    | (with_reducible refine modLantern_keeps ?_)
    | dsimp only
    | split

theorem lanternDisarm_keeps {s₀ s : State} {h : Nat} (hk : Keeps s₀ s) :
    Keeps s₀ (lanternDisarm h s).2 := by
  unfold lanternDisarm
  repeat' first
    | with_reducible assumption
    | (with_reducible refine keeps_ite2 ?_ ?_)
    | (with_reducible refine keeps_ite ?_ ?_)
    | (with_reducible refine idle_keeps ?_)
    | (with_reducible refine modLantern_keeps ?_)
    | dsimp only
    | split

theorem lanternRearm_keeps {s₀ s : State} {h : Nat} (hk : Keeps s₀ s) :
    Keeps s₀ (lanternRearm h s).2 := by
  unfold lanternRearm
  repeat' first
    | with_reducible assumption
    | (with_reducible refine keeps_ite2 ?_ ?_)
    | (with_reducible refine keeps_ite ?_ ?_)
    | (with_reducible refine modLantern_keeps ?_)
    | dsimp only
    | split

theorem lanternTrigger_keeps {s₀ s : State} {h : Nat} (hk : Keeps s₀ s) :
    Keeps s₀ (lanternTrigger h s).2 := by
  unfold lanternTrigger
  repeat' first
    | with_reducible assumption
    | (with_reducible refine keeps_ite2 ?_ ?_)
    | (with_reducible refine keeps_ite ?_ ?_)
    | (with_reducible refine triggerRecord_keeps ?_)
    | dsimp only
    | split

theorem lanternCommand_keeps {s₀ s : State} {h code : Nat} (hk : Keeps s₀ s) :
    Keeps s₀ (lanternCommand h code s).2 := by
  unfold lanternCommand
  repeat' first
    | with_reducible assumption
    | (with_reducible refine keeps_ite2 ?_ ?_)
    | (with_reducible refine keeps_ite ?_ ?_)
    | (with_reducible refine lanternArm_keeps ?_)
    | (with_reducible refine keeps_of_pair (lanternArm_keeps ?_) ‹_›)
    | (with_reducible refine lanternDisarm_keeps ?_)
    | (with_reducible refine keeps_of_pair (lanternDisarm_keeps ?_) ‹_›)
    | (with_reducible refine lanternRearm_keeps ?_)
    | (with_reducible refine keeps_of_pair (lanternRearm_keeps ?_) ‹_›)
    | (with_reducible refine lanternTrigger_keeps ?_)
    | (with_reducible refine keeps_of_pair (lanternTrigger_keeps ?_) ‹_›)
    | dsimp only
    | split

theorem lanternMarker_keeps {s₀ s : State} {h v : Nat} (hk : Keeps s₀ s) :
    Keeps s₀ (lanternMarker h v s) := by
  unfold lanternMarker
  repeat' first
    | with_reducible assumption
    | (with_reducible refine traceTo_keeps ?_)

theorem clearAlarms_keeps {s₀ s : State} {v : Nat} (hk : Keeps s₀ s) :
    Keeps s₀ (clearAlarms v s) := by
  unfold clearAlarms
  repeat' first
    | with_reducible assumption
    | (with_reducible refine modTele_keeps ?_)

end Sys2Proof.Machine
end

