-- ==== Sys2Proof/Laws/KeepsDict.lean ====
section
/-! SUPPORT. What the operations of Machine/Dict.lean keep. -/

namespace Sys2Proof.Machine

open Sys2Proof

theorem objectWrite_keeps {s₀ s : State} {pa : Path} {r : ObjRef} {v : Nat} {eff : State → Status × State} (heff : ∀ s, Keeps s₀ s → Keeps s₀ (eff s).2) (hk : Keeps s₀ s) :
    Keeps s₀ (objectWrite pa r v eff s).2 := by
  unfold objectWrite
  repeat' first
    | with_reducible assumption
    | (with_reducible refine keeps_ite2 ?_ ?_)
    | (with_reducible refine keeps_ite ?_ ?_)
    | (refine heff _ ?_)
    | dsimp only
    | split

theorem domainWrite_keeps {s₀ s : State} {pa : Path} {r : ObjRef} {n : Nat} {eff : State → Status × State} (heff : ∀ s, Keeps s₀ s → Keeps s₀ (eff s).2) (hk : Keeps s₀ s) :
    Keeps s₀ (domainWrite pa r n eff s).2 := by
  unfold domainWrite
  repeat' first
    | with_reducible assumption
    | (with_reducible refine keeps_ite2 ?_ ?_)
    | (with_reducible refine keeps_ite ?_ ?_)
    | (refine heff _ ?_)
    | dsimp only
    | split

theorem dropTransfer_keeps {s₀ s : State} {pa : Path} (hk : Keeps s₀ s) :
    Keeps s₀ (dropTransfer pa s) := by
  unfold dropTransfer
  repeat' first
    | with_reducible assumption
    | (with_reducible refine modDict_keeps ?_)

theorem modMbox_keeps {s₀ s : State} {port m : Nat} {f : Mailbox → Mailbox} (hk : Keeps s₀ s) :
    Keeps s₀ (modMbox port m f s) := by
  unfold modMbox
  repeat' first
    | with_reducible assumption
    | (with_reducible refine modDict_keeps ?_)

theorem finishMailbox_keeps {s₀ s : State} {port m : Nat} {r : Reply} (hk : Keeps s₀ s) :
    Keeps s₀ (finishMailbox port m r s) := by
  unfold finishMailbox
  repeat' first
    | with_reducible assumption
    | (with_reducible refine keeps_ite ?_ ?_)
    | (with_reducible refine sendVector_keeps ?_)
    | (with_reducible refine modMbox_keeps ?_)
    | split

theorem answer_keeps {s₀ s : State} {pa : Path} {r : Reply} (hk : Keeps s₀ s) :
    Keeps s₀ (answer pa r s) := by
  unfold answer
  repeat' first
    | with_reducible assumption
    | (with_reducible refine keeps_ite ?_ ?_)
    | (with_reducible refine finishMailbox_keeps ?_)
    | (with_reducible refine emit_keeps ?_)
    | (with_reducible refine sendFlit_keeps ?_)
    | split

theorem execute_keeps {s₀ s : State} {pa : Path} {run : State → Reply × State} (hrun : ∀ s, Keeps s₀ s → Keeps s₀ (run s).2) (hk : Keeps s₀ s) :
    Keeps s₀ (execute pa run s) := by
  unfold execute
  repeat' first
    | with_reducible assumption
    | (extract_lets +onlyGivenNames x; first
        | (refine keeps_cut (s₀ := s₀) (t := x) ?_ fun hx => ?_) <;> first | (revert hx; clear_value x; intro _) | subst x
        | (refine keeps_cut2 (s₀ := s₀) (t := x) ?_ fun hx => ?_) <;> first | (revert hx; clear_value x; intro _) | subst x
        | clear_value x
        | subst x)
    | (with_reducible refine settle_keeps ?_)
    | (with_reducible refine answer_keeps ?_)
    | (refine hrun _ ?_)

theorem route_keeps {s₀ s : State} {pa : Path} {m : Msg} {recovery write : Bool} {run : State → Reply × State} (hrun : ∀ s, Keeps s₀ s → Keeps s₀ (run s).2) (hk : Keeps s₀ s) :
    Keeps s₀ (route pa m recovery write run s) := by
  unfold route
  repeat' first
    | with_reducible assumption
    | (with_reducible refine keeps_ite ?_ ?_)
    | (with_reducible refine modDict_keeps ?_)
    | (with_reducible refine answer_keeps ?_)
    | (with_reducible refine execute_keeps (fun s h => ?_) ?_)
    | (refine hrun _ ?_)
    | split

theorem commandRow_keeps {s₀ s : State} {pa : Path} {tag : Nat} {r : ObjRef} {v : Nat} {eff : State → Status × State} (heff : ∀ s, Keeps s₀ s → Keeps s₀ (eff s).2) (hk : Keeps s₀ s) :
    Keeps s₀ (commandRow pa tag r v eff s) := by
  unfold commandRow
  repeat' first
    | with_reducible assumption
    | (extract_lets +onlyGivenNames x; first
        | (refine keeps_cut (s₀ := s₀) (t := x) ?_ fun hx => ?_) <;> first | (revert hx; clear_value x; intro _) | subst x
        | (refine keeps_cut2 (s₀ := s₀) (t := x) ?_ fun hx => ?_) <;> first | (revert hx; clear_value x; intro _) | subst x
        | clear_value x
        | subst x)
    | (with_reducible refine route_keeps (fun s h => ?_) ?_)
    | (with_reducible refine objectWrite_keeps (fun s h => ?_) ?_)
    | (with_reducible refine keeps_of_pair (objectWrite_keeps (fun s h => ?_) ?_) ‹_›)
    | (refine heff _ ?_)
    | dsimp only

theorem domainRow_keeps {s₀ s : State} {pa : Path} {tag : Nat} {r : ObjRef} {data : Bytes} {eff : State → Status × State} (heff : ∀ s, Keeps s₀ s → Keeps s₀ (eff s).2) (hk : Keeps s₀ s) :
    Keeps s₀ (domainRow pa tag r data eff s) := by
  unfold domainRow
  repeat' first
    | with_reducible assumption
    | (extract_lets +onlyGivenNames x; first
        | (refine keeps_cut (s₀ := s₀) (t := x) ?_ fun hx => ?_) <;> first | (revert hx; clear_value x; intro _) | subst x
        | (refine keeps_cut2 (s₀ := s₀) (t := x) ?_ fun hx => ?_) <;> first | (revert hx; clear_value x; intro _) | subst x
        | clear_value x
        | subst x)
    | (with_reducible refine route_keeps (fun s h => ?_) ?_)
    | (with_reducible refine domainWrite_keeps (fun s h => ?_) ?_)
    | (with_reducible refine keeps_of_pair (domainWrite_keeps (fun s h => ?_) ?_) ‹_›)
    | (with_reducible refine dropTransfer_keeps ?_)
    | (refine heff _ ?_)
    | dsimp only

theorem lockObject_keeps {s₀ s : State} {pa : Path} {idx sub : Nat} (hk : Keeps s₀ s) :
    Keeps s₀ (lockObject pa idx sub s).2 := by
  unfold lockObject
  repeat' first
    | with_reducible assumption
    | (with_reducible refine keeps_ite2 ?_ ?_)
    | (with_reducible refine keeps_ite ?_ ?_)
    | (with_reducible refine modDict_keeps ?_)
    | dsimp only
    | split

theorem unlockObject_keeps {s₀ s : State} {pa : Path} {idx sub : Nat} (hk : Keeps s₀ s) :
    Keeps s₀ (unlockObject pa idx sub s).2 := by
  unfold unlockObject
  repeat' first
    | with_reducible assumption
    | (with_reducible refine modDict_keeps ?_)
    | dsimp only
    | split

theorem storeConfig_keeps {s₀ s : State} {norOk : Bool} (hk : Keeps s₀ s) :
    Keeps s₀ (storeConfig norOk s).2 := by
  unfold storeConfig
  repeat' first
    | with_reducible assumption
    | (extract_lets +onlyGivenNames x; first
        | (refine keeps_cut (s₀ := s₀) (t := x) ?_ fun hx => ?_) <;> first | (revert hx; clear_value x; intro _) | subst x
        | (refine keeps_cut2 (s₀ := s₀) (t := x) ?_ fun hx => ?_) <;> first | (revert hx; clear_value x; intro _) | subst x
        | clear_value x
        | subst x)
    | (with_reducible refine keeps_ite2 ?_ ?_)
    | (with_reducible refine keeps_ite ?_ ?_)
    | (with_reducible refine modDict_keeps ?_)
    | dsimp only
    | split

theorem restoreDefaults_keeps {s₀ s : State} {norOk : Bool} (hk : Keeps s₀ s) :
    Keeps s₀ (restoreDefaults norOk s).2 := by
  unfold restoreDefaults
  repeat' first
    | with_reducible assumption
    | (with_reducible refine keeps_ite2 ?_ ?_)
    | (with_reducible refine keeps_ite ?_ ?_)
    | (with_reducible refine modDict_keeps ?_)
    | dsimp only
    | split

theorem wholeStore_keeps {s₀ s : State} {pa : Path} {eff : State → Status × State} (heff : ∀ s, Keeps s₀ s → Keeps s₀ (eff s).2) (hk : Keeps s₀ s) :
    Keeps s₀ (wholeStore pa eff s).2 := by
  unfold wholeStore
  repeat' first
    | with_reducible assumption
    | (refine heff _ ?_)
    | dsimp only
    | split

end Sys2Proof.Machine
end

