-- ==== Sys2Proof/Laws/KeepsWrites.lean ====
section
/-! SUPPORT. What the operations of Machine/Writes.lean keep. -/

namespace Sys2Proof.Machine

open Sys2Proof

theorem clearControl_keeps {s₀ s : State} (hk : Keeps s₀ s) :
    Keeps s₀ (clearControl s) := by
  unfold clearControl
  repeat' first
    | with_reducible assumption
    | (with_reducible refine modDict_keeps ?_)

theorem abortTest_keeps {s₀ s : State} (hk : Keeps s₀ s) :
    Keeps s₀ (abortTest s) := by
  unfold abortTest
  repeat' first
    | with_reducible assumption
    | (with_reducible refine keeps_ite ?_ ?_)
    | (with_reducible refine modIsland_keeps ?_)
    | (with_reducible refine setCount_keeps ?_)
    | split

theorem devPowerOn_keeps {s₀ s : State} (hk : Keeps s₀ s) :
    Keeps s₀ (devPowerOn s).2 := by
  unfold devPowerOn
  repeat' first
    | with_reducible assumption
    | (with_reducible refine keeps_ite2 ?_ ?_)
    | (with_reducible refine keeps_ite ?_ ?_)
    | (with_reducible refine powerOn_keeps ?_)
    | dsimp only
    | split

theorem devServe_keeps {s₀ s : State} (hk : Keeps s₀ s) :
    Keeps s₀ (devServe s).2 := by
  unfold devServe
  repeat' first
    | with_reducible assumption
    | (with_reducible refine keeps_ite2 ?_ ?_)
    | (with_reducible refine keeps_ite ?_ ?_)
    | (with_reducible refine setDevState_keeps ?_)
    | dsimp only
    | split

theorem devDrain_keeps {s₀ s : State} (hk : Keeps s₀ s) :
    Keeps s₀ (devDrain s).2 := by
  unfold devDrain
  repeat' first
    | with_reducible assumption
    | (with_reducible refine drainDone_keeps ?_)
    | (with_reducible refine setDevState_keeps ?_)
    | dsimp only

theorem devRecover_keeps {s₀ s : State} (hk : Keeps s₀ s) :
    Keeps s₀ (devRecover s).2 := by
  unfold devRecover
  repeat' first
    | with_reducible assumption
    | (with_reducible refine abortTest_keeps ?_)
    | (with_reducible refine clearControl_keeps ?_)
    | (with_reducible refine setDevState_keeps ?_)
    | dsimp only

theorem devCommand_keeps {s₀ s : State} {code : Nat} (hk : Keeps s₀ s) :
    Keeps s₀ (devCommand code s).2 := by
  unfold devCommand
  repeat' first
    | with_reducible assumption
    | (with_reducible refine keeps_ite2 ?_ ?_)
    | (with_reducible refine keeps_ite ?_ ?_)
    | (with_reducible refine devPowerOn_keeps ?_)
    | (with_reducible refine keeps_of_pair (devPowerOn_keeps ?_) ‹_›)
    | (with_reducible refine devServe_keeps ?_)
    | (with_reducible refine keeps_of_pair (devServe_keeps ?_) ‹_›)
    | (with_reducible refine devDrain_keeps ?_)
    | (with_reducible refine keeps_of_pair (devDrain_keeps ?_) ‹_›)
    | (with_reducible refine setDevState_keeps ?_)
    | (with_reducible refine abortTest_keeps ?_)
    | (with_reducible refine devRecover_keeps ?_)
    | (with_reducible refine keeps_of_pair (devRecover_keeps ?_) ‹_›)
    | (with_reducible refine rebootMain_keeps ?_)
    | (with_reducible refine toStandby_keeps ?_)
    | dsimp only
    | split

theorem driverRange_keeps {s₀ s : State} {port v : Nat} (hk : Keeps s₀ s) :
    Keeps s₀ (driverRange port v s).2 := by
  unfold driverRange
  repeat' first
    | with_reducible assumption
    | (extract_lets +onlyGivenNames x; first
        | (refine keeps_cut (s₀ := s₀) (t := x) ?_ fun hx => ?_) <;> first | (revert hx; clear_value x; intro _) | subst x
        | (refine keeps_cut2 (s₀ := s₀) (t := x) ?_ fun hx => ?_) <;> first | (revert hx; clear_value x; intro _) | subst x
        | clear_value x
        | subst x)
    | (with_reducible refine keeps_ite2 ?_ ?_)
    | (with_reducible refine keeps_ite ?_ ?_)
    | (with_reducible refine setCount_keeps ?_)
    | (with_reducible refine setRw_keeps ?_)
    | dsimp only
    | split

theorem clearLocks_keeps {s₀ s : State} {v : Nat} (hk : Keeps s₀ s) :
    Keeps s₀ (clearLocks v s).2 := by
  unfold clearLocks
  repeat' first
    | with_reducible assumption
    | (with_reducible refine keeps_ite2 ?_ ?_)
    | (with_reducible refine keeps_ite ?_ ?_)
    | (with_reducible refine modDict_keeps ?_)
    | dsimp only
    | split

theorem writeRole_keeps {s₀ s : State} {v : Nat} (hk : Keeps s₀ s) :
    Keeps s₀ (writeRole v s).2 := by
  unfold writeRole
  repeat' first
    | with_reducible assumption
    | (with_reducible refine keeps_ite2 ?_ ?_)
    | (with_reducible refine keeps_ite ?_ ?_)
    | (with_reducible refine setRw_keeps ?_)
    | dsimp only
    | split

theorem writeEnable_keeps {s₀ s : State} {p v : Nat} (hk : Keeps s₀ s) :
    Keeps s₀ (writeEnable p v s).2 := by
  unfold writeEnable
  repeat' first
    | with_reducible assumption
    | (with_reducible refine keeps_ite2 ?_ ?_)
    | (with_reducible refine keeps_ite ?_ ?_)
    | (with_reducible refine setRw_keeps ?_)
    | dsimp only
    | split

theorem writeInstant_keeps {s₀ s : State} {p sl sub v : Nat} (hk : Keeps s₀ s) :
    Keeps s₀ (writeInstant p sl sub v s).2 := by
  unfold writeInstant
  repeat' first
    | with_reducible assumption
    | (extract_lets +onlyGivenNames x; first
        | (refine keeps_cut (s₀ := s₀) (t := x) ?_ fun hx => ?_) <;> first | (revert hx; clear_value x; intro _) | subst x
        | (refine keeps_cut2 (s₀ := s₀) (t := x) ?_ fun hx => ?_) <;> first | (revert hx; clear_value x; intro _) | subst x
        | clear_value x
        | subst x)
    | (with_reducible refine keeps_ite2 ?_ ?_)
    | (with_reducible refine keeps_ite ?_ ?_)
    | (with_reducible refine setRw_keeps ?_)
    | (with_reducible refine redirectEntry_keeps ?_)
    | dsimp only
    | split

theorem inStaged_keeps {s₀ s : State} {p sl : Nat} {eff : State → State} (heff : ∀ s, Keeps s₀ s → Keeps s₀ (eff s)) (hk : Keeps s₀ s) :
    Keeps s₀ (inStaged p sl eff s).2 := by
  unfold inStaged
  repeat' first
    | with_reducible assumption
    | (with_reducible refine keeps_ite2 ?_ ?_)
    | (with_reducible refine keeps_ite ?_ ?_)
    | (refine heff _ ?_)
    | dsimp only
    | split

theorem boundedWrite_keeps {s₀ s : State} {idx sub v : Nat} (hk : Keeps s₀ s) :
    Keeps s₀ (boundedWrite idx sub v s).2 := by
  unfold boundedWrite
  repeat' first
    | with_reducible assumption
    | (extract_lets +onlyGivenNames x; first
        | (refine keeps_cut (s₀ := s₀) (t := x) ?_ fun hx => ?_) <;> first | (revert hx; clear_value x; intro _) | subst x
        | (refine keeps_cut2 (s₀ := s₀) (t := x) ?_ fun hx => ?_) <;> first | (revert hx; clear_value x; intro _) | subst x
        | clear_value x
        | subst x)
    | (with_reducible refine keeps_ite2 ?_ ?_)
    | (with_reducible refine keeps_ite ?_ ?_)
    | (with_reducible refine setRw_keeps ?_)
    | dsimp only
    | split

theorem exchangeTerm_keeps {s₀ s : State} {sub v : Nat} (hk : Keeps s₀ s) :
    Keeps s₀ (exchangeTerm sub v s).2 := by
  unfold exchangeTerm
  repeat' first
    | with_reducible assumption
    | (extract_lets +onlyGivenNames x; first
        | (refine keeps_cut (s₀ := s₀) (t := x) ?_ fun hx => ?_) <;> first | (revert hx; clear_value x; intro _) | subst x
        | (refine keeps_cut2 (s₀ := s₀) (t := x) ?_ fun hx => ?_) <;> first | (revert hx; clear_value x; intro _) | subst x
        | clear_value x
        | subst x)
    | (with_reducible refine keeps_ite2 ?_ ?_)
    | (with_reducible refine keeps_ite ?_ ?_)
    | (with_reducible refine setRw_keeps ?_)
    | dsimp only
    | split

theorem writeStaleness_keeps {s₀ s : State} {p v : Nat} (hk : Keeps s₀ s) :
    Keeps s₀ (writeStaleness p v s).2 := by
  unfold writeStaleness
  repeat' first
    | with_reducible assumption
    | (with_reducible refine keeps_ite2 ?_ ?_)
    | (with_reducible refine keeps_ite ?_ ?_)
    | (with_reducible refine setRw_keeps ?_)
    | dsimp only
    | split

theorem writeReserve_keeps {s₀ s : State} {p v : Nat} (hk : Keeps s₀ s) :
    Keeps s₀ (writeReserve p v s).2 := by
  unfold writeReserve
  repeat' first
    | with_reducible assumption
    | (with_reducible refine keeps_ite2 ?_ ?_)
    | (with_reducible refine keeps_ite ?_ ?_)
    | (with_reducible refine setRw_keeps ?_)
    | dsimp only
    | split

theorem onTrue_keeps {s₀ s : State} {v : Nat} {eff : State → Status × State} (heff : ∀ s, Keeps s₀ s → Keeps s₀ (eff s).2) (hk : Keeps s₀ s) :
    Keeps s₀ (onTrue v eff s).2 := by
  unfold onTrue
  repeat' first
    | with_reducible assumption
    | (with_reducible refine keeps_ite2 ?_ ?_)
    | (with_reducible refine keeps_ite ?_ ?_)
    | (refine heff _ ?_)
    | dsimp only
    | split

theorem indexCommand_keeps {s₀ s : State} {k code : Nat} (hk : Keeps s₀ s) :
    Keeps s₀ (indexCommand k code s).2 := by
  unfold indexCommand
  repeat' first
    | with_reducible assumption
    | (with_reducible refine keeps_ite2 ?_ ?_)
    | (with_reducible refine keeps_ite ?_ ?_)
    | (with_reducible refine indexCreate_keeps ?_)
    | (with_reducible refine keeps_of_pair (indexCreate_keeps ?_) ‹_›)
    | (with_reducible refine indexSeal_keeps ?_)
    | (with_reducible refine keeps_of_pair (indexSeal_keeps ?_) ‹_›)
    | (with_reducible refine indexDestroy_keeps ?_)
    | (with_reducible refine keeps_of_pair (indexDestroy_keeps ?_) ‹_›)
    | (with_reducible refine indexReindex_keeps ?_)
    | (with_reducible refine keeps_of_pair (indexReindex_keeps ?_) ‹_›)
    | dsimp only
    | split

theorem indexAttr_keeps {s₀ s : State} {k idx sub v : Nat} (hk : Keeps s₀ s) :
    Keeps s₀ (indexAttr k idx sub v s).2 := by
  unfold indexAttr
  repeat' first
    | with_reducible assumption
    | (with_reducible refine keeps_ite2 ?_ ?_)
    | (with_reducible refine keeps_ite ?_ ?_)
    | (with_reducible refine setRw_keeps ?_)
    | dsimp only
    | split

theorem indexBook_keeps {s₀ s : State} {k idx sub v : Nat} (hk : Keeps s₀ s) :
    Keeps s₀ (indexBook k idx sub v s).2 := by
  unfold indexBook
  repeat' first
    | with_reducible assumption
    | (with_reducible refine keeps_ite2 ?_ ?_)
    | (with_reducible refine keeps_ite ?_ ?_)
    | (with_reducible refine setRw_keeps ?_)
    | dsimp only
    | split

theorem chainPeriod_keeps {s₀ s : State} {n idx sub v : Nat} (hk : Keeps s₀ s) :
    Keeps s₀ (chainPeriod n idx sub v s).2 := by
  unfold chainPeriod
  repeat' first
    | with_reducible assumption
    | (with_reducible refine keeps_ite2 ?_ ?_)
    | (with_reducible refine keeps_ite ?_ ?_)
    | (with_reducible refine rechain_keeps ?_)
    | (with_reducible refine setRw_keeps ?_)
    | dsimp only
    | split

theorem writeStaleBound_keeps {s₀ s : State} {k v : Nat} (hk : Keeps s₀ s) :
    Keeps s₀ (writeStaleBound k v s).2 := by
  unfold writeStaleBound
  repeat' first
    | with_reducible assumption
    | (with_reducible refine keeps_ite2 ?_ ?_)
    | (with_reducible refine keeps_ite ?_ ?_)
    | (with_reducible refine setRw_keeps ?_)
    | dsimp only
    | split

theorem tierCommand_keeps {s₀ s : State} {p code : Nat} (hk : Keeps s₀ s) :
    Keeps s₀ (tierCommand p code s).2 := by
  unfold tierCommand
  repeat' first
    | with_reducible assumption
    | (with_reducible refine keeps_ite2 ?_ ?_)
    | (with_reducible refine keeps_ite ?_ ?_)
    | (with_reducible refine tierCreate_keeps ?_)
    | (with_reducible refine keeps_of_pair (tierCreate_keeps ?_) ‹_›)
    | (with_reducible refine tierDestroy_keeps ?_)
    | (with_reducible refine keeps_of_pair (tierDestroy_keeps ?_) ‹_›)
    | (with_reducible refine tierMove_keeps ?_)
    | (with_reducible refine keeps_of_pair (tierMove_keeps ?_) ‹_›)
    | dsimp only
    | split

theorem tableCommand_keeps {s₀ s : State} {k code : Nat} (hk : Keeps s₀ s) :
    Keeps s₀ (tableCommand k code s).2 := by
  unfold tableCommand
  repeat' first
    | with_reducible assumption
    | (with_reducible refine keeps_ite2 ?_ ?_)
    | (with_reducible refine keeps_ite ?_ ?_)
    | (with_reducible refine tableCreate_keeps ?_)
    | (with_reducible refine keeps_of_pair (tableCreate_keeps ?_) ‹_›)
    | (with_reducible refine tableSeal_keeps ?_)
    | (with_reducible refine keeps_of_pair (tableSeal_keeps ?_) ‹_›)
    | (with_reducible refine tableDestroy_keeps ?_)
    | (with_reducible refine keeps_of_pair (tableDestroy_keeps ?_) ‹_›)
    | dsimp only
    | split

theorem writeHotSet_keeps {s₀ s : State} {k : Nat} {d : Bytes} (hk : Keeps s₀ s) :
    Keeps s₀ (writeHotSet k d s).2 := by
  unfold writeHotSet
  repeat' first
    | with_reducible assumption
    | (with_reducible refine keeps_ite2 ?_ ?_)
    | (with_reducible refine keeps_ite ?_ ?_)
    | (with_reducible refine setDom_keeps ?_)
    | dsimp only
    | split

theorem fmFrameOut_keeps {s₀ s : State} {d : Bytes} (hk : Keeps s₀ s) :
    Keeps s₀ (fmFrameOut d s).2 := by
  unfold fmFrameOut
  repeat' first
    | with_reducible assumption
    | (with_reducible refine keeps_ite2 ?_ ?_)
    | (with_reducible refine keeps_ite ?_ ?_)
    | (with_reducible refine sendFlit_keeps ?_)
    | dsimp only
    | split

theorem writeLinkKey_keeps {s₀ s : State} {n k : Nat} {key : Bytes} (hk : Keeps s₀ s) :
    Keeps s₀ (writeLinkKey n k key s).2 := by
  unfold writeLinkKey
  repeat' first
    | with_reducible assumption
    | (with_reducible refine setDom_keeps ?_)
    | (with_reducible refine installKeyAt_keeps ?_)
    | dsimp only

theorem freeSurvey_keeps {s₀ s : State} (hk : Keeps s₀ s) :
    Keeps s₀ (freeSurvey s).2.2 := by
  unfold freeSurvey
  repeat' first
    | with_reducible assumption
    | (with_reducible refine modFree_keeps (fun n => by omega) ?_)
    | dsimp only

theorem mireCommand_keeps {s₀ s : State} {code : Nat} {good : List (Nat × Nat × Nat)} {aside : Nat} (hk : Keeps s₀ s) :
    Keeps s₀ (mireCommand code good aside s).2 := by
  unfold mireCommand
  repeat' first
    | with_reducible assumption
    | (with_reducible refine keeps_ite2 ?_ ?_)
    | (with_reducible refine keeps_ite ?_ ?_)
    | (with_reducible refine formatFlash_keeps ?_)
    | (with_reducible refine keeps_of_pair (formatFlash_keeps ?_) ‹_›)
    | dsimp only
    | split

theorem mireCommandFree_keeps {s₀ s : State} {code : Nat} (hk : Keeps s₀ s) :
    Keeps s₀ (mireCommandFree code s).2 := by
  unfold mireCommandFree
  repeat' first
    | with_reducible assumption
    | (extract_lets +onlyGivenNames x; first
        | (refine keeps_cut (s₀ := s₀) (t := x) ?_ fun hx => ?_) <;> first | (revert hx; clear_value x; intro _) | subst x
        | (refine keeps_cut2 (s₀ := s₀) (t := x) ?_ fun hx => ?_) <;> first | (revert hx; clear_value x; intro _) | subst x
        | (refine keeps_cut3 (s₀ := s₀) (t := x) ?_ fun hx => ?_) <;> first | (revert hx; clear_value x; intro _) | subst x
        | clear_value x
        | subst x)
    | (with_reducible refine keeps_ite2 ?_ ?_)
    | (with_reducible refine keeps_ite ?_ ?_)
    | (with_reducible refine freeSurvey_keeps ?_)
    | (with_reducible refine keeps_of_triple (freeSurvey_keeps ?_) ‹_›)
    | (with_reducible refine mireCommand_keeps ?_)
    | (with_reducible refine keeps_of_pair (mireCommand_keeps ?_) ‹_›)
    | dsimp only
    | split

theorem spaceCreate_keeps {s₀ s : State} {n : Nat} (hk : Keeps s₀ s) :
    Keeps s₀ (spaceCreate n s).2 := by
  unfold spaceCreate
  repeat' first
    | with_reducible assumption
    | (extract_lets +onlyGivenNames x; first
        | (refine keeps_cut (s₀ := s₀) (t := x) ?_ fun hx => ?_) <;> first | (revert hx; clear_value x; intro _) | subst x
        | (refine keeps_cut2 (s₀ := s₀) (t := x) ?_ fun hx => ?_) <;> first | (revert hx; clear_value x; intro _) | subst x
        | clear_value x
        | subst x)
    | (with_reducible refine keeps_ite2 ?_ ?_)
    | (with_reducible refine keeps_ite ?_ ?_)
    | (with_reducible refine createSpace_keeps ?_)
    | (with_reducible refine commitStaged_keeps ?_)
    | (with_reducible refine nsResult_keeps ?_)
    | dsimp only
    | split

theorem spaceDestroy_keeps {s₀ s : State} {n : Nat} (hk : Keeps s₀ s) :
    Keeps s₀ (spaceDestroy n s).2 := by
  unfold spaceDestroy
  repeat' first
    | with_reducible assumption
    | (extract_lets +onlyGivenNames x; first
        | (refine keeps_cut (s₀ := s₀) (t := x) ?_ fun hx => ?_) <;> first | (revert hx; clear_value x; intro _) | subst x
        | (refine keeps_cut2 (s₀ := s₀) (t := x) ?_ fun hx => ?_) <;> first | (revert hx; clear_value x; intro _) | subst x
        | clear_value x
        | subst x)
    | (with_reducible refine destroySpace_keeps ?_)
    | dsimp only

theorem spaceDiscard_keeps {s₀ s : State} {n : Nat} (hk : Keeps s₀ s) :
    Keeps s₀ (spaceDiscard n s).2 := by
  unfold spaceDiscard
  repeat' first
    | with_reducible assumption
    | (extract_lets +onlyGivenNames x; first
        | (refine keeps_cut (s₀ := s₀) (t := x) ?_ fun hx => ?_) <;> first | (revert hx; clear_value x; intro _) | subst x
        | (refine keeps_cut2 (s₀ := s₀) (t := x) ?_ fun hx => ?_) <;> first | (revert hx; clear_value x; intro _) | subst x
        | clear_value x
        | subst x)
    | (with_reducible refine discardUnits_keeps ?_)
    | dsimp only

theorem spaceCommand_keeps {s₀ s : State} {n code : Nat} (hk : Keeps s₀ s) :
    Keeps s₀ (spaceCommand n code s).2 := by
  unfold spaceCommand
  repeat' first
    | with_reducible assumption
    | (with_reducible refine keeps_ite2 ?_ ?_)
    | (with_reducible refine keeps_ite ?_ ?_)
    | (with_reducible refine spaceCreate_keeps ?_)
    | (with_reducible refine keeps_of_pair (spaceCreate_keeps ?_) ‹_›)
    | (with_reducible refine spaceDestroy_keeps ?_)
    | (with_reducible refine keeps_of_pair (spaceDestroy_keeps ?_) ‹_›)
    | (with_reducible refine spaceDiscard_keeps ?_)
    | (with_reducible refine keeps_of_pair (spaceDiscard_keeps ?_) ‹_›)
    | dsimp only
    | split

theorem writeKeyOfFlash_keeps {s₀ s : State} {p : Nat} {key : Bytes} (hk : Keeps s₀ s) :
    Keeps s₀ (writeKeyOfFlash p key s).2 := by
  unfold writeKeyOfFlash
  repeat' first
    | with_reducible assumption
    | (extract_lets +onlyGivenNames x; first
        | (refine keeps_cut (s₀ := s₀) (t := x) ?_ fun hx => ?_) <;> first | (revert hx; clear_value x; intro _) | subst x
        | (refine keeps_cut2 (s₀ := s₀) (t := x) ?_ fun hx => ?_) <;> first | (revert hx; clear_value x; intro _) | subst x
        | clear_value x
        | subst x)
    | (with_reducible refine keeps_ite2 ?_ ?_)
    | (with_reducible refine keeps_ite ?_ ?_)
    | (with_reducible refine writeFlashKey_keeps ?_)
    | (with_reducible refine keeps_of_pair (writeFlashKey_keeps ?_) ‹_›)
    | (with_reducible refine bump_keeps ?_)
    | dsimp only
    | split

theorem writeServeAt_keeps {s₀ s : State} {v : Nat} (hk : Keeps s₀ s) :
    Keeps s₀ (writeServeAt v s).2 := by
  unfold writeServeAt
  repeat' first
    | with_reducible assumption
    | (with_reducible refine modDev_keeps ?_)
    | dsimp only

theorem writeCertificate_keeps {s₀ s : State} {d : Bytes} (hk : Keeps s₀ s) :
    Keeps s₀ (writeCertificate d s).2 := by
  unfold writeCertificate
  repeat' first
    | with_reducible assumption
    | (with_reducible refine keeps_ite2 ?_ ?_)
    | (with_reducible refine keeps_ite ?_ ?_)
    | (with_reducible refine setBlob_keeps ?_)
    | dsimp only
    | split

theorem testStart_keeps {s₀ s : State} {code : Nat} (hk : Keeps s₀ s) :
    Keeps s₀ (testStart code s).2 := by
  unfold testStart
  repeat' first
    | with_reducible assumption
    | (with_reducible refine keeps_ite2 ?_ ?_)
    | (with_reducible refine keeps_ite ?_ ?_)
    | (with_reducible refine modIsland_keeps ?_)
    | (with_reducible refine setCount_keeps ?_)
    | dsimp only
    | split

theorem lanternConfig_keeps {s₀ s : State} {h : Nat} {eff : State → State} (heff : ∀ s, Keeps s₀ s → Keeps s₀ (eff s)) (hk : Keeps s₀ s) :
    Keeps s₀ (lanternConfig h eff s).2 := by
  unfold lanternConfig
  repeat' first
    | with_reducible assumption
    | (with_reducible refine keeps_ite2 ?_ ?_)
    | (with_reducible refine keeps_ite ?_ ?_)
    | (with_reducible refine idle_keeps ?_)
    | (refine heff _ ?_)
    | dsimp only
    | split

theorem writeVrmMap_keeps {s₀ s : State} {d : Bytes} (hk : Keeps s₀ s) :
    Keeps s₀ (writeVrmMap d s).2 := by
  unfold writeVrmMap
  repeat' first
    | with_reducible assumption
    | (with_reducible refine keeps_ite2 ?_ ?_)
    | (with_reducible refine keeps_ite ?_ ?_)
    | (with_reducible refine setDom_keeps ?_)
    | dsimp only
    | split

theorem writeKept_keeps {s₀ s : State} {r : ObjRef} {v : Nat} (hk : Keeps s₀ s) :
    Keeps s₀ (writeKept r v s).2 := by
  unfold writeKept
  repeat' first
    | with_reducible assumption
    | (with_reducible refine keeps_ite2 ?_ ?_)
    | (with_reducible refine keeps_ite ?_ ?_)
    | (with_reducible refine modDict_keeps ?_)
    | (with_reducible refine setRw_keeps ?_)
    | dsimp only
    | split

theorem writeNum_keeps {s₀ s : State} {pa : Path} {r : ObjRef} {v : Nat} (hk : Keeps s₀ s) :
    Keeps s₀ (writeNum pa r v s).2 := by
  unfold writeNum
  repeat' first
    | with_reducible assumption
    | (extract_lets +onlyGivenNames x; first
        | (refine keeps_cut (s₀ := s₀) (t := x) ?_ fun hx => ?_) <;> first | (revert hx; clear_value x; intro _) | subst x
        | (refine keeps_cut2 (s₀ := s₀) (t := x) ?_ fun hx => ?_) <;> first | (revert hx; clear_value x; intro _) | subst x
        | clear_value x
        | subst x)
    | (with_reducible refine keeps_ite2 ?_ ?_)
    | (with_reducible refine keeps_ite ?_ ?_)
    | (with_reducible refine driverRange_keeps ?_)
    | (with_reducible refine keeps_of_pair (driverRange_keeps ?_) ‹_›)
    | (with_reducible refine writePreferred_keeps ?_)
    | (with_reducible refine keeps_of_pair (writePreferred_keeps ?_) ‹_›)
    | (with_reducible refine requestHandover_keeps ?_)
    | (with_reducible refine keeps_of_pair (requestHandover_keeps ?_) ‹_›)
    | (with_reducible refine clearLocks_keeps ?_)
    | (with_reducible refine keeps_of_pair (clearLocks_keeps ?_) ‹_›)
    | (with_reducible refine writeWindowSize_keeps ?_)
    | (with_reducible refine keeps_of_pair (writeWindowSize_keeps ?_) ‹_›)
    | (with_reducible refine writeWindowOwner_keeps ?_)
    | (with_reducible refine keeps_of_pair (writeWindowOwner_keeps ?_) ‹_›)
    | (with_reducible refine devCommand_keeps ?_)
    | (with_reducible refine keeps_of_pair (devCommand_keeps ?_) ‹_›)
    | (with_reducible refine writeRole_keeps ?_)
    | (with_reducible refine keeps_of_pair (writeRole_keeps ?_) ‹_›)
    | (with_reducible refine writeEnable_keeps ?_)
    | (with_reducible refine keeps_of_pair (writeEnable_keeps ?_) ‹_›)
    | (with_reducible refine slotCommand_keeps ?_)
    | (with_reducible refine keeps_of_pair (slotCommand_keeps ?_) ‹_›)
    | (with_reducible refine writeInstant_keeps ?_)
    | (with_reducible refine keeps_of_pair (writeInstant_keeps ?_) ‹_›)
    | (with_reducible refine inStaged_keeps (fun s h => ?_) ?_)
    | (with_reducible refine keeps_of_pair (inStaged_keeps (fun s h => ?_) ?_) ‹_›)
    | (with_reducible refine setRw_keeps ?_)
    | (with_reducible refine boundedWrite_keeps ?_)
    | (with_reducible refine keeps_of_pair (boundedWrite_keeps ?_) ‹_›)
    | (with_reducible refine exchangeTerm_keeps ?_)
    | (with_reducible refine keeps_of_pair (exchangeTerm_keeps ?_) ‹_›)
    | (with_reducible refine writeStaleness_keeps ?_)
    | (with_reducible refine keeps_of_pair (writeStaleness_keeps ?_) ‹_›)
    | (with_reducible refine writeReserve_keeps ?_)
    | (with_reducible refine keeps_of_pair (writeReserve_keeps ?_) ‹_›)
    | (with_reducible refine resetPeaks_keeps ?_)
    | (with_reducible refine onTrue_keeps (fun s h => ?_) ?_)
    | (with_reducible refine keeps_of_pair (onTrue_keeps (fun s h => ?_) ?_) ‹_›)
    | (with_reducible refine shaperCommit_keeps ?_)
    | (with_reducible refine keeps_of_pair (shaperCommit_keeps ?_) ‹_›)
    | (with_reducible refine policerCommit_keeps ?_)
    | (with_reducible refine keeps_of_pair (policerCommit_keeps ?_) ‹_›)
    | (with_reducible refine indexCommand_keeps ?_)
    | (with_reducible refine keeps_of_pair (indexCommand_keeps ?_) ‹_›)
    | (with_reducible refine indexAttr_keeps ?_)
    | (with_reducible refine keeps_of_pair (indexAttr_keeps ?_) ‹_›)
    | (with_reducible refine indexBook_keeps ?_)
    | (with_reducible refine keeps_of_pair (indexBook_keeps ?_) ‹_›)
    | (with_reducible refine chainPeriod_keeps ?_)
    | (with_reducible refine keeps_of_pair (chainPeriod_keeps ?_) ‹_›)
    | (with_reducible refine writeStaleBound_keeps ?_)
    | (with_reducible refine keeps_of_pair (writeStaleBound_keeps ?_) ‹_›)
    | (with_reducible refine tierCommand_keeps ?_)
    | (with_reducible refine keeps_of_pair (tierCommand_keeps ?_) ‹_›)
    | (with_reducible refine tableCommand_keeps ?_)
    | (with_reducible refine keeps_of_pair (tableCommand_keeps ?_) ‹_›)
    | (with_reducible refine commitTables_keeps ?_)
    | (with_reducible refine writePortEnable_keeps ?_)
    | (with_reducible refine mireCommand_keeps ?_)
    | (with_reducible refine keeps_of_pair (mireCommand_keeps ?_) ‹_›)
    | (with_reducible refine mireCommandFree_keeps ?_)
    | (with_reducible refine keeps_of_pair (mireCommandFree_keeps ?_) ‹_›)
    | (with_reducible refine commitStaged_keeps ?_)
    | (with_reducible refine spaceCommand_keeps ?_)
    | (with_reducible refine keeps_of_pair (spaceCommand_keeps ?_) ‹_›)
    | (with_reducible refine writeTimeRole_keeps ?_)
    | (with_reducible refine keeps_of_pair (writeTimeRole_keeps ?_) ‹_›)
    | (with_reducible refine relock_keeps ?_)
    | (with_reducible refine keeps_of_pair (relock_keeps ?_) ‹_›)
    | (with_reducible refine setFt_keeps ?_)
    | (with_reducible refine keeps_of_pair (setFt_keeps ?_) ‹_›)
    | (with_reducible refine entryCommand_keeps ?_)
    | (with_reducible refine keeps_of_pair (entryCommand_keeps ?_) ‹_›)
    | (with_reducible refine rechainVigil_keeps ?_)
    | (with_reducible refine rechain_keeps ?_)
    | (with_reducible refine firmwareCommand_keeps ?_)
    | (with_reducible refine keeps_of_pair (firmwareCommand_keeps ?_) ‹_›)
    | (with_reducible refine writeServeAt_keeps ?_)
    | (with_reducible refine keeps_of_pair (writeServeAt_keeps ?_) ‹_›)
    | (with_reducible refine clearAlarms_keeps ?_)
    | (with_reducible refine lifeCommand_keeps ?_)
    | (with_reducible refine keeps_of_pair (lifeCommand_keeps ?_) ‹_›)
    | (with_reducible refine scrapArm_keeps ?_)
    | (with_reducible refine keeps_of_pair (scrapArm_keeps ?_) ‹_›)
    | (with_reducible refine writeMinSvn_keeps ?_)
    | (with_reducible refine keeps_of_pair (writeMinSvn_keeps ?_) ‹_›)
    | (with_reducible refine revokeKeys_keeps ?_)
    | (with_reducible refine keeps_of_pair (revokeKeys_keeps ?_) ‹_›)
    | (with_reducible refine testStart_keeps ?_)
    | (with_reducible refine keeps_of_pair (testStart_keeps ?_) ‹_›)
    | (with_reducible refine writeCap_keeps ?_)
    | (with_reducible refine keeps_of_pair (writeCap_keeps ?_) ‹_›)
    | (with_reducible refine lanternCommand_keeps ?_)
    | (with_reducible refine keeps_of_pair (lanternCommand_keeps ?_) ‹_›)
    | (with_reducible refine lanternConfig_keeps (fun s h => ?_) ?_)
    | (with_reducible refine keeps_of_pair (lanternConfig_keeps (fun s h => ?_) ?_) ‹_›)
    | (with_reducible refine lanternMarker_keeps ?_)
    | (with_reducible refine writeKept_keeps ?_)
    | (with_reducible refine keeps_of_pair (writeKept_keeps ?_) ‹_›)
    | dsimp only
    | split

theorem keepBytes_keeps {s₀ s : State} {r : ObjRef} {d : Bytes} (hk : Keeps s₀ s) :
    Keeps s₀ (keepBytes r d s).2 := by
  unfold keepBytes
  repeat' first
    | with_reducible assumption
    | (with_reducible refine keeps_ite2 ?_ ?_)
    | (with_reducible refine keeps_ite ?_ ?_)
    | (with_reducible refine modDict_keeps ?_)
    | (with_reducible refine setDom_keeps ?_)
    | dsimp only
    | split

theorem writeBytes_keeps {s₀ s : State} {r : ObjRef} {d : Bytes} (hk : Keeps s₀ s) :
    Keeps s₀ (writeBytes r d s).2 := by
  unfold writeBytes
  repeat' first
    | with_reducible assumption
    | (extract_lets +onlyGivenNames x; first
        | (refine keeps_cut (s₀ := s₀) (t := x) ?_ fun hx => ?_) <;> first | (revert hx; clear_value x; intro _) | subst x
        | (refine keeps_cut2 (s₀ := s₀) (t := x) ?_ fun hx => ?_) <;> first | (revert hx; clear_value x; intro _) | subst x
        | clear_value x
        | subst x)
    | (with_reducible refine keeps_ite2 ?_ ?_)
    | (with_reducible refine keeps_ite ?_ ?_)
    | (with_reducible refine modIsland_keeps ?_)
    | (with_reducible refine slotFile_keeps ?_)
    | (with_reducible refine keeps_of_pair (slotFile_keeps ?_) ‹_›)
    | (with_reducible refine inStaged_keeps (fun s h => ?_) ?_)
    | (with_reducible refine keeps_of_pair (inStaged_keeps (fun s h => ?_) ?_) ‹_›)
    | (with_reducible refine setDom_keeps ?_)
    | (with_reducible refine clearOverflows_keeps ?_)
    | (with_reducible refine keepBytes_keeps ?_)
    | (with_reducible refine keeps_of_pair (keepBytes_keeps ?_) ‹_›)
    | (with_reducible refine writeHotSet_keeps ?_)
    | (with_reducible refine keeps_of_pair (writeHotSet_keeps ?_) ‹_›)
    | (with_reducible refine fmFrameOut_keeps ?_)
    | (with_reducible refine keeps_of_pair (fmFrameOut_keeps ?_) ‹_›)
    | (with_reducible refine linkKey_keeps ?_)
    | (with_reducible refine writeLinkKey_keeps ?_)
    | (with_reducible refine keeps_of_pair (writeLinkKey_keeps ?_) ‹_›)
    | (with_reducible refine writeKeyOfFlash_keeps ?_)
    | (with_reducible refine keeps_of_pair (writeKeyOfFlash_keeps ?_) ‹_›)
    | (with_reducible refine writePackage_keeps ?_)
    | (with_reducible refine keeps_of_pair (writePackage_keeps ?_) ‹_›)
    | (with_reducible refine writeCertificate_keeps ?_)
    | (with_reducible refine keeps_of_pair (writeCertificate_keeps ?_) ‹_›)
    | (with_reducible refine writeNonce_keeps ?_)
    | (with_reducible refine writeSideKey_keeps ?_)
    | (with_reducible refine keeps_of_pair (writeSideKey_keeps ?_) ‹_›)
    | (with_reducible refine lanternConfig_keeps (fun s h => ?_) ?_)
    | (with_reducible refine keeps_of_pair (lanternConfig_keeps (fun s h => ?_) ?_) ‹_›)
    | (with_reducible refine writeVrmMap_keeps ?_)
    | (with_reducible refine keeps_of_pair (writeVrmMap_keeps ?_) ‹_›)
    | dsimp only
    | split

end Sys2Proof.Machine
end

