-- ==== Sys2Proof/Laws/KeepsMessages.lean ====
section
/-! SUPPORT. What the operations of Machine/Messages.lean keep. -/

namespace Sys2Proof.Machine

open Sys2Proof

theorem readMessage_keeps {s₀ s : State} {pa : Path} {rq : Req} (hk : Keeps s₀ s) :
    Keeps s₀ (readMessage pa rq s).2 := by
  unfold readMessage
  repeat' first
    | with_reducible assumption
    | (with_reducible refine keeps_ite2 ?_ ?_)
    | (with_reducible refine keeps_ite ?_ ?_)
    | (with_reducible refine drawn_keeps ?_)
    | dsimp only
    | split

theorem writeMessage_keeps {s₀ s : State} {pa : Path} {rq : Req} (hk : Keeps s₀ s) :
    Keeps s₀ (writeMessage pa rq s).2 := by
  unfold writeMessage
  repeat' first
    | with_reducible assumption
    | (extract_lets +onlyGivenNames x; first
        | (refine keeps_cut (s₀ := s₀) (t := x) ?_ fun hx => ?_) <;> first | (revert hx; clear_value x; intro _) | subst x
        | (refine keeps_cut2 (s₀ := s₀) (t := x) ?_ fun hx => ?_) <;> first | (revert hx; clear_value x; intro _) | subst x
        | clear_value x
        | subst x)
    | (with_reducible refine keeps_ite2 ?_ ?_)
    | (with_reducible refine keeps_ite ?_ ?_)
    | (with_reducible refine objectWrite_keeps (fun s h => ?_) ?_)
    | (with_reducible refine keeps_of_pair (objectWrite_keeps (fun s h => ?_) ?_) ‹_›)
    | (with_reducible refine writeNum_keeps ?_)
    | (with_reducible refine keeps_of_pair (writeNum_keeps ?_) ‹_›)
    | dsimp only
    | split

theorem readRecords_keeps {s₀ s : State} {n : Nat} (hk : Keeps s₀ s) :
    Keeps s₀ (readRecords n s).2 := by
  unfold readRecords
  repeat' first
    | with_reducible assumption
    | (extract_lets +onlyGivenNames x; first
        | (refine keeps_cut (s₀ := s₀) (t := x) ?_ fun hx => ?_) <;> first | (revert hx; clear_value x; intro _) | subst x
        | (refine keeps_cut2 (s₀ := s₀) (t := x) ?_ fun hx => ?_) <;> first | (revert hx; clear_value x; intro _) | subst x
        | clear_value x
        | subst x)
    | (with_reducible refine setRw_keeps ?_)
    | dsimp only
    | split

theorem readSnapshot_keeps {s₀ s : State} {pa : Path} {off : Nat} (hk : Keeps s₀ s) :
    Keeps s₀ (readSnapshot pa off s).2 := by
  unfold readSnapshot
  repeat' first
    | with_reducible assumption
    | (extract_lets +onlyGivenNames x; first
        | (refine keeps_cut (s₀ := s₀) (t := x) ?_ fun hx => ?_) <;> first | (revert hx; clear_value x; intro _) | subst x
        | (refine keeps_cut2 (s₀ := s₀) (t := x) ?_ fun hx => ?_) <;> first | (revert hx; clear_value x; intro _) | subst x
        | clear_value x
        | subst x)
    | (with_reducible refine keeps_ite2 ?_ ?_)
    | (with_reducible refine keeps_ite ?_ ?_)
    | (with_reducible refine modDict_keeps ?_)
    | dsimp only
    | split

theorem readSegMessage_keeps {s₀ s : State} {pa : Path} {rq : Req} (hk : Keeps s₀ s) :
    Keeps s₀ (readSegMessage pa rq s).2 := by
  unfold readSegMessage
  repeat' first
    | with_reducible assumption
    | (extract_lets +onlyGivenNames x; first
        | (refine keeps_cut (s₀ := s₀) (t := x) ?_ fun hx => ?_) <;> first | (revert hx; clear_value x; intro _) | subst x
        | (refine keeps_cut2 (s₀ := s₀) (t := x) ?_ fun hx => ?_) <;> first | (revert hx; clear_value x; intro _) | subst x
        | clear_value x
        | subst x)
    | (with_reducible refine keeps_ite2 ?_ ?_)
    | (with_reducible refine keeps_ite ?_ ?_)
    | (with_reducible refine readRecords_keeps ?_)
    | (with_reducible refine keeps_of_pair (readRecords_keeps ?_) ‹_›)
    | (with_reducible refine readSnapshot_keeps ?_)
    | (with_reducible refine keeps_of_pair (readSnapshot_keeps ?_) ‹_›)
    | dsimp only
    | split

theorem writeSegMessage_keeps {s₀ s : State} {pa : Path} {rq : Req} (hk : Keeps s₀ s) :
    Keeps s₀ (writeSegMessage pa rq s).2 := by
  unfold writeSegMessage
  repeat' first
    | with_reducible assumption
    | (extract_lets +onlyGivenNames x; first
        | (refine keeps_cut (s₀ := s₀) (t := x) ?_ fun hx => ?_) <;> first | (revert hx; clear_value x; intro _) | subst x
        | (refine keeps_cut2 (s₀ := s₀) (t := x) ?_ fun hx => ?_) <;> first | (revert hx; clear_value x; intro _) | subst x
        | clear_value x
        | subst x)
    | (with_reducible refine keeps_ite2 ?_ ?_)
    | (with_reducible refine keeps_ite ?_ ?_)
    | (with_reducible refine modDict_keeps ?_)
    | (with_reducible refine dropTransfer_keeps ?_)
    | (with_reducible refine domainWrite_keeps (fun s h => ?_) ?_)
    | (with_reducible refine keeps_of_pair (domainWrite_keeps (fun s h => ?_) ?_) ‹_›)
    | (with_reducible refine writeBytes_keeps ?_)
    | (with_reducible refine keeps_of_pair (writeBytes_keeps ?_) ‹_›)
    | dsimp only
    | split

theorem lockMessage_keeps {s₀ s : State} {pa : Path} {rq : Req} (hk : Keeps s₀ s) :
    Keeps s₀ (lockMessage pa rq s).2 := by
  unfold lockMessage
  repeat' first
    | with_reducible assumption
    | (with_reducible refine keeps_ite2 ?_ ?_)
    | (with_reducible refine keeps_ite ?_ ?_)
    | (with_reducible refine lockObject_keeps ?_)
    | (with_reducible refine keeps_of_pair (lockObject_keeps ?_) ‹_›)
    | dsimp only
    | split

theorem unlockMessage_keeps {s₀ s : State} {pa : Path} {rq : Req} (hk : Keeps s₀ s) :
    Keeps s₀ (unlockMessage pa rq s).2 := by
  unfold unlockMessage
  repeat' first
    | with_reducible assumption
    | (with_reducible refine keeps_ite2 ?_ ?_)
    | (with_reducible refine keeps_ite ?_ ?_)
    | (with_reducible refine unlockObject_keeps ?_)
    | (with_reducible refine keeps_of_pair (unlockObject_keeps ?_) ‹_›)
    | dsimp only
    | split

theorem runMessage_keeps {s₀ s : State} {pa : Path} {m : Msg} (hk : Keeps s₀ s) :
    Keeps s₀ (runMessage pa m s).2 := by
  unfold runMessage
  repeat' first
    | with_reducible assumption
    | (extract_lets +onlyGivenNames x; first
        | (refine keeps_cut (s₀ := s₀) (t := x) ?_ fun hx => ?_) <;> first | (revert hx; clear_value x; intro _) | subst x
        | (refine keeps_cut2 (s₀ := s₀) (t := x) ?_ fun hx => ?_) <;> first | (revert hx; clear_value x; intro _) | subst x
        | clear_value x
        | subst x)
    | (with_reducible refine keeps_ite2 ?_ ?_)
    | (with_reducible refine keeps_ite ?_ ?_)
    | (with_reducible refine readMessage_keeps ?_)
    | (with_reducible refine keeps_of_pair (readMessage_keeps ?_) ‹_›)
    | (with_reducible refine writeMessage_keeps ?_)
    | (with_reducible refine keeps_of_pair (writeMessage_keeps ?_) ‹_›)
    | (with_reducible refine readSegMessage_keeps ?_)
    | (with_reducible refine keeps_of_pair (readSegMessage_keeps ?_) ‹_›)
    | (with_reducible refine writeSegMessage_keeps ?_)
    | (with_reducible refine keeps_of_pair (writeSegMessage_keeps ?_) ‹_›)
    | (with_reducible refine lockMessage_keeps ?_)
    | (with_reducible refine keeps_of_pair (lockMessage_keeps ?_) ‹_›)
    | (with_reducible refine unlockMessage_keeps ?_)
    | (with_reducible refine keeps_of_pair (unlockMessage_keeps ?_) ‹_›)
    | (with_reducible refine wholeStore_keeps (fun s h => ?_) ?_)
    | (with_reducible refine keeps_of_pair (wholeStore_keeps (fun s h => ?_) ?_) ‹_›)
    | (with_reducible refine storeConfig_keeps ?_)
    | (with_reducible refine keeps_of_pair (storeConfig_keeps ?_) ‹_›)
    | (with_reducible refine restoreDefaults_keeps ?_)
    | (with_reducible refine keeps_of_pair (restoreDefaults_keeps ?_) ‹_›)
    | dsimp only
    | split

theorem runAny_keeps {s₀ s : State} {pa : Path} {m : Msg} (hk : Keeps s₀ s) :
    Keeps s₀ (runAny pa m s).2 := by
  unfold runAny
  repeat' first
    | with_reducible assumption
    | (with_reducible refine keeps_ite2 ?_ ?_)
    | (with_reducible refine keeps_ite ?_ ?_)
    | (with_reducible refine runMessage_keeps ?_)
    | (with_reducible refine keeps_of_pair (runMessage_keeps ?_) ‹_›)
    | dsimp only
    | split

theorem loseRequest_keeps {s₀ s : State} {port m : Nat} (hk : Keeps s₀ s) :
    Keeps s₀ (loseRequest port m s) := by
  unfold loseRequest
  repeat' first
    | with_reducible assumption
    | (with_reducible refine modMbox_keeps ?_)

theorem startMailbox_keeps {s₀ s : State} {port m ctrl : Nat} {buf : Bytes} (hk : Keeps s₀ s) :
    Keeps s₀ (startMailbox port m ctrl buf s) := by
  unfold startMailbox
  repeat' first
    | with_reducible assumption
    | (with_reducible refine modMbox_keeps ?_)

theorem modSession_keeps {s₀ s : State} {port id : Nat} {f : Session → Session} (hk : Keeps s₀ s) :
    Keeps s₀ (modSession port id f s) := by
  unfold modSession
  repeat' first
    | with_reducible assumption
    | (with_reducible refine keeps_ite ?_ ?_)
    | (with_reducible refine modDict_keeps ?_)
    | split

theorem dropFrame_keeps {s₀ s : State} (hk : Keeps s₀ s) :
    Keeps s₀ (dropFrame s) := by
  unfold dropFrame
  repeat' first
    | with_reducible assumption
    | (with_reducible refine bump_keeps ?_)

theorem openSession_keeps {s₀ s : State} {port : Nat} {rq : Req} (hk : Keeps s₀ s) :
    Keeps s₀ (openSession port rq s).2 := by
  unfold openSession
  repeat' first
    | with_reducible assumption
    | (extract_lets +onlyGivenNames x; first
        | (refine keeps_cut (s₀ := s₀) (t := x) ?_ fun hx => ?_) <;> first | (revert hx; clear_value x; intro _) | subst x
        | (refine keeps_cut2 (s₀ := s₀) (t := x) ?_ fun hx => ?_) <;> first | (revert hx; clear_value x; intro _) | subst x
        | clear_value x
        | subst x)
    | (with_reducible refine modDict_keeps ?_)
    | (with_reducible refine drawn_keeps ?_)
    | dsimp only

theorem runFrame_keeps {s₀ s : State} {pa : Path} {ms : List Msg} (hk : Keeps s₀ s) :
    Keeps s₀ (runFrame pa ms s).2 := by
  unfold runFrame
  repeat' first
    | with_reducible assumption
    | (with_reducible refine runAny_keeps ?_)
    | (with_reducible refine keeps_of_pair (runAny_keeps ?_) ‹_›)
    | (with_reducible refine foldl_keeps (fun s x h => ?_) ?_)
    | (with_reducible refine foldl_pair_keeps (fun s x h => ?_) ?_)
    | (with_reducible refine foldl_fst_keeps (fun s x h => ?_) ?_)
    | dsimp only
    | split

theorem runHeld_keeps {s₀ s : State} (hk : Keeps s₀ s) :
    Keeps s₀ (runHeld s) := by
  unfold runHeld
  repeat' first
    | with_reducible assumption
    | (extract_lets +onlyGivenNames x; first
        | (refine keeps_cut (s₀ := s₀) (t := x) ?_ fun hx => ?_) <;> first | (revert hx; clear_value x; intro _) | subst x
        | (refine keeps_cut2 (s₀ := s₀) (t := x) ?_ fun hx => ?_) <;> first | (revert hx; clear_value x; intro _) | subst x
        | clear_value x
        | subst x)
    | (with_reducible refine modDict_keeps ?_)
    | (with_reducible refine route_keeps (fun s h => ?_) ?_)
    | (with_reducible refine runAny_keeps ?_)
    | (with_reducible refine keeps_of_pair (runAny_keeps ?_) ‹_›)
    | (with_reducible refine foldl_keeps (fun s x h => ?_) ?_)
    | (with_reducible refine foldl_pair_keeps (fun s x h => ?_) ?_)
    | (with_reducible refine foldl_fst_keeps (fun s x h => ?_) ?_)
    | dsimp only

end Sys2Proof.Machine
end

