-- ==== Sys2Proof/Laws/KeepsBoot.lean ====
section
/-! SUPPORT. What the operations of Machine/Boot.lean keep. -/

namespace Sys2Proof.Machine

open Sys2Proof

theorem loadKeys_keeps {s₀ s : State} (hk : Keeps s₀ s) :
    Keeps s₀ (loadKeys s) := by
  unfold loadKeys
  repeat' first
    | with_reducible assumption
    | (extract_lets +onlyGivenNames x; first
        | (refine keeps_cut (s₀ := s₀) (t := x) ?_ fun hx => ?_) <;> first | (revert hx; clear_value x; intro _) | subst x
        | clear_value x
        | subst x)
    | (with_reducible refine modIsland_keeps ?_)
    | (with_reducible refine setCount_keeps ?_)

theorem chooseImage_keeps {s₀ s : State} (hk : Keeps s₀ s) :
    Keeps s₀ (chooseImage s).2 := by
  unfold chooseImage
  repeat' first
    | with_reducible assumption
    | (extract_lets +onlyGivenNames x; first
        | (refine keeps_cut (s₀ := s₀) (t := x) ?_ fun hx => ?_) <;> first | (revert hx; clear_value x; intro _) | subst x
        | (refine keeps_cut2 (s₀ := s₀) (t := x) ?_ fun hx => ?_) <;> first | (revert hx; clear_value x; intro _) | subst x
        | clear_value x
        | subst x)
    | (with_reducible refine keeps_ite2 ?_ ?_)
    | (with_reducible refine keeps_ite ?_ ?_)
    | (with_reducible refine writeBoot_keeps ?_)
    | dsimp only
    | split

theorem bootFailed_keeps {s₀ s : State} (hk : Keeps s₀ s) :
    Keeps s₀ (bootFailed s) := by
  unfold bootFailed
  repeat' first
    | with_reducible assumption
    | (with_reducible refine modIsland_keeps ?_)
    | (with_reducible refine setDevState_keeps ?_)

theorem measureStandby_keeps {s₀ s : State} {w : FwImage} (hk : Keeps s₀ s) :
    Keeps s₀ (measureStandby w s) := by
  unfold measureStandby
  repeat' first
    | with_reducible assumption
    | (with_reducible refine measure_keeps ?_)
    | (with_reducible refine setBlob_keeps ?_)

theorem bootImage_keeps {s₀ s : State} (hk : Keeps s₀ s) :
    Keeps s₀ (bootImage s) := by
  unfold bootImage
  repeat' first
    | with_reducible assumption
    | (extract_lets +onlyGivenNames x; first
        | (refine keeps_cut (s₀ := s₀) (t := x) ?_ fun hx => ?_) <;> first | (revert hx; clear_value x; intro _) | subst x
        | (refine keeps_cut2 (s₀ := s₀) (t := x) ?_ fun hx => ?_) <;> first | (revert hx; clear_value x; intro _) | subst x
        | clear_value x
        | subst x)
    | (with_reducible refine keeps_ite ?_ ?_)
    | (with_reducible refine modIsland_keeps ?_)
    | (with_reducible refine chooseImage_keeps ?_)
    | (with_reducible refine keeps_of_pair (chooseImage_keeps ?_) ‹_›)
    | (with_reducible refine setCount_keeps ?_)
    | (with_reducible refine annal_keeps ?_)
    | (with_reducible refine bootFailed_keeps ?_)
    | (with_reducible refine measureStandby_keeps ?_)
    | (with_reducible refine powerOn_keeps ?_)
    | dsimp only
    | split

theorem applyNum_keeps {s₀ s : State} {r : ObjRef} {v : Nat} (hk : Keeps s₀ s) :
    KeepsO s₀ (applyNum r v s) := by
  unfold applyNum
  repeat' first
    | with_reducible assumption
    | (with_reducible refine keeps_someO ?_)
    | with_reducible exact keeps_noneO
    | (extract_lets +onlyGivenNames x; first
        | (refine keeps_cut (s₀ := s₀) (t := x) ?_ fun hx => ?_) <;> first | (revert hx; clear_value x; intro _) | subst x
        | (refine keeps_cut2 (s₀ := s₀) (t := x) ?_ fun hx => ?_) <;> first | (revert hx; clear_value x; intro _) | subst x
        | (refine keeps_cutF (s₀ := s₀) (t := x) ?_ fun hx => ?_) <;> first | (revert hx; clear_value x; intro hF) | subst x
        | (refine keeps_cutG (s₀ := s₀) (t := x) ?_ fun hx => ?_) <;> first | (revert hx; clear_value x; intro hF) | subst x
        | (refine keeps_cutH (s₀ := s₀) (t := x) ?_ fun hx => ?_) <;> first | (revert hx; clear_value x; intro hF) | subst x
        | clear_value x
        | subst x)
    | (refine fun a b (y : State) (hy : Keeps s₀ y) => ?_; try dsimp only)
    | (refine fun a (y : State) (hy : Keeps s₀ y) => ?_; try dsimp only)
    | (refine fun (y : State) (hy : Keeps s₀ y) => ?_; try dsimp only)
    | (with_reducible refine keeps_iteO ?_ ?_)
    | (with_reducible refine keeps_ite ?_ ?_)
    | (with_reducible refine modDict_keeps ?_)
    | (with_reducible refine writeNum_keeps ?_)
    | (with_reducible refine keeps_of_pair (writeNum_keeps ?_) ‹_›)
    | (with_reducible refine hF _ _ _ ?_)
    | (with_reducible refine hF _ _ ?_)
    | (with_reducible refine hF _ ?_)
    | (with_reducible refine (‹∀ y, Keeps s₀ y → Keeps s₀ _›) _ ?_)
    | (with_reducible refine (‹∀ a y, Keeps s₀ y → Keeps s₀ _›) _ _ ?_)
    | (with_reducible refine (‹∀ a b y, Keeps s₀ y → Keeps s₀ _›) _ _ _ ?_)
    | dsimp only
    | split

theorem applyDom_keeps {s₀ s : State} {r : ObjRef} {b : Bytes} (hk : Keeps s₀ s) :
    KeepsO s₀ (applyDom r b s) := by
  unfold applyDom
  repeat' first
    | with_reducible assumption
    | (with_reducible refine keeps_someO ?_)
    | with_reducible exact keeps_noneO
    | (extract_lets +onlyGivenNames x; first
        | (refine keeps_cut (s₀ := s₀) (t := x) ?_ fun hx => ?_) <;> first | (revert hx; clear_value x; intro _) | subst x
        | (refine keeps_cut2 (s₀ := s₀) (t := x) ?_ fun hx => ?_) <;> first | (revert hx; clear_value x; intro _) | subst x
        | (refine keeps_cutF (s₀ := s₀) (t := x) ?_ fun hx => ?_) <;> first | (revert hx; clear_value x; intro hF) | subst x
        | (refine keeps_cutG (s₀ := s₀) (t := x) ?_ fun hx => ?_) <;> first | (revert hx; clear_value x; intro hF) | subst x
        | (refine keeps_cutH (s₀ := s₀) (t := x) ?_ fun hx => ?_) <;> first | (revert hx; clear_value x; intro hF) | subst x
        | clear_value x
        | subst x)
    | (refine fun a b (y : State) (hy : Keeps s₀ y) => ?_; try dsimp only)
    | (refine fun a (y : State) (hy : Keeps s₀ y) => ?_; try dsimp only)
    | (refine fun (y : State) (hy : Keeps s₀ y) => ?_; try dsimp only)
    | (with_reducible refine keeps_iteO ?_ ?_)
    | (with_reducible refine keeps_ite ?_ ?_)
    | (with_reducible refine modDict_keeps ?_)
    | (with_reducible refine writeBytes_keeps ?_)
    | (with_reducible refine keeps_of_pair (writeBytes_keeps ?_) ‹_›)
    | (with_reducible refine hF _ _ _ ?_)
    | (with_reducible refine hF _ _ ?_)
    | (with_reducible refine hF _ ?_)
    | (with_reducible refine (‹∀ y, Keeps s₀ y → Keeps s₀ _›) _ ?_)
    | (with_reducible refine (‹∀ a y, Keeps s₀ y → Keeps s₀ _›) _ _ ?_)
    | (with_reducible refine (‹∀ a b y, Keeps s₀ y → Keeps s₀ _›) _ _ _ ?_)
    | dsimp only
    | split

theorem applyStored_keeps {s₀ s : State} {e : Nat × (Nat ⊕ Bytes)} (hk : Keeps s₀ s) :
    Keeps s₀ (applyStored e s) := by
  unfold applyStored
  repeat' first
    | with_reducible assumption
    | (extract_lets +onlyGivenNames x; first
        | (refine keeps_cut (s₀ := s₀) (t := x) ?_ fun hx => ?_) <;> first | (revert hx; clear_value x; intro _) | subst x
        | (refine keeps_cutO (s₀ := s₀) (t := x) ?_ fun hx => ?_) <;> first | (revert hx; clear_value x; intro _) | subst x
        | clear_value x
        | subst x)
    | (with_reducible refine applyNum_keeps ?_)
    | (with_reducible refine KeepsO.get (applyNum_keeps ?_) ‹_›)
    | (with_reducible refine applyDom_keeps ?_)
    | (with_reducible refine KeepsO.get (applyDom_keeps ?_) ‹_›)
    | (with_reducible refine bump_keeps ?_)
    | (with_reducible refine keeps_getD ?_ ?_)
    | with_reducible exact keeps_noneO
    | split

theorem applyStore_keeps {s₀ s : State} (hk : Keeps s₀ s) :
    Keeps s₀ (applyStore s) := by
  unfold applyStore
  repeat' first
    | with_reducible assumption
    | (extract_lets +onlyGivenNames x; first
        | (refine keeps_cut (s₀ := s₀) (t := x) ?_ fun hx => ?_) <;> first | (revert hx; clear_value x; intro _) | subst x
        | (refine keeps_cut2 (s₀ := s₀) (t := x) ?_ fun hx => ?_) <;> first | (revert hx; clear_value x; intro _) | subst x
        | clear_value x
        | subst x)
    | (with_reducible refine modDict_keeps ?_)
    | (with_reducible refine modDev_keeps ?_)
    | (with_reducible refine applyStored_keeps ?_)
    | (with_reducible refine foldl_keeps (fun s x h => ?_) ?_)
    | (with_reducible refine foldl_pair_keeps (fun s x h => ?_) ?_)
    | (with_reducible refine foldl_fst_keeps (fun s x h => ?_) ?_)
    | dsimp only
    | split

theorem loadTraffic_keeps {s₀ s : State} (hk : Keeps s₀ s) :
    Keeps s₀ (loadTraffic s) := by
  unfold loadTraffic
  repeat' first
    | with_reducible assumption
    | (with_reducible refine loadShaper_keeps ?_)
    | (with_reducible refine loadPolicer_keeps ?_)
    | (with_reducible refine foldl_keeps (fun s x h => ?_) ?_)
    | (with_reducible refine foldl_pair_keeps (fun s x h => ?_) ?_)
    | (with_reducible refine foldl_fst_keeps (fun s x h => ?_) ?_)
    | dsimp only

theorem spreadKeys_keeps {s₀ s : State} (hk : Keeps s₀ s) :
    Keeps s₀ (spreadKeys s) := by
  unfold spreadKeys
  repeat' first
    | with_reducible assumption
    | (with_reducible refine keeps_ite ?_ ?_)
    | (with_reducible refine modMire_keeps ?_)
    | (with_reducible refine setDom_keeps ?_)
    | (with_reducible refine foldl_keeps (fun s x h => ?_) ?_)
    | (with_reducible refine foldl_pair_keeps (fun s x h => ?_) ?_)
    | (with_reducible refine foldl_fst_keeps (fun s x h => ?_) ?_)
    | dsimp only
    | split

theorem measureHubs_keeps {s₀ s : State} (hk : Keeps s₀ s) :
    Keeps s₀ (measureHubs s) := by
  unfold measureHubs
  repeat' first
    | with_reducible assumption
    | (extract_lets +onlyGivenNames x; first
        | (refine keeps_cut (s₀ := s₀) (t := x) ?_ fun hx => ?_) <;> first | (revert hx; clear_value x; intro _) | subst x
        | (refine keeps_cut2 (s₀ := s₀) (t := x) ?_ fun hx => ?_) <;> first | (revert hx; clear_value x; intro _) | subst x
        | clear_value x
        | subst x)
    | (with_reducible refine setBlob_keeps ?_)
    | (with_reducible refine measure_keeps ?_)
    | (with_reducible refine foldl_keeps (fun s x h => ?_) ?_)
    | (with_reducible refine foldl_pair_keeps (fun s x h => ?_) ?_)
    | (with_reducible refine foldl_fst_keeps (fun s x h => ?_) ?_)
    | dsimp only
    | split

theorem startHubs_keeps {s₀ s : State} {badHubs : Nat} (hk : Keeps s₀ s) :
    Keeps s₀ (startHubs badHubs s) := by
  unfold startHubs
  repeat' first
    | with_reducible assumption
    | (extract_lets +onlyGivenNames x; first
        | (refine keeps_cut (s₀ := s₀) (t := x) ?_ fun hx => ?_) <;> first | (revert hx; clear_value x; intro _) | subst x
        | clear_value x
        | subst x)
    | (with_reducible refine keeps_ite ?_ ?_)
    | (with_reducible refine modHubs_keeps ?_)
    | split

theorem startAnnals_keeps {s₀ s : State} (hk : Keeps s₀ s) :
    Keeps s₀ (startAnnals s) := by
  unfold startAnnals
  repeat' first
    | with_reducible assumption
    | (extract_lets +onlyGivenNames x; first
        | (refine keeps_cut (s₀ := s₀) (t := x) ?_ fun hx => ?_) <;> first | (revert hx; clear_value x; intro _) | subst x
        | clear_value x
        | subst x)
    | (with_reducible refine modTele_keeps ?_)
    | split

theorem retireColumnBist_keeps {s₀ s : State} {n phys : Nat} (hk : Keeps s₀ s) :
    Keeps s₀ (retireColumnBist n phys s) := by
  unfold retireColumnBist
  repeat' first
    | with_reducible assumption
    | (extract_lets +onlyGivenNames x; first
        | (refine keeps_cut (s₀ := s₀) (t := x) ?_ fun hx => ?_) <;> first | (revert hx; clear_value x; intro _) | subst x
        | clear_value x
        | subst x)
    | (with_reducible refine keeps_ite ?_ ?_)
    | (with_reducible refine failColumn_keeps ?_)
    | (with_reducible refine switchColumn_keeps ?_)
    | (with_reducible refine breakArray_keeps ?_)
    | split

theorem retireEngineBist_keeps {s₀ s : State} {t phys : Nat} (hk : Keeps s₀ s) :
    Keeps s₀ (retireEngineBist t phys s) := by
  unfold retireEngineBist
  repeat' first
    | with_reducible assumption
    | (with_reducible refine keeps_ite ?_ ?_)
    | (with_reducible refine mereBoundary_keeps ?_)
    | (with_reducible refine killEngine_keeps ?_)
    | (with_reducible refine modMere_keeps ?_)
    | split

theorem retireCoreBist_keeps {s₀ s : State} {k phys : Nat} (hk : Keeps s₀ s) :
    Keeps s₀ (retireCoreBist k phys s) := by
  unfold retireCoreBist
  repeat' first
    | with_reducible assumption
    | (with_reducible refine keeps_ite ?_ ?_)
    | (with_reducible refine modCarr_keeps ?_)
    | (with_reducible refine killCore_keeps ?_)
    | split

theorem retireWave_keeps {s₀ s : State} {e u : Nat} (hk : Keeps s₀ s) :
    Keeps s₀ (retireWave e u s) := by
  unfold retireWave
  repeat' first
    | with_reducible assumption
    | (extract_lets +onlyGivenNames x; first
        | (refine keeps_cut (s₀ := s₀) (t := x) ?_ fun hx => ?_) <;> first | (revert hx; clear_value x; intro _) | subst x
        | clear_value x
        | subst x)
    | (with_reducible refine keeps_ite ?_ ?_)
    | (with_reducible refine modPort_keeps ?_)
    | (with_reducible refine askMove_keeps ?_)
    | (with_reducible refine spareSwitch_keeps ?_)
    | split

theorem retireUnit_keeps {s₀ s : State} {u : Nat × Nat × Nat} (hk : Keeps s₀ s) :
    Keeps s₀ (retireUnit u s) := by
  unfold retireUnit
  repeat' first
    | with_reducible assumption
    | (extract_lets +onlyGivenNames x; first
        | (refine keeps_cut (s₀ := s₀) (t := x) ?_ fun hx => ?_) <;> first | (revert hx; clear_value x; intro _) | subst x
        | clear_value x
        | subst x)
    | (with_reducible refine keeps_ite ?_ ?_)
    | (with_reducible refine retireColumnBist_keeps ?_)
    | (with_reducible refine retireEngineBist_keeps ?_)
    | (with_reducible refine loseTile_keeps ?_)
    | (with_reducible refine retireCoreBist_keeps ?_)
    | (with_reducible refine unitLost_keeps ?_)
    | (with_reducible refine modPc_keeps ?_)
    | (with_reducible refine retireWave_keeps ?_)
    | (with_reducible refine modTarget_keeps ?_)
    | (with_reducible refine failStack_keeps ?_)
    | (with_reducible refine loseEngine_keeps ?_)
    | (with_reducible refine loseDie_keeps ?_)
    | split

theorem loseByBit_keeps {s₀ s : State} {b : Nat} (hk : Keeps s₀ s) :
    Keeps s₀ (loseByBit b s) := by
  unfold loseByBit
  repeat' first
    | with_reducible assumption
    | (with_reducible refine keeps_ite ?_ ?_)
    | (with_reducible refine loseTile_keeps ?_)
    | (with_reducible refine failStack_keeps ?_)
    | (with_reducible refine loseEngine_keeps ?_)
    | (with_reducible refine loseDie_keeps ?_)
    | split

theorem zeroMemories_keeps {s₀ s : State} (hk : Keeps s₀ s) :
    Keeps s₀ (zeroMemories s) := by
  unfold zeroMemories
  repeat' first
    | with_reducible assumption
    | (with_reducible refine modMem_keeps (fun m hm => by simp_all [Mems.wf]) ?_)

theorem restoreIndex_keeps {s₀ s : State} {k : Nat} (hk : Keeps s₀ s) :
    Keeps s₀ (restoreIndex k s) := by
  unfold restoreIndex
  repeat' first
    | with_reducible assumption
    | (extract_lets +onlyGivenNames x; first
        | (refine keeps_cut (s₀ := s₀) (t := x) ?_ fun hx => ?_) <;> first | (revert hx; clear_value x; intro _) | subst x
        | (refine keeps_cut2 (s₀ := s₀) (t := x) ?_ fun hx => ?_) <;> first | (revert hx; clear_value x; intro _) | subst x
        | clear_value x
        | subst x)
    | (with_reducible refine keeps_ite ?_ ?_)
    | (with_reducible refine blankIndex_keeps ?_)
    | (with_reducible refine putIndex_keeps ?_)
    | (with_reducible refine writeI_keeps ?_)
    | (with_reducible refine linkKey_keeps ?_)
    | (with_reducible refine writeAttrs_keeps ?_)
    | (with_reducible refine writeTomb_keeps ?_)
    | (with_reducible refine writePc_keeps ?_)
    | (with_reducible refine writeCell_keeps ?_)
    | (with_reducible refine foldl_keeps (fun s x h => ?_) ?_)
    | (with_reducible refine foldl_pair_keeps (fun s x h => ?_) ?_)
    | (with_reducible refine foldl_fst_keeps (fun s x h => ?_) ?_)
    | dsimp only
    | split

theorem restoreTable_keeps {s₀ s : State} {k : Nat} (hk : Keeps s₀ s) :
    Keeps s₀ (restoreTable k s) := by
  unfold restoreTable
  repeat' first
    | with_reducible assumption
    | (extract_lets +onlyGivenNames x; first
        | (refine keeps_cut (s₀ := s₀) (t := x) ?_ fun hx => ?_) <;> first | (revert hx; clear_value x; intro _) | subst x
        | (refine keeps_cut2 (s₀ := s₀) (t := x) ?_ fun hx => ?_) <;> first | (revert hx; clear_value x; intro _) | subst x
        | clear_value x
        | subst x)
    | (with_reducible refine keeps_ite ?_ ?_)
    | (with_reducible refine spaceBytes_keeps ?_)
    | (with_reducible refine keeps_of_pair (spaceBytes_keeps ?_) ‹_›)
    | (with_reducible refine writeI_keeps ?_)
    | (with_reducible refine foldl_keeps (fun s x h => ?_) ?_)
    | (with_reducible refine foldl_pair_keeps (fun s x h => ?_) ?_)
    | (with_reducible refine foldl_fst_keeps (fun s x h => ?_) ?_)
    | dsimp only
    | split

theorem replayDie_keeps {s₀ s : State} {d : Nat} (hk : Keeps s₀ s) :
    Keeps s₀ (replayDie d s) := by
  unfold replayDie
  repeat' first
    | with_reducible assumption
    | (extract_lets +onlyGivenNames x; first
        | (refine keeps_cut (s₀ := s₀) (t := x) ?_ fun hx => ?_) <;> first | (revert hx; clear_value x; intro _) | subst x
        | clear_value x
        | subst x)
    | (with_reducible refine bump_keeps ?_)
    | (with_reducible refine modDie_keeps ?_)
    | (with_reducible refine annal_keeps ?_)
    | split

theorem trainChannel_keeps {s₀ s : State} {c rate unused : Nat} (hk : Keeps s₀ s) :
    Keeps s₀ (trainChannel c rate unused s) := by
  unfold trainChannel
  repeat' first
    | with_reducible assumption
    | (extract_lets +onlyGivenNames x; first
        | (refine keeps_cut (s₀ := s₀) (t := x) ?_ fun hx => ?_) <;> first | (revert hx; clear_value x; intro _) | subst x
        | clear_value x
        | subst x)
    | (with_reducible refine keeps_ite ?_ ?_)
    | (with_reducible refine setCount_keeps ?_)
    | split

theorem placeHarvest_keeps {s₀ s : State} {k : Nat} (hk : Keeps s₀ s) :
    Keeps s₀ (placeHarvest k s) := by
  unfold placeHarvest
  repeat' first
    | with_reducible assumption
    | (with_reducible refine keeps_ite ?_ ?_)
    | (with_reducible refine placeChain_keeps ?_)
    | split

theorem placeRefresh_keeps {s₀ s : State} {k : Nat} (hk : Keeps s₀ s) :
    Keeps s₀ (placeRefresh k s) := by
  unfold placeRefresh
  repeat' first
    | with_reducible assumption
    | (with_reducible refine keeps_ite ?_ ?_)
    | (with_reducible refine placeChain_keeps ?_)
    | split

theorem zeroTested_keeps {s₀ s : State} {code : Nat} (hk : Keeps s₀ s) :
    Keeps s₀ (zeroTested code s) := by
  unfold zeroTested
  repeat' first
    | with_reducible assumption
    | (extract_lets +onlyGivenNames x; first
        | (refine keeps_cut (s₀ := s₀) (t := x) ?_ fun hx => ?_) <;> first | (revert hx; clear_value x; intro _) | subst x
        | clear_value x
        | subst x)
    | (with_reducible refine keeps_ite ?_ ?_)
    | (with_reducible refine modMem_keeps (fun m hm => by simp_all [Mems.wf, Memory.wf_zero]) ?_)
    | split

end Sys2Proof.Machine
end

