-- ==== Sys2Proof/Laws/KeepsIdle.lean ====
section
/-! SUPPORT. What the operations of Machine/Idle.lean keep. -/

namespace Sys2Proof.Machine

open Sys2Proof

theorem idle_keeps {s₀ s : State} (hk : Keeps s₀ s) :
    Keeps s₀ (idle s) := by
  unfold idle
  repeat' first
    | with_reducible assumption
    | (with_reducible refine modClock_keeps ?_)

end Sys2Proof.Machine
end

