-- ==== Sys2Proof/Tests/Slice0.lean ====
section
/-! SUPPORT. Tests of the model: states that meet the premises of the statements, single effects worked out from the spec's text, and terms that
are not well formed. -/

namespace Sys2Proof.Tests

open Sys2Proof

open Sys2Proof.Machine

set_option Elab.async false

/-- A device in a state, with both hubs up, hub N primary, in the life cycle MANUF. -/
def inState (st : DevState) : State :=
  { State.reset with dev := { state := st }, dict := { counts := [(okey 0xC000 1, 1)] },
                     hubs := { hn := { present := true, primary := true, deciding := true }, hs := { present := true } } }

/-- A device in CONFIG. -/
def config : State := inState .config

/-- A device that serves. -/
def serving : State := inState .serving

/-- The administrative mailbox of port 0. -/
def host : Path := .mbox 0 0

/-- An Afwell session. -/
def side : Path := .side 0 1

/-- Whether a command gives a next state that passes a check. -/
def runs (c : Instr) (s : State) (check : State → Bool) : Bool :=
  match exec c s with
  | .next t => check t
  | _ => false

/-- An open window of slot 0 on pseudo-channel 0. -/
def window0 : Window := ⟨7, 0, 0, 4, 1, 9, 0, 5, 0, 40000, 0, [0], 0, 0, 0, 4096, [], []⟩

/-- A device with a core of an IMAGE window on pseudo-channel 0 and a core of SYSTEM on pseudo-channel 1. -/
def cores : State :=
  { serving with slots := [(0, { state := .active, cellBase := 16, cellCount := 4 })],
                 carr := { pcs := [(0, { mode := .pnm })], windows := [window0],
                           cores := [(0, { running := true, length := 16, window := some 7, g := [0, 5, 7, 0xFFFFFFFF] ++ List.replicate 12 0 }),
                                     (3, { g := [0, 5, 7, 0x40000000] ++ List.replicate 12 0, rows := [] })] } }

/-- The cores with the SYSTEM core of pseudo-channel 1 changed. -/
def coresWith (f : Core → Core) : State := modCore 1 1 f cores

/-- The premise of the statements on single instructions is met in both modes. -/
theorem test_core_ready : CoreReady cores 0 0 ∧ CoreReady cores 1 1 ∧ ¬CoreReady cores 0 1 ∧ ¬CoreReady serving 1 0 := by
  unfold CoreReady; decide +kernel

/-- ADD and its frame: the destination takes the sum modulo 2^32, g0 stays zero (09, instruction table). -/
theorem test_add : runs (.carrAdd 0 0 4 1 3) cores (fun t => (coreAt t 0 0).gr 4 = 4 && (coreAt t 0 0).pc = 1 && (coreAt t 0 0).gr 1 = 5) = true ∧
    runs (.carrAdd 0 0 0 1 2) cores (fun t => (coreAt t 0 0).gr 0 = 0 && (coreAt t 0 0).pc = 1) = true := by decide +kernel

/-- SRA keeps the sign, SLT compares signed and SLTU unsigned. -/
theorem test_signs : runs (.carrSra 0 0 4 3 1) cores (fun t => (coreAt t 0 0).gr 4 = 0xFFFFFFFF) = true ∧
    runs (.carrSlt 0 0 4 3 1) cores (fun t => (coreAt t 0 0).gr 4 = 1) = true ∧
    runs (.carrSltu 0 0 4 3 1) cores (fun t => (coreAt t 0 0).gr 4 = 0) = true := by decide +kernel

/-- GETS with a window and without one. -/
theorem test_gets_premises : getsValue cores 0 (coreAt cores 0 0) 7 = some 9 ∧ getsValue cores 0 (coreAt cores 0 0) 0 = some 0 ∧
    getsValue cores 1 (coreAt cores 1 1) 1 = none ∧ getsValue cores 1 (coreAt cores 1 1) 3 = some 1 := by decide +kernel

/-- A branch taken and one not taken, with a target inside the program. -/
theorem test_branch_premises : (coreAt cores 0 0).grBad 1 = false ∧ branchTarget (coreAt cores 0 0) 14 < coreLength cores 0 0 ∧
    ¬branchTarget (coreAt cores 0 0) 0x3FFFE < coreLength cores 0 0 ∧ ((coreAt cores 1 1).gr 1 + sext18 506).toNat < 512 ∧
    runs (.carrBne 0 0 1 2 14) cores (fun t => (coreAt t 0 0).pc = 15) = true ∧
    runs (.carrBeq 0 0 1 2 14) cores (fun t => (coreAt t 0 0).pc = 1) = true := by decide +kernel

/-- Whether a load gives this many bytes without poison. -/
def gives (n : Nat) (l : Loaded) : Bool :=
  match l with
  | .val b false _ => b.length = n
  | _ => false

/-- Whether a store is made. -/
def goes (i : Issue) : Bool :=
  match i with
  | .go _ => true
  | _ => false

/-- Loads and stores that give a value: stage store of a window, DRAM and staging rows of SYSTEM, scratch. -/
theorem test_access_premises :
    gives 4 (loadCore 0 0 (coreAt cores 0 0) 0x40000FFC 4 4 cores) = true ∧ gives 2 (loadCore 1 1 (coreAt cores 1 1) 2 2 2 cores) = true ∧
    gives 1 (loadCore 1 1 (coreAt cores 1 1) 0x8000FFFF 1 1 cores) = true ∧ gives 64 (loadCore 1 1 (coreAt cores 1 1) 0x40000000 64 64 cores) = true ∧
    goes (storeCore 0 0 (coreAt cores 0 0) 0x40000FFC (toLE 4 9) false cores) = true ∧
    goes (storeCore 1 1 (coreAt cores 1 1) 0 (toLE 64 9) false cores) = true ∧
    goes (storeCore 1 1 (coreAt cores 1 1) 0x8000FFFF (toLE 1 9) true cores) = true ∧
    goes (storeCore 1 1 (coreAt cores 1 1) 0xC0FFFFFE (toLE 2 9) false cores) = true := by decide +kernel

/-- SW writes four bytes, low byte first, and no other. -/
theorem test_store : runs (.carrSw 1 1 3 0 0x100) (coresWith fun k => { k with g := [0, 5, 7, 0x01020304] ++ List.replicate 12 0 })
    (fun t => t.mem.carr = [(dramKey 1 0x100, 4), (dramKey 1 0x101, 3), (dramKey 1 0x102, 2), (dramKey 1 0x103, 1)]) = true := by decide +kernel

/-- The ADC unit: its configuration read from a PQ-8 block, a row queued, and an empty queue with a configuration. -/
def adcReady : State := coresWith fun k => { k with adc := some ⟨false, 0x100, 0x200, 1⟩ }

/-- A core whose g1 names bytes in the stage store. -/
def adcPlace : State :=
  let s := coresWith fun k => { k with adc := some ⟨false, 0x100, 0x200, 1⟩, g := [0, 0x40000000, 7, 0x7FC00000] ++ List.replicate 12 0 }
  { s with mem := { s.mem with stage := [(0x100006, 1), (0x100007, 1)] } }

/-- The premises on the ADC unit and the list. -/
theorem test_adc_premises : CoreReady adcPlace 1 1 ∧
    (match loadCore 1 1 (coreAt adcPlace 1 1) ((coreAt adcPlace 1 1).gr 1).toNat 16 4 adcPlace with
      | .val b false _ => decide (leAt b 7 1 < 4 ∧ leAt b 6 1 = 1) | _ => false) = true ∧
    (coreAt adcPlace 1 1).adc.isSome = true ∧ ((coreAt adcPlace 1 1).gr 1).toNat / 0x100000 = 0x400 ∧ (coreAt adcPlace 1 1).rows = [] ∧
    isNan32 ((coreAt adcPlace 1 1).gr 3).toNat = true ∧ isNan32 ((coreAt adcPlace 1 1).gr 2).toNat = false ∧
    (coreAt (coresWith fun k => { k with rows := [⟨0, 0, false⟩] }) 1 1).rows = [⟨0, 0, false⟩] := by
  unfold CoreReady; decide +kernel

/-- SINS keeps the eight best, lower score first, and counts a NaN. -/
theorem test_list : runs (.sins 1 1 2 1) adcPlace (fun t => (coreAt t 1 1).list = [(7, 0x40000000)]) = true ∧
    runs (.sins 1 1 3 1) adcPlace (fun t => (coreAt t 1 1).list = [] && (coreAt t 1 1).nans = 1) = true := by decide +kernel

/-- A SYSTEM core whose g1 to g3 name three rows of one subarray, a row that is queued, and one that runs. -/
def rowsReady : State :=
  { (coresWith fun k => { k with g := [0, 0x1F9, 0x001, 0x002] ++ List.replicate 12 0 }) with clock := { now := 60 } }

/-- The row operation that the tests queue. -/
def rowOp1 : RowOp := ⟨4, 0x1F9, 1, 1, none, none⟩

/-- The premises on row operations. -/
theorem test_row_premises : CoreReady rowsReady 1 1 ∧ RowOk rowsReady 1 1 (coreAt rowsReady 1 1) true 1 2 3 ∧
    RowOk rowsReady 1 1 (coreAt rowsReady 1 1) false 1 2 2 ∧ (coreAt rowsReady 1 1).queue.length < 8 ∧ rowsEnded rowsReady 1 1 = true ∧
    rowAllowed (modCore 1 1 (fun k => { k with queue := [rowOp1] }) rowsReady) 1 rowOp1 = true ∧
    (pcAt (modPc 1 (fun p => { p with active := [{ rowOp1 with start := some 0 }] }) rowsReady) 1).active = [{ rowOp1 with start := some 0 }] := by
  refine ⟨by unfold CoreReady; decide +kernel, ?_, ?_, by decide +kernel, by decide +kernel, by decide +kernel, by decide +kernel⟩
  · unfold RowOk
    refine ⟨by decide +kernel, by decide +kernel, fun _ => by decide +kernel, by decide +kernel, by decide +kernel, by decide +kernel, by decide +kernel,
      by decide +kernel, fun h => absurd h (by decide), fun _ => Or.inl rfl, fun _ => Or.inl rfl, fun _ => by decide +kernel, fun h => absurd h (by decide)⟩
  · unfold RowOk
    refine ⟨by decide +kernel, by decide +kernel, fun h => absurd h (by decide), by decide +kernel, by decide +kernel, by decide +kernel, by decide +kernel,
      by decide +kernel, fun h => absurd h (by decide), fun _ => Or.inl rfl, fun _ => Or.inl rfl, fun h => absurd h (by decide), fun h => absurd h (by decide)⟩

/-- The premises on messages, cells and the ends of a program. -/
theorem test_message_premises : (coreAt cores 0 0).sends < 8 ∧ (coreAt cores 0 0).window.bind (windowAt cores) = some window0 ∧
    rowsEnded cores 0 0 = true ∧ (coreAt cores 1 1).window.bind (windowAt cores) = none ∧
    coreCell cores (coreAt cores 1 1) 5 = some (systemCell 5) ∧ coreCell cores (coreAt cores 0 0) 16 = some (cellNo 0 16) ∧
    coreCell cores (coreAt cores 0 0) 20 = none ∧ KMap.getD cores.carr.inbox 1 [] = [] ∧
    (cores.carr.msgs.filter (fun m => m.pc = 1)).length < (coreAt (coresWith fun k => { k with sends := 1 }) 1 1).sends := by decide +kernel

/-- SEND puts one message on its way; a SYSTEM HALT starts again at word 0. -/
theorem test_send_halt : runs (.send 1 1 0 1 2) cores (fun t => t.carr.msgs.length = 1 && (coreAt t 1 1).sends = 1 && (coreAt t 1 1).pc = 1) = true ∧
    runs (.carrHalt 1 1) (coresWith fun k => { k with pc := 9 }) (fun t => (coreAt t 1 1).pc = 0) = true := by decide +kernel

/-- A slot with an image whose stage 4 is a NEARMEM stage of index 2. -/
def withImage : State :=
  { cores with slots := [(0, { state := .active, image := some { stages := List.replicate 4 {} ++ [{ kind := 4, index := 2 }] }, cellBase := 16,
                               cellCount := 4, tSlot := 10 })] }

/-- The premises on windows and requests, the cut point at its first instant. -/
theorem test_window_premises : mainOn withImage = true ∧ withImage.carr.windows.all (fun w => w.id % 64 != 8 % 64) = true ∧
    (withImage.slots.any fun e => e.2.image.isSome && e.2.state.holds && !e.2.halted) = true ∧ windowKind 4 = some 0 ∧ windowKind 5 = some 1 ∧
    window0.opened + window0.length ≤ 39000 + 1000 ∧ windowAt withImage 7 = some window0 ∧ window0.opened + window0.length ≤ 40000 ∧
    (pcAt (modPc 0 (fun p => { p with mode := .drain }) withImage) 0).mode = .drain ∧ stackDead withImage 511 = false ∧ (pcAt withImage 511).mode ≠ .pnm ∧
    nextWindow withImage 511 = none ∧ withImage.carr.deadStacks.contains 7 = false ∧ 0xFFF % 4096 + 1 ≤ 4096 := by decide +kernel

/-- A request in another mode than PNM answers at once, one to a channel in PNM waits. -/
theorem test_requests : runs (.normalRequest 1 32 false 0x1000 8 [] false 0) serving (fun t => match t.outs with | .carr 1 _ 0 b _ :: _ => b.length = 8 | _ => false) = true ∧
    runs (.scrubRow 511 0) serving (fun t => (pcAt t 511).scrub = 1) = true ∧
    runs (.stackFailure 7) serving (fun t => t.carr.deadStacks.contains 7) = true := by decide +kernel

/-- Requests of the administrative mailbox: a U16 object read and written, a DOMAIN in segments, and a lock. -/
def rqRead : Req := { idx := 0x1050, sub := 1, ty := 0 }
/-- A write of the U16 at 0x1050.01. -/
def rqWrite : Req := { idx := 0x1050, sub := 1, ty := 3, data := [0x34, 0x12] }
/-- A first segment of the VRM map. -/
def rqSeg : Req := { idx := 0x2030, sub := 1, ty := 10, data := List.replicate 8 0 }
/-- A second segment of it, which is the last. -/
def rqLast : Req := { idx := 0x2030, sub := 1, ty := 10, off := 8, last := true, data := List.replicate 12 0 }
/-- A lock of the object 0x1050.01. -/
def rqLock : Req := { idx := 0x1050, sub := 1 }
/-- A device with a transfer of 8 bytes begun. -/
def begun : State := { config with dict := { config.dict with transfers := [⟨host, 0x2030, 1, List.replicate 8 0⟩] } }
/-- A device with the object locked. -/
def locked : State := { config with dict := { config.dict with locks := [⟨0x1050, 1, 0⟩] } }

/-- Messages that go to execution, by every opcode and from three paths. -/
theorem test_messages_go : (∀ op ∈ [1, 2, 3, 4, 5, 6], Goes host ⟨op, rqWrite⟩ config) ∧ Goes side ⟨1, rqRead⟩ serving ∧
    Goes (.fabric 5) ⟨1, rqRead⟩ serving ∧ ¬Goes host ⟨1, rqRead⟩ (inState .standby) := by unfold Goes; decide +kernel

/-- What a request finds: an object, a WO object, and each refusal. -/
theorem test_requests_find :
    ((findFor host rqWrite true false).toOption.any fun r =>
      r.obj.kind = .plain && !r.obj.staged && r.obj.ty.size = some 2 && writeBar host r 0x1234 config = .ok) = true ∧
    (findFor host { idx := 0x1050, sub := 0x77 } false false).toOption.isNone = true ∧
    (findFor host { idx := 0x7000, sub := 4 } false false).toOption.isSome = true ∧
    ((findFor host rqSeg true true).toOption.any fun r =>
      r.obj.dlen.most = some 20 && accessBar host r config = .ok && domainBar host r 20 config = .ok) = true ∧
    (findFor host { idx := 0x6000, sub := 0x50 } false false).toOption.isNone = true := by decide +kernel

/-- Segments that continue a transfer, begin one, or do neither. -/
theorem test_segments : continued host rqSeg config = some [] ∧ continued host rqLast begun = some (List.replicate 8 0) ∧
    continued host rqLast config = none ∧ continued host { rqLast with off := 9 } begun = none := by decide +kernel

/-- A write of a U16 stands, and a read returns it, low byte first. -/
theorem test_write_read : runs (.write host rqWrite) config (fun t => rwVal t 0x1050 1 0xFFFF = 0x1234) = true ∧
    runs (.read side rqRead) (setRw 0x1050 1 0x1234 config) (fun t => match t.outs with | .response _ r :: _ => r.data = [0x34, 0x12] && r.status = 0 | _ => false) =
      true := by decide +kernel

/-- The premises on locks: the lock bar, an object that is no recovery object, one already locked, a full table. -/
theorem test_lock_premises : lockBar host 0x1050 1 = .ok ∧ lockBar side 0x1050 1 = .ok ∧
    (objectsOf 0x1050).any (fun r => r.obj.sub = 1 && r.obj.recovery) = false ∧
    (objectsOf 0x1040).any (fun r => r.obj.sub = 3 && r.obj.recovery) = false ∧ isSide side = true ∧
    (objectsOf 0x1040).any (fun r => r.obj.sub = 3 && r.obj.acc = .rws && r.exists_) = true ∧
    (locked.dict.locks.any fun l => l.idx = 0x1050 && (l.sub = 1 || l.sub = 0xFF)) = true := by decide +kernel

/-- A lock stands once it is set and is gone once it is cleared. -/
theorem test_lock : runs (.lock host rqLock) config (fun t => t.dict.locks = [⟨0x1050, 1, 0⟩]) = true ∧
    runs (.unlock host rqLock) locked (fun t => t.dict.locks = []) = true ∧ runs (.lock side rqLock) config (fun t => t.dict.locks = []) = true := by
  decide +kernel

/-- Key objects are there to be read, and are write-only. -/
theorem test_keys : ((objectsOf 0x8030).all fun r => r.obj.acc = .wo) = true ∧
    (findFor side { idx := 0xC020, sub := 1, ty := 10 } false true).toOption.map (fun r => r.obj.acc) = some .wo ∧
    Goes side ⟨3, { idx := 0xC020, sub := 1, ty := 10 }⟩ config := by unfold Goes; decide +kernel

/-- Where a message goes: lost, refused, held, waiting. -/
theorem test_reach : reach host 0x1050 false true (inState .standby) = .silent ∧ reach side 0x3000 false true (inState .standby) = .refused .state ∧
    reach host 0x1050 false true { config with hubs := { hn := { present := true }, grant := some ⟨1, 2, 0⟩ } } = .held ∧
    messageWaits ⟨2, { idx := 0x4000, sub := 2, data := [4, 0, 0, 0] }⟩ cores = true ∧ reach host 0x4000 false true cores = .go ∧
    restrictedHit host ⟨2, rqWrite⟩ config = false ∧ restrictedHit host ⟨1, { idx := 0xF000 }⟩ config = true ∧
    restrictedHit host ⟨1, { idx := 0xF000 }⟩ { config with dict := {} } = false := by decide +kernel

/-- A flit of fabric management from the manager and from another node. -/
def managed (src : Nat) : State :=
  { (setRw 0x7000 2 5 config) with fab := { inbox := [{ type := 9, cls := 0, dst := 0, src := src, owner := 32, tag := 0, last := true, hops := 0, data := toLE 2 1 ++ [0, 1, 0, 1] ++ toLE 2 0x1050 ++ toLE 8 0 }] } }

/-- The premises on fabric messages. -/
theorem test_fabric_message : rwVal (managed 5) 0x7000 2 0xFFFFFFFF = 5 ∧ ((managed 5).fab.inbox.find? (fun g => g.type = 9)).isSome = true ∧
    (∀ f ∈ (managed 5).fab.inbox, Goes (.fabric f.src) (parseMsg f.data) (managed 5) ∧ (parseMsg f.data).req.data.length ≤ 224) ∧
    runs .fmFrame (managed 6) (fun t => countVal t 0x7000 0x0F 0 = 1 && t.fab.inbox = []) = true := by unfold Goes; decide +kernel

/-- The store: reachable, and not full. -/
theorem test_store_premises : reach host 0 false false config = .go ∧ pathPart host = none ∧ pathPart (.mbox 1 32) = some 31 ∧
    storeNums config = [] ∧ reach (.mbox 1 32) 0 false false config = .go := by decide +kernel

/-- RESTORE_DEFAULTS invalidates both copies; a store write that the NOR fails leaves them. -/
theorem test_store_copies : runs (.restoreDefaults host 1 true) { config with dict := { config.dict with storeA := { valid := true } } } (fun t => t.dict.storeA.valid = false) = true ∧
    runs (.store host 1 false) config (fun t => t.dict.storeA = {} && t.dict.storeB = {}) = true := by decide +kernel

/-- Writes of lock clearing and of a driver's range that are let through, with a common version and without. -/
theorem test_version_premises : (∀ st ∈ [DevState.config, .recovery], RowTaken side ⟨objClearLocks, []⟩ 1 (inState st)) ∧
    RowTaken host ⟨objHaRange, []⟩ 0x01000100 config ∧ RowTaken host ⟨objHbRange, []⟩ 0x02000200 config ∧
    commonVersion 0x01000100 0x01000100 = 0x0100 ∧ commonVersion 0x01000100 0x02000200 = 0 ∧
    commonVersion 0x01000100 0x01050102 = 0 := by unfold RowTaken; decide +kernel

/-- A request buffer of a mailbox: a READ of 0x1050.01. -/
def mailboxRead : Bytes := toLE 2 9 ++ [0, 1, 0, 1] ++ toLE 2 0x1050 ++ toLE 8 0

/-- The mailbox premises: idle, busy, malformed, and a request that is executed. -/
theorem test_mailbox_premises : bit 0x00070001 0 = true ∧ (hubSide config 0).present = true ∧ (mboxAt config 0 32).busy = false ∧
    malformed mailboxRead = false ∧ malformed [0, 0, 2] = true ∧ (mboxAt (modMbox 0 32 (fun x => { x with busy := true }) config) 0 32).busy = true ∧
    Goes (.mbox 0 32) (parseMsg mailboxRead) config ∧
    Goes (.mbox 0 32) (parseMsg mailboxRead) (modMbox 0 32 (fun x => { x with request := slice mailboxRead 0 2048, busy := true, done := false, overrun := false, running := bits 0x00070001 31 16 }) config) := by
  unfold Goes; decide +kernel

/-- A go runs the request; done rises with its sequence. A go to a busy mailbox sets the overrun flag. -/
theorem test_mailbox : runs (.mailboxGo 0 0 0x00070001 mailboxRead) config (fun t => (mboxAt t 0 0).done && (mboxAt t 0 0).seq = 7 && !(mboxAt t 0 0).busy) = true ∧
    runs (.mailboxGo 0 0 1 mailboxRead) (modMbox 0 0 (fun x => { x with busy := true }) config) (fun t => (mboxAt t 0 0).overrun) = true := by decide +kernel

/-- A HELLO frame of port 1. -/
def helloFrame : AfFrame := ⟨0x4146, 1, 0, 0, 0, 1, 0, [⟨9, { idx := 0x1010, sub := 2, ty := 10, last := true, data := List.replicate 16 0 ++ toLE 4 0x01000100 }⟩], true⟩
/-- An open session of port 1, with 16 frames accepted. -/
def session5 : Session := ⟨1, 5, 1, 0, [], 16, [15], [(16, [])], 0, false⟩
/-- A device with that session. -/
def inSession : State := { config with dict := { config.dict with sessions := [session5] } }
/-- A frame of that session. -/
def frame5 (n : Nat) : AfFrame := ⟨0x4146, 1, 0, 0, 5, n, 0, [⟨1, rqRead⟩], true⟩

/-- The premises on sessions: a good HELLO and a bad one, a frame that is new, one seen, one below the window, and the timeout. -/
theorem test_session_premises : config.island.alive = true ∧ helloBar 1 (helloFrame.msgs.headD ⟨0, {}⟩).req config = .ok ∧
    helloBar 1 { idx := 0x1010, sub := 2, ty := 10, last := true } config = .length ∧
    helloBar 1 (helloFrame.msgs.headD ⟨0, {}⟩).req { config with dict := { config.dict with sessions := List.replicate 8 session5 } } = .state ∧
    sessionAt inSession 1 5 = some session5 ∧ sessionAt inSession 1 6 = none ∧ frameFits session5 (frame5 17) = true ∧
    frameFits session5 { frame5 17 with tagOk := false } = false ∧ seqNew session5 17 = true ∧ seqNew session5 14 = true ∧ seqNew session5 15 = false ∧
    seqNew session5 16 = false ∧ session5.kept.find? (fun k => k.1 = 16) = some (16, []) ∧ (∀ m ∈ (frame5 17).msgs, Goes (.side 1 5) m inSession) ∧
    session5.lastAt + 60000000000 ≤ 60000000000 := by unfold Goes; decide +kernel

/-- A session opens, and one unheard for 60 s is closed. -/
theorem test_session : runs (.hello 1 helloFrame) config (fun t => t.dict.sessions.length = 1 && t.free = 2) = true ∧
    runs (.sessionTimeout 1 5) { inSession with clock := { now := 60000000000 } } (fun t => t.dict.sessions = []) = true := by decide +kernel

/-- The two hubs 25 µs after the last heartbeat, hub S with its action due. -/
def silentHub : State :=
  { config with clock := { now := 25000 }, hubs := { config.hubs with hs := { present := true, primary := true, due := some 25000, silent := true } } }

/-- The premises on heartbeats, each at its first instant. -/
theorem test_heartbeat_premises : (hubSide silentHub 0).lastSent + 5000 ≤ silentHub.clock.now ∧ (hubSide silentHub 1).lastB + 25000 ≤ silentHub.clock.now ∧
    (hubSide silentHub 1).failedB = false ∧ (hubSide silentHub 1).due = some 25000 ∧ (hubSide silentHub 1).deciding = false ∧ preferredHub silentHub ≠ 1 ∧
    preferredHub (setRw 0x1020 3 1 silentHub) = 1 := by decide +kernel

/-- A silent path fails after 25 µs; the hub not preferred gives primacy up and raises its alarm. -/
theorem test_heartbeat : runs (.heartbeatPathTimeout 1 0) silentHub (fun t => (hubSide t 1).failedA && !(hubSide t 1).failedB) = true ∧
    runs (.passiveDeadline 1) silentHub (fun t => !(hubSide t 1).primary && t.outs.contains (.peerSilent 1)) = true := by decide +kernel

/-- A device in a handover, before its firing has acted. -/
def handing : State := { config with alm := { flight := [⟨1, 7, 32, 0, 1024, false, false⟩] } }

/-- The premises on primacy: a handover allowed and each of its bars, a firing, a grant, and a device without a primary. -/
theorem test_primacy_premises : RowTaken host ⟨objHandoverAt, []⟩ 0 config ∧ handoverBar config = none ∧ handoverBar { config with hubs := { config.hubs with hs := { present := true, failedA := true } } } = some 0 ∧
    handoverBar { config with hubs := { config.hubs with hs := { present := true, fault := true } } } = some 2 ∧
    RowTaken host ⟨objPreferred, []⟩ 1 config ∧ primaryHub config = some 0 ∧ pathsUp config = true ∧ (firingOf handing 1).isSome = true ∧
    handoverBar (actedFiring 1 handing) = none ∧
    RowTaken (.side 1 1) ⟨objPreferred, []⟩ 1 { config with hubs := { hs := { present := true, silent := true } } } ∧
    primaryHub { config with hubs := { hs := { present := true, silent := true } } } = none := by unfold RowTaken; decide +kernel

/-- The handover sends its grant; the grant makes the other hub primary. -/
theorem test_handover : runs .handoverFiring handing (fun t => t.outs = [.grant 1 1] && !(hubSide t 0).primary) = true ∧
    runs (.grantReceive 1 0) { config with hubs := { hn := { present := true }, hs := { present := true }, grant := some ⟨1, 4, 0⟩ } }
      (fun t => (hubSide t 1).deciding && (hubSide t 1).epoch = 4 && t.hubs.grant = none) = true := by decide +kernel

/-- The path that writes the device command. -/
def commander : Path := side

/-- Every device command is let through in the states it is asked in. -/
theorem test_device_premises :
    (∀ st ∈ [DevState.standby, .booting, .config, .serving, .draining, .test, .recovery, .failed], ∀ v ∈ [1, 2, 3, 4, 5, 6, 7, 8, 9],
      RowTaken commander ⟨objDevCommand, []⟩ v (inState st)) ∧
    refclkGood (inState .standby) = true ∧ lifeCycle (inState .standby) = 1 ∧ mayServe config = false ∧
    rwVal (setRw 0x2001 1 1 cores) 0x2001 1 3 = 1 ∧ (cores.slots.any fun e => e.2.state = .active) = true := by unfold RowTaken; decide +kernel

/-- CONFIG to SERVING needs a role that serves and an active slot; DRAIN with no query ends at once. -/
theorem test_device : runs (.startServing side 1) { (setRw 0x2001 1 1 cores) with dev := { state := .config } } (fun t => t.dev.state = .serving) = true ∧
    runs (.startServing side 1) config (fun t => t.dev.state = .config) = true ∧ runs (.drain side 1) serving (fun t => t.dev.state = .config) = true ∧
    runs (.enterTest side 1) config (fun t => t.dev.state = .test) = true ∧ runs (.powerOnMain side 1) (inState .standby) (fun t => t.dev.state = .booting) = true := by
  decide +kernel

/-- The role: found, and open to a write. -/
theorem test_role : ((findObject 0x2001 1).any fun r => writeBar host r 1 config = .ok && r.obj.kind = .role) = true ∧
    KMap.find config.dict.written (okey 0x2001 1) = none ∧ KMap.find config.dict.stored (okey 0x2001 1) = none := by decide +kernel

/-- Slots in each state. -/
def slotIn (dev : DevState) (st : SlotState) : State :=
  setRw 0x3000 1 1 { inState dev with slots := [(3, { state := st, image := some {} })] }

/-- The premises on slot commands. -/
theorem test_slot_premises :
    (∀ v ∈ [1, 2, 3, 4, 5, 6], RowTaken host ⟨objSlotCommand, [0, 3]⟩ v (slotIn .config .resident)) ∧ RowTaken host ⟨objPartEnable, [31]⟩ 0 config ∧
    slotCommandOpen .config 1 = true ∧ slotCommandOpen .draining 3 = true ∧ slotCommandOpen .draining 1 = false ∧ slotCommandFrom .empty 1 = false ∧
    (slotAt (slotIn .serving .staged) 0 3).state = .staged ∧ unloadWaits 0 3 (slotIn .config .resident) = false ∧ unloadWaits 0 0 cores = true ∧
    activationBar (slotIn .config .resident) 0 3 = 0 ∧ (slotAt (slotIn .config .active) 0 3).prevLocked = false ∧
    entryAt (slotIn .config .active) (swapNo 0 3) = none ∧ (placeSlotEntry (activateNo 0 3) 2 0 3 0 (slotIn .serving .resident)).isSome = true := by
  unfold RowTaken; decide +kernel

/-- ACTIVATE at once in CONFIG, UNLOAD empties the slot, RETIRE of a PENDING slot goes back to RESIDENT. -/
theorem test_slots : runs (.activate host 1 0 3) (slotIn .config .resident) (fun t => (slotAt t 0 3).state = .active) = true ∧
    runs (.unload host 1 0 3) (slotIn .config .resident) (fun t => (slotAt t 0 3).state = .empty) = true ∧
    runs (.retire host 1 0 3) (slotIn .serving .pending) (fun t => (slotAt t 0 3).state = .resident) = true := by decide +kernel

/-- A slot whose activation and swap fire. -/
def slotFires (st : SlotState) : State :=
  { slotIn .serving st with alm := { flight := [⟨activateNo 0 3, 2, 0, 3, 1024, false, false⟩, ⟨swapNo 0 3, 3, 0, 3, 1024, false, false⟩] } }

/-- The premises on the instants of a slot. -/
theorem test_slot_time_premises : (firingOf (slotFires .pending) (activateNo 0 3)).isSome = true ∧
    activationBar (actedFiring (activateNo 0 3) (slotFires .pending)) 0 3 = 0 ∧
    rwVal (slotFires .pending) (slotObj 0 3) 8 0xFF ≠ 3 ∧ (firingOf (slotFires .active) (swapNo 0 3)).isSome = true ∧
    swapBar (actedFiring (swapNo 0 3) (slotFires .active)) 0 (slotAt (slotFires .active) 0 3) = 0 ∧ (slotAt (slotFires .active) 0 3).halted = false ∧
    (∀ t ∈ (slotAt (slotFires .active) 0 3).tileMap, t ∉ (slotFires .active).units.lost) ∧ (slotAt config 0 3).image = none := by decide +kernel

/-- A swap turns to the other buffer. -/
theorem test_swap : runs (.swapFiring 0 3) (slotFires .active) (fun t => (slotAt t 0 3).buffer = 1) = true ∧
    runs (.activateFiring 0 3) (slotFires .pending) (fun t => (slotAt t 0 3).state = .active) = true := by decide +kernel

/-- A descriptor of a RANK of one item for its best one. -/
def queryDesc : Bytes := [2] ++ List.replicate 15 0 ++ toLE 8 8 ++ toLE 8 64 ++ [1, 0, 1, 0] ++ List.replicate 28 0
/-- A descriptor of a DELETE. -/
def upsertDesc : Bytes := [0x11] ++ List.replicate 63 0
/-- A serving device with port 1 up at full rate and width, one submission ring with an entry and its completion ring. -/
def ringed : State :=
  { serving with host := { links := [(1, { state := .upPcie, width := 8, rate := 6 })], sqs := [(128, { depth := 16, enabled := true, tail := 1 })],
                           cqs := [(128, { depth := 32, enabled := true })] } }

/-- The premises on the fetch of a descriptor, with one completion entry free and with a descriptor that fails its checks. -/
theorem test_fetch_premises : mainOn ringed = true ∧ ringsOk (linkAt ringed 1) = true ∧ (sqAt ringed 1 0 0).head ≠ (sqAt ringed 1 0 0).tail ∧
    1 ≤ cqFree (cqAt ringed 1 0 0) ∧ fetchCheck (parseDesc queryDesc) (leAt queryDesc 20 4) [] = 0 ∧ fetchCheck (parseDesc [9]) 0 [] = 1 ∧
    cqFree { cqAt ringed 1 0 0 with held := 30 } = 1 := by decide +kernel

/-- A fetch moves the head on and holds one completion entry. -/
theorem test_fetch : runs (.descriptorFetch 1 0 0 queryDesc []) ringed (fun t => (sqAt t 1 0 0).head = 1 && (cqAt t 1 0 0).held = 1 && t.levee.requests.length = 1) = true ∧
    runs (.descriptorFetch 1 0 0 ([9] ++ List.replicate 63 0) []) ringed (fun t => (sqAt t 1 0 0).head = 1 && t.levee.requests = []) = true := by decide +kernel

/-- A fetched request of partition 0. -/
def request (b : Bytes) : Request := { port := 1, part := 0, sq := 0, cq := 0, stamp := 100, stampFt := 100, desc := parseDesc b, payload := [] }
/-- A serving device whose slot 3 serves service 0, with one request fetched and the peer hub in use or not. -/
def judged (b : Bytes) (solo : Bool) : State :=
  setRw 0x3000 1 1 { ringed with hubs := { serving.hubs with solo := solo }, clock := { now := 5000 }, levee := { requests := [request b] },
                                 slots := [(3, { state := .active, image := some { stages := [{ kind := 8, flags := 4 }] }, tSlot := 10, fg := 2000 })] }

/-- The verdicts that the statements speak of all come about. -/
theorem test_verdicts :
    (match (decide_ (request queryDesc) (judged queryDesc true)).1 with | .take 3 _ => true | _ => false) = true ∧
    (match (decide_ (request upsertDesc) (judged upsertDesc true)).1 with | .invalid _ => true | _ => false) = true ∧
    (match (decide_ (request queryDesc) { judged queryDesc true with slots := [] }).1 with | .refuse c => decide (c = 3) | _ => false) = true ∧
    needsMirror (judged queryDesc true) = false ∧ needsMirror (judged queryDesc false) = true ∧ (request queryDesc).desc.isQuery = true ∧
    (judged queryDesc true).levee.requests.find? (fun r => r.part = 0) = some (request queryDesc) ∧ (judged queryDesc true).hubs.grant = none := by decide +kernel

/-- An update that is taken: a DELETE of an index. -/
def upserting : State :=
  { judged upsertDesc true with data := { indices := [(0, { (indexDraft config 0) with state := .ready })] } }

/-- The verdict on it. -/
theorem test_update_verdict : (match (decide_ (request upsertDesc) upserting).1 with | .take _ _ => true | _ => false) = true ∧
    (request upsertDesc).desc.isQuery = false := by decide +kernel

/-- An accepted query has the next number and the deadline of its stamp; with a peer it waits for its mirror write first. -/
theorem test_accept : runs (.leveeDecision 0) (judged queryDesc true) (fun t => (t.levee.queries.map (fun q => (q.id, q.slot))) = [(1, 3)] && t.levee.requests = []) = true ∧
    runs (.leveeDecision 0) (judged queryDesc false) (fun t => t.levee.queries = [] && t.levee.requests.length = 1 && t.outs = [.mirror 1]) = true := by decide +kernel

/-- A request whose mirror write is issued, and two µs old. -/
def mirroring : State :=
  { judged queryDesc false with hubs := { serving.hubs with issued := 1 }, levee := { requests := [{ request queryDesc with mirror := some 1, slot := 3, lmax := 50 }] } }

/-- The premises on mirror writes, at their first instants. -/
theorem test_mirror_premises : mirroring.hubs.acked < 1 ∧ 1 ≤ mirroring.hubs.issued ∧ (request queryDesc).stamp + 2000 ≤ mirroring.clock.now ∧
    (mirroring.levee.requests.any fun r => r.part = 0 && r.mirror.isSome) = true ∧
    runs (.mirrorAck 1) mirroring (fun t => t.hubs.acked = 1 && t.levee.queries.length = 1) = true := by decide +kernel

/-- An accepted query of slot 3, past the last stage of its batch. -/
def query1 : Query := ⟨1, 0, 3, 0, 1, 0, 0, 100, 50100, 50100, 50, 0, 0, 10, parseDesc queryDesc, [], 0, false⟩
/-- A device that holds it. -/
def queried : State :=
  { ringed with clock := { now := 48100, ft := 2000 }, levee := { queries := [query1] },
                slots := [(3, { state := .active, image := some { stages := [{}] }, batches := [⟨0, [1], true, .out, 0, false⟩] })] }
/-- An update committed at the present FT. -/
def commit5 : Commit := ⟨⟨5, 0, 1, 0, 0, 100, 9000, parseDesc upsertDesc, []⟩, 2000, 0⟩
/-- A device that holds it too. -/
def committed : State := { queried with levee := { queried.levee with committed := [commit5] } }

/-- The premises on records, the backstop at its first instant, and the queue samples. -/
theorem test_record_premises : queried.levee.queries.find? (fun v => v.id = 1) = some query1 ∧ query1.deadline ≤ queried.clock.now + 2000 ∧
    (∃ b ∈ (slotAt queried 0 3).batches, b.at_ = .out ∧ 1 ∈ b.queries) ∧ committed.levee.queries.find? (fun v => v.id = 5) = none ∧
    committed.levee.committed.find? (fun v => v.upd.id = 5) = some commit5 ∧ commit5.at_ ≤ committed.clock.ft ∧
    queried.levee.lastSample / 1024 < queried.clock.now / 1024 ∧ (slotAt queried 0 3).halted = false := by
  refine ⟨by decide +kernel, by decide +kernel, ⟨_, List.mem_cons_self, by decide +kernel⟩, ?_⟩; decide +kernel

/-- The backstop ends a query; a record of a tile ends it too; the slack moves the update state. -/
theorem test_records : runs (.backstopExpiry 1) queried (fun t => t.levee.queries = []) = true ∧
    runs (.completionRecordWrite 1 0 0 []) queried (fun t => t.levee.queries = []) = true ∧ nextUpdState .normal (some 1000) 1 5 = .hold ∧
    nextUpdState .normal (some 1001) 1 5 = .warn ∧ nextUpdState .hold (some 5999) 1 5 = .hold ∧ nextUpdState .hold (some 6000) 1 5 = .normal := by decide +kernel

/-- A policer and a shaper whose staged values are good, and ones whose values are not. -/
def staging : State :=
  { config with dict := { config.dict with staged := [(okey 0x3003 2, 4096), (okey 0x3003 4, 4096), (okey 0x3004 1, 1), (okey 0x3004 2, 7), (okey 0x3004 3, 9),
                                                      (okey 0x3004 4, 7), (okey 0x3004 5, 1)] } }

/-- The premises on commits, at the edge of each check. -/
theorem test_commit_premises : RowTaken host ⟨objPolicerCommit, [0, 0]⟩ 1 staging ∧ RowTaken host ⟨objShaperCommit, [0]⟩ 1 staging ∧
    RowTaken host ⟨objShaperCommit, [31]⟩ 0 config ∧ stagedVal staging 0x3004 2 0 ≤ stagedVal staging 0x3004 4 0 ∧ stagedVal staging 0x3003 2 65536 = 4096 ∧
    RowTaken host ⟨objPolicerCommit, [31, 3]⟩ 1 config ∧ stagedVal config 0x31F7 4 0 = 0 ∧ RowTaken host ⟨objResetPeaks, [31]⟩ 1 config := by
  unfold RowTaken; decide +kernel

/-- A commit loads the policer with full buckets. -/
theorem test_commit : runs (.policerCommit host 1 0 0 1) staging (fun t => (KMap.getD t.levee.policers 0 {}).tc = 9 * 65536 && (KMap.getD t.levee.policers 0 {}).mode = 1) = true := by
  decide +kernel

/-- The registers of the rings in each of their cases. -/
theorem test_ring_premises : (sqAt ringed 1 0 0).enabled = true ∧ (sqAt ringed 1 0 1).enabled = false ∧ (cqAt ringed 1 0 0).enabled = true ∧
    (cqAt ringed 1 0 1).enabled = false ∧ bit 0x00100001 0 = true ∧ pow2In (bits 0x00100001 31 16) 16 1024 = true ∧ pow2In (bits 0x00110001 31 16) 16 1024 = false ∧
    pow2In (bits 0x0010000000000001 47 32) 16 4096 = false ∧ pow2In (bits 0x0000001000000001 47 32) 16 4096 = true ∧ (cqAt ringed 1 0 1).reserve = 16 ∧
    bits 0x0000001000000001 47 32 - 1 ≤ 16 ∧ 16 < bits 0x0000002000000001 47 32 - 1 ∧
    countVal (setCount 0x1011 4 0x0100 ringed) 0x1011 (3 + 1) 0 ≠ 0 ∧ countVal ringed 0x1011 (3 + 1) 0 = 0 := by decide +kernel

/-- A tail beyond the ring stops it with code 1; a ring enabled without a version reports code 3. -/
theorem test_ring : runs (.sqTailDoorbell 1 0 0 16) ringed (fun t => (sqAt t 1 0 0).error = 1) = true ∧ runs (.sqTailDoorbell 1 0 0 15) ringed (fun t => (sqAt t 1 0 0).tail = 15) = true ∧
    runs (.sqCtrlWrite 1 0 1 0x00100001) ringed (fun t => (sqAt t 1 0 1).error = 3) = true ∧
    runs (.sqCtrlWrite 1 0 1 0x00100001) (setCount 0x1011 4 0x0100 ringed) (fun t => (sqAt t 1 0 1).enabled && (sqAt t 1 0 1).depth = 16) = true := by decide +kernel

/-- A serving device with a RESULT unit and a BULK unit of 64 bytes queued, each with credit for one, and a record's unit that must leave. -/
def egressing : State :=
  { ringed with levee := { egress := [(2, { units := [⟨.result 0 0 4096 [1], 64, some 0, 0⟩], credit := 64000, rate := 1 }), (3, { units := [⟨.bulk 4096 [1], 64, none, 0⟩], credit := 64000, rate := 1 })] } }
/-- The same with no credit. -/
def overdrawn : State :=
  { ringed with levee := { egress := [(2, { units := [⟨.result 0 0 4096 [1], 64, some 0, 0⟩], credit := 0, rate := 1 })] } }

/-- The premises on egress units, coalescing and links. -/
theorem test_port_premises : (refillEgress 0 (egressAt egressing 0 1 0)).credit = (1000 * 64 : Nat) ∧ portHeld egressing 1 = false ∧
    (egressAt overdrawn 0 1 1).units = [] ∧ (refillEgress 0 (egressAt overdrawn 0 1 0)).credit < (1000 * 64 : Nat) ∧
    (egressAt { ringed with levee := { egress := [(3, { units := [⟨.bulk 4096 [1], 64, none, 0⟩] })] } } 0 1 1).rate = 0 ∧
    (linkAt ringed 1).state ≠ .down ∧ linkUp (linkAt ringed 1) = true ∧ (linkAt ringed 1).d3hot = false ∧ linkUp (linkAt ringed 0) = false ∧
    ringsOk { linkAt ringed 1 with width := 2, retraining := false } = false := by decide +kernel

/-- A completion ring whose first record is 1 µs old, its coalescing time. -/
def coalescing : State :=
  { ringed with clock := { now := 1000 }, host := { ringed.host with cqs := [(128, { depth := 32, enabled := true, coalN := 8, coalT := 1, since := 1, firstAt := some 0, vector := 3 })] } }

/-- A unit leaves; a vector is sent when the coalescing time is over; a link that goes down takes its rings with it. -/
theorem test_ports : runs (.egressUnitSend 0 1 0) egressing (fun t => (egressAt t 0 1 0).units = []) = true ∧ runs (.egressOverdraw 0 1 0) overdrawn (fun t => (egressAt t 0 1 0).credit = -63999 ∨ (egressAt t 0 1 0).credit = -64000) = true ∧
    runs (.coalesceTimeout 1 0 0) coalescing (fun t => t.outs = [.msix 1 3]) = true ∧ runs (.linkDown 1) ringed (fun t => !(sqAt t 1 0 0).enabled && !(cqAt t 1 0 0).enabled) = true := by decide +kernel

/-- The CXL window: writes let through in CONFIG, of every kind of size, and accesses inside and outside. -/
theorem test_cxl_premises : RowTaken host ⟨objCxlSize, [1]⟩ 32768 config ∧ ¬RowTaken host ⟨objCxlSize, [1]⟩ 32769 config ∧ ¬RowTaken host ⟨objCxlSize, [0]⟩ 1 serving ∧
    (claimWindow 1 32768 { config with claims := { regions := [⟨1, 0, 0, 539018395648, 32, .window 0⟩] } }).isSome = false ∧
    (claimWindow 1 32768 config).isSome = true ∧ (linkAt config 1).winSize = 0 := by unfold RowTaken; decide +kernel

/-- An access beyond the window changes nothing. -/
theorem test_cxl : runs (.cxlMemRead 1 1048576 1 false) { ringed with host := { links := [(1, { state := .upCxl, winSize := 1 })] } } (fun t => t.outs = []) = true ∧
    runs (.cxlMemRead 1 1048575 1 false) { ringed with host := { links := [(1, { state := .upCxl, winSize := 1 })] } } (fun t => t.outs.length = 1) = true := by decide +kernel

/-- A 64-byte descriptor with fields at offsets: offset, bytes, value. -/
def desc (l : List (Nat × Nat × Nat)) : Bytes :=
  l.foldl (fun b f => b.take f.1 ++ toLE f.2.1 f.2.2 ++ b.drop (f.1 + f.2.1)) (List.replicate 64 0)

/-- A serving device whose slot 3 runs one stage on tile 5, with 256 contexts, four cells and the tile's whole SRAM, in which one query block has its
scales at 0x1000. -/
def tiled : State :=
  { setRw 0x3000 1 1 serving with
      clock := { now := 5000000000 },
      slots := [(3, { state := .active, image := some { stages := [{ kind := 1, firstTile := 0, tiles := 1 }], claims := [⟨2, 0, 256⟩] }, tileMap := [5],
                      cellBase := 16, cellCount := 4 })],
      claims := { tileOwner := [(5, 3)], regions := [⟨0, 5, 0, 0x13000000, 0, .image 3⟩] },
      mem := { tile := Memory.writeLE (Memory.writeLE [] (tileKey 5 0x1010) 4 0x3F800000) (tileKey 5 0x1014) 4 0x3F800000 } }

/-- The same with array 0 of the tile changed. -/
def arrayed (a : ArrayUnit) : State := { tiled with units := { arrays := [(10, a)] } }

/-- A pass descriptor of format INT8 over one row of results. -/
def pass1 : Bytes := desc [(0, 1, 1), (3, 1, 32), (6, 2, 1), (8, 2, 511), (32, 4, 0x3F800000), (36, 4, 0x3F800000)]

/-- A search that has started, with a second shadow whose ends have come. -/
def search1 : Search := { started := true, shadows := [⟨128, 3, 0, some 7⟩] }

/-- The premises on the arrays: a good pass at the end of the accumulator, a bad one, and each state of the shadow search. -/
theorem test_array_premises : ((tileRole tiled 5).any fun r => r.1 = 3 && r.2.1 = 0 && r.2.2.1 = 0) = true ∧
    passOk (arrayed {}) 3 {} pass1 = true ∧ passOk (arrayed {}) 3 {} (desc [(0, 1, 9)]) = false ∧ (passOf pass1).exp = false ∧ (passOf pass1).last = true ∧
    passOk (arrayed {}) 3 {} (desc [(0, 1, 1), (3, 1, 32), (6, 2, 1), (8, 2, 512), (32, 4, 0x3F800000), (36, 4, 0x3F800000)]) = false ∧
    (arrayAt (arrayed { queue := [pass1] }) 10).queue = [pass1] ∧ (arrayAt (arrayed { search := some search1 }) 10).search = some search1 ∧
    search1.shadows.find? (fun w => w.ends = 0 && w.second.isSome) = some ⟨128, 3, 0, some 7⟩ ∧ (arrayAt tiled 10).search = none := by decide +kernel

/-- The ninth pass is not taken; a refused pass is counted; a second shadow that agrees ends the search. -/
theorem test_arrays : runs (.passEnqueue 5 0 pass1) (arrayed { queue := List.replicate 8 pass1 }) (fun t => (arrayAt t 10).queue.length = 8) = true ∧
    runs (.passEnqueue 5 0 pass1) (arrayed { queue := List.replicate 7 pass1 }) (fun t => (arrayAt t 10).queue.length = 8) = true ∧
    runs (.arrayPass 5 0 [] []) (arrayed { queue := [desc [(0, 1, 9)]] }) (fun t => (arrayAt t 10).queue = [] && countVal t (arrayObj 10) 8 0 = 1) = true ∧
    runs (.shadowAdvance 5 0) (arrayed { search := some search1 }) (fun t => (arrayAt t 10).bad = [7]) = true := by decide +kernel

/-- Jobs of the four operations. -/
def gather1 : Bytes := desc [(0, 1, 4), (2, 2, 1), (8, 4, 2), (32, 2, 64), (36, 4, 1000)]
/-- A REFINE of two records. -/
def refine1 : Bytes := desc [(0, 1, 2), (2, 2, 1), (8, 4, 2), (24, 4, 0x1000), (34, 2, 1), (36, 4, 1000)]
/-- A DIST over two items of 32 elements. -/
def dist1 : Bytes := desc [(0, 1, 3), (2, 2, 1), (8, 4, 2), (24, 4, 0x1000), (32, 2, 32), (34, 2, 1)]
/-- A SIDESCAN over two positions. -/
def scan1 : Bytes := desc [(0, 1, 1), (2, 2, 1), (8, 4, 2), (24, 4, 0x1000), (32, 2, 8), (34, 2, 1)]
/-- Tile 5 with engine 0 in a state. -/
def engined (e : MereEng) : State := { tiled with units := { engines := [(20, e)] }, carr := { windows := [{ window0 with slot := 3, stage := 0, kind := 1 }] } }
/-- A job begun on one context. -/
def jobOn (d : Bytes) : MereEng := { job := some { desc := d, items := 2, next := 1, ctxs := [(0, { item := 0 })] } }

/-- The premises on the Mere engines. -/
theorem test_mere_premises : (∀ d ∈ [gather1, refine1, dist1, scan1], jobOk (engined {}) 3 0 5 0 d = true ∧ 1 ≤ jobItems d) ∧
    jobOk (engined {}) 3 0 5 0 (desc [(0, 1, 4)]) = false ∧
    (∃ w ∈ (engined {}).carr.windows, w.slot = 3 ∧ w.stage = 0 ∧ w.kind = 1) ∧ (engineAt (engined (jobOn gather1)) 20).job.isSome = true ∧
    (gatherItem 5 20 3 0 (engined (jobOn gather1))).isSome = true ∧ (refineItem 5 20 3 0 false (engined (jobOn refine1))).isSome = true ∧
    (refineItem 5 20 3 0 false { engined (jobOn refine1) with carr := { pcs := (List.range 512).map (fun p => (p, { mode := .pnm })) } }).isNone = true ∧
    leAt gather1 36 4 ≠ 0 := by
  refine ⟨by decide +kernel, by decide +kernel, ⟨_, List.mem_cons_self, by decide +kernel⟩, ?_⟩; decide +kernel

/-- A job begins on as many contexts as it names; a context that is done takes the next item; the cutoff ends the job. -/
theorem test_mere : runs (.gather 5 0) (engined { queue := [gather1] }) (fun t => (engineAt t 20).queue = [] && ((engineAt t 20).job.any fun j => j.next = 1 && j.ctxs.length = 1)) = true ∧
    runs (.contextDataReturn 5 0 0 0 []) (engined (jobOn dist1)) (fun t => ((engineAt t 20).job.any fun j => j.next = 2)) = true ∧
    runs (.jobCutoff 5 0) (engined (jobOn gather1)) (fun t => (engineAt t 20).job.isNone) = true := by decide +kernel

/-- An OPEN descriptor for one query and one entry, and a FINISH descriptor. -/
def open1 : Bytes := desc [(0, 1, 1), (2, 1, 1), (4, 2, 1), (8, 2, 1)]
/-- A FINISH descriptor. -/
def finish1 : Bytes := desc [(0, 1, 2)]
/-- An open batch of one query. -/
def batch1 : OpenBatch := { desc := open1, lists := [{}] }
/-- An open batch with external keys, one of which is not yet there: its pseudo-channels run a window. -/
def keyed : OpenBatch := { desc := desc [(0, 1, 1), (1, 1, 128), (2, 1, 1), (4, 2, 1), (8, 2, 1), (24, 8, 4096), (56, 4, 1000)],
                           lists := [{ ents := [⟨0x3F800000, 0, 0, 1, none⟩] }] }
/-- Tile 5 with Sedge unit 0 in a state, and messages on their way to it. -/
def sedged (g : SedgeUnit) : State :=
  { tiled with units := { sedges := [(10, g)], msgs := [⟨2 ^ 25 * 10, 1, List.replicate 64 0, 0⟩] },
               carr := { msgs := [⟨0, 2 ^ 25 * 10, 1, List.replicate 64 0, 0, 0⟩] } }

/-- The premises on the Sedge units. -/
theorem test_sedge_premises : sedgeOk tiled 3 open1 = true ∧ sedgeOk tiled 3 finish1 = true ∧ sedgeOk tiled 3 (desc [(0, 1, 1)]) = false ∧ leAt open1 0 1 ≠ 2 ∧ leAt finish1 0 1 = 2 ∧
    bits (2 ^ 25 * 10) 31 25 = 10 ∧ ((sedged {}).carr.msgs.all fun m => m.gen = KMap.getD (sedged {}).carr.gens m.pc 0 && m.owner = 0) = true ∧
    messageOk batch1 0 1 (List.replicate 64 0) = true ∧ messageOk batch1 1024 1 (List.replicate 64 0) = false ∧ keysWait tiled 0 batch1 = false := by decide +kernel

/-- OPEN gives as many empty lists as queries; FINISH without keys to wait for closes the unit; a vector without an open batch is counted. -/
theorem test_sedge : runs (.sedgeOpen 5 0) (sedged { queue := [open1] }) (fun t => ((sedgeAt t 10).batch.any fun b => b.lists.length = 1)) = true ∧
    runs (.finish 5 0) (sedged { queue := [finish1], batch := some batch1 }) (fun t => (sedgeAt t 10).batch.isNone && (sedgeAt t 10).queue = []) = true ∧
    runs (.arrayPortVector 5 0) (sedged { port := [(0, true, [])] }) (fun t => countVal t (sedgeObj 10) 4 0 = 1) = true ∧
    runs (.collectorMessage 5 0 1 0 0 [] false) (sedged { batch := some batch1 }) (fun t => t.units.msgs = [] && ((sedgeAt t 10).batch.any fun b => b.lists.all fun l => l.ents.length = 1)) =
      true := by decide +kernel

/-- A key that waits for its pseudo-channel keeps the batch open, and the cutoff closes it. -/
theorem test_sedge_keys : runs (.keyCutoff 5 0) (sedged { batch := some { batch1 with closed := some (0, finish1) } }) (fun t => (sedgeAt t 10).batch.isNone) = true ∧
    keysWait { tiled with carr := { pcs := (List.range 512).map (fun p => (p, { mode := .pnm })) }, claims := { regions := [⟨1, 0, 0, 1048576, 0, .image 3⟩] } } 0 keyed = true := by decide +kernel

/-- Channel 0 of tile 5 at a program word, with its state. -/
def channel (w : Nat) (ch : Chan) : State :=
  { tiled with units := { chans := [(80, { ch with state := 1, length := 16 })] }, mem := { tiled.mem with sluice := Memory.writeLE [] (0x10000 * 5) 8 w } }

/-- Channel 0 of the hub block 41 at a program word. -/
def hubChannel (w : Nat) (ch : Chan) : State :=
  { tiled with units := { chans := [(656, { ch with state := 1, length := 16 })] }, mem := { tiled.mem with sluice := Memory.writeLE [] (0x10000 * 41) 8 w } }

/-- The premises on the control instructions: each instruction at the channel's word, cells that are the channel's and ones that are not. -/
theorem test_sluice_control_premises :
    AtInstr (channel (3 * 2 ^ 56 + 2 * 2 ^ 32) {}) 80 (.loop 2) ∧ AtInstr (channel (4 * 2 ^ 56) {}) 80 .endl ∧ AtInstr (channel (7 * 2 ^ 56 + 9) {}) 80 (.jump 9) ∧
    AtInstr (channel (8 * 2 ^ 56) {}) 80 .nop ∧ AtInstr (channel (9 * 2 ^ 56) {}) 80 .halt ∧ AtInstr (channel (5 * 2 ^ 56 + 7 * 2 ^ 32 + 16) {}) 80 (.wait 7 16) ∧
    AtInstr (channel (6 * 2 ^ 56 + 19) {}) 80 (.signal 19) ∧ AtInstr (channel 0 {}) 80 .bad ∧ AtInstr (channel (2 ^ 56 + 2 ^ 55 + 2 ^ 32 + 64) {}) 80 (.move false true 1 64) ∧
    chanCell (channel 0 {}) 80 16 = some (cellNo 0 16) ∧ chanCell (channel 0 {}) 80 20 = none ∧ chanCell (hubChannel 0 {}) 656 2047 = some (systemCell 2047) ∧
    replayWaits (channel 0 { redirect := some 3 }) 80 = false := by unfold AtInstr; decide +kernel

/-- LOOP nests four deep and no deeper; ENDL leaves a loop after its last turn; a reserved word halts with SYNTAX. -/
theorem test_sluice_control : runs (.sluiceLoop 5 0) (channel (3 * 2 ^ 56 + 2 * 2 ^ 32) { loops := List.replicate 3 (0, 1, 0) }) (fun t => (chanAt t 80).loops.length = 4 && (chanAt t 80).state = 1) = true ∧
    runs (.sluiceLoop 5 0) (channel (3 * 2 ^ 56 + 2 * 2 ^ 32) { loops := List.replicate 4 (0, 1, 0) }) (fun t => (chanAt t 80).error = 6 && (chanAt t 80).state = 3) = true ∧
    runs (.sluiceEndl 5 0) (channel (4 * 2 ^ 56) { loops := [(0, 1, 1)] }) (fun t => (chanAt t 80).loops = [] && (chanAt t 80).word = 1) = true ∧
    runs (.sluiceEndl 5 0) (channel (4 * 2 ^ 56) { loops := [(3, 2, 0)] }) (fun t => (chanAt t 80).loops = [(3, 1, 1)] && (chanAt t 80).word = 3) = true ∧
    runs (.sluiceNop 5 0) (channel 0 {}) (fun t => (chanAt t 80).error = 0xA) = true := by decide +kernel

/-- The segment descriptor of a MOVE of one 64-byte unit from 0x100 to 0x200 of the tile. -/
def segment : Bytes := desc [(0, 8, 0x100), (8, 8, 0x200)]
/-- The channel at that MOVE, with the descriptor at 64. -/
def moving (ch : Chan) : State :=
  let s := channel (2 ^ 56 + 2 ^ 32 + 64) ch
  { s with mem := { s.mem with tile := Memory.writeN s.mem.tile (tileKey 5 64) segment } }
/-- A unit of that MOVE. -/
def unit1 : SUnit := ⟨0, 1, 0, 0, 0x100, 0x200, 64, 0, 0, [], 0, none, 0, 0, 0, false⟩

/-- The premises on units and on the start of a MOVE. -/
theorem test_sluice_unit_premises : AtInstr (moving {}) 80 (.move false false 1 64) ∧ AtInstr (channel (2 ^ 56 + 2 ^ 32 + 65) {}) 80 (.move false false 1 65) ∧
    tileSram < 0x12FFFFC1 + 63 + 64 ∧ AtInstr (channel (2 ^ 56 + 2 ^ 32 + 0x13000000) {}) 80 (.move false false 1 0x13000000) ∧
    (startSeg (moving {}) 80 (chanAt (moving {}) 80) false false 1 segment).toOption.isSome = true ∧
    (startSeg (moving {}) 80 (chanAt (moving {}) 80) false false 1 (desc [(42, 1, 1)])).toOption.isNone = true ∧
    ((startSeg (moving {}) 80 (chanAt (moving {}) 80) false false 1 segment).toOption.all fun g => lanesFree (moving {}) 80 g) = true ∧
    unitAt (moving { flight := [unit1] }) 80 0 = some unit1 ∧ behindWrite (moving { flight := [unit1] }) 80 unit1 0x100 64 = false ∧
    (match unitSource (moving { flight := [unit1] }) 80 unit1 with | .data b => decide (b.length = 64) | _ => false) = true ∧
    (match unitSource { moving {} with units := { lost := [5] } } 80 unit1 with | .failed => true | _ => false) = true ∧
    (match unitWrite 80 { unit1 with data := some (List.replicate 64 1) } (List.replicate 64 1) (moving {}) with | .done _ => true | _ => false) = true ∧
    (match unitWrite 80 { unit1 with dst := 0x14000000 } (List.replicate 128 1) (moving {}) with | .done _ => false | _ => true) = true ∧
    unit1.tries < rwVal (moving {}) 0x3000 0x13 3 ∧ rwVal (moving {}) 0x3000 0x13 3 ≤ ({ unit1 with tries := 3 } : SUnit).tries := by unfold AtInstr; decide +kernel

/-- A MOVE issues its unit; its read brings the bytes; its write puts them down; a descriptor that is not aligned halts with code 1. -/
theorem test_sluice_units : runs (.sluiceMove 5 0 1) (moving {}) (fun t => (chanAt t 80).flight.length = 1) = true ∧
    runs (.unitReadReturn 5 0 0 false) (moving { flight := [unit1] }) (fun t => ((unitAt t 80 0).any fun u => u.data.isSome)) = true ∧
    runs (.unitWriteAck 5 0 0 false) (moving { flight := [{ unit1 with data := some (List.replicate 64 7) }] }) (fun t => Memory.read t.mem.tile (tileKey 5 0x23F) = 7 && Memory.read t.mem.tile (tileKey 5 0x240) = 0) = true ∧
    runs (.sluiceMove 5 0 1) (channel (2 ^ 56 + 2 ^ 32 + 65) {}) (fun t => (chanAt t 80).error = 1) = true := by decide +kernel

/-- A unit that reads host memory and one that writes over the fabric. -/
def fabricUnits : State :=
  let s := moving { flight := [{ unit1 with src := 0x4000000000000100, tag := 9 }, { unit1 with id := 1, dst := 0x6000000000000000, acks := 1, tag := 4, data := some [] }] }
  { s with host := { reads := [⟨9, 1, 80, 0⟩] }, fab := { inbox := [{ type := 3, cls := 1, dst := 0, src := 1, owner := 0, tag := 4, last := true, hops := 0, data := [] }] } }

/-- The premises on returns from the host and from the fabric. -/
theorem test_sluice_return_premises : fabricUnits.host.reads.find? (fun r => r.tag = 9 && r.port = 1) = some ⟨9, 1, 80, 0⟩ ∧
    ((unitAt fabricUnits 80 0).any fun u => u.data.isNone && u.tag = 9 && u.fmt = 0) = true ∧ (takeInbox 3 fabricUnits).isSome = true ∧
    runs .writeRsp fabricUnits (fun t => (unitAt t 80 1).isNone) = true ∧
    runs (.hostReadCompletion 1 9 true [5]) fabricUnits (fun t => ((unitAt t 80 0).any fun u => u.data = some (slice [5] 0 64)) && t.host.reads = []) = true := by decide +kernel

/-- Channel 0 of tile 5 in a state with a granted count, a cancelled one, and units in flight. -/
def parked (ch : Chan) (granted : List (Nat × Nat)) : State :=
  { tiled with units := { chans := [(80, { ch with length := 16 })] }, cells := { cells := [(cellNo 0 16, { parks := [80] })], granted := granted } }

/-- The premises on the rest of a channel's life. -/
theorem test_channel_premises : (80, cellNo 0 16) ∈ (parked { state := 2, cell := cellNo 0 16 } [(80, cellNo 0 16)]).cells.granted ∧
    (80, cellNo 0 16) ∈ (issueCell (cellNo 0 16) (.cancel 80) (parked { state := 2, cell := cellNo 0 16, timeout := 5 } [])).cells.cancelled ∧
    chanLength 80 (chanAt (parked {} []) 80) = 16 ∧
    ((List.range 2).find? (fun a => (arrayAt (arrayed { replay := some 0, log := [⟨80, 0, []⟩], sent := 1 }) (2 * 5 + a)).replay.isSome &&
      ((arrayAt (arrayed { replay := some 0, log := [⟨80, 0, []⟩], sent := 1 }) (2 * 5 + a)).log.getLast?.map (·.chan)) = some 80)) = some 0 ∧
    chanSlot (parked {} []) 80 = some (3, 0) ∧ (peatW 0x20 && bit 0 1) = false := by decide +kernel

/-- A grant lets a parked channel go on; a redirect beyond the program is counted; a disabled channel drops its units. -/
theorem test_channels : runs (.parkGrant 5 0) (parked { state := 2, cell := cellNo 0 16, word := 3 } [(80, cellNo 0 16)]) (fun t => (chanAt t 80).word = 4 && (chanAt t 80).state = 1) = true ∧
    runs (.redirect 5 0 16) (parked {} []) (fun t => countVal t (sluiceObj 80) 0x22 0 = 1) = true ∧ runs (.redirect 5 0 15) (parked {} []) (fun t => (chanAt t 80).word = 15 && (chanAt t 80).state = 1) = true ∧
    runs (.channelDisable 5 0) (parked { state := 1, flight := [unit1] } []) (fun t => (chanAt t 80).state = 4 && (chanAt t 80).flight = []) = true ∧
    runs (.waitTimeout 5 0) (parked { state := 2, cell := cellNo 0 16, timeout := 5 } []) (fun t => (chanAt t 80).state = 3 && (chanAt t 80).error = 7) = true ∧
    runs (.segmentReplay 5 0) { parked { state := 1, seg := some ⟨0, 0x200, 0, 0, true, 1, true, 0x20, 0, [], 0⟩ } [] with } (fun t => (chanAt t 80).issued = 0 && t.units.erred = [48]) = true := by
  decide +kernel

/-- The objects of partition 0 and a namespace for its index and its table, on a device in CONFIG. -/
def stored (l : KMap TierObj) : State := { setRw 0x3000 1 1 config with mire := { spaces := [(0, ⟨0, 65536, 0⟩)] }, data := { tiers := { objs := l } } }

/-- Index 0 of partition 0 as its attributes describe it, with its coarse objects. -/
def indexReady : State :=
  setRw (indexObj 0 0) 0x0C 1 (setRw 0x3000 4 1024 (setRw (indexObj 0 0) 0x0E 1 (setRw (indexObj 0 0) 0x0F 2 (setRw (indexObj 0 0) 0x10 3 (setRw (indexObj 0 0) 0x12 3
    (stored [(1, { tier := 2, size := 65536, place := 0, offset := 0, base := 0x2000000, role := 0 }), (2, { tier := 2, size := 65536, place := 0, offset := 0, base := 0x2010000, role := 0 }), (3, { tier := 2, size := 65536, place := 0, offset := 0, base := 0x2020000, role := 0 })]))))))

/-- The index placed and not yet built: the deleted bits of its first groups set, so that no slot holds an item but slot 0. -/
def building : State :=
  match placeIndex 0 (indexDraft indexReady 0) indexReady with
  | some (x, s) =>
    { s with data := { s.data with indices := [(0, x)] },
             mem := { s.mem with carr := Memory.writeLE [] (dramKey (x.slotPc 0) (x.bitAt 0 64).1) 4 0xFFFFFFFE } }
  | none => indexReady

/-- The index of `building`. -/
def index0 : SearchIndex := ((placeIndex 0 (indexDraft indexReady 0) indexReady).map (·.1)).getD (indexDraft indexReady 0)

/-- A device whose index 0 is in a state. -/
def indexed (x : SearchIndex) : State := { indexReady with data := { indexReady.data with indices := [(0, x)] } }

/-- The command object of index 0 of partition 0. -/
def index0Command : ObjRef := ⟨objIndexCommand, [0, 0]⟩

/-- The premises on the index commands: a geometry and objects that CREATE takes, a build that SEAL takes, states that DESTROY and REINDEX take. -/
theorem test_index_premises : RowTaken host index0Command 1 indexReady ∧ RowTaken host index0Command 2 building ∧
    RowTaken host index0Command 3 (indexed index0) ∧ RowTaken host index0Command 4 (indexed { index0 with state := .ready }) ∧
    geometryOk indexReady 0 (indexDraft indexReady 0) = true ∧ (∀ n ∈ [0x0E, 0x0F, 0x10, 0x12], indexTierOk indexReady 0 n = true) ∧
    (let need := (indexDraft indexReady 0).regions.foldl (· + ·) 0
     partCarr indexReady 0 + need ≤ 1048576 * rwVal indexReady 0x3000 4 0 ∧ carrCommitted indexReady + need ≤ carrAllocatable indexReady ∧
     (indexDraft indexReady 0).slots * (indexDraft indexReady 0).stride + need ≤ 16384 * 65536) ∧
    KMap.find indexReady.mire.spaces (indexDraft indexReady 0).space = some ⟨0, 65536, 0⟩ ∧ (placeIndex 0 (indexDraft indexReady 0) indexReady).isSome = true ∧
    (builtItems index0.slots building index0 building.clock.ft 0).isSome = true ∧ indexAt building 0 = some index0 ∧ indexUsed (indexed index0) 0 = false ∧
    (let s := setRw (indexObj 0 0) 0x11 3 (setRw (indexObj 0 0) 0x13 3 (indexed { index0 with state := .ready }))
     RowTaken host index0Command 4 s ∧ indexTierOk s 0 0x11 = true ∧ indexTierOk s 0 0x13 = true ∧ index0.vfmt ≠ 0) := by unfold RowTaken; decide +kernel

/-- CREATE leaves a BUILDING index without items; SEAL finds the one item whose deleted bit is clear; a READY index is not sealed again. -/
theorem test_index : runs (.indexCreate host 1 0 0) indexReady (fun t => (indexAt t 0).map (fun x => (x.state, x.items)) = some (.building, [])) = true ∧
    runs (.indexSeal host 1 0 0) building (fun t => (indexAt t 0).map (fun x => (x.state, x.items.map (·.1))) = some (.ready, [0])) = true ∧
    runs (.indexSeal host 1 0 0) (indexed { index0 with state := .ready }) (fun t => t.data = (indexed { index0 with state := .ready }).data) = true ∧
    runs (.indexDestroy host 1 0 0) (indexed index0) (fun t => indexAt t 0 = none) = true := by decide +kernel

/-- An update of index 0 of partition 0 that is the oldest of its partition, on a serving device. -/
def updating (opcode : Nat) (x : SearchIndex) : State :=
  { indexed x with dev := { state := .serving }, levee := { updates := [⟨4, 0, 1, 0, 0, 100, 5000, parseDesc (desc [(0, 1, opcode), (48, 8, 77)]), []⟩] } }
/-- The index with one live item, whose key is 77. -/
def holding : SearchIndex := { index0 with state := .ready, items := [(3, ⟨77, 0, false, 0, none, [], []⟩)] }

/-- The premises on an UPSERT, whatever leaves are nearest: a slot is free, no stack is out of service, no core runs, and no log ring is full. -/
theorem test_upsert_premises : (∀ l, ({ index0 with state := .ready }.reserve l).isSome = true) ∧
    (∀ pc, stackDead (updating 0x10 { index0 with state := .ready }) pc = false ∧ (pcAt (updating 0x10 { index0 with state := .ready }) pc).mode ≠ .pnm) ∧
    (∀ low pcs, ringsTake { index0 with state := .ready } low pcs = true) ∧ mainOn (updating 0x10 { index0 with state := .ready }) = true ∧
    (oldestUpdate (updating 0x10 { index0 with state := .ready }) 0).map (·.desc.opcode) = some 0x10 := by
  refine ⟨fun l => ?_, fun pc => ⟨rfl, nofun⟩, fun low pcs => List.all_eq_true.mpr fun pc _ => ?_, by decide +kernel, by decide +kernel⟩
  unfold SearchIndex.reserve
  split
  · rfl
  · decide +kernel
  · show (List.take _ ([] : List LogEntry)).all _ = true
    rw [List.take_nil]; rfl

/-- The premises on the other updates: a key that no item holds, one that an item holds, an index that waits, and a HARVEST firing. -/
theorem test_index_update_premises : holding.holder 5 = none ∧ (holding.holder 77).isSome = true ∧ holding.usable = true ∧
    ((oldestUpdate (updating 0x11 holding) 0).map (fun u => (u.desc.opcode, u.desc.w48))) = some (0x11, 77) ∧
    (∀ pc ∈ holding.touched 3 77, (pcAt (updating 0x11 holding) pc).mode ≠ .pnm) ∧
    ringsTake holding (lowestSnapshot (updating 0x11 holding) 0) [holding.slotPc 3] = true ∧ ({ holding with stalled := true } : SearchIndex).stalled = true ∧
    (firingOf { updating 0x11 holding with alm := { flight := [⟨harvestNo 0 0, 0, 0, 0, 0, false, false⟩] } } (harvestNo 0 0)).isSome = true := by decide +kernel

/-- A DELETE of a held key ends its item at the commit FT, with detail 0; of another key, detail 1. -/
theorem test_index_delete : runs (.deleteApply 0) (updating 0x11 holding) (fun t => t.levee.updates = [] && (t.levee.committed.map (·.detail)) = [0] &&
      ((indexAt t 0).any fun x => x.items.all fun e => e.2.death.isSome)) = true ∧
    runs (.deleteApply 0) (updating 0x11 { holding with items := [] }) (fun t => (t.levee.committed.map (·.detail)) = [1]) = true := by decide +kernel

/-- A tier object of 64 KiB in the SRAM of hub N. -/
def sramObj : TierObj := { tier := 2, size := 65536, place := 0, offset := 0, base := 0x2000000, role := 0 }

/-- Partition 0 that asks for a tier object with registers of a tier, a size and a number. -/
def tierAsk (tier size want : Nat) : State := setRw 0x6010 3 tier (setRw 0x6010 4 size (setRw 0x6010 2 want (stored [(1, sramObj)])))

/-- The command object of the tiers of partition 0. -/
def tierCommand : ObjRef := ⟨objTierCommand, [0]⟩

/-- The premises on the tier commands: the writes are taken, a plan is found or refused, each state of the object comes about, and a MOVE is queued. -/
theorem test_tier_premises : RowTaken host tierCommand 1 (tierAsk 2 65536 0) ∧ RowTaken host tierCommand 2 (tierAsk 2 65536 1) ∧
    RowTaken host tierCommand 3 (tierAsk 2 65536 1) ∧ (tierPlan (tierAsk 2 65536 0) 0).toOption.isSome = true ∧ (tierPlan (tierAsk 0 65536 0) 0).toOption.isNone = true ∧
    freeNumber (tierAsk 2 65536 0) 0 = some 2 ∧ tierOf (tierAsk 2 65536 1) 0 1 = some sramObj ∧ tierOf (tierAsk 2 65536 9) 0 9 = none ∧
    lockCount (tierAsk 2 65536 1) 1 = 0 ∧ tierInUse (tierAsk 2 65536 1) 1 = false ∧
    (let s := indexed { index0 with state := .ready }; lockCount s 1 ≠ 0 ∧ lockCount { s with data := { s.data with indices := [(0, { index0 with book := 1 })] } } 3 = 0 ∧
      tierInUse { s with data := { s.data with indices := [(0, { index0 with book := 1 })] } } 3 = true) ∧
    moveCode (setRw 0x6010 0x0B 0 (tierAsk 2 65536 1)) 0 ⟨1, 0, 0, 0, 0, 4, 0⟩ = 0 ∧ moveCode (tierAsk 2 65536 1) 0 ⟨1, 0, 0, 0, 0, 5, 0⟩ = 8 := by
  unfold RowTaken; decide +kernel

/-- A device with one MOVE from host memory into that object. -/
def moveQueued : State :=
  { stored [(1, { sramObj with writing := true })] with
      data := { tiers := { objs := [(1, { sramObj with writing := true })], moves := [(0, [⟨1, 16384, 0, 0, 1, 1, 0⟩])] } } }

/-- CREATE with number 0 takes number 2; a size that is not a multiple of 16 KiB is refused with 2; a MOVE none of whose tiles landed ends with status BUS. -/
theorem test_tiers : runs (.tierCreate host 1 0) (tierAsk 2 65536 0) (fun t => countVal t 0x6010 0x0E 0 = 2 && (KMap.find t.data.tiers.objs 2).isSome) = true ∧
    runs (.tierCreate host 1 0) (tierAsk 2 65535 0) (fun t => countVal t 0x6010 0x0D 0 = 2) = true ∧
    runs (.tierDestroy host 1 0) (tierAsk 2 65536 1) (fun t => t.data.tiers.objs = []) = true ∧
    runs (.moveComplete 0 0 []) moveQueued (fun t => (KMap.find t.data.tiers.objs 1).any fun o => !o.writing && o.last = 3) = true := by
  decide +kernel

/-- Table 0 of partition 0 as its attributes describe it: one class of 64-byte rows, one row in one shard, owned by this node. -/
def tabled : State :=
  let s := setRw 0x3000 4 1024 (setDom (tableObj 0 0) 9 (toLE 4 0 ++ [6] ++ List.replicate 11 0) (setRw (tableObj 0 0) 0x0A 1 (setRw (tableObj 0 0) 0x0C 0xFFFF
    (setRw (tableObj 0 0) 0x0D 1 (setRw (tableObj 0 0) 0x14 2 (setRw 0x7000 1 5 (stored [(1, sramObj)])))))))
  { s with mem := { s.mem with hub := Memory.writeLE [] 0x2000000 8 (5 * 2 ^ 47) } }

/-- The class of that table. -/
def classes0 : List WidthClass := [⟨0, 6, false, 0⟩]

/-- The table as CREATE places it. -/
def table0 : Table := ((placeRecords 0 (tableDraft tabled 0 classes0) [0] tabled).map (·.1)).getD (tableDraft tabled 0 classes0)

/-- The device with the table as given. -/
def tableIs (x : Table) : State :=
  { ((placeRecords 0 (tableDraft tabled 0 classes0) [0] tabled).map (·.2)).getD tabled with
      data := { (((placeRecords 0 (tableDraft tabled 0 classes0) [0] tabled).map (·.2)).getD tabled).data with tables := [(0, x)] } }

/-- The command object of the table. -/
def table0Command : ObjRef := ⟨objTableCommand, [0, 0]⟩

/-- The table with a hot copy of its row in an area of object 1. -/
def hotTable : Table := { table0 with ready := true, areas := [{ obj := 1, copies := [⟨0, 0, 0, some 0⟩], current := true }] }

/-- The premises on the table commands and on the hot copies. -/
theorem test_table_premises : RowTaken host table0Command 1 tabled ∧ RowTaken host table0Command 2 (tableIs table0) ∧ RowTaken host table0Command 3 (tableIs table0) ∧
    parseClasses (rwDom tabled (tableObj 0 0) 9 []) (rwVal tabled (tableObj 0 0) 0x0D 0) (rwVal tabled (tableObj 0 0) 3 1 = 2) = some classes0 ∧
    parseClasses (toLE 4 1 ++ [6] ++ List.replicate 11 0) 1 false = none ∧
    (let x := tableDraft tabled 0 classes0
     let need := x.flashBase 1
     1 ≤ x.shards ∧ x.shards ≤ 4096 ∧ x.firstOwned ≤ x.lastOwned ∧ x.lastOwned < x.shards ∧ x.lastPart = 0xFFFF ∧ tierOf tabled 0 x.shardMap = some sramObj ∧
     8 * x.shards ≤ sramObj.size ∧ partCarr tabled 0 + need ≤ 1048576 * rwVal tabled 0x3000 4 0 ∧ carrCommitted tabled + need ≤ carrAllocatable tabled ∧
     need ≤ 16384 * 65536 ∧ shardsOk tabled 0 x = true ∧ (placeRecords 0 x (List.range 1) tabled).isSome = true) ∧
    table0.ready = false ∧ table0.areas = [] ∧ hotTable.areas ≠ [] ∧ DomainTaken host ⟨objHotSet, [0, 0]⟩ 16 tabled ∧ DomainTaken host ⟨objHotSet, [0, 0]⟩ 24 tabled ∧
    rwVal tabled (tableObj 0 0) 0x14 0 = 2 ∧ firingOf tabled (refreshNo 0 0) = none ∧
    (KMap.find (tableIs hotTable).data.tiers.objs 1).isSome = true ∧ 0 + 1000 * rwVal (tableIs hotTable) (tableObj 0 0) 0x10 5000 ≤ 5000000 ∧
    ¬0 + 1000 * rwVal (tableIs hotTable) (tableObj 0 0) 0x10 5000 ≤ (tableIs hotTable).clock.ft + 1024 * rwVal (tableIs hotTable) (tableObj 0 0) 0x0F 1024 := by
  unfold RowTaken DomainTaken; decide +kernel

/-- CREATE leaves a BUILDING table; one that exists is answered STATE; a hot set of three keys is too long for H = 2; a refresh acts. -/
theorem test_tables : runs (.tableCreate host 1 0 0) tabled (fun t => (tableAt t 0).any fun x => !x.ready && x.classes.map (·.log2) = [6]) = true ∧
    runs (.tableSeal host 1 0 0) (tableIs table0) (fun t => (tableAt t 0).any (·.ready)) = true ∧
    runs (.tableDestroy host 1 0 0) (tableIs hotTable) (fun t => (tableAt t 0).isSome && countVal t (tableObj 0 0) 0x1E 0 = 6) = true ∧
    runs (.hotSetWrite host 1 0 0 (List.replicate 24 0)) tabled (fun t => rwDom t (tableObj 0 0) 0x0E [] = []) = true ∧
    runs (.refreshStep 0 0) { tableIs hotTable with alm := { flight := [⟨refreshNo 0 0, 0, 0, 0, 0, false, false⟩] } } (fun t => firingOf t (refreshNo 0 0) = none) = true ∧
    runs (.hotCopyExpiry 0 0 1 0) { tableIs hotTable with clock := { ft := 5000000 } } (fun t => (tableAt t 0).any fun x => x.areas.map (·.retired) = [[0]]) = true := by
  decide +kernel

/-- An EMBED_UPDATE of a key of table 0 that is the oldest update of partition 0. -/
def embedding (x : Table) (key : Nat) : State :=
  { tableIs x with levee := { updates := [⟨4, 0, 1, 0, 0, 100, 5000, parseDesc (desc [(0, 1, 0x12), (48, 8, key)]), List.replicate 128 0⟩] } }
/-- The table sealed. -/
def sealed : Table := { table0 with ready := true }
/-- A device that runs a window on every pseudo-channel of the row. -/
def rowBusy : State := { embedding sealed 0 with carr := { pcs := (List.range 512).map (fun p => (p, { mode := .pnm })) } }

/-- The premises on an EMBED_UPDATE: a table that is building, a key that is absent, a shard of another node, a row in use and one that is free. -/
theorem test_embed_premises : mainOn (embedding sealed 0) = true ∧
    (oldestUpdate (embedding sealed 0) 0).map (fun u => (u.desc.opcode, u.desc.w32, u.desc.w48)) = some (0x12, 0, 0) ∧ sealed.ready = true ∧
    tableAt (embedding sealed 0) 0 = some sealed ∧ locateRow sealed 1 = none ∧ (locateRow sealed 0).isSome = true ∧ sealed.owns 0 = true ∧
    (locateRow { sealed with shards := 2, firstOwned := 1, lastOwned := 1 } 0).isSome = true ∧ ({ sealed with shards := 2, firstOwned := 1, lastOwned := 1 } : Table).owns 0 = false ∧
    (recordAddr (embedding sealed 0) sealed 0).isSome = true ∧
    ((recordAddr (embedding sealed 0) sealed 0).any fun r => (pcAt (embedding sealed 0) (localOf r.1).1).mode ≠ .pnm) = true ∧
    ((recordAddr rowBusy sealed 0).any fun r => (pcAt rowBusy (localOf r.1).1).mode = .pnm) = true ∧
    (newRecord (embedding sealed 0) 0 ⟨0, 1, 0, 1, 0, 9, [0x3F800000, 0x322BCC77, 0, 0], []⟩ (List.replicate 128 0) 32 (List.replicate 32 0)).isSome = true := by decide +kernel

/-- An absent key fails with cause 2, a shard of another node with cause 1; a good update is counted and commits. -/
theorem test_embed : runs (.embedUpdateApply 0) (embedding sealed 1) (fun t => countVal t (tableObj 0 0) 0x17 0 = 2 && t.levee.committed.length = 1) = true ∧
    runs (.embedUpdateApply 0) (embedding { sealed with shards := 2, firstOwned := 1, lastOwned := 1 } 0) (fun t => countVal t (tableObj 0 0) 0x17 0 = 1) = true ∧
    runs (.embedUpdateApply 0) (embedding sealed 0) (fun t => countVal t (tableObj 0 0) 0x15 0 = 1 && t.levee.committed.length = 1) = true ∧
    runs (.embedUpdateApply 0) rowBusy (fun t => t.levee.updates.length = 1) = true := by decide +kernel

/-- A flit of a type with a body, whole in one piece. -/
def piece (type : Nat) (body : Bytes) : Flit := { type := type, cls := 1, dst := 5, src := 6, owner := 0, tag := 3, last := true, hops := 0, data := List.replicate 8 0 ++ toLE 4 0 ++ toLE 2 body.length ++ [0, 0] ++ body }
/-- The device with such a flit in its inbox. -/
def received (f : Flit) (x : Table) : State := { tableIs x with fab := { inbox := [f] } }
/-- The body of a forward for key 0 that follows a commit. -/
def forwardBody (prev opt : Nat) : Bytes := desc [(13, 1, opt), (16, 8, 9), (24, 8, prev), (32, 4, 0x3F800000), (36, 4, 0x322BCC77)] ++ List.replicate 128 0

/-- The premises on forwards and on whole records. -/
theorem test_forward_premises : (takeWhole 7 (received (piece 7 (forwardBody 0 1)) sealed)).isSome = true ∧
    rwVal (received (piece 7 (forwardBody 0 1)) sealed) 0x2001 1 3 ≠ 4 ∧ rwVal (setRw 0x2001 1 4 (received (piece 7 (forwardBody 0 1)) sealed)) 0x2001 1 3 = 4 ∧
    (let s := received (piece 7 (forwardBody 0 1)) sealed
     let u : RowUpdate := ⟨0, 0, 0, 1, 0, 9, [0x3F800000, 0x322BCC77, 0, 0], List.replicate 128 0⟩
     ((recordAddr s sealed 0).any fun r => leNat (readI s r.1 8) = 0) = true ∧ (applyRow 0 sealed u s).1 = 0 ∧ (applyRow 0 sealed { u with opt := 0 } s).1 ≠ 0) ∧
    (takeWhole 8 (received (piece 8 (List.replicate 128 1)) { sealed with resync := [0] })).isSome = true ∧ 0 ∈ ({ sealed with resync := [0] } : Table).resync ∧
    (recordAddr (tableIs sealed) sealed 0).map (fun r => sealed.stride r.2) = some 128 := by decide +kernel

/-- A forward in order is counted; one that skips a commit puts the row on the list; a whole record takes it off. -/
theorem test_forward : runs .forward (received (piece 7 (forwardBody 0 1)) sealed) (fun t => countVal t (tableObj 0 0) 0x1D 0 = 1 && t.fab.inbox = []) = true ∧
    runs .forward (received (piece 7 (forwardBody 8 1)) sealed) (fun t => (tableAt t 0).any fun x => x.resync = [0]) = true ∧
    runs (.resyncRecord 0) (received (piece 8 (List.replicate 128 1)) { sealed with resync := [0] })
      (fun t => countVal t (tableObj 0 0) 0x19 0 = 1 && (tableAt t 0).any fun x => x.resync = []) = true := by decide +kernel

/-- A table that holds a watermark, 60 ms after it came. -/
def marked : State := { tableIs { sealed with marks := [(6, ⟨0, 0, true⟩)] } with clock := { ft := 60000000 } }
/-- A round of slot 3 of partition 0 that asked for row 0 of the table, for tile 5. -/
def asking : State :=
  { setRw 0x7203 1 77 (received { (piece 5 []) with data := toLE 4 77 ++ toLE 4 2 ++ toLE 4 0 ++ toLE 2 64 ++ [0, 0] ++ List.replicate 64 9 } sealed) with
      fab := { inbox := [{ (piece 5 []) with data := toLE 4 77 ++ toLE 4 2 ++ toLE 4 0 ++ toLE 2 64 ++ [0, 0] ++ List.replicate 64 9 }],
               rounds := [{ slot := 3, stage := 0, batch := 2, issued := 0, asks := [⟨0, 0, 0, 5, 0x1000, 64, 3, 0, false, false⟩] }] } }

/-- The premises on watermarks and on lookups, with the first instants at which a mark is old. -/
theorem test_lookup_premises : 0 + 1000 * rwVal marked (tableObj 0 0) 0x11 50000 < marked.clock.ft ∧
    marked.clock.ft ≤ 10000000 + 1000 * rwVal marked (tableObj 0 0) 0x11 50000 ∧ (takeInbox 4 (received (piece 4 []) sealed)).isSome = true ∧
    (takeInbox 5 asking).isSome = true ∧ runs .lookupRsp asking (fun t => t.fab.rounds.all fun r => r.asks.all (·.done)) = true := by decide +kernel

/-- A mark goes out of date; a returned row stands in the tile; a request is answered. -/
theorem test_lookups : runs (.replicaStale 0 0 6) marked (fun t => (tableAt t 0).any fun x => (x.marks.map (·.2.current)) = [false]) = true ∧
    runs .lookupRsp asking (fun t => Memory.readN t.mem.tile (tileKey 5 0x103F) 2 = [9, 0]) = true ∧
    runs .lookupReq (received (piece 4 (List.replicate 16 0)) sealed) (fun t => t.fab.inbox = []) = true ∧
    runs (.watermarkReceive 0 0 6 5) (tableIs sealed) (fun t => (tableAt t 0).any fun x => (x.marks.map (·.2.mark)) = [5]) = true := by decide +kernel

/-- A device whose slot 3 has all cells of partition 0, with cell 16 as given and a SIGNAL of that cell delivered over the fabric for an owner. -/
def signalled (c : Cell) (owner : Nat) : State :=
  { tiled with slots := [(3, { state := .active, cellBase := 0, cellCount := 2048 })], cells := { cells := [(16, c)] },
               fab := { inbox := [⟨6, 1, 5, 6, owner, 0, 3, true, toLE 2 16 ++ toLE 2 0⟩] } }

/-- The premises on cells: every cell of the partition is bound, a channel parks or not, a received SIGNAL is accepted, dropped or not for a partition. -/
theorem test_cell_premises : (∀ c ∈ List.range 2048, cellBound (signalled {} 0) (cellNo 0 c) = true) ∧ cellBound tiled 20 = false ∧
    primaryHub { tiled with hubs := {} } = none ∧ (takeInbox 6 (signalled {} 0)).isSome = true ∧ rwVal (setRw 0x3000 0x15 1 (signalled {} 0)) 0x3000 0x15 0 = 1 ∧
    rwVal (signalled {} 0) 0x3000 0x15 0 ≠ 1 ∧ DomainTaken host ⟨objClearOverflows, [0]⟩ 256 tiled ∧ DomainTaken host ⟨objCutMask, [0, 3]⟩ 256 tiled ∧
    (slotAt tiled 0 3).state ≠ .staged ∧ (slotAt { tiled with slots := [(3, { state := .staged })] } 0 3).state = .staged := by unfold DomainTaken; decide +kernel

/-- A SIGNAL of 3 on a cell with two parked waits wakes both and leaves 1; a count above 0xFFFF sets the overflow flag; a unit of another partition is stopped. -/
theorem test_cells : runs (.cellSignal 0 16 3) (signalled { parks := [80, 81] } 0) (fun t => (cellAt t 16).count = 1 && (cellAt t 16).parks = []) = true ∧
    runs (.cellSignal 0 16 2) (signalled { count := 0xFFFE } 0) (fun t => (cellAt t 16).count = 0xFFFF && (cellAt t 16).ovf) = true ∧
    runs (.cellTry 0 16) (signalled { count := 2 } 0) (fun t => (cellAt t 16).count = 1 && t.outs.head? = some (.cellTry 16 true 1)) = true ∧
    runs (.cellSignal 1 16 3) (signalled {} 0) (fun t => (cellAt t 16).count = 0) = true ∧
    runs .remoteSignal (setRw 0x3000 0x15 1 (signalled {} 0)) (fun t => (cellAt t 16).count = 1) = true ∧
    runs .remoteSignal (signalled {} 0) (fun t => (cellAt t 16).count = 0 && countVal t 0x3000 0x17 0 = 1) = true ∧
    runs (.sigRaise 0 0 0x50010) (signalled {} 0) (fun t => (cellAt t 16).count = 5) = true := by decide +kernel

/-- A serving device with port 2 in a state and light on its engine. -/
def linked (p : FabPort) : State :=
  { setDom 0x7102 0x11 (List.replicate 16 9) (setCount 0x7180 2 1 serving) with clock := { now := 20000000 }, fab := { ports := [(2, p)] } }

/-- A flit between nodes. -/
def flit0 : Flit := ⟨2, 0, 5, 6, 0, 0, 3, true, List.replicate 16 1⟩
/-- A CTL flit in sequence that seals n flits. -/
def ctl (seq first count : Nat) : Ctl := ⟨seq, false, 0xFFFF, [0, 0, 0], 0, 0, first, count, 0, 0, 7, 0x01000100, 0⟩
/-- Locked wavelengths, all in SYNC. -/
def synced : FabPort := { locks := List.replicate 10 ⟨2, 0⟩ }

/-- The premises on the receive side of a link. -/
theorem test_link_premises : (∀ w ∈ List.range 10, (nth synced.locks w {}).phase = 2 ∧ nth (List.replicate 10 1) w 0 = 1) ∧
    (∀ l ∈ List.range 8, (waveOf synced.lanes l).isSome = true) ∧ slotGood [] 0 ⟨0, true, flit0⟩ = true ∧ slotGood [] 0 ⟨0, false, flit0⟩ = false ∧
    (2 ≤ flit0.type ∧ flit0.type ≤ 0xA) ∧ linkKeyed (linked {}) 2 0 = true ∧ linkKeyed (linked {}) 2 1 = false ∧ rwVal (linked {}) 0x7102 2 0xFFFFFFFF = 0xFFFFFFFF ∧
    commonVersion 0x01000100 0x01000100 ≠ 0 ∧ commonVersion 0x01000100 0x02000200 = 0 := by decide +kernel

/-- Frames: all lanes in SYNC align a LOCKING port; a good flit is held, one with a bad CRC asks for a repeat. -/
theorem test_frames : runs (.frameReceive 2 true (List.replicate 10 1) (List.replicate 10 0) [] []) (linked { synced with state := 1 }) (fun t => (portAt t 2).state = 2) = true ∧
    runs (.frameReceive 2 true (List.replicate 10 1) (List.replicate 10 0) [] [some ⟨0, true, flit0⟩]) (linked { synced with state := 3 })
      (fun t => (portAt t 2).held = [flit0] && (portAt t 2).expected = 1) = true ∧
    runs (.frameReceive 2 true (List.replicate 10 1) (List.replicate 10 0) [] [some ⟨0, false, flit0⟩]) (linked { synced with state := 3 })
      (fun t => (portAt t 2).held = [] && (portAt t 2).nak.isSome) = true := by decide +kernel

/-- CTLs: training brings the port UP; a seal empties the run; one that fails discards it; a sent CTL takes the next link sequence. -/
theorem test_ctls : runs (.ctlReceive 2 (ctl 0 0 0) true true) (linked { state := 2 }) (fun t => (portAt t 2).state = 3 && (portAt t 2).partner = 7) = true ∧
    runs (.ctlReceive 2 (ctl 1 0 1) true true) (linked { state := 3, expected := 1, held := [flit0] }) (fun t => (portAt t 2).held = [] && (portAt t 2).expected = 2) = true ∧
    runs (.ctlReceive 2 (ctl 1 0 1) true false) (linked { state := 3, expected := 1, held := [flit0] }) (fun t => (portAt t 2).held = [] && (portAt t 2).expected = 0) = true ∧
    runs (.ctlSend 2) (linked { state := 3, nextSeq := 5, queue := [flit0] }) (fun t => (portAt t 2).nextSeq = 7 && (portAt t 2).replay.length = 2 && (portAt t 2).queue = []) = true ∧
    runs (.replayTimeout 2) (linked { state := 3, replay := [⟨5, some flit0, 19990000, 16⟩] }) (fun t => (portAt t 2).state = 0 && (portAt t 2).cause = 6) = true ∧
    runs (.replayTimeout 2) (linked { state := 3, replay := [⟨5, some flit0, 19990000, 15⟩] }) (fun t => (portAt t 2).replay.map (·.times) = [16]) = true ∧
    runs (.nakHoldoffTimeout 2) (linked { state := 3, nak := some (0, 19990000) }) (fun t => (portAt t 2).nakDue) = true := by decide +kernel

/-- A port past the end of its error window, with errors on wavelength 3. -/
def faulty (lanes : List Nat) : FabPort := { state := 3, lanes := lanes, errs := [0, 0, 0, 100001, 0, 0, 0, 0, 0, 0] }

/-- The premises on the life of a port. -/
theorem test_causeway_premises : mainOn (linked {}) = true ∧ portEnabled (linked {}) 2 = true ∧ engineLit serving 0 = false ∧ engineLit (linked {}) 0 = true ∧
    RowTaken (.fabric 5) ⟨objPortEnable, [2]⟩ 0 (linked {}) ∧ RowTaken (.fabric 5) ⟨objPortEnable, [2]⟩ 1 (linked {}) ∧ RowTaken (.fabric 5) ⟨objTableCommit, []⟩ 1 (linked {}) ∧
    RowTaken (.fabric 5) ⟨objTableCommit, []⟩ 0 (linked {}) ∧ waveOf (faulty [0, 1, 2, 3, 4, 5, 6, 7, 8, 8]).lanes 3 = some 3 ∧
    spareWave (faulty [0, 1, 2, 3, 4, 5, 6, 7, 8, 8]) = some 8 ∧ spareWave (faulty [0, 1, 2, 3, 4, 5, 6, 7, 15, 15]) = none ∧
    (∀ m ∈ List.range 8, ∀ v ∈ waveOf (faulty [0, 1, 2, 3, 4, 5, 6, 7, 8, 8]).lanes m,
      (rwVal (linked {}) 0x7102 0x10 100000 < nth (faulty [0, 1, 2, 3, 4, 5, 6, 7, 8, 8]).errs v 0 ↔ m = 3)) ∧
    (10000000 + 10000000 ≤ (linked {}).clock.now ∧ ¬10000001 + 10000000 ≤ (linked {}).clock.now) := by unfold RowTaken; decide +kernel

/-- Bring-up, the align timeout, loss of light, a lane offered the lowest spare, and the port without one. -/
theorem test_causeway : runs (.bringUpRetry 2) (linked { tried := some 10000000 }) (fun t => (portAt t 2).state = 1) = true ∧
    runs (.alignTimeout 2) (linked { state := 1, started := 19000000 }) (fun t => (portAt t 2).state = 0 && (portAt t 2).cause = 1) = true ∧
    runs (.lightLoss 0) (linked { state := 3 }) (fun t => (portAt t 2).state = 0 && (portAt t 2).cause = 8) = true ∧
    runs (.laneErrorWindow 2) (linked (faulty [0, 1, 2, 3, 4, 5, 6, 7, 8, 8])) (fun t => (portAt t 2).offered = some ⟨3, 3, 8, true, 4⟩ && (portAt t 2).cmdOut = [(1, 56)]) = true ∧
    runs (.laneErrorWindow 2) (linked (faulty [0, 1, 2, 3, 4, 5, 6, 7, 15, 15])) (fun t => (portAt t 2).state = 0 && (portAt t 2).cause = 5) = true ∧
    runs (.switched 2) (linked { state := 3, cmdIn := [(2, 0x38)] }) (fun t => nth (portAt t 2).txLanes 8 15 = 3 && (portAt t 2).cmdOut = [(3, 0x38)]) = true ∧
    runs (.spareWavelengthError 2 8) (linked { state := 3 }) (fun t => nth (portAt t 2).lanes 8 0 = 15) = true := by decide +kernel

/-- A WRITE of 4 bytes at an offset for batch 2 of slot 3, on tile 5. -/
def exchanging (off : Nat) : State :=
  setRw 0x7203 1 77 (setRw 0x7203 2 0x1000 (setRw 0x7203 3 64 { tiled with
    fab := { inbox := [⟨2, 1, 5, 6, 0, 0, 3, true, toLE 4 77 ++ toLE 4 2 ++ toLE 4 off ++ toLE 2 4 ++ [0, 0, 1, 2, 3, 4]⟩], ended := [] } }))
/-- Slot 3 with an exchange round of batch 2, at a time. -/
def rounding (now : Nat) (asks : List Ask) (flags : Nat) : State :=
  { tiled with clock := { now := now }, slots := [(3, { state := .active, image := some { flags := flags, stages := [{}] } })],
               fab := { rounds := [{ slot := 3, stage := 0, batch := 2, issued := 10000, asks := asks, open_ := true }] } }
/-- A row that has not come. -/
def ask0 : Ask := ⟨0, 0, 0, 5, 0x1000, 64, 3, 0, false, false⟩

/-- The premises on exchange writes, FM frames and rounds, with the first instant at which a round ends. -/
theorem test_exchange_premises : (takeInbox 2 (exchanging 60)).isSome = true ∧ (slotAt (exchanging 60) 0 3).state.holds = true ∧ 60 + 4 ≤ 64 ∧ 64 < 61 + 4 ∧
    (let a := 0x1000 + 2 % exchangeAreas (exchanging 60) 3 * 64 + 60; ownerOf (exchanging 60) 0 5 a = 0 ∧ ownerOf (exchanging 60) 0 5 (a + 3) = 0) ∧
    (takeInbox 2 (setRw 0x7203 1 78 (exchanging 60))).isSome = true ∧ DomainTaken host ⟨objFmOut, []⟩ 19 tiled ∧ DomainTaken host ⟨objFmOut, []⟩ 20 tiled ∧
    rwVal (setRw 0x7000 3 1 tiled) 0x7000 3 0 ≠ 0 ∧ rwVal tiled 0x7000 3 0 = 0 ∧
    10000 + 1000 * rwVal (rounding 100000 [] 0) 0x7000 0xA 90 ≤ 100000 ∧ 99999 < 10000 + 1000 * rwVal (rounding 99999 [] 0) 0x7000 0xA 90 := by
  unfold DomainTaken; decide +kernel

/-- A WRITE at the end of its area lands; one past it does not; a round ends at its time, or asks the partners first. -/
theorem test_exchange : runs .exchangeWrite (exchanging 60) (fun t => Memory.readN t.mem.tile (tileKey 5 (0x1000 + 2 % exchangeAreas (exchanging 60) 3 * 64 + 60)) 5 = [1, 2, 3, 4, 0]) = true ∧
    runs .exchangeWrite (exchanging 61) (fun t => t.mem = (exchanging 61).mem && countVal t 0x7203 6 0 = 1) = true ∧
    runs (.exchangeRoundEnd 0 3 0 []) (rounding 100000 [] 0) (fun t => t.fab.rounds = [] && KMap.getD t.fab.ended 3 0 = 3) = true ∧
    runs (.exchangeRoundEnd 0 3 0 []) (rounding 99999 [] 0) (fun t => t.fab.rounds.length = 1) = true ∧
    runs (.exchangeRoundEnd 0 3 0 []) (rounding 100000 [ask0] 1) (fun t => t.fab.rounds.map (·.extra) = [true]) = true ∧
    runs .fmRsp { tiled with fab := { inbox := [⟨0xA, 1, 5, 6, 0, 0, 3, true, [7]⟩] } } (fun t => (KMap.getD t.dict.blobs (okey 0x7002 2) []).length = 244) = true := by decide +kernel

/-- A serving device whose ports 2 and 3 are UP, in a time role, with port 2 as its parent and a clock. -/
def timed (role : Nat) (c : Clock) : State :=
  { setRw 0x9000 2 role (setRw 0x9000 3 2 serving) with clock := c, fab := { ports := [(2, { state := 3 }), (3, { state := 3 })] } }

/-- A clock that awaits the response of request 1, sent at T1 = 0, at 20 ms. -/
def awaiting (st : FtState) (units : Nat) : Clock :=
  { now := 20000000, ft := units / 65536, frac := units % 65536, state := st, ask := some ⟨2, 1, 0⟩, lastAsk := 18000000 }

/-- The first sequence number of a link's TIME flits. -/
def count0 : Nat := 2 ^ 63

/-- The premises on Fabric Time: an interval that has passed, flits taken and not taken, offsets of each size, and the commands. -/
theorem test_time_premises : mainOn (timed 0 {}) = true ∧ timeRole (timed 0 {}) = 0 ∧ parentPort (timed 0 {}) = some 2 ∧ parentPort serving = none ∧ portUp (timed 0 {}) 2 = true ∧
    18000000 + exchangeNs (timed 0 {}) ≤ 20000000 ∧ timeTaken (timed 0 {}) 2 7 0 count0 true = true ∧ timeTaken (timed 0 {}) 2 7 31 count0 true = false ∧
    timeTaken (timed 0 { seen := [(2, count0)] }) 2 7 0 count0 true = false ∧ 0 + 16 * exchangeNs (timed 0 {}) ≤ 20000000 ∧
    (let s := timed 0 (awaiting .locked 0)
     let th (t2 t3 : Int) : Int := ((t2 - 0) - (arrivalStamp s 2 - t3)) / 2
     50 * oneUs < th (60 * oneUs) (60 * oneUs) ∧ th 0 (-102 * oneUs) < -(50 * oneUs) ∧ -(50 * oneUs) ≤ th 0 0 ∧ th 0 0 ≤ 50 * oneUs) ∧
    RowTaken side ⟨objSetFt, []⟩ 5 (timed 1 {}) ∧ RowTaken host ⟨objRelock, []⟩ 1 (timed 0 { state := .holdover }) ∧
    (decidingHub (timed 0 {})).isSome = true ∧ decidingHub (inState .standby) = decidingHub (timed 0 {}) ∧ decidingHub { timed 0 {} with hubs := {} } = none ∧
    (0 + 256 ≤ ({ now := 256 } : Clock).now ∧ ({ now := 255 } : Clock).now < 0 + 256) := by unfold RowTaken; decide +kernel

/-- A request goes out on the parent port; a response steps FT from UNSET forward, is slewed out in LOCKED, and never moves it back; silence enters HOLDOVER. -/
theorem test_time : runs .timeExchangeTimer (timed 0 { now := 2000000 }) (fun t => t.clock.ask = some ⟨2, 1, 0⟩) = true ∧
    runs (.timeResponse 2 1 7 0 count0 0 65536000 65536000 true) (timed 0 (awaiting .unset 0)) (fun t => t.clock.state = .tracking && t.clock.units = 65536000) = true ∧
    runs (.timeResponse 2 1 7 0 count0 0 0 0 true) (timed 0 (awaiting .locked 65536000)) (fun t => t.clock.state = .locked && t.clock.slew = -32768000 && t.clock.units = 65536000) = true ∧
    runs (.timeResponse 2 1 7 0 count0 0 0 0 true) (timed 0 (awaiting .locked 13107200000)) (fun t => t.clock.state = .holdover && t.clock.units = 13107200000) = true ∧
    runs (.timeRequest 3 1 7 0 count0 5 true) (timed 0 {}) (fun t => t.clock.seen = [(3, count0)]) = true ∧
    runs .masterLostTimeout (timed 0 (awaiting .locked 0)) (fun t => t.clock.state = .holdover && countVal t 0x9000 0x14 0 = 2) = true ∧
    runs (.setFt side 1 5) (timed 1 {}) (fun t => t.clock.state = .locked && t.clock.ft = 5) = true ∧
    runs (.relock host 1 1) (timed 0 { state := .holdover }) (fun t => t.clock.state = .tracking) = true := by decide +kernel

/-- A serving device whose FT stands at tick 10, with entry 3000 as given. -/
def entered (e : Entry) : State := { serving with clock := { ft := 10240, state := .locked }, alm := { lastTick := 9, entries := [(3000, e)] } }
/-- A SIGNAL chain of partition 0 on cell 16. -/
def chain0 : Entry := { fire := 10, period := 4, count := 0, action := 8, owner := 0, target := 16 }
/-- A device with an entry staged for a number. -/
def placing (n : Nat) (b : Bytes) (s : State) : State := setRw 0x9010 2 n (setDom 0x9010 3 b s)
/-- The 32 bytes of a SIGNAL entry. -/
def entry0 (policy target : Nat) : Bytes := toLE 8 20 ++ toLE 4 0 ++ toLE 4 1 ++ [8, BitVec.ofNat 8 policy, 0, 0] ++ toLE 4 target ++ [0xFF, 0xFF] ++ List.replicate 6 0
/-- The entry command. -/
def entryCommand : ObjRef := ⟨objEntryCommand, []⟩

/-- The premises on the Almanac: a tick that is ready and one that is not, entries due in each of the ways, and each command taken and refused. -/
theorem test_almanac_premises : mainOn (entered chain0) = true ∧ (decidingHub (entered chain0)).isSome = true ∧ 1024 * 10 ≤ (entered chain0).clock.ft ∧
    ¬1024 * 10 ≤ ({ entered chain0 with clock := { ft := 10239, state := .locked } } : State).clock.ft ∧
    (entered chain0).alm.entries.filter (fun e => e.2.due 10) = [(3000, chain0)] ∧ (entered { chain0 with fire := 11 }).alm.entries.filter (fun e => e.2.due 10) = [] ∧
    KMap.sorted (entered chain0).alm.entries = true ∧
    (let e : Entry := { chain0 with fire := 7, period := 4, action := 0, policy := 1 }; e.due 10 = true ∧ nextOnGrid e 9 ≠ 10 ∧ (e.action ∉ [1, 6, 8])) ∧
    RowTaken host entryCommand 1 (entered chain0) ∧ RowTaken host entryCommand 4 (entered chain0) ∧
    (placeCode (placing 0xFFFF (entry0 0 16) (entered chain0))).1 = 3 ∧ (placeCode (placing 3000 (entry0 0 16) (entered chain0))).1 = 1 ∧
    placeCode (placing 3001 (entry0 0 16) { entered chain0 with slots := [(3, { state := .active, image := some { claims := [⟨7, 0, 64⟩] } })] }) = (0, 3001) ∧
    changeCode (placing 3000 (entry0 0 16) (entered chain0)) true = 0 ∧ changeCode (placing 3001 (entry0 0 16) (entered chain0)) true ≠ 0 ∧
    changeCode (placing 3000 [] (entered chain0)) false = 0 ∧ changeCode (placing 16 [] (entered chain0)) false ≠ 0 ∧
    (parseEntry (stagedEntry (placing 16 (entry0 3 16) (entered chain0)))).policy = 3 ∧ entryNumber (placing 271 (entry0 2 16) (entered chain0)) = 271 := by
  unfold RowTaken; decide +kernel

/-- A late chain under policy SKIP moves to its grid; under REFUSE it ends; a report ends its firing; CANCEL of an entry in flight waits; SETPOLICY of slot 16. -/
theorem test_almanac : runs .almanacTick (entered { chain0 with fire := 7, action := 0, policy := 1 }) (fun t => (entryAt t 3000).map (·.fire) = some 11 && countVal t 0x9011 5 0 = 1) = true ∧
    runs .almanacTick (entered { chain0 with fire := 7, action := 0, policy := 2 }) (fun t => entryAt t 3000 = none && countVal t 0x9011 6 0 = 1) = true ∧
    runs .almanacTick (entered { chain0 with action := 0 }) (fun t => (entryAt t 3000).map (fun e => (e.fire, e.flight)) = some (14, true)) = true ∧
    runs (.firingReport 3000) { entered { chain0 with flight := true, count := 1 } with alm := { entries := [(3000, { chain0 with flight := true, count := 1 })], flight := [⟨3000, 8, 0, 16, 0, false, true⟩] } }
      (fun t => t.alm.flight = [] && entryAt t 3000 = none) = true ∧
    runs (.entryCancel host 1) (placing 3000 [] (entered { chain0 with flight := true })) (fun t => (entryAt t 3000).isSome && (KMap.find t.alm.waiting 3000) = some .cancel) = true ∧
    runs (.setpolicy host 1) (placing 16 (entry0 2 16) (entered chain0)) (fun t => slotPolicy t 16 = 2) = true := by decide +kernel

/-- A device in a state whose Mire is READY with one namespace of partition 0, over a device with a slot on tile 5. -/
def mired (st : DevState) (m : Mire) : State :=
  setCount 0x8000 0xC 1000 (setCount 0x8000 0xF 1 { tiled with dev := { state := st }, mire := m })
/-- One namespace of partition 0, with the key of partition 0. -/
def mire0 : Mire := { spaces := [(0, ⟨0, 16, 2⟩)], keys := [(0, List.replicate 64 1)] }
/-- Partition 0 asks for a namespace of 4 units, number 1. -/
def spaceAsk (owner size : Nat) : State := setRw 0x8041 3 owner (setRw 0x8041 4 size (mired .config mire0))
/-- The command object of a namespace. -/
def spaceCommand (n : Nat) : ObjRef := ⟨objSpaceCommand, [n]⟩

/-- The premises on the commands of Mire and on the keys, with a DISCARD that just fits and one that does not. -/
theorem test_mire_command_premises : RowTaken host ⟨objMireCommand, []⟩ 1 (mired .config {}) ∧ RowTaken host (spaceCommand 1) 1 (spaceAsk 0 4) ∧
    RowTaken host (spaceCommand 0) 2 (spaceAsk 0 4) ∧ RowTaken host (spaceCommand 0) 3 (spaceAsk 0 4) ∧ mireState (spaceAsk 0 4) = 1 ∧ mireState config = 0 ∧
    KMap.find (spaceAsk 0 4).mire.spaces 1 = none ∧ rwVal (commitStaged 0x8041 (spaceAsk 0 4)) 0x8041 3 0 = 0 ∧ rwVal (commitStaged 0x8041 (spaceAsk 5 4)) 0x8041 3 0 = 5 ∧
    KMap.find (spaceAsk 5 4).mire.keys 5 = none ∧ fitRun 300 [(2, 16)] 0 4 1 1000 = some 18 ∧ fitRun 300 [(2, 16)] 0 983 1 1000 = none ∧
    spaceUsed (spaceAsk 0 4) 0 = false ∧ spaceUsed { spaceAsk 0 4 with data := { tables := [(0, table0)] } } 0 = true ∧
    DomainTaken host ⟨objFlashKey, [0]⟩ 64 (mired .config mire0) ∧ DomainTaken host ⟨objFlashKey, [1]⟩ 64 (mired .config mire0) := by
  unfold RowTaken DomainTaken; decide +kernel

/-- A key of a link, written in one segment on the side band. -/
def linkKeyReq : Req := { idx := 0x7102, sub := 0x11, ty := 10, last := true, data := List.replicate 32 6 }

/-- The premises on a key written as a DOMAIN. -/
theorem test_key_premises : Goes side ⟨4, linkKeyReq⟩ serving ∧
    ((findFor side linkKeyReq true true).toOption.any fun r => r.obj.kind = .linkKey && (r.obj.dlen.most.all fun n => 32 ≤ n) && accessBar side r serving = .ok
      && domainBar side r 32 (dropTransfer side serving) = .ok) = true ∧
    runs (.keyWrite side 1 0x7102 0x11 (List.replicate 32 6)) serving (fun t => rwDom t 0x7102 0x11 [] = List.replicate 32 6) = true := by unfold Goes; decide +kernel

/-- CREATE takes the first run that is free; without the owner's key it is refused with 3; a DESTROY unwrites; a DISCARD past the size is refused with 5. -/
theorem test_mire_commands : runs (.namespaceCreate host 1 1) (spaceAsk 0 4) (fun t => KMap.find t.mire.spaces 1 = some ⟨0, 4, 18⟩ && countVal t 0x8041 9 0 = 0) = true ∧
    runs (.namespaceCreate host 1 1) (spaceAsk 5 4) (fun t => KMap.find t.mire.spaces 1 = none && countVal t 0x8041 9 0 = 3) = true ∧
    runs (.namespaceDestroy host 1 0) (mired .config { mire0 with map := [(2, 1), (18, 2)] }) (fun t => t.mire.map = [(18, 2)]) = true ∧
    runs (.discard host 1 0) (setRw 0x8040 7 13 (setRw 0x8040 8 4 (mired .config mire0))) (fun t => countVal t 0x8040 9 0 = 5) = true ∧
    runs (.format host 1 [] 0) (mired .config { map := [(2, 1)] }) (fun t => t.mire.map = []) = true ∧
    runs (.flashKeyWrite host 1 1 (List.replicate 64 6)) (mired .config mire0) (fun t => (KMap.find t.mire.keys 1).isSome) = true := by decide +kernel

/-- A serving device with that namespace, whose unit 2 is written, and a target with an operation. -/
def stocked (l : List FlashOp) : State := mired .serving { mire0 with map := [(2, 1)], targets := [(0, { ops := l, writeBusy := true, blocks := 4, perBlock := 8 })] }
/-- A running operation of a kind on a unit. -/
def running (k : FlashKind) (unit read : Nat) : FlashOp := ⟨k, unit, read, true, false, 0⟩

/-- A write of a whole unit is let through by its status, whatever its bytes. -/
theorem test_write_status : ∀ d : Bytes, d.length = 16384 → writeStatus (stocked []) ⟨1, 0, 0, 16384, 1, false, false, d⟩ = 0 := by
  intro d h
  have a : (stocked []).mire.dumping = false := rfl
  have b : flashCheck (stocked []) 0 0 16384 16384 = 0 := by decide +kernel
  have c : (dieAt (stocked []) (unitOf (stocked []) 0 16384 % 2)).lost = false ∧ (dieAt (stocked []) (unitOf (stocked []) 0 16384 % 2)).worn = false := by decide +kernel
  simp [writeStatus, h, a, b, c]

/-- The premises on writes, patches and the ends of operations, at the ends of a unit and of the namespace. -/
theorem test_flash_premises : (List.replicate 16384 (0 : Byte)).length = 16384 ∧ physOk (stocked []) 3 1 = true ∧ physOk (stocked []) 3 0 = false ∧
    bufferUsed (dieAt (stocked []) 1) + 16384 ≤ bufferRoom (stocked []) ∧ (dieAt (stocked []) 1).waiting = [] ∧
    bufferRoom (stocked []) < bufferUsed { journal := [⟨1, 2, none, [], false, 33554432 - 16383⟩] } + 16384 ∧
    writeStatus (stocked []) ⟨1, 0, 0, 16 * 16384, 1, false, false, [0]⟩ = 4 ∧ writeStatus (stocked []) ⟨1, ownSystem, 0, 16320, 0, true, true, List.replicate 64 1⟩ = 0 ∧
    (16320 % 64 = 0 ∧ 64 % 64 = 0 ∧ 16320 % 16384 + 64 ≤ 16384) ∧ KMap.find (stocked []).mire.map (unitOf (stocked []) 0 16320) = some 1 ∧ 1 ≠ discardedEntry ∧
    (runningOp (stocked [running .program 2 0]) 0 .program).isSome = true ∧ (runningOp (stocked [running .erase 2 0]) 0 .erase).isSome = true ∧
    runningOp (stocked []) 0 .program = none ∧ flashCheck (stocked []) 0 0 16383 1 = 0 ∧ flashCheck (stocked []) 1 0 0 1 = 5 ∧ flashCheck (stocked []) 0 0 (16 * 16384) 1 = 4 ∧
    (stocked []).mire.dumping = false ∧ KMap.find (stocked []).mire.map 3 = none ∧ 1 < discardedEntry ∧ (targetAt (stocked []) (targetOf 2 1)).failed = false := by
  refine ⟨List.length_replicate, ?_⟩; decide +kernel

/-- A patch at the end of a unit, an unwritten unit that reads as zeros with status 1, a read that cannot be rebuilt, and the end of an erase. -/
theorem test_flash : runs (.flashPatch 7 0 16320 (List.replicate 64 9)) (stocked []) (fun t => Memory.readN t.mem.flash (2 * 16384 + 16319) 2 = [0, 9] && t.outs = [.flash 7 0 []]) = true ∧
    runs (.flashPatch 7 0 16352 (List.replicate 64 9)) (stocked []) (fun t => t.mem.flash = [] && t.outs = [.flash 7 4 []]) = true ∧
    runs (.backgroundRead 7 0 0 16384 2 0 0) (stocked []) (fun t => t.outs = [.flash 7 1 [0, 0]]) = true ∧
    runs (.backgroundRead 7 0 0 0 2 2 0) (stocked []) (fun t => t.outs = [.flash 7 2 [0, 0]]) = true ∧
    runs (.eraseDone 0) (stocked [running .erase 2 0]) (fun t => (KMap.find t.mire.blocks 2).map (·.pe) = some 1) = true ∧
    runs (.programDone 0) (stocked [running .program 2 0]) (fun t => !(targetAt t 0).writeBusy) = true := by decide +kernel

/-- A flash round of slot 3 with one read of unit 2 after some attempts, at a time. -/
def queried18 (now attempts : Nat) : State :=
  { stocked [running .query 2 7] with
      clock := { now := now }, mire := { (stocked [running .query 2 7]).mire with rounds := [⟨3, 0, 0, [⟨7, 2, 0, 4, 0, 5, 0x1000, 1, 2, attempts, none⟩]⟩], nextRead := 8 },
      mem := { flash := Memory.writeLE [] (2 * 16384) 4 0x04030201, tile := Memory.writeLE [] (tileKey 5 0x1000) 4 0xFFFFFFFF } }

/-- The premises on query reads and rounds, with the first instant of a round's end and the last attempt in time. -/
theorem test_round_premises : (slotAt (queried18 0 0) 0 3).state.holds = true ∧ 16380 % 16384 + 4 ≤ 16384 ∧ (∀ r ∈ (queried18 0 0).mire.rounds, ∀ x ∈ r.reads, x.id < (queried18 0 0).mire.nextRead) ∧
    flashCheck (queried18 0 0) 0 0 0 4 = 0 ∧ KMap.find (queried18 0 0).mire.map 3 = none ∧ KMap.find (queried18 0 0).mire.map 2 = some 1 ∧ patchedEntry ≠ discardedEntry ∧ 1 < discardedEntry ∧
    inBuffer (queried18 0 0) 2 = false ∧ (let s := { queried18 0 0 with mire := { (queried18 0 0).mire with targets := [] } }
      (targetAt s (targetOf 2 1)).ops = [] ∧ (targetAt s (targetOf 2 1)).writeBusy = false ∧ (dieAt s 0).lost = false ∧ 1 ≤ flashDepth s) ∧
    0 < rwVal (queried18 0 0) 0x8000 0x16 64 ∧ (runningOp (queried18 0 0) 0 .query).isSome = true ∧ (readAt (queried18 0 0) 7).isSome = true ∧
    retrySteps (queried18 0 0) 0 ≤ 0 ∧ 0 < retrySteps (setDom 0x8010 7 (List.replicate 8 0) (queried18 0 0)) 0 ∧
    40000 + 1000 * tAtt (queried18 0 0) ≤ 0 + roundNs (queried18 0 0) ∧ (roundAt (queried18 0 0) 3).isSome = true ∧
    roundNs (queried18 0 0) = 1000 * (2 * 30 + 10 + max 30 (tSusp (queried18 0 0))) := by decide +kernel

/-- A suspend, a good attempt, a failed one that retries, and a round that ends with its read not ended. -/
theorem test_rounds : runs (.readAttemptDone 0 true false) (queried18 50000 0) (fun t => Memory.readN t.mem.tile (tileKey 5 0x1000) 4 = [1, 2, 3, 4]) = true ∧
    runs (.readAttemptDone 0 false false) (setDom 0x8010 7 (List.replicate 8 0) (queried18 40000 0)) (fun t => t.mire.rounds.all fun r => r.reads.all fun q => q.attempts = 1) = true ∧
    runs (.readAttemptDone 0 false false) (queried18 50000 0) (fun t => Memory.readN t.mem.tile (tileKey 5 0x1000) 4 = [0, 0, 0, 0]) = true ∧
    runs (.flashRoundEnd 0 3) (queried18 (roundNs (queried18 0 0)) 0) (fun t => t.mire.rounds = [] && Memory.read t.mem.tile (tileKey 5 (64 * 1 + 2)) = 3) = true ∧
    runs (.flashRoundEnd 0 3) (queried18 (roundNs (queried18 0 0) - 1) 0) (fun t => t.mire.rounds.length = 1) = true ∧
    runs (.operationSuspended 0) (stocked [running .erase 2 0, ⟨.query, 2, 7, false, false, 0⟩]) (fun t => (targetAt t 0).ops.map (·.suspended) = [true, false]) = true ∧
    runs (.queryRead 0 3 0 5 1 0 0 16384 4 0x2000) (queried18 0 0) (fun t => t.mire.rounds.all fun r => r.reads.length = 2) = true := by decide +kernel

/-- A device of 100 blocks on die N, with one block closed that holds unit 2. -/
def crowded (n : Nat) : State :=
  { stocked [] with mire := { (stocked []).mire with dieN := { blocks := n }, blocks := [(0, { used := 8, closed := some 0 })] } }

/-- The premises on the upkeep of Mire, below the threshold and at it. -/
theorem test_upkeep_premises : (dieAt (crowded 1) 0).lost = false ∧ rwVal (crowded 1) 0x8000 0x1B 2 * 1 > 100 * freeBlocks (crowded 1) 0 ∧
    rwVal (crowded 2) 0x8000 0x1B 2 * 2 ≤ 100 * freeBlocks (crowded 2) 0 ∧ gcVictim (crowded 1) 0 true = some 0 ∧ validUnits (crowded 1) 0 = [2] ∧ physOk (crowded 1) 2 17 = true ∧
    (targetAt (crowded 1) 255).failed = false ∧ (targetAt { crowded 1 with mire := { targets := [(255, { failed := true })] } } 255).failed = true := by decide +kernel

/-- Collection moves the one unit; a failed target is counted; the dump that keeps every record ends complete, in STANDBY with cause 4. -/
theorem test_upkeep : runs (.garbageCollection 0 [17]) (crowded 1) (fun t => KMap.find t.mire.map 2 = some 17) = true ∧
    runs (.garbageCollection 0 [17]) (crowded 2) (fun t => KMap.find t.mire.map 2 = some 1) = true ∧
    runs (.targetFail 31 7) (crowded 1) (fun t => (targetAt t 255).failed && countVal t 0xA002 2 0 = 1) = true ∧
    runs (.storageDieLoss 1) (crowded 1) (fun t => t.mire.dieS.lost) = true ∧ runs .pwrfailNAssert (crowded 1) (fun t => t.mire.dumping && t.tele.annals.stopped) = true ∧
    runs (.dumpComplete 0 0 0 0) { crowded 1 with mire := { (crowded 1).mire with dumping := true } } (fun t => t.dev.state = .standby && t.dev.cause = 4 && t.mire.lastDump = 1) = true := by
  decide +kernel

/-- A serving device with hubs as given. -/
def hubbed (hn hs : HubSide) : State := { serving with hubs := { hn := hn, hs := hs } }
/-- The primary hub that decides. -/
def lead : HubSide := { present := true, primary := true, deciding := true }

/-- The premises on the faults of hubs, units and tile clocks. -/
theorem test_fault_premises : (hubSide serving (otherHub 0)).present = true ∧ (hubSide (hubbed lead {}) (otherHub 0)).present = false ∧
    ((hubSide (hubbed lead { fault := true }) (otherHub 0)).fault = true ∧ (hubSide (hubbed { present := true } { fault := true }) 0).primary = false) ∧
    bit (countVal serving 0xA002 1 0) 55 = false ∧ 5 ∉ tiled.units.lost ∧ KMap.find tiled.claims.tileOwner 5 = some 3 ∧ KMap.find tiled.claims.tileOwner 6 = none ∧
    KMap.getD tiled.tiles.lastUse 6 0 + 1000 * rwVal tiled 0x2008 1 10000 ≤ tiled.clock.now ∧
    ¬KMap.getD serving.tiles.lastUse 6 0 + 1000 * rwVal serving 0x2008 1 10000 ≤ serving.clock.now := by decide +kernel

/-- The last hub that fails takes the device to FAILED with cause 5; a resign leaves the peer alone; a lost tile is counted once; an idle tile stops. -/
theorem test_faults : runs (.lockstepMismatch 0) (hubbed lead {}) (fun t => t.dev.state = .failed && t.dev.cause = 5) = true ∧
    runs (.lockstepMismatch 0) serving (fun t => t.dev.state = .serving && !t.hubs.hn.present && t.hubs.hs.present) = true ∧
    runs (.resignReceive 0 0) (hubbed { present := true } { fault := true }) (fun t => t.hubs.hn.primary && t.hubs.solo && t.hubs.hn.epoch = 1) = true ∧
    runs (.unitTimeout 0x11 7) serving (fun t => t.carr.deadStacks = [7] && countVal t 0xA002 2 0 = 1) = true ∧
    runs (.tileSequencerMismatch 39) serving (fun t => t.units.lost = [39]) = true ∧
    runs (.tileClockStop 6) tiled (fun t => t.tiles.stopped = [6]) = true ∧ runs (.tileClockStop 5) tiled (fun t => t.tiles.stopped = []) = true ∧
    runs (.tileWake 6) { tiled with tiles := { stopped := [6] } } (fun t => t.tiles.stopped = [] && KMap.find t.tiles.lastUse 6 = some 5000000000) = true := by decide +kernel

/-- A device with a Vigil firing of an entry on a unit, and a visit of tile 5. -/
def visiting (entry unit : Nat) (l : KMap Visit) : State :=
  { tiled with alm := { flight := [⟨entry, 0, 32, unit, 0, false, false⟩] }, vigil := { visits := l } }
/-- A visit of tile 5 at a step, of array 1 and of an engine, with one byte saved. -/
def visit0 (step : Nat) : KMap Visit := [(5, ⟨2, step, [7], [(1, 3), (3, 0)], []⟩)]
/-- An update of hub S under way. -/
def updatingHub : State := { serving with island := { update := some ⟨1, false, false, 0⟩ } }
/-- A staged package with every component in the idle slot, fit for a live update. -/
def staged : State := { serving with island := { staged := true, slotB := { ({} : Island).slotB with live := true } } }

/-- The premises on visits, admission and updates, with the first instant at which a stack's core is skipped. -/
theorem test_vigil_premises : vigilFiring (visiting 2 5 []) 2 5 = true ∧ 5 ∉ (visiting 2 5 []).units.lost ∧ vigilReserve (visiting 2 5 []) = true ∧
    vigilReserve (setCount 0x2020 3 100000 (visiting 2 5 [])) = false ∧ (visiting 2 5 []).tiles.underTest.length < 2 ∧ KMap.find (visiting 2 5 []).vigil.visits 5 = none ∧
    KMap.find (visiting 2 5 (visit0 1)).vigil.visits 5 = some ⟨2, 1, [7], [(1, 3), (3, 0)], []⟩ ∧ crc32 [7] ≠ crc32 [8] ∧
    KMap.find (visiting 4 1 []).vigil.stackAt 1 = none ∧ vigilFiring (visiting 4 1 []) 4 1 = true ∧ 1 ∉ (visiting 4 1 []).carr.deadStacks ∧
    spareCores (visiting 4 1 []) 1 = [64, 65] ∧ 0 + 100000000 ≤ 100000000 ∧ vigilFiring (visiting 5 2 []) 5 2 = true ∧
    oldestWave ({ state := 3 } : FabPort) = some (0, 0) ∧ spareWave ({ state := 3 } : FabPort) = some 8 ∧ RowTaken host ⟨objServeAt, []⟩ 5 serving ∧
    RowTaken host ⟨objFwCommand, []⟩ 1 serving ∧ RowTaken host ⟨objFwCommand, []⟩ 2 serving ∧ firmwareBar 1 serving = 4 ∧ firmwareBar 1 staged = 0 ∧
    firmwareBar 2 staged = 0 ∧ firmwareBar 2 updatingHub = 3 ∧ primaryHub updatingHub = some 0 := by unfold RowTaken; decide +kernel

/-- A visit starts, saves, tests and restores; a failed array is marked; UPDATE_HUBS leaves the primary in solo mode. -/
theorem test_vigil : runs (.vigilTileVisit 5) (visiting 2 5 []) (fun t => (KMap.find t.vigil.visits 5).map (·.step) = some 1 && t.tiles.underTest = [5]) = true ∧
    runs (.vigilSaveDone 5 [9]) (visiting 2 5 (visit0 1)) (fun t => (KMap.find t.vigil.visits 5).map (fun v => (v.step, v.saved)) = some (2, [9])) = true ∧
    runs (.vigilBistDone 5 [(1, 3)]) (visiting 2 5 (visit0 2)) (fun t => (arrayAt t 10).bad = [3] && countVal t 0xA000 7 0 = 1) = true ∧
    runs (.vigilRestoreDone 5 [7]) (visiting 2 5 (visit0 3)) (fun t => (KMap.find t.vigil.visits 5).map (·.step) = some 4) = true ∧
    runs (.vigilRestoreDone 5 [8]) (visiting 2 5 (visit0 3)) (fun t => KMap.find t.vigil.visits 5 = none && countVal t 0xA000 5 0 = 1) = true ∧
    runs (.vigilStackVisit 1 [64, 65]) (visiting 4 1 []) (fun t => t.carr.failed = [130, 131] && firingOf t 4 = none) = true ∧
    runs (.vigilPortVisit 2) { visiting 5 2 [] with fab := { ports := [(2, { state := 3 })] } } (fun t => (portAt t 2).offered = some ⟨0, 0, 8, false, 0⟩) = true ∧
    runs (.stackVisitSkip 65) { tiled with vigil := { stackAt := [(1, (4900000000, [65]))] } } (fun t => countVal t 0xA000 6 0 = 1) = true ∧
    runs (.updateHubs host 1) staged (fun t => !t.hubs.hs.present && t.hubs.solo && countVal t 0xA010 3 0 = 2) = true ∧
    runs (.hubUpdateBooted false) updatingHub (fun t => t.island.update = none && countVal t 0xA010 3 0 = 6) = true := by decide +kernel

/-- The block before S0 and at a phase of the start-up. -/
def phase (n : Nat) : State := { inState .booting with island := { phase := n } }
/-- The block before S0, with slots as given. -/
def atS0 (a b : Bool) (life : Nat) : State :=
  setCount 0xC000 1 life { State.reset with island := { alive := false, slotA := { ({} : Island).slotA with sound := a }, slotB := { ({} : Island).slotB with sound := b } } }
/-- Group 2 of the rails enabled, with two of its four good. -/
def rails : State := { inState .booting with clock := { now := 10000000 }, island := { phase := 1, groups := 2, railAt := [(3, 0), (4, 0), (5, 0), (6, 0)], good := [3, 4] } }

/-- The premises on the start-up, with the first instant at which a rail is late. -/
theorem test_boot_premises : fwOk (atS0 true false 1) (fwSlot (atS0 true false 1) 0) = true ∧ fwOk (atS0 true false 1) (fwSlot (atS0 true false 1) 1) = false ∧
    (bootRecord (atS0 true true 1)).any (fun r => r.trial = 0xFF && r.active < 2) = true ∧ lifeCycle (atS0 true true 5) = 5 ∧ refclkGood (atS0 true true 1) = true ∧
    (∀ r ∈ groupRails rails.island.groups, r = 5 ∨ r = 6 ∨ r ∈ rails.island.good) ∧ (KMap.find rails.island.railAt 5).isSome = true ∧ 5 ∉ rails.island.good ∧
    0 + 10000000 ≤ rails.clock.now ∧ mainOn (phase 2) = true ∧ clearPending (phase 5) = false ∧ clearPending (setCount 0xC000 7 128 (phase 5)) = true ∧
    mireState (phase 5) = 0 ∧ mireState (setCount 0x8000 0xF 2 (phase 5)) ≠ 0 := by decide +kernel

/-- S0 with no good image fails with cause 2; with one it enters BOOTING; the rails and the phases go on in order; M6 enters CONFIG. -/
theorem test_boot : runs (.bootS0 1 true) (atS0 false false 1) (fun t => t.dev.state = .failed && t.dev.cause = 2) = true ∧
    runs (.bootS0 1 true) (atS0 false true 1) (fun t => t.dev.state = .booting && t.island.running = 1 && t.island.groups = 1 && countVal t 0xC001 2 0 = 2) = true ∧
    runs (.bootS0 0 true) (atS0 true true 1) (fun t => t.dev.state = .standby && t.island.running = 0) = true ∧
    runs (.powerGood 6) { rails with island := { rails.island with good := [3, 4, 5] } } (fun t => t.island.groups = 3 && (KMap.find t.island.railAt 7) = some 10000000) = true ∧
    runs (.powerGoodTimeout 5) rails (fun t => t.dev.state = .failed && t.dev.cause = 2) = true ∧
    runs (.bootM2 1 true) (phase 2) (fun t => t.hubs.hs.primary && !t.hubs.hn.present && t.hubs.solo && t.island.phase = 3) = true ∧
    runs (.bootM3 [39, 40] [] true) (phase 3) (fun t => t.units.lost = [39] && t.island.phase = 4) = true ∧
    runs (.bootM4 []) (phase 4) (fun t => t.island.phase = 5 && t.mem.tile = []) = true ∧
    runs (.bootM5 [] []) (setCount 0x8000 0xF 2 (phase 5)) (fun t => mireState t = 1 && t.island.phase = 6) = true ∧
    runs .bootM6 (phase 6) (fun t => t.dev.state = .config && t.dev.cause = 1) = true ∧ runs .resetNAssert serving (fun t => t.dev.state = .standby && !t.island.alive) = true := by
  decide +kernel

/-- A device in CONFIG in a life cycle, with scrap arms and a token. -/
def cycled (life armed : Nat) (token : Option Bytes) : State :=
  setCount 0xC000 1 life { config with dict := { config.dict with sessions := [⟨0, 1, 1, 0, [], 0, [], [], 0, false⟩] }, island := { armed := armed, token := token } }
/-- A token for a target state. -/
def token0 (target : Nat) : Bytes := toLE 4 0x4E4B4C55 ++ [1, BitVec.ofNat 8 target, 0, 0] ++ List.replicate 152 0
/-- The life-cycle command. -/
def lifeCommand : ObjRef := ⟨objLifeCommand, []⟩

/-- The premises on the life cycle: each kind of transition on a path that may command it, and each refusal. -/
theorem test_life_premises : RowTaken side lifeCommand 1 (cycled 2 0 (some (token0 1))) ∧ RowTaken side lifeCommand 3 (cycled 2 0 none) ∧ RowTaken side lifeCommand 5 (cycled 1 2 none) ∧
    RowTaken side lifeCommand 2 (cycled 1 0 none) ∧ RowTaken side lifeCommand 4 (cycled 3 0 (some (token0 4))) ∧ RowTaken side lifeCommand 4 (setCount 0xC000 1 1 serving) ∧
    RowTaken .test lifeCommand 1 (cycled 0 0 none) ∧ lifeRow 1 4 = none ∧ lifePath (cycled 0 0 none) .test 0 1 = true ∧ lifePath (cycled 0 0 none) side 0 1 = false ∧
    lifePath (cycled 2 0 none) side 2 3 = true ∧ lifeReady (cycled 1 2 none) 1 5 = true ∧ lifeReady (cycled 1 1 none) 1 5 = false ∧ lifeReady (cycled 1 0 none) 1 2 = false ∧
    tokenForm (cycled 2 0 (some (token0 1))) 1 = true ∧ tokenForm (cycled 2 0 (some (token0 4))) 1 = false ∧ tokenForm (cycled 3 0 (some (token0 4))) 4 = true ∧
    countVal (cycled 2 0 none) 0xC000 8 24 ≠ 0 ∧ countVal (setCount 0xC000 8 0 (cycled 2 0 none)) 0xC000 8 24 = 0 ∧ fuseEpoch (setCount 0xC000 7 15 (cycled 2 0 none)) = 15 ∧
    lifeRow 2 3 = some (false, false) ∧ lifeRow 2 1 = some (true, true) ∧ lifeRow 4 1 = some (true, false) := by unfold RowTaken; decide +kernel

/-- SECURED to DEPLOYED takes a fuse; a token that is not good is counted; a clear takes the next epoch; SCRAPPED ends in STANDBY; a cut clear keeps the state. -/
theorem test_life : runs (.lcToDeployed side 1) (cycled 2 0 none) (fun t => lifeCycle t = 3 && countVal t 0xC000 8 24 = 23) = true ∧
    runs (.lcToManuf side 1 false 5) (cycled 2 0 (some (token0 1))) (fun t => lifeCycle t = 2 && countVal t 0xC000 6 0 = 1) = true ∧
    runs (.lcToManuf side 1 true 5) (cycled 2 0 (some (token0 1))) (fun t => lifeCycle t = 1 && fuseEpoch t = 1 && t.dev.state = .booting) = true ∧
    runs (.lcToScrapped side 1 true 5) (cycled 1 2 none) (fun t => lifeCycle t = 5 && t.dev.state = .standby) = true ∧
    runs (.lcToReturn side 1 true 2) (cycled 3 0 (some (token0 4))) (fun t => lifeCycle t = 3 && clearPending t) = true ∧
    runs (.lcToSecured side 1) (cycled 1 0 none) (fun t => lifeCycle t = 1) = true ∧ runs (.lcToManuf .test 1 true 5) (cycled 0 0 none) (fun t => lifeCycle t = 1) = true := by
  decide +kernel

/-- A device in TEST. -/
def tested (n : Option Nat) : State := { inState .test with clock := { now := 9 }, island := { test := n } }

/-- The premises on tokens, fuses, keys and tests. -/
theorem test_security_premises : DomainTaken side ⟨objToken, []⟩ 160 config ∧ RowTaken side ⟨objScrapArm, []⟩ 0x5C config ∧ RowTaken side ⟨objScrapArm, []⟩ 0x5D config ∧
    DomainTaken host ⟨objNonce, []⟩ 32 config ∧ RowTaken side ⟨objMinSvn, []⟩ 3 (setCount 0xC003 2 2 (setCount 0xC003 1 3 config)) ∧ RowTaken side ⟨objRevocations, []⟩ 14 config ∧
    DomainTaken side ⟨objSideKey, []⟩ 32 config ∧ lifeCycle config = 1 ∧
    (let s := setCount 0xC020 2 0 { cycled 3 0 none with island := { factory := List.replicate 32 4 } }
     DomainTaken side ⟨objSideKey, []⟩ 32 s ∧ countVal s 0xC020 2 1 ≠ 1 ∧ s.island.factory ≠ []) ∧
    (∀ n ∈ [1, 2, 3, 4, 5], RowTaken host ⟨objTestStart, []⟩ n (tested none)) ∧ destructible (tested none) = true ∧ destructible { tested none with mire := mire0 } = false ∧
    RowTaken host ⟨objTestStart, []⟩ 2 { tested none with mire := mire0 } ∧ (tested (some 2)).island.test = some 2 := by
  unfold RowTaken DomainTaken; decide +kernel

/-- An arm counts only for 0x5C; the SVN is fused between its bounds; the last usable key is not revoked; a factory key in MANUF; a test that ends clean. -/
theorem test_security : runs (.scrapArm side 1 0x5C) config (fun t => t.island.armed = 1) = true ∧ runs (.scrapArm side 1 0x5D) (cycled 1 1 none) (fun t => t.island.armed = 0) = true ∧
    runs (.minSvnWrite side 1 3) (setCount 0xC003 2 2 (setCount 0xC003 1 3 config)) (fun t => countVal t 0xC003 2 0 = 3) = true ∧
    runs (.minSvnWrite side 1 1) (setCount 0xC003 2 2 (setCount 0xC003 1 3 config)) (fun t => countVal t 0xC003 2 0 = 2) = true ∧
    runs (.keyRevocationWrite side 1 14) (setCount 0xC003 3 1 config) (fun t => countVal t 0xC003 3 0 = 1) = true ∧
    runs (.keyRevocationWrite side 1 6) (setCount 0xC003 3 1 config) (fun t => countVal t 0xC003 3 0 = 7) = true ∧
    runs (.sidebandKeyWrite side 1 (List.replicate 32 4)) config (fun t => t.island.factory = List.replicate 32 4) = true ∧
    runs (.testMemory host 1) (tested none) (fun t => t.island.test = some 2 && t.island.testAt = 9) = true ∧
    runs (.testDone []) (tested (some 3)) (fun t => t.island.test = none && countVal t 0xD000 2 0 = 100) = true := by decide +kernel

/-- A serving device whose slot 3 needs 2,000 MHz, with a cap, a thermal state, a reduction and a time. -/
def powered (fg cap st red now : Nat) : State :=
  setRw 0x2010 1 cap (setCount 0x2020 2 st (setCount 0x2020 3 red
    { serving with clock := { now := now }, slots := [(3, { state := .active, image := some {}, fg := fg })] }))

/-- The premises on power and heat, at the bounds of the cap, of the temperatures and of the intervals. -/
theorem test_power_premises : RowTaken host ⟨objPowerCap, []⟩ 1937 (powered 2000 2000 0 0 0) ∧ RowTaken side ⟨objPowerCap, []⟩ 1937 (powered 2000 2000 0 0 0) ∧
    RowTaken host ⟨objPowerCap, []⟩ 1938 (powered 2000 2000 0 0 0) ∧ capClass host = 0 ∧ capClass side = 1 ∧
    (∃ e ∈ residents (powered 2000 2000 0 0 0), guaranteedMhz (1937 - 0) < e.2.1.fg) ∧ ¬(∃ e ∈ residents (powered 2000 2000 0 0 0), guaranteedMhz (1938 - 0) < e.2.1.fg) ∧
    RowTaken host ⟨objPlannedCap, []⟩ 1150 serving ∧ (powered 0 2000 0 0 0).island.alive = true ∧ mainOn (powered 0 2000 0 0 0) = true ∧ mainOn (inState .standby) = false ∧
    thermalState (powered 0 2000 2 0 0) = 2 ∧ 0 + 10000000 ≤ (powered 0 2000 1 0 10000000).clock.now ∧ ¬0 + 10000000 ≤ (powered 0 2000 1 0 9999999).clock.now ∧
    hottest (setCount 0x2020 1 9699 (powered 0 2000 0 50 100000000)) < 9700 ∧ ¬hottest (setCount 0x2020 1 9700 (powered 0 2000 0 50 100000000)) < 9700 := by
  unfold RowTaken
  refine ⟨by decide +kernel, by decide +kernel, by decide +kernel, rfl, rfl, ⟨_, List.mem_cons_self, by decide +kernel⟩, ?_⟩
  decide +kernel

/-- A host's cap below a slot's need is refused; the side-band restricts the slot. -/
theorem test_caps : runs (.powerCapWrite host 1 1937) (powered 2000 2000 0 0 0) (fun t => powerCap t = 2000) = true ∧
    runs (.powerCapWrite host 1 1938) (powered 2000 2000 0 0 0) (fun t => powerCap t = 1938 && (slotAt t 0 3).restricted = false) = true ∧
    runs (.powerCapWrite side 1 1937) (powered 2000 2000 0 0 0) (fun t => powerCap t = 1937 && rwVal t 0x2010 2 2000 = 1937 && (slotAt t 0 3).restricted) = true ∧
    runs (.plannedCapWrite host 1 1150) serving (fun t => planningCap t = 1150) = true := by decide +kernel

/-- The thermal table at 99.9, 100, 103, 104.9, 105 and 110 degrees; the reduction steps; a rail and a reference that fail. -/
theorem test_heat : (∀ x ∈ [(0, (999 : Int), 0), (0, 1000, 1), (2, 1029, 1), (2, 1030, 2), (1, 1049, 1), (1, 1050, 2), (0, 1100, 3), (3, 200, 3)],
      runs (.thermalSample [200, x.2.1]) (powered 0 2000 x.1 0 0) (fun t => thermalState t = x.2.2) = true) ∧
    runs .thermalReductionStep (powered 2000 2000 1 50 10000000) (fun t => countVal t 0x2020 3 0 = 100 && (slotAt t 0 3).restricted) = true ∧
    runs .thermalReductionStep (setCount 0x2020 1 9699 (powered 0 2000 0 100 100000000)) (fun t => countVal t 0x2020 3 0 = 50) = true ∧
    runs (.pmbusPoll [1000, 500] [2, 4] []) serving (fun t => countVal t 0x2010 6 0 = 4) = true ∧
    runs (.railFault 5) { serving with island := { good := [5] } } (fun t => t.mire.dumping && t.island.waiting = [5]) = true ∧
    runs (.refclkCheck 1) serving (fun t => countVal t 0x2040 2 0 = 1 && t.mire.dumping) = true ∧
    runs (.refclkCheck 0) (setCount 0x2040 2 1 serving) (fun t => t.island.refHold = 10000000) = true := by decide +kernel

/-- A serving device with Lantern N as given. -/
def lantern (l : Lantern) : State := { serving with tele := { lanternN := l } }
/-- A record of a code from hub N for SYSTEM. -/
def trace (code : Nat) : TraceRecord := ⟨3, code, ownSystem, srcHub 0, [1]⟩
/-- A Lantern that fills, armed for four records before the trigger and two after it, on records of code 0x0A. -/
def filling : Lantern := { state := .filling, preDepth := 4, postCount := 2, trigger := 0x0A00000000FF0001, classes := 0x0400 }

/-- The premises on the Lanterns: depths that fit and that do not, records that match, that are kept and that are not. -/
theorem test_lantern_premises : (∀ v ∈ [1, 2, 3, 4], RowTaken host ⟨objLanternCommand, [0]⟩ v serving) ∧ RowTaken host ⟨objLanternMarker, [1]⟩ 7 serving ∧
    rwVal serving 0xE000 5 4096 + rwVal serving 0xE000 6 4096 ≤ 131072 ∧
    131072 < rwVal (setRw 0xE000 5 131072 (setRw 0xE000 6 1 serving)) 0xE000 5 4096 + rwVal (setRw 0xE000 5 131072 (setRw 0xE000 6 1 serving)) 0xE000 6 4096 ∧
    filling.keeps (trace 0x0A) = true ∧ filling.matches (trace 0x0A) = true ∧ filling.keeps (trace 0x0B) = false ∧
    ({ filling with trigger := 0x0B00000000FF0001 } : Lantern).matches (trace 0x0A) = false ∧ linkUp (linkAt ringed 1) = true ∧ linkUp (linkAt serving 1) = false := by
  unfold RowTaken; decide +kernel

/-- ARM, TRIGGER, a match that fires, one that does not with the oldest record pushed out, the last of the post records, re-arming, and an export. -/
theorem test_lanterns : runs (.lanternArm host 1 0) serving (fun t => t.tele.lanternN.state = .filling && t.tele.lanternN.preDepth = 4096) = true ∧
    runs (.lanternTrigger host 1 0) (lantern { filling with postCount := 1 }) (fun t => t.tele.lanternN.state = .done && t.tele.lanternN.buffer.length = 1) = true ∧
    runs (.lanternRecord 0) (lantern { filling with queue := [trace 0x0A] }) (fun t => t.tele.lanternN.state = .post && t.tele.lanternN.postLeft = 1) = true ∧
    runs (.lanternRecord 0) (lantern { filling with trigger := 0x0B00000000FF0001, queue := [trace 0x0A], buffer := [(0, trace 1), (1, trace 2), (2, trace 3), (3, trace 4)], next := 4 })
      (fun t => t.tele.lanternN.buffer.map (·.1) = [1, 2, 3, 4]) = true ∧
    runs (.lanternRecord 0) (lantern { filling with state := .post, postLeft := 1, queue := [trace 0x0A] }) (fun t => t.tele.lanternN.state = .done) = true ∧
    runs (.lanternDisarm host 1 0) (lantern filling) (fun t => t.tele.lanternN.state = .idle) = true ∧
    runs (.lanternRearm host 1 0) (lantern { state := .done }) (fun t => t.tele.lanternN.state = .rearm) = true ∧
    runs (.rearmDone 0) (lantern { state := .rearm, buffer := [(0, trace 1)] }) (fun t => t.tele.lanternN.state = .filling && t.tele.lanternN.buffer = []) = true ∧
    runs (.lanternExportDone 0) (lantern { state := .done, exporting := true }) (fun t => t.tele.lanternN.failed && t.tele.lanternN.state = .done) = true ∧
    runs (.lanternExportDone 0) (setRw 0xE000 0xA 1 { ringed with tele := { lanternN := { state := .done, exporting := true, autoRearm := true } } })
      (fun t => t.tele.lanternN.state = .rearm) = true ∧
    runs (.lanternMarker host 1 0 7) (lantern { state := .done, queue := List.replicate 1024 (trace 1) }) (fun t => 1 ≤ t.tele.lanternN.lost) = true := by decide +kernel

/-- A record of Annals. -/
def event0 (severity : Nat) : Event := ⟨0, 0x0101, severity, ownSystem, srcHub 0, [1, 2]⟩
/-- A serving device with events staged in hub N and a clock. -/
def stagedEvents (n now : Nat) : State :=
  setCount 0x8000 0xF 1 { serving with clock := { now := now }, tele := { annals := { stageN := { events := List.replicate n (event0 1) }, nextSeq := 9, boot := 2 } } }

/-- The premises on accounting and on Annals, with staging that just has room and that has none, and on the alarms. -/
theorem test_account_premises : mainOn (stagedEvents 0 1000) = true ∧ 0 + 1000 ≤ (stagedEvents 0 1000).clock.now ∧ ¬0 + 1000 ≤ (stagedEvents 0 999).clock.now ∧
    (999000 + 1000 ≥ 0 + 1000000) ∧ stagingOf (stagedEvents 0 0) (srcHub 0) = 0 ∧ (getStaging (stagedEvents 239 0).tele.annals 0).events.length + 17 ≤ stagingCap 0 ∧
    ¬(getStaging (stagedEvents 240 0).tele.annals 0).events.length + 17 ≤ stagingCap 0 ∧ (getStaging (stagedEvents 254 0).tele.annals 0).events.length + 2 ≤ stagingCap 0 ∧
    0 < rwVal (setRw 0xE010 6 1 serving) 0xE010 6 0 ∧ decidingHub (stagedEvents 1 0) = some 0 ∧ stagingHead (stagedEvents 1 0) 0 = some 0 ∧ stagingHead serving 0 = none ∧
    mireState (stagedEvents 0 0) = 1 ∧ RowTaken host ⟨objLatchedAlarms, []⟩ 1 serving := by unfold RowTaken; decide +kernel

/-- A microsecond charges the tiles; an event is staged or lost; the writer numbers it; the ring is kept; a latched alarm clears. -/
theorem test_accounts : runs .accountingTick (stagedEvents 0 1000) (fun t => t.tele.lastUs = 1000) = true ∧
    runs .accountingTick { tiled with clock := { now := 1000 }, slots := [(3, { state := .active, tileMap := [5], image := some { stages := [{ tiles := 1 }], claims := [⟨0, 0, 1⟩] } })] }
      (fun t => KMap.getD t.tele.counters 0xB 0 = tilesClaimed t 0) = true ∧
    runs (.annalsEvent 0x0101 1 ownSystem (srcHub 0) [1]) (stagedEvents 239 0) (fun t => t.tele.annals.stageN.events.length = 240) = true ∧
    runs (.annalsEvent 0x0101 1 ownSystem (srcHub 0) [1]) (stagedEvents 240 0) (fun t => t.tele.annals.stageN.events.length = 240 && countVal t 0xE010 5 0 = 1) = true ∧
    runs .annalsRingWrite (stagedEvents 1 0) (fun t => t.tele.annals.ring.map (fun r => (r.seq, r.boot)) = [(9, 2)] && t.tele.annals.nextSeq = 10) = true ∧
    runs .annalsPersist { stagedEvents 0 0 with tele := { annals := { ring := [⟨9, event0 1, 2⟩] } } } (fun t => t.tele.annals.ring = [] && t.tele.annals.kept.length = 1) = true ∧
    runs (.alarmClear host 1 0x80000000) { serving with tele := { latched := 0x80000000 } } (fun t => !t.tele.latched.testBit 31) = true := by decide +kernel

/-- The premises on rows that write an object: each way in which one stops, for a value and for a DOMAIN, with a row of each list. -/
theorem test_refusal_premises :
    reach host (⟨objMinSvn, []⟩ : ObjRef).idx false true (inState .standby) = .silent ∧ reach side (⟨objPartEnable, [0]⟩ : ObjRef).idx false true (inState .standby) = .refused .state ∧
    reach host (⟨objPartEnable, [0]⟩ : ObjRef).idx false true { serving with hubs := { hn := { present := true, primary := true }, hs := { present := true }, grant := some ⟨1, 2, 0⟩ } } = .held ∧
    recoveryWaits (⟨objPartEnable, [0]⟩ : ObjRef).idx { inState .recovery with levee := { queries := [query1] } } = true ∧
    reach host (⟨objPartEnable, [0]⟩ : ObjRef).idx false true { inState .recovery with levee := { queries := [query1] } } = .go ∧
    writeBar host ⟨objMinSvn, []⟩ 1 config = .notOwner ∧ writeBar host ⟨objPartEnable, [0]⟩ 2 config = .range ∧
    writeBar (.mbox 0 1) ⟨objPartEnable, [0]⟩ 1 config = .partition ∧ writeBar host ⟨objTestStart, []⟩ 1 config = .state ∧
    domainBar host ⟨objToken, []⟩ 160 config = .notOwner ∧ domainBar side ⟨objToken, []⟩ 159 config = .length ∧
    reach host (⟨objToken, []⟩ : ObjRef).idx false true (inState .standby) = .silent ∧ reach side (⟨objHotSet, [0, 0]⟩ : ObjRef).idx false true (inState .standby) = .refused .state ∧
    reach host (⟨objHotSet, [0, 0]⟩ : ObjRef).idx false true { serving with hubs := { hn := { present := true, primary := true }, hs := { present := true }, grant := some ⟨1, 2, 0⟩ } } = .held ∧
    (⟨objCutMask, [0, 0]⟩ : ObjRef).idx / 4096 = 4 := by decide +kernel

/-- Every row that writes a value or a DOMAIN has such a command. -/
theorem test_row_lists : ValueRow host 1 0 0 1 [] 0 true (.scrapArm host 1 1, ⟨objScrapArm, []⟩, 1) ∧ DomainRow host 1 0 0 [] (.unlockTokenWrite host 1 [], ⟨objToken, []⟩) := by
  constructor
  · exact Or.inr (Or.inr (by simp))
  · simp [DomainRow]

/-- A row that its path may not write leaves the dictionary as it was; one that comes during a handover is held; no field test starts outside TEST. -/
theorem test_refused : runs (.minSvnWrite host 1 1) config (fun t => t.dict = config.dict && t.outs.length = 1) = true ∧
    runs (.partitionEnableWrite host 1 0 1) { serving with hubs := { hn := { present := true, primary := true }, hs := { present := true }, grant := some ⟨1, 2, 0⟩ } } (fun t => t.dict.held.length = 1) = true ∧
    runs (.testLogic host 1) config (fun t => t.island.test = none) = true := by decide +kernel

/-- The premises on the whole block: a step that runs a command, an idle step, a state in canonical form and a command that is refused. -/
theorem test_step_premises : step { config with pending := [.queueSample, .forward] } = exec .queueSample { config with pending := [.forward] } ∧
    Mems.wf building.mem = true ∧ Mems.wf State.reset.mem = true ∧
    (match exec (.read (.mbox 0 0) { idx := 0xF000, sub := 1 }) config with | .refused r => decide (r = .restrictedDiagnostics) | _ => false) = true ∧ lifeCycle config = 1 ∧
    (match step config with | .next t => decide (t.clock.now = 1) | _ => false) = true := by
  refine ⟨rfl, ?_⟩; decide +kernel

/-- Paths, requests, frames and CTLs that the part does not have. -/
theorem test_ill_formed_operands : (Path.mbox 2 0).wf = false ∧ (Path.mbox 0 33).wf = false ∧ (Path.side 2 0).wf = false ∧ (Path.side 0 4294967296).wf = false ∧
    (Path.fabric 131072).wf = false ∧ ({ tag := 65536 } : Req).wf = false ∧ ({ idx := 65536 } : Req).wf = false ∧ ({ sub := 256 } : Req).wf = false ∧
    ({ ty := 256 } : Req).wf = false ∧ ({ off := 4294967296 } : Req).wf = false ∧ (ctl 4096 0 0).wf = false ∧ ({ ctl 0 0 0 with ack := 4096 } : Ctl).wf = false := by decide

/-- A frame that is well formed, with one field out of its width each time. -/
theorem test_ill_formed_frames : (frame5 1).wf = true ∧ (∀ f ∈ [{ frame5 1 with magic := 65536 }, { frame5 1 with major := 256 }, { frame5 1 with minor := 256 },
    { frame5 1 with flags := 65536 }, { frame5 1 with session := 4294967296 }, frame5 18446744073709551616, { frame5 1 with keyId := 4294967296 },
    { frame5 1 with msgs := [⟨1, { tag := 65536 }⟩] }], AfFrame.wf f = false) := by decide

/-- Commands that name a unit, a register or an object one past the last that the part has, with one command for each such operand. -/
theorem test_ill_formed_commands : (∀ c ∈ [Instr.read (.mbox 2 0) {}, .write host { tag := 65536 }, .hello 2 (frame5 1), .afwellFrame 0 { frame5 1 with magic := 65536 },
      .enterTest host 65536, .mailboxGo 2 0 0 [], .heartbeatSend 2, .heartbeatPathTimeout 0 2, .mirrorWriteTimeout 32, .driverRangeWrite host 0 2 0,
      .partitionEnableWrite host 0 32 0, .load host 0 0 4, .descriptorFetch 0 0 4 (List.replicate 64 0) [], .descriptorFetch 0 0 0 (List.replicate 63 0) [],
      .policerCommit host 0 0 4 0, .egressUnitSend 0 0 256, .sqTailDoorbell 0 0 4 0, .coalesceTimeout 0 0 4, .indexCreate host 0 0 16, .passEnqueue 40 0 (List.replicate 64 0),
      .passEnqueue 0 2 (List.replicate 64 0), .passEnqueue 0 0 [], .drainEnd 512, .stackFailure 8, .probeListWrite 0 0 16 0 (List.replicate 64 0) [],
      .probeListWrite 0 0 0 0 [] [], .carrAdd 512 0 0 0 0, .carrAdd 0 2 0 0 0, .carrAdd 0 0 16 0 0, .carrAdd 0 0 0 16 0, .carrAdd 0 0 0 0 16, .carrVld 0 0 4 0 0,
      .carrVld 0 0 0 0 262144, .carrVand 0 0 0 4 0, .carrVand 0 0 0 0 4, .carrJal 0 0 0 262144, .carrSb 0 0 16 0 0, .msend 0 0 4, .srd 0 0 0 4], c.wf = false) ∧
    (∀ c ∈ [Instr.sedgeEnqueue 0 2 (List.replicate 64 0), .sedgeEnqueue 0 0 [], .gather 0 4, .mereJobEnqueue 0 0 [], .sluiceMove 42 0 0, .sluiceMove 0 16 0,
      .tableCreate host 0 0 64, .cellSignal 33 0 0, .cellSignal 0 65536 0, .cellWait 0 0 672, .cellCancel 0 672, .ctlSend 64, .ctlReceive 0 (ctl 4096 0 0) true true,
      .lightLoss 8, .exchangeRoundEnd 0 0 16 [], .namespaceCreate host 0 256, .keyWrite host 0 0 256 [], .garbageCollection 2 [], .targetFail 32 0, .targetFail 0 8,
      .vigilTileVisit 40, .storageDieLoss 2, .lanternRecord 2, .spareWavelengthError 0 10, .lightStateChange 8 0 0], c.wf = false) ∧
    (Instr.carrAdd 511 1 15 15 15).wf = true ∧ (Instr.load side 65535 31 3).wf = true ∧ (Instr.cellWait 32 65535 671).wf = true := by decide +kernel

end Sys2Proof.Tests
end

/-! What a step does with the queue of commands, and what an idle nanosecond changes (01 R21, log 1). -/

namespace Sys2Proof.Machine

open Sys2Proof

/-- Local time counts every nanosecond, whether FT counts or not (17 R479). -/
@[simp] theorem Clock.tickNs_now (c : Clock) (counts : Bool) : (c.tickNs counts).now = c.now + 1 := by
  cases counts <;> rfl

/-- FT stands still where it does not count (17 R479). -/
@[simp] theorem Clock.tickNs_false_ft (c : Clock) : (c.tickNs false).ft = c.ft := rfl

/-- FT does not count before the end of boot (17 R479). -/
theorem ftCounts_of_standby_or_booting {s : State} (h : s.dev.state = .standby ∨ s.dev.state = .booting) : ftCounts s = false := by
  rcases h with h | h <;> simp [ftCounts, h]

@[simp] theorem idle_clock (s : State) : (idle s).clock = s.clock.tickNs (ftCounts s) := rfl

/-- Idling changes no component but the clock. -/
theorem idle_eq_with_clock (s : State) : idle s = { s with clock := (idle s).clock } := rfl

theorem step_of_pending_nil {s : State} (h : s.pending = []) : step s = .next (idle s) := by
  simp [step, h]

theorem step_of_pending_cons {s : State} {c : Instr} {r : List Instr} (h : s.pending = c :: r) :
    step s = exec c { s with pending := r } := by
  simp [step, h]

/-- Settles O55: the queue's head decides between running a command and idling; the idle state differs in its clock alone, whose
local time is one further and whose FT stands still until boot has ended. -/
theorem stepTakesFront : Obligations.StepTakesFront := by
  intro s
  refine ⟨fun c r h => step_of_pending_cons h, fun h => ⟨idle s, step_of_pending_nil h, idle_eq_with_clock s, ?_, fun hboot => ?_⟩⟩
  · exact Clock.tickNs_now s.clock (ftCounts s)
  · rw [idle_clock, ftCounts_of_standby_or_booting hboot, Clock.tickNs_false_ft]

end Sys2Proof.Machine

/-! The writes that have a row of their own, and the slot commands: what a row that is let through answers, and what each slot command does
from each state (02 R46; 03 R78, R99, R104 to R109). -/

namespace Sys2Proof.Machine

open Sys2Proof

/-- Only what passes access, value and state is written (02 R46). -/
theorem writeBar_eq_ok_iff {pa : Path} {r : ObjRef} {v : Nat} {s : State} :
    writeBar pa r v s = .ok ↔ accessBar pa r s = .ok ∧ valueStatus r.obj v = .ok ∧ stateCloses r s = false := by
  unfold writeBar
  by_cases ha : accessBar pa r s = .ok <;> by_cases hv : valueStatus r.obj v = .ok <;> simp [ha, hv]

theorem ObjRef.exists_of_accessBar_eq_ok {pa : Path} {r : ObjRef} {s : State} (h : accessBar pa r s = .ok) : r.exists_ = true := by
  cases hr : r.exists_ with
  | true => rfl
  | false => simp [accessBar, hr] at h

/-- A row that is let through answers with what its effect gives, in the state its effect leaves. -/
theorem commandRow_of_rowTaken {pa : Path} {tag v : Nat} {r : ObjRef} {eff : State → Status × State} {s u : State} {st : Status}
    (h : RowTaken pa r v s) (he : eff s = (st, u)) : .next (commandRow pa tag r v eff s) = RowDone pa tag r v st u := by
  obtain ⟨hreach, hwaits, hbar⟩ := h
  have hroute : reach pa (writeMsg tag r v).req.idx r.obj.recovery true s = .go := hreach
  have hgo : recoveryWaits (writeMsg tag r v).req.idx s = false := hwaits
  simp [commandRow, route, hroute, hgo, execute, objectWrite, hbar, he, RowDone]

/-! The slot command object. -/

theorem slotCommandObj_idx (p sl : Nat) : (⟨objSlotCommand, [p, sl]⟩ : ObjRef).idx = 0x4000 + 4 * p + sl := by
  simp [ObjRef.idx, objSlotCommand, Nat.add_assoc]

theorem slotCommandObj_exists_iff {p sl : Nat} : (⟨objSlotCommand, [p, sl]⟩ : ObjRef).exists_ = true ↔ p < 32 ∧ sl < 4 := by
  simp [ObjRef.exists_, objSlotCommand]

/-- A disabled partition closes the command object of its slots, so a command that is let through finds its partition enabled (03 R78). -/
theorem partEnabled_of_slotCommand_taken {pa : Path} {p sl v : Nat} {s : State} (h : RowTaken pa ⟨objSlotCommand, [p, sl]⟩ v s) :
    partEnabled s p = true := by
  obtain ⟨-, -, hbar⟩ := h
  obtain ⟨hacc, -, hopen⟩ := writeBar_eq_ok_iff.mp hbar
  obtain ⟨hp, hsl⟩ := slotCommandObj_exists_iff.mp (ObjRef.exists_of_accessBar_eq_ok hacc)
  have hidx : 0x4000 + 4 * p + sl < 0x6000 := by omega
  have hlow : 0x4000 ≤ 0x4000 + 4 * p + sl := by omega
  simp only [stateCloses, slotCommandObj_idx, Bool.or_eq_false_iff] at hopen
  simpa [hidx, hlow, objSlotCommand, ObjRef.p0, nth] using hopen.2

/-- A slot command from a device state or a slot state that does not take it (03 R105). -/
theorem slotCommand_refused {p sl code : Nat} {s : State} (hcode : 1 ≤ code ∧ code ≤ 6)
    (h : slotCommandOpen s.dev.state code = false ∨ slotCommandFrom (slotAt s p sl).state code = false) :
    slotCommand p sl code s = (.state, s) := by
  have hknown : ¬(code = 0 ∨ 6 < code) := by omega
  rcases h with h | h <;> simp [slotCommand, hknown, h]

/-- A slot command that the partition, the device state and the slot state take is the operation of its code (03 R105). -/
theorem slotCommand_taken {p sl code : Nat} {s : State} (hcode : 1 ≤ code ∧ code ≤ 6) (hen : partEnabled s p = true)
    (hopen : slotCommandOpen s.dev.state code = true) (hfrom : slotCommandFrom (slotAt s p sl).state code = true) :
    slotCommand p sl code s =
      if code = 1 then slotLoad p sl s else if code = 2 then slotActivate p sl s else if code = 3 then slotRetire p sl s
      else if code = 4 then slotUnload p sl s else if code = 5 then slotSwap p sl s else slotRevalidate p sl s := by
  have hknown : ¬(code = 0 ∨ 6 < code) := by omega
  simp [slotCommand, hknown, hen, hopen, hfrom]

/-! Each operation, from the states it is taken in. -/

section operations

variable {p sl : Nat} {s : State}

theorem slotLoad_of_fits (h : (fitResult (fitChecks s (4 * p + sl) (slotAt s p sl).file)).1 = 0) :
    slotLoad p sl s = (.ok, settle (claimImage (4 * p + sl)
      (setRefusal p sl (fitResult (fitChecks s (4 * p + sl) (slotAt s p sl).file)) s))) := by
  simp [slotLoad, h]

theorem slotLoad_of_unfit (h : (fitResult (fitChecks s (4 * p + sl) (slotAt s p sl).file)).1 ≠ 0) :
    slotLoad p sl s = (.range, setRefusal p sl (fitResult (fitChecks s (4 * p + sl) (slotAt s p sl).file)) s) := by
  simp [slotLoad, h]

theorem slotActivate_in_config (hdev : s.dev.state = .config) :
    slotActivate p sl s =
      if activationBar s p sl = 0 then (.ok, setRefusal p sl (0, 0xFFFF) (makeActive p sl true s)) else (.state, s) := by
  simp [slotActivate, hdev]

/-- An instant that has passed under LATE_REFUSE places no entry (17 R494, log 70). -/
theorem slotActivate_of_no_entry (hdev : s.dev.state ≠ .config)
    (h : placeSlotEntry (activateNo p sl) 2 p sl (rwVal s (slotObj p sl) 6 0) s = none) : slotActivate p sl s = (.range, s) := by
  simp [slotActivate, hdev, h]

theorem slotActivate_of_entry {u : State} (hdev : s.dev.state ≠ .config)
    (h : placeSlotEntry (activateNo p sl) 2 p sl (rwVal s (slotObj p sl) 6 0) s = some u) :
    slotActivate p sl s = (.ok, setRefusal p sl (0, 0xFFFF) (modSlot p sl (fun x => { x with state := .pending }) u)) := by
  simp [slotActivate, hdev, h]

theorem slotRetire_of_active (h : (slotAt s p sl).state = .active) :
    slotRetire p sl s = (.ok, setRefusal p sl (0, 0xFFFF)
      (retireDone p sl (modSlot p sl (fun x => { x with state := .retiring, retiredAt := 0 }) s))) := by
  simp [slotRetire, h]

theorem slotRetire_of_pending (h : (slotAt s p sl).state = .pending) :
    slotRetire p sl s = (.ok, setRefusal p sl (0, 0xFFFF)
      (modSlot p sl (fun x => { x with state := .resident }) (cancelEntry (activateNo p sl) s))) := by
  simp [slotRetire, h]

theorem slotSwap_of_no_entry (hprev : (slotAt s p sl).prevLocked = false) (hfree : entryAt s (swapNo p sl) = none)
    (h : placeSlotEntry (swapNo p sl) 3 p sl (rwVal s (slotObj p sl) 9 0) s = none) : slotSwap p sl s = (.range, s) := by
  simp [slotSwap, hprev, hfree, h]

theorem slotSwap_of_entry {u : State} (hprev : (slotAt s p sl).prevLocked = false) (hfree : entryAt s (swapNo p sl) = none)
    (h : placeSlotEntry (swapNo p sl) 3 p sl (rwVal s (slotObj p sl) 9 0) s = some u) :
    slotSwap p sl s = (.ok, setRefusal p sl (0, 0xFFFF) u) := by
  simp [slotSwap, hprev, hfree, h]

end operations

@[simp] theorem slotAt_modSlot_same (p sl : Nat) (f : Slot → Slot) (s : State) : slotAt (modSlot p sl f s) p sl = f (slotAt s p sl) := by
  simp [slotAt, modSlot]

/-- A refusal code is a count of the dictionary, which no planning reads. -/
@[simp] theorem planningCap_setRefusal (p sl : Nat) (r : Nat × Nat) (s : State) : planningCap (setRefusal p sl r s) = planningCap s := rfl

theorem slotRevalidate_status (p sl : Nat) (s : State) :
    (slotRevalidate p sl s).1 =
      if (fitResult (revalidateChecks s (4 * p + sl) ((slotAt s p sl).image.getD {}))).1 = 0 then .ok else .range := by
  unfold slotRevalidate
  by_cases h : (fitResult (revalidateChecks s (4 * p + sl) ((slotAt s p sl).image.getD {}))).1 = 0 <;> simp [h]

theorem slotRevalidate_ok_iff (p sl : Nat) (s : State) :
    (slotRevalidate p sl s).1 = .ok ↔ (fitResult (revalidateChecks s (4 * p + sl) ((slotAt s p sl).image.getD {}))).1 = 0 := by
  simp [slotRevalidate_status]

/-- A slot whose checks hold takes the slot length under the planning cap (03 R107; 21 R589). -/
theorem slotRevalidate_tSlot {p sl : Nat} {s : State} (h : (slotRevalidate p sl s).1 = .ok) :
    (slotAt (slotRevalidate p sl s).2 p sl).tSlot = slotLength ((slotAt s p sl).image.getD {}) (guaranteedMhz (planningCap s)) := by
  have hfit := (slotRevalidate_ok_iff p sl s).mp h
  simp [slotRevalidate, hfit]

/-! The partition enable (03 R78). -/

theorem writeEnable_refused {p : Nat} {s : State} (h : ∃ e ∈ s.slots, e.1 / 4 = p ∧ e.2.state ≠ .empty) :
    writeEnable p 0 s = (.state, s) := by
  simpa [writeEnable] using h

theorem writeEnable_taken {p v : Nat} {s : State} (h : v ≠ 0 ∨ ∀ e ∈ s.slots, e.1 / 4 = p → e.2.state = .empty) :
    writeEnable p v s = (.ok, setRw (0x3000 + 0x10 * p) 1 v s) := by
  have hfree : ¬(v = 0 ∧ ∃ e ∈ s.slots, e.1 / 4 = p ∧ e.2.state ≠ .empty) := by
    rintro ⟨rfl, e, he, hp, hne⟩
    rcases h with h | h
    · exact h rfl
    · exact hne (h e he hp)
  have hany : (decide (v = 0) && s.slots.any (fun e => e.1 / 4 = p && e.2.state != .empty)) = false := by
    simpa using hfree
  simp only [writeEnable, hany]
  rfl

/-! The rows of the slot commands. -/

theorem exec_unload_of_waits {pa : Path} {tag p sl : Nat} {s : State} (h : unloadWaits p sl s = true) :
    exec (.unload pa tag p sl) s = .next s := if_pos h

theorem exec_unload_of_not_waits {pa : Path} {tag p sl : Nat} {s : State} (h : unloadWaits p sl s = false) :
    exec (.unload pa tag p sl) s = .next (commandRow pa tag ⟨objSlotCommand, [p, sl]⟩ 4 (slotCommand p sl 4) s) := by
  simp [exec, execUnload, h]

section rows

variable {pa : Path} {tag p sl : Nat} {s : State}

/-- Each slot command but UNLOAD, which can wait, is the write of its code to the slot command object. -/
theorem exec_slotCommand {c : Instr} {code : Nat} (hc : (c, code) ∈ [(Instr.load pa tag p sl, 1), (.activate pa tag p sl, 2),
      (.retire pa tag p sl, 3), (.swap pa tag p sl, 5), (.revalidate pa tag p sl, 6)]) :
    (1 ≤ code ∧ code ≤ 6) ∧ exec c s = .next (commandRow pa tag ⟨objSlotCommand, [p, sl]⟩ code (slotCommand p sl code) s) := by
  simp only [List.mem_cons, List.not_mem_nil, Prod.mk.injEq, or_false] at hc
  obtain ⟨rfl, rfl⟩ | ⟨rfl, rfl⟩ | ⟨rfl, rfl⟩ | ⟨rfl, rfl⟩ | ⟨rfl, rfl⟩ := hc <;> exact ⟨by decide, rfl⟩

theorem slotRow_refused {code : Nat} (hcode : 1 ≤ code ∧ code ≤ 6) (ht : RowTaken pa ⟨objSlotCommand, [p, sl]⟩ code s)
    (h : slotCommandOpen s.dev.state code = false ∨ slotCommandFrom (slotAt s p sl).state code = false) :
    .next (commandRow pa tag ⟨objSlotCommand, [p, sl]⟩ code (slotCommand p sl code) s) =
      RowDone pa tag ⟨objSlotCommand, [p, sl]⟩ code .state s :=
  commandRow_of_rowTaken ht (slotCommand_refused hcode h)

theorem exec_load_of_staged (ht : RowTaken pa ⟨objSlotCommand, [p, sl]⟩ 1 s) (hopen : slotCommandOpen s.dev.state 1 = true)
    (hx : (slotAt s p sl).state = .staged) :
    exec (.load pa tag p sl) s =
      if (fitResult (fitChecks s (4 * p + sl) (slotAt s p sl).file)).1 = 0 then
        RowDone pa tag ⟨objSlotCommand, [p, sl]⟩ 1 .ok (settle (claimImage (4 * p + sl)
          (setRefusal p sl (fitResult (fitChecks s (4 * p + sl) (slotAt s p sl).file)) s)))
      else RowDone pa tag ⟨objSlotCommand, [p, sl]⟩ 1 .range
        (setRefusal p sl (fitResult (fitChecks s (4 * p + sl) (slotAt s p sl).file)) s) := by
  have hcmd : slotCommand p sl 1 s = slotLoad p sl s :=
    slotCommand_taken (by decide) (partEnabled_of_slotCommand_taken ht) hopen (by simp [slotCommandFrom, hx])
  split
  · next hfit => exact commandRow_of_rowTaken ht (hcmd.trans (slotLoad_of_fits hfit))
  · next hfit => exact commandRow_of_rowTaken ht (hcmd.trans (slotLoad_of_unfit hfit))

/-- ACTIVATE of a RESIDENT slot, in the device states that take it (03 R105). -/
theorem slotCommand_activate (ht : RowTaken pa ⟨objSlotCommand, [p, sl]⟩ 2 s) (hx : (slotAt s p sl).state = .resident)
    (hdev : s.dev.state = .config ∨ s.dev.state = .serving) : slotCommand p sl 2 s = slotActivate p sl s :=
  slotCommand_taken (by decide) (partEnabled_of_slotCommand_taken ht) (by simpa [slotCommandOpen] using hdev)
    (by simp [slotCommandFrom, hx])

theorem exec_activate_in_config (ht : RowTaken pa ⟨objSlotCommand, [p, sl]⟩ 2 s) (hx : (slotAt s p sl).state = .resident)
    (hdev : s.dev.state = .config) :
    exec (.activate pa tag p sl) s =
      if activationBar s p sl = 0 then
        RowDone pa tag ⟨objSlotCommand, [p, sl]⟩ 2 .ok (setRefusal p sl (0, 0xFFFF) (makeActive p sl true s))
      else RowDone pa tag ⟨objSlotCommand, [p, sl]⟩ 2 .state s := by
  have hcmd := (slotCommand_activate ht hx (.inl hdev)).trans (slotActivate_in_config hdev)
  split
  · next hbar => exact commandRow_of_rowTaken ht (hcmd.trans (if_pos hbar))
  · next hbar => exact commandRow_of_rowTaken ht (hcmd.trans (if_neg hbar))

theorem exec_activate_in_serving (ht : RowTaken pa ⟨objSlotCommand, [p, sl]⟩ 2 s) (hx : (slotAt s p sl).state = .resident)
    (hdev : s.dev.state = .serving) :
    (placeSlotEntry (activateNo p sl) 2 p sl (rwVal s (slotObj p sl) 6 0) s = none →
      exec (.activate pa tag p sl) s = RowDone pa tag ⟨objSlotCommand, [p, sl]⟩ 2 .range s) ∧
    (∀ u, placeSlotEntry (activateNo p sl) 2 p sl (rwVal s (slotObj p sl) 6 0) s = some u →
      exec (.activate pa tag p sl) s = RowDone pa tag ⟨objSlotCommand, [p, sl]⟩ 2 .ok
        (setRefusal p sl (0, 0xFFFF) (modSlot p sl (fun x => { x with state := .pending }) u))) := by
  have hcmd := slotCommand_activate ht hx (.inr hdev)
  have hne : s.dev.state ≠ .config := by simp [hdev]
  exact ⟨fun h => commandRow_of_rowTaken ht (hcmd.trans (slotActivate_of_no_entry hne h)),
    fun u h => commandRow_of_rowTaken ht (hcmd.trans (slotActivate_of_entry hne h))⟩

/-- RETIRE of an ACTIVE or a PENDING slot (03 R105). -/
theorem slotCommand_retire (ht : RowTaken pa ⟨objSlotCommand, [p, sl]⟩ 3 s) (hopen : slotCommandOpen s.dev.state 3 = true)
    (hx : (slotAt s p sl).state = .active ∨ (slotAt s p sl).state = .pending) : slotCommand p sl 3 s = slotRetire p sl s :=
  slotCommand_taken (by decide) (partEnabled_of_slotCommand_taken ht) hopen (by simpa [slotCommandFrom] using hx)

theorem exec_retire (ht : RowTaken pa ⟨objSlotCommand, [p, sl]⟩ 3 s) (hopen : slotCommandOpen s.dev.state 3 = true) :
    ((slotAt s p sl).state = .active → exec (.retire pa tag p sl) s = RowDone pa tag ⟨objSlotCommand, [p, sl]⟩ 3 .ok
      (setRefusal p sl (0, 0xFFFF) (retireDone p sl (modSlot p sl (fun x => { x with state := .retiring, retiredAt := 0 }) s)))) ∧
    ((slotAt s p sl).state = .pending → exec (.retire pa tag p sl) s = RowDone pa tag ⟨objSlotCommand, [p, sl]⟩ 3 .ok
      (setRefusal p sl (0, 0xFFFF) (modSlot p sl (fun x => { x with state := .resident }) (cancelEntry (activateNo p sl) s)))) :=
  ⟨fun hx => commandRow_of_rowTaken ht ((slotCommand_retire ht hopen (.inl hx)).trans (slotRetire_of_active hx)),
    fun hx => commandRow_of_rowTaken ht ((slotCommand_retire ht hopen (.inr hx)).trans (slotRetire_of_pending hx))⟩

theorem exec_unload (hw : unloadWaits p sl s = false) (ht : RowTaken pa ⟨objSlotCommand, [p, sl]⟩ 4 s)
    (hopen : slotCommandOpen s.dev.state 4 = true) (hx : (slotAt s p sl).state = .resident ∨ (slotAt s p sl).state = .staged) :
    exec (.unload pa tag p sl) s = RowDone pa tag ⟨objSlotCommand, [p, sl]⟩ 4 .ok (slotUnload p sl s).2 := by
  have hcmd : slotCommand p sl 4 s = slotUnload p sl s :=
    slotCommand_taken (by decide) (partEnabled_of_slotCommand_taken ht) hopen (by simpa [slotCommandFrom] using hx)
  exact (exec_unload_of_not_waits hw).trans (commandRow_of_rowTaken ht hcmd)

theorem exec_swap (ht : RowTaken pa ⟨objSlotCommand, [p, sl]⟩ 5 s) (hopen : slotCommandOpen s.dev.state 5 = true)
    (hx : (slotAt s p sl).state = .active) (hprev : (slotAt s p sl).prevLocked = false) (hfree : entryAt s (swapNo p sl) = none) :
    (placeSlotEntry (swapNo p sl) 3 p sl (rwVal s (slotObj p sl) 9 0) s = none →
      exec (.swap pa tag p sl) s = RowDone pa tag ⟨objSlotCommand, [p, sl]⟩ 5 .range s) ∧
    (∀ u, placeSlotEntry (swapNo p sl) 3 p sl (rwVal s (slotObj p sl) 9 0) s = some u →
      exec (.swap pa tag p sl) s = RowDone pa tag ⟨objSlotCommand, [p, sl]⟩ 5 .ok (setRefusal p sl (0, 0xFFFF) u)) := by
  have hcmd : slotCommand p sl 5 s = slotSwap p sl s :=
    slotCommand_taken (by decide) (partEnabled_of_slotCommand_taken ht) hopen (by simp [slotCommandFrom, hx])
  exact ⟨fun h => commandRow_of_rowTaken ht (hcmd.trans (slotSwap_of_no_entry hprev hfree h)),
    fun u h => commandRow_of_rowTaken ht (hcmd.trans (slotSwap_of_entry hprev hfree h))⟩

theorem exec_revalidate (ht : RowTaken pa ⟨objSlotCommand, [p, sl]⟩ 6 s) (hopen : slotCommandOpen s.dev.state 6 = true)
    (hx : (slotAt s p sl).state = .resident ∨ (slotAt s p sl).state = .active) :
    exec (.revalidate pa tag p sl) s =
      RowDone pa tag ⟨objSlotCommand, [p, sl]⟩ 6 (slotRevalidate p sl s).1 (slotRevalidate p sl s).2 := by
  have hcmd : slotCommand p sl 6 s = slotRevalidate p sl s :=
    slotCommand_taken (by decide) (partEnabled_of_slotCommand_taken ht) hopen (by simpa [slotCommandFrom] using hx)
  exact commandRow_of_rowTaken ht hcmd

end rows

/-- Settles O19, command by command: a row that is let through answers with what its effect gives, its partition is enabled, and each
command has its operation's result from the slot and device states that take it. -/
theorem slotCommands : Obligations.SlotCommands := by
  intro s pa tag part slot
  refine ⟨fun v ht => ⟨?disable, fun h => commandRow_of_rowTaken ht (writeEnable_taken h)⟩, fun c code hc ht h => ?refused,
    exec_load_of_staged, fun ht hx => ⟨exec_activate_in_config ht hx, exec_activate_in_serving ht hx⟩, exec_retire,
    fun hw ht h => (exec_unload_of_not_waits hw).trans (slotRow_refused (by decide) ht h), exec_unload_of_waits,
    exec_unload, exec_swap, fun ht hopen hx => ⟨exec_revalidate ht hopen hx, slotRevalidate_ok_iff part slot s, slotRevalidate_tSlot⟩⟩
  case disable =>
    rintro rfl h
    exact commandRow_of_rowTaken ht (writeEnable_refused h)
  case refused =>
    obtain ⟨hcode, hexec⟩ := exec_slotCommand (s := s) hc
    exact hexec.trans (slotRow_refused hcode ht h)

end Sys2Proof.Machine

/-! What reports change: counters, traces, Annals, interrupts, and records and results that leave for the host, and what the egress queues
change besides (04 R138, R139; 05 R151, R158, R162, R166; 22). -/

namespace Sys2Proof.Machine

open Sys2Proof

/-- No completion ring of the second map is in service that was out of service in the first. -/
def CqsOnlyStop (m m' : KMap CompRing) : Prop := ∀ k, (KMap.getD m' k {}).enabled = true → (KMap.getD m k {}).enabled = true

theorem CqsOnlyStop.refl (m : KMap CompRing) : CqsOnlyStop m m := fun _ => id

theorem CqsOnlyStop.trans {m m' m'' : KMap CompRing} (h : CqsOnlyStop m m') (g : CqsOnlyStop m' m'') : CqsOnlyStop m m'' :=
  fun k hk => h k (g k hk)

/-- The second state is the first after reports: telemetry, the counters, what has left the block, and the completion rings may differ, and
no completion ring comes into service. -/
def Reports (s t : State) : Prop :=
  ∃ tele outs counts cqs, CqsOnlyStop s.host.cqs cqs ∧
    t = { s with tele := tele, outs := outs, dict := { s.dict with counts := counts }, host := { s.host with cqs := cqs } }

/-- The second state is the first after reports and after changes of the egress queues. -/
def Posts (s t : State) : Prop := ∃ egress, Reports (s.modLevee (fun l => { l with egress := egress })) t

section reports

variable {s t u : State}

theorem Reports.refl (s : State) : Reports s s := ⟨_, _, _, _, CqsOnlyStop.refl _, rfl⟩

theorem Reports.trans (h : Reports s t) (g : Reports t u) : Reports s u := by
  obtain ⟨_, _, _, _, hcqs, rfl⟩ := h
  obtain ⟨_, _, _, _, gcqs, rfl⟩ := g
  exact ⟨_, _, _, _, hcqs.trans gcqs, rfl⟩

theorem Reports.slots (h : Reports s t) : t.slots = s.slots := by obtain ⟨_, _, _, _, _, rfl⟩ := h; rfl
theorem Reports.levee (h : Reports s t) : t.levee = s.levee := by obtain ⟨_, _, _, _, _, rfl⟩ := h; rfl
theorem Reports.mem (h : Reports s t) : t.mem = s.mem := by obtain ⟨_, _, _, _, _, rfl⟩ := h; rfl
theorem Reports.sqs (h : Reports s t) : t.host.sqs = s.host.sqs := by obtain ⟨_, _, _, _, _, rfl⟩ := h; rfl
theorem Reports.links (h : Reports s t) : t.host.links = s.host.links := by obtain ⟨_, _, _, _, _, rfl⟩ := h; rfl
theorem Reports.cqs (h : Reports s t) : CqsOnlyStop s.host.cqs t.host.cqs := by obtain ⟨_, _, _, _, hcqs, rfl⟩ := h; exact hcqs

theorem Reports.posts (h : Reports s t) : Posts s t := ⟨s.levee.egress, h⟩

theorem Posts.trans (h : Posts s t) (g : Posts t u) : Posts s u := by
  obtain ⟨_, _, _, _, _, hcqs, rfl⟩ := h
  obtain ⟨egress, _, _, _, _, gcqs, rfl⟩ := g
  exact ⟨egress, _, _, _, _, CqsOnlyStop.trans hcqs gcqs, rfl⟩

theorem Posts.mem (h : Posts s t) : t.mem = s.mem := by obtain ⟨_, h⟩ := h; exact h.mem
theorem Posts.sqs (h : Posts s t) : t.host.sqs = s.host.sqs := by obtain ⟨_, h⟩ := h; exact h.sqs
theorem Posts.links (h : Posts s t) : t.host.links = s.host.links := by obtain ⟨_, h⟩ := h; exact h.links
theorem Posts.cqs (h : Posts s t) : CqsOnlyStop s.host.cqs t.host.cqs := by obtain ⟨_, h⟩ := h; exact h.cqs
theorem Posts.queries (h : Posts s t) : t.levee.queries = s.levee.queries := by obtain ⟨_, h⟩ := h; rw [h.levee]; rfl
theorem Posts.committed (h : Posts s t) : t.levee.committed = s.levee.committed := by obtain ⟨_, h⟩ := h; rw [h.levee]; rfl

end reports

/-! The reports, one by one. -/

section operations

variable (s : State)

theorem setCount_reports (idx sub v : Nat) : Reports s (setCount idx sub v s) := ⟨_, _, _, _, CqsOnlyStop.refl _, rfl⟩

theorem bump_reports (idx sub n : Nat) : Reports s (bump idx sub n s) := setCount_reports s idx sub _

theorem emit_reports (o : Out) : Reports s (emit o s) := ⟨_, _, _, _, CqsOnlyStop.refl _, rfl⟩

theorem modTele_reports (f : Tele → Tele) : Reports s (s.modTele f) := ⟨_, _, _, _, CqsOnlyStop.refl _, rfl⟩

theorem sendVector_reports (port vec : Nat) : Reports s (sendVector port vec s) := by
  unfold sendVector
  split
  · exact .refl s
  · exact emit_reports s _

theorem annal_reports (code severity owner source : Nat) (data : Bytes) : Reports s (annal code severity owner source data s) := by
  unfold annal
  split
  · exact .refl s
  · dsimp only
    split
    · exact modTele_reports s _
    · exact (modTele_reports s _).trans (bump_reports _ _ _ _)

theorem traceTo_reports (h : Nat) (r : TraceRecord) : Reports s (traceTo h r s) := by
  unfold traceTo
  dsimp only
  split
  · exact .refl s
  · split
    · exact (modTele_reports s _).trans (bump_reports _ _ _ _)
    · exact modTele_reports s _

theorem trace_reports (code owner source : Nat) (data : Bytes) : Reports s (trace code owner source data s) :=
  (traceTo_reports s 0 _).trans (traceTo_reports _ 1 _)

theorem charge_reports (p sub n : Nat) : Reports s (charge p sub n s) := by
  unfold charge
  split
  · exact modTele_reports s _
  · exact .refl s

theorem alarmVectors_reports : Reports s (alarmVectors s) := by
  have ite_reports (b : Bool) (port vec : Nat) (u : State) : Reports u (if b then sendVector port vec u else u) := by
    cases b
    · exact .refl u
    · exact sendVector_reports u port vec
  exact (ite_reports _ 0 _ s).trans (ite_reports _ 1 _ _)

/-- The alarms judged at the end of a command are reports (22 R618). -/
theorem settle_reports : Reports s (settle s) := by
  unfold settle
  split
  · dsimp only
    split
    · exact ((modTele_reports s _).trans (trace_reports _ _ _ _ _)).trans (alarmVectors_reports _)
    · exact modTele_reports s _
  · exact .refl s

/-- A change of one completion ring that does not bring it into service. -/
theorem modCq_reports {f : CompRing → CompRing} (hf : ∀ c, (f c).enabled = true → c.enabled = true) (port p n : Nat) :
    Reports s (modCq port p n f s) := by
  refine ⟨_, _, _, _, fun k hk => ?_, rfl⟩
  by_cases hkey : k = ringKey port p n
  · subst hkey
    rw [KMap.getD_upd_same] at hk
    exact hf _ hk
  · rwa [KMap.getD_upd_other _ _ _ _ hkey] at hk

theorem countInterrupt_reports (port p n : Nat) : Reports s (countInterrupt port p n s) := by
  unfold countInterrupt
  dsimp only
  split
  · exact (modCq_reports s (f := fun c => { c with since := 0, firstAt := none }) (fun _ => id) port p n).trans (sendVector_reports _ _ _)
  · exact .refl s

/-- A record written leaves its ring in service or ends a disable that waited for it (05, Events that meet). -/
theorem cqAfterWrite_enabled {quiet redirected : Bool} {now : Nat} {c : CompRing}
    (h : (cqAfterWrite quiet redirected now c).enabled = true) : c.enabled = true :=
  (Bool.and_eq_true_iff.mp h).1

theorem writeRecord_reports (port p n : Nat) (r : Record) (redirected : Bool) (due : Option Nat) :
    Reports s (writeRecord port p n r redirected due s) := by
  have late_reports (u : State) : Reports u (match due with
      | some d => if d < u.clock.now then bump (0x1070 + port) 0x0E 1 u else u
      | none => u) := by
    split
    · split
      · exact bump_reports u _ _ _
      · exact .refl u
    · exact .refl u
  unfold writeRecord
  dsimp only
  split
  · exact ((((emit_reports s _).trans (modCq_reports _ (fun _ => cqAfterWrite_enabled) port p n)).trans
      (bump_reports _ _ _ _)).trans (late_reports _)).trans (countInterrupt_reports _ port p n)
  · exact bump_reports s _ _ _

/-- A unit that leaves is a report, whatever it carries and wherever it goes (05 R159, R166). -/
theorem leaveUnit_reports (port : Nat) (u : EgressUnit) : Reports s (leaveUnit port u s) := by
  unfold leaveUnit
  cases u.load with
  | bulk addr bytes =>
    dsimp only
    split
    · exact emit_reports s _
    · exact .refl s
  | result p n addr bytes =>
    dsimp only
    split
    · exact emit_reports s _
    · exact .refl s
  | record p n r =>
    dsimp only
    split
    · exact writeRecord_reports s _ _ _ _ _ _
    · exact (writeRecord_reports s _ _ _ _ _ _).trans (bump_reports _ _ _ _)
    · exact bump_reports s _ _ _

theorem modEgress_posts (p port kind : Nat) (f : Egress → Egress) : Posts s (modEgress p port kind f s) := ⟨_, .refl _⟩

@[simp] theorem egressAt_modEgress_same (p port kind : Nat) (f : Egress → Egress) :
    egressAt (modEgress p port kind f s) p port kind = f (egressAt s p port kind) := by
  simp [egressAt, modEgress]

/-- A queue after its first unit has left: the credit falls by its size where the queue is shaped (04 R138, R139). -/
def Egress.afterHead (e : Egress) (u : EgressUnit) (us : List EgressUnit) : Egress :=
  { e with units := us, credit := if e.rate = 0 then e.credit else e.credit - (1000 * u.size : Nat) }

theorem sendHead_of_units {p port kind : Nat} {u : EgressUnit} {us : List EgressUnit}
    (h : (refillEgress s.clock.now (egressAt s p port kind)).units = u :: us) :
    sendHead p port kind s = leaveUnit port u (modEgress p port kind (fun _ =>
      (refillEgress s.clock.now (egressAt s p port kind)).afterHead u us) s) := by
  simp [sendHead, h, Egress.afterHead]

theorem sendHead_posts (p port kind : Nat) : Posts s (sendHead p port kind s) := by
  cases h : (refillEgress s.clock.now (egressAt s p port kind)).units with
  | nil => simpa [sendHead, h] using (Reports.refl s).posts
  | cons u us =>
    rw [sendHead_of_units s h]
    exact (modEgress_posts s p port kind _).trans (leaveUnit_reports _ port u).posts

theorem flushUnshaped_posts (fuel p port kind : Nat) : Posts s (flushUnshaped fuel p port kind s) := by
  induction fuel generalizing s with
  | zero => exact (Reports.refl s).posts
  | succ k ih =>
    unfold flushUnshaped
    dsimp only
    split
    · exact (sendHead_posts s p port kind).trans (ih _)
    · exact (Reports.refl s).posts

theorem enqueueUnits_posts (p port kind : Nat) (us : List EgressUnit) : Posts s (enqueueUnits p port kind us s) :=
  (modEgress_posts s p port kind _).trans (flushUnshaped_posts _ _ p port kind)

theorem postRecord_posts (port p n addr : Nat) (result : Bytes) (r : Record) (due : Option Nat) :
    Posts s (postRecord port p n addr result r due s) :=
  enqueueUnits_posts s p port 0 _

theorem releasePort_posts (port : Nat) : Posts s (releasePort port s) :=
  List.foldlRecOn (List.range 32) _ (Reports.refl s).posts (fun _ h _ _ => h.trans (flushUnshaped_posts _ _ _ _ _))

end operations

end Sys2Proof.Machine

/-! The traffic of the host ports: units that leave, coalesced vectors, rings that stop with their port, and the CXL window
(04 R138, R139; 05 R141 to R146, R162, R165). -/

namespace Sys2Proof

/-- A key that is not listed reads as the default. -/
theorem KMap.getD_of_not_mem {α : Type} {m : KMap α} {k : Nat} (d : α) (h : k ∉ m.map (·.1)) : KMap.getD m k d = d := by
  induction m with
  | nil => rfl
  | cons e r ih =>
    obtain ⟨hne, hr⟩ := not_or.mp (fun hc => h (List.mem_cons.mpr hc))
    simpa [KMap.getD, KMap.find, hne] using ih hr

end Sys2Proof

namespace Sys2Proof.Machine

open Sys2Proof

/-! The egress queues. -/

section egress

variable {s : State} {part port kind : Nat} {u : EgressUnit} {us : List EgressUnit}

/-- What the first unit of a queue changes when it leaves (04 R138, R139). -/
theorem sendHead_frame (h : (refillEgress s.clock.now (egressAt s part port kind)).units = u :: us) :
    egressAt (sendHead part port kind s) part port kind = (refillEgress s.clock.now (egressAt s part port kind)).afterHead u us ∧
      (sendHead part port kind s).mem = s.mem ∧ (sendHead part port kind s).slots = s.slots ∧
      (sendHead part port kind s).levee.queries = s.levee.queries := by
  rw [sendHead_of_units s h]
  have hleft := leaveUnit_reports (modEgress part port kind (fun _ => (refillEgress s.clock.now (egressAt s part port kind)).afterHead u us) s)
    port u
  refine ⟨?_, hleft.mem, hleft.slots, by rw [hleft.levee]; rfl⟩
  rw [egressAt, hleft.levee]
  exact egressAt_modEgress_same s part port kind _

theorem exec_egressUnitSend (h : (refillEgress s.clock.now (egressAt s part port kind)).units = u :: us) (hheld : portHeld s port = false)
    (hfirst : kind = 1 → (egressAt s part port 0).units = [])
    (hcredit : (refillEgress s.clock.now (egressAt s part port kind)).rate = 0 ∨
      (1000 * u.size : Nat) ≤ (refillEgress s.clock.now (egressAt s part port kind)).credit) :
    exec (.egressUnitSend part port kind) s = .next (sendHead part port kind s) := by
  have hopen : (portHeld s port || (decide (kind = 1) && !(egressAt s part port 0).units.isEmpty)) = false := by
    simpa [hheld] using hfirst
  have hcovered : (decide ((refillEgress s.clock.now (egressAt s part port kind)).rate = 0) ||
      decide ((1000 * u.size : Nat) ≤ (refillEgress s.clock.now (egressAt s part port kind)).credit)) = true := by
    simpa only [Bool.or_eq_true, decide_eq_true_eq] using hcredit
  simp only [exec, execEgressUnitSend, h, hopen, hcovered, Bool.false_eq_true, if_false, if_true]

/-- A due RESULT unit beyond its credit leaves, and the overdraw is counted (04 R139). -/
theorem exec_egressOverdraw {d : Nat} (h : (refillEgress s.clock.now (egressAt s part port 0)).units = u :: us)
    (hheld : portHeld s port = false) (hrate : (refillEgress s.clock.now (egressAt s part port 0)).rate ≠ 0)
    (hcredit : (refillEgress s.clock.now (egressAt s part port 0)).credit < (1000 * u.size : Nat)) (hdue : u.due = some d)
    (hd : d ≤ s.clock.now) :
    exec (.egressOverdraw part port 0) s = .next (bump (0x3003 + 0x10 * part) 0x06 1 (sendHead part port 0 s)) := by
  simp only [exec, execEgressOverdraw, h, hdue]
  exact if_pos (by simp only [hd, hrate, hcredit, hheld, bne_iff_ne, decide_true, Bool.and_eq_true, ne_eq, not_false_eq_true,
    Bool.not_false, and_self])

end egress

/-! Rings that stop with their port. -/

/-- Whether the ring of a key is in service, a submission ring (kind 0) or a completion ring. -/
def ringOn (kind : Nat) (s : State) (k : Nat) : Bool :=
  if kind = 0 then (KMap.getD s.host.sqs k {}).enabled else (KMap.getD s.host.cqs k {}).enabled

/-- The keys of the rings of a kind that the state lists. -/
def ringKeys (kind : Nat) (s : State) : List Nat :=
  if kind = 0 then s.host.sqs.map (·.1) else s.host.cqs.map (·.1)

/-- No ring comes into service, and the links stay as they are. -/
structure RingsOnlyStop (s t : State) : Prop where
  rings : ∀ kind k, ringOn kind t k = true → ringOn kind s k = true
  links : t.host.links = s.host.links

theorem RingsOnlyStop.refl (s : State) : RingsOnlyStop s s := ⟨fun _ _ => id, rfl⟩

theorem RingsOnlyStop.trans {s t u : State} (h : RingsOnlyStop s t) (g : RingsOnlyStop t u) : RingsOnlyStop s u :=
  ⟨fun kind k hk => h.rings kind k (g.rings kind k hk), g.links.trans h.links⟩

theorem RingsOnlyStop.off {s t : State} {kind k : Nat} (h : RingsOnlyStop s t) (hk : ringOn kind s k = false) : ringOn kind t k = false :=
  Bool.eq_false_iff.mpr (fun ht => Bool.eq_false_iff.mp hk (h.rings kind k ht))

theorem RingsOnlyStop.linkAt {s t : State} (h : RingsOnlyStop s t) (port : Nat) : linkAt t port = linkAt s port := by
  rw [Machine.linkAt, h.links, Machine.linkAt]

theorem Posts.ringsOnlyStop {s t : State} (h : Posts s t) : RingsOnlyStop s t := by
  refine ⟨fun kind k hk => ?_, h.links⟩
  unfold ringOn at hk ⊢
  split
  · next h0 => simpa [h0, h.sqs] using hk
  · next h0 => exact h.cqs k (by simpa [h0] using hk)

/-- The change of a ring that a ring error makes before it is counted and recorded (05 R151). -/
def ringDown (port p n kind code : Nat) (s : State) : State :=
  if kind = 0 then modSq port p n (fun q => { q with enabled := false, error := code }) s
  else modCq port p n (fun c => { c with enabled := false, closing := false, error := code }) s

theorem ringDown_on (port p n kind code kind' k : Nat) (s : State) :
    ringOn kind' (ringDown port p n kind code s) k =
      (ringOn kind' s k && !(decide (kind' = 0 ↔ kind = 0) && decide (k = ringKey port p n))) := by
  by_cases hk : k = ringKey port p n
  · subst hk
    by_cases h : kind = 0 <;> by_cases h' : kind' = 0 <;> simp [ringDown, ringOn, modSq, modCq, h, h']
  · by_cases h : kind = 0 <;> by_cases h' : kind' = 0 <;>
      simp [ringDown, ringOn, modSq, modCq, h, h', hk, KMap.getD_upd_other _ _ _ _ hk]

/-- A ring error after its ring is down is a report. -/
theorem ringError_reports (port p n kind code : Nat) (s : State) : Reports (ringDown port p n kind code s) (ringError port p n kind code s) :=
  (bump_reports _ _ _ _).trans (annal_reports _ _ _ _ _ _)

theorem ringError_onlyStop (port p n kind code : Nat) (s : State) : RingsOnlyStop s (ringError port p n kind code s) := by
  have hdown : RingsOnlyStop s (ringDown port p n kind code s) := by
    refine ⟨fun kind' k hk => ?_, ?_⟩
    · rw [ringDown_on, Bool.and_eq_true] at hk
      exact hk.1
    · unfold ringDown
      split <;> rfl
  exact hdown.trans (ringError_reports port p n kind code s).posts.ringsOnlyStop

/-- One ring of a port stopped, if it is in service. -/
def stopRing (port code kind : Nat) (s : State) (k : Nat) : State :=
  if ringOn kind s k then ringError port (k % 128 / 4) (k % 4) kind code s else s

/-- The rings of a port and kind that the state lists, stopped one after another. -/
def stopKind (port code kind : Nat) (s : State) : State :=
  ((ringKeys kind s).filter (fun k => k / 128 = port)).foldl (stopRing port code kind) s

theorem stopRings_eq (port code : Nat) (s : State) : stopRings port code s = stopKind port code 1 (stopKind port code 0 s) := rfl

theorem stopRing_onlyStop (port code kind : Nat) (s : State) (k : Nat) : RingsOnlyStop s (stopRing port code kind s k) := by
  unfold stopRing
  split
  · exact ringError_onlyStop _ _ _ _ _ s
  · exact .refl s

theorem stopRing_off (code kind : Nat) (s : State) {port k : Nat} (hk : k / 128 = port) : ringOn kind (stopRing port code kind s k) k = false := by
  have hkey : k = ringKey port (k % 128 / 4) (k % 4) := by unfold ringKey; omega
  unfold stopRing
  split
  · refine (ringError_reports _ _ _ _ _ s).posts.ringsOnlyStop.off ?_
    rw [ringDown_on, ← hkey]
    simp
  · next h => simpa using h

theorem foldl_stopRing_onlyStop (port code kind : Nat) (ks : List Nat) (s : State) :
    RingsOnlyStop s (ks.foldl (stopRing port code kind) s) :=
  List.foldlRecOn ks _ (.refl s) (fun _ h k _ => h.trans (stopRing_onlyStop port code kind _ k))

theorem foldl_stopRing_off {port code kind k : Nat} {ks : List Nat} {s : State} (hk : k / 128 = port) (hmem : k ∈ ks) :
    ringOn kind (ks.foldl (stopRing port code kind) s) k = false := by
  induction ks generalizing s with
  | nil => cases hmem
  | cons j r ih =>
    rcases List.mem_cons.mp hmem with rfl | hr
    · exact (foldl_stopRing_onlyStop port code kind r _).off (stopRing_off code kind s hk)
    · exact ih hr

/-- A ring that the state does not list is out of service. -/
theorem ringOn_of_not_mem {kind k : Nat} {s : State} (h : k ∉ ringKeys kind s) : ringOn kind s k = false := by
  unfold ringKeys at h
  unfold ringOn
  split
  · next h0 => rw [KMap.getD_of_not_mem _ (by simpa [h0] using h)]
  · next h0 => rw [KMap.getD_of_not_mem _ (by simpa [h0] using h)]

theorem stopKind_off (code kind : Nat) (s : State) {port k : Nat} (hk : k / 128 = port) : ringOn kind (stopKind port code kind s) k = false := by
  by_cases hmem : k ∈ ringKeys kind s
  · exact foldl_stopRing_off hk (List.mem_filter.mpr ⟨hmem, by simpa using hk⟩)
  · exact (foldl_stopRing_onlyStop port code kind _ s).off (ringOn_of_not_mem hmem)

theorem stopRings_onlyStop (port code : Nat) (s : State) : RingsOnlyStop s (stopRings port code s) :=
  (foldl_stopRing_onlyStop port code 0 _ s).trans (foldl_stopRing_onlyStop port code 1 _ _)

theorem loseRings_after_stop (port code : Nat) (s : State) : RingsOnlyStop (stopRings port code s) (loseRings port code s) :=
  ((bump_reports _ _ _ _).posts.trans (releasePort_posts _ port)).ringsOnlyStop

theorem loseRings_linkAt (port code : Nat) (s : State) (port' : Nat) : linkAt (loseRings port code s) port' = linkAt s port' :=
  ((stopRings_onlyStop port code s).trans (loseRings_after_stop port code s)).linkAt port'

/-- A port that loses its rings has none in service (05 R143, R165). -/
theorem loseRings_off (port code : Nat) (s : State) {p n : Nat} (hp : p < 32) (hn : n < 4) :
    (sqAt (loseRings port code s) port p n).enabled = false ∧ (cqAt (loseRings port code s) port p n).enabled = false := by
  have hkey : ringKey port p n / 128 = port := by unfold ringKey; omega
  have hlost := loseRings_after_stop port code s
  rw [stopRings_eq] at hlost
  have hsq : ringOn 0 (loseRings port code s) (ringKey port p n) = false :=
    hlost.off ((foldl_stopRing_onlyStop port code 1 _ _).off (stopKind_off code 0 s hkey))
  have hcq : ringOn 1 (loseRings port code s) (ringKey port p n) = false := hlost.off (stopKind_off code 1 _ hkey)
  exact ⟨hsq, hcq⟩

@[simp] theorem linkAt_modLink_same (port : Nat) (f : Link → Link) (s : State) : linkAt (modLink port f s) port = f (linkAt s port) := by
  simp [linkAt, modLink]

/-! The changes of a link. -/

section links

variable {s : State} {port : Nat}

theorem exec_linkDown (h : (linkAt s port).state ≠ .down) :
    exec (.linkDown port) s =
      .next (loseRings port 4 (modLink port (fun l => { l with state := .down, width := 0, rate := 0, retraining := false }) s)) :=
  if_neg h

theorem exec_d3hotEntry (hup : linkUp (linkAt s port) = true) (hd0 : (linkAt s port).d3hot = false) :
    exec (.d3hotEntry port) s = .next (loseRings port 4 (modLink port (fun l => { l with d3hot := true }) s)) := by
  simp [exec, execD3hotEntry, hup, hd0, loseLink]

theorem exec_linkUp_of_down {st width rate : Nat} (hmain : mainOn s = true) (hdown : linkUp (linkAt s port) = false) :
    exec (.linkUp port st width rate) s =
      .next (modLink port (fun l => { l with state := linkOfCode st, width := width, rate := rate, d3hot := false, retraining := false }) s) := by
  simp [exec, execLinkUp, hmain, hdown]

theorem exec_linkUp_of_retrain {width rate : Nat} (hmain : mainOn s = true) (hup : linkUp (linkAt s port) = true) :
    exec (.linkUp port 1 width rate) s = .next (modLink port (fun l => { l with state := .training, retraining := true }) s) := by
  simp [exec, execLinkUp, hmain, hup]

/-- The end of retraining: the held units leave, or the rings are lost with DEGRADED (05 R143, R165). -/
theorem exec_retrainEnd {st width rate : Nat} (h : (linkAt s port).retraining = true) :
    let t := modLink port (fun l => { l with state := linkOfCode st, width := width, rate := rate, retraining := false }) s
    exec (.retrainEnd port st width rate) s = .next (if ringsOk (linkAt t port) then releasePort port t else loseRings port 6 t) := by
  intro t
  simp only [exec, execRetrainEnd, h, if_true]
  split <;> rfl

end links

/-! The coalesced vector of a completion ring (05 R162). -/

theorem sendVector_host (port vec : Nat) (s : State) : (sendVector port vec s).host = s.host := by
  unfold sendVector
  split <;> rfl

theorem sendVector_outs (port vec : Nat) (s : State) :
    (sendVector port vec s).outs = if vec = 0xFFFF then s.outs else .msix port vec :: s.outs := by
  unfold sendVector
  split <;> rfl

theorem exec_coalesceTimeout {s : State} {port part cq a : Nat} (hfirst : (cqAt s port part cq).firstAt = some a)
    (htime : (cqAt s port part cq).coalT ≠ 0) (hsince : (cqAt s port part cq).since ≠ 0)
    (hpassed : a + 1000 * (cqAt s port part cq).coalT ≤ s.clock.now) (hok : ringsOk (linkAt s port) = true) :
    exec (.coalesceTimeout port part cq) s = .next (sendVector port (cqAt s port part cq).vector
      (modCq port part cq (fun c => { c with since := 0, firstAt := none }) s)) := by
  simp only [exec, execCoalesceTimeout, hfirst]
  simp [htime, hsince, hpassed, hok]

@[simp] theorem cqAt_modCq_same (port p n : Nat) (f : CompRing → CompRing) (s : State) : cqAt (modCq port p n f s) port p n = f (cqAt s port p n) := by
  simp [cqAt, modCq]

/-! The CXL window (05 R144 to R146). -/

/-- A write of a window's size is let through in CONFIG only, up to 32,768 MiB (05 R145). -/
theorem of_rowTaken_cxlSize {pa : Path} {port v : Nat} {s : State} (h : RowTaken pa ⟨objCxlSize, [port]⟩ v s) :
    s.dev.state = .config ∧ v ≤ 32768 := by
  obtain ⟨-, -, hbar⟩ := h
  obtain ⟨-, hvalue, hopen⟩ := writeBar_eq_ok_iff.mp hbar
  constructor
  · simp only [stateCloses, Bool.or_eq_false_iff] at hopen
    obtain ⟨⟨hconfig, -⟩, -⟩ := hopen
    simpa [objCxlSize] using hconfig
  · refine Nat.not_lt.mp (fun hbig => ?_)
    simp [valueStatus, objCxlSize, Ty.size, Nat.not_le.mpr hbig] at hvalue
    split at hvalue <;> cases hvalue

section window

variable {s t : State} {port v : Nat}

theorem writeWindowSize_same (hdev : s.dev.state = .config) (hv : v ≤ 32768) (h : v = (linkAt s port).winSize) :
    writeWindowSize port v s = (.ok, setRw (0x1070 + port) 4 v s) := by
  simp [writeWindowSize, hdev, Nat.not_lt.mpr hv, ← h]

theorem writeWindowSize_short (hdev : s.dev.state = .config) (hv : v ≤ 32768) (hne : v ≠ (linkAt s port).winSize)
    (h : claimWindow port v s = none) : writeWindowSize port v s = (.range, s) := by
  simp [writeWindowSize, hdev, Nat.not_lt.mpr hv, hne, h]

theorem writeWindowSize_claimed (hdev : s.dev.state = .config) (hv : v ≤ 32768) (hne : v ≠ (linkAt s port).winSize)
    (h : claimWindow port v s = some t) : writeWindowSize port v s = (.ok, setRw (0x1070 + port) 4 v t) := by
  simp [writeWindowSize, hdev, Nat.not_lt.mpr hv, hne, h]

/-- The window that a claim gives has the size asked for (05 R145). -/
theorem claimWindow_winSize (h : claimWindow port v s = some t) : (linkAt t port).winSize = v := by
  unfold claimWindow at h
  dsimp only at h
  split at h
  · next h0 =>
    cases h
    simp [h0]
  · split at h
    · cases h
    · split at h
      · cases h
      · cases h
        exact congrArg Link.winSize (linkAt_modLink_same port _ _)

theorem inWindowOf_iff {addr len : Nat} :
    inWindowOf s port addr len = true ↔ mainOn s = true ∧ (linkAt s port).state = .upCxl ∧ addr + len ≤ 1048576 * (linkAt s port).winSize := by
  simp [inWindowOf, and_assoc]

theorem exec_cxlMemRead (addr len : Nat) (bad : Bool) :
    exec (.cxlMemRead port addr len bad) s =
      if mainOn s = true ∧ (linkAt s port).state = .upCxl ∧ addr + len ≤ 1048576 * (linkAt s port).winSize then
        .next (normalAccess ⟨0, port + 1, addr, windowOwner s port, false, (linkAt s port).winBase + addr, len, [], false,
          if bad then 3 else 0, s.clock.now⟩ s)
      else .next s := by
  simp only [exec, execCxlMemRead, inWindowOf_iff]

theorem exec_cxlMemWrite (addr : Nat) (data : Bytes) (poison : Bool) :
    exec (.cxlMemWrite port addr data poison) s =
      if mainOn s = true ∧ (linkAt s port).state = .upCxl ∧ addr + data.length ≤ 1048576 * (linkAt s port).winSize then
        .next (normalAccess ⟨0, port + 1, addr, windowOwner s port, true, (linkAt s port).winBase + addr, data.length, data, poison, 0,
          s.clock.now⟩ s)
      else .next s := by
  simp only [exec, execCxlMemWrite, inWindowOf_iff]

end window

/-- Settles O25: a unit that leaves is the head of its queue sent, a port that loses its rings has each of them stopped and nothing that
leaves with it brings one back, and a window's write and accesses follow its one operation. -/
theorem portTraffic : Obligations.PortTraffic := by
  refine ⟨fun s port => ⟨fun part kind u us _ hunits hheld => ⟨fun hfirst hcredit => ?send, ?overdraw⟩,
      fun part cq a hfirst htime hsince hpassed hok => ?coalesce, fun h => ?down, fun hup hd0 => ?d3hot,
      fun _ _ _ => exec_linkUp_of_down, fun _ _ => exec_linkUp_of_retrain, fun st width rate h => ?retrain⟩,
    fun s port => ⟨fun pa tag v ht => ?size, fun addr len bad => exec_cxlMemRead addr len bad,
      fun addr data poison => exec_cxlMemWrite addr data poison⟩⟩
  case send => exact ⟨_, exec_egressUnitSend hunits hheld hfirst hcredit, sendHead_frame hunits⟩
  case overdraw =>
    rintro rfl hrate hcredit ⟨d, hdue, hd⟩
    obtain ⟨hqueue, hmem, hslots, hqueries⟩ := sendHead_frame hunits
    refine ⟨_, exec_egressOverdraw hunits hheld hrate hcredit hdue hd, ?_, hmem, hslots, hqueries⟩
    exact hqueue.trans (by rw [Egress.afterHead, if_neg hrate])
  case coalesce =>
    refine ⟨_, exec_coalesceTimeout hfirst htime hsince hpassed hok, ?_, sendVector_outs _ _ _⟩
    rw [cqAt, sendVector_host]
    exact cqAt_modCq_same port part cq _ s
  case down =>
    exact ⟨_, exec_linkDown h, by rw [loseRings_linkAt, linkAt_modLink_same], fun _ _ => loseRings_off port 4 _⟩
  case d3hot =>
    exact ⟨_, exec_d3hotEntry hup hd0, by rw [loseRings_linkAt, linkAt_modLink_same], fun _ _ => loseRings_off port 4 _⟩
  case retrain =>
    intro l
    refine ⟨_, exec_retrainEnd h, ?_, fun hlow _ _ => ?_⟩
    · split
      · rw [(releasePort_posts _ port).ringsOnlyStop.linkAt, linkAt_modLink_same]
      · rw [loseRings_linkAt, linkAt_modLink_same]
    · rw [linkAt_modLink_same, if_neg (by simpa using hlow)]
      exact loseRings_off port 6 _
  case size =>
    obtain ⟨hdev, hv⟩ := of_rowTaken_cxlSize ht
    exact ⟨hdev, hv, fun h => commandRow_of_rowTaken ht (writeWindowSize_same hdev hv h),
      fun hne h => commandRow_of_rowTaken ht (writeWindowSize_short hdev hv hne h),
      fun t hne h => ⟨commandRow_of_rowTaken ht (writeWindowSize_claimed hdev hv hne h), claimWindow_winSize h⟩⟩

end Sys2Proof.Machine

/-! Levee from the fetch of a descriptor to the decision on it: the waiting requests, what a decision and an acceptance change
(02 R63; 04 R117 to R122, R131; 05 R152 to R154, R157). -/

namespace Sys2Proof.Machine

open Sys2Proof

/-! The fetch. -/

@[simp] theorem sqAt_modSq_same (port p n : Nat) (f : SubRing → SubRing) (s : State) : sqAt (modSq port p n f s) port p n = f (sqAt s port p n) := by
  simp [sqAt, modSq]

/-- The waiting requests gain the one that is placed, and no other. -/
theorem mem_insertRequest {r x : Request} {l : List Request} : x ∈ insertRequest r l ↔ x = r ∨ x ∈ l := by
  induction l with
  | nil => simp [insertRequest]
  | cons y t ih =>
    unfold insertRequest
    split
    · exact List.mem_cons
    · rw [List.mem_cons, ih, List.mem_cons]
      exact or_left_comm

/-- A ring pair from which a port hub fetches: the port's rings work, a descriptor waits, and a completion entry is free (05 R152 to
R154). -/
structure Fetches (s : State) (port part sq : Nat) : Prop where
  main : mainOn s = true
  link : ringsOk (linkAt s port) = true
  enabled : (sqAt s port part sq).enabled = true
  nonempty : (sqAt s port part sq).head ≠ (sqAt s port part sq).tail
  completion : (cqAt s port part (sqAt s port part sq).cq).enabled = true
  staying : (cqAt s port part (sqAt s port part sq).cq).closing = false
  room : 1 ≤ cqFree (cqAt s port part (sqAt s port part sq).cq)

/-- The state after a fetch has moved the head, held a completion entry and counted the descriptor (05 R152, R153). -/
def fetched (port part sq : Nat) (s : State) : State :=
  bump (0x1070 + port) 0x07 1 (modCq port part (sqAt s port part sq).cq (fun c => { c with held := c.held + 1 })
    (modSq port part sq (fun q => { q with head := (q.head + 1) % q.depth }) s))

/-- The request that a fetched descriptor makes, stamped with the present times (04 R117). -/
def fetchedRequest (port part sq : Nat) (desc payload : Bytes) (s : State) : Request :=
  { port := port, part := part, sq := sq, cq := (sqAt s port part sq).cq, stamp := s.clock.now, stampFt := s.clock.ft, desc := parseDesc desc,
    payload := slice payload 0 (if 524288 < (parseDesc desc).payLen then 0 else (parseDesc desc).payLen) }

/-- The rings after a fetch. -/
theorem fetched_rings (port part sq : Nat) (s : State) :
    let q := sqAt s port part sq
    sqAt (fetched port part sq s) port part sq = { q with head := (q.head + 1) % q.depth } ∧
      cqAt (fetched port part sq s) port part q.cq = { cqAt s port part q.cq with held := (cqAt s port part q.cq).held + 1 } :=
  ⟨sqAt_modSq_same port part sq (fun q => { q with head := (q.head + 1) % q.depth }) s,
    cqAt_modCq_same port part _ (fun c => { c with held := c.held + 1 }) _⟩

theorem exec_descriptorFetch {s : State} {port part sq : Nat} (h : Fetches s port part sq) (desc payload : Bytes) :
    let r := fetchedRequest port part sq desc payload s
    let code := fetchCheck r.desc (leAt desc 20 4) r.payload
    exec (.descriptorFetch port part sq desc payload) s =
      if code = 0 then .next ((fetched port part sq s).modLevee (fun l => { l with requests := insertRequest r l.requests }))
      else .next (invalidRequest r code (fetched port part sq s)) := by
  have hnonempty : ((sqAt s port part sq).head != (sqAt s port part sq).tail) = true := by simpa using h.nonempty
  simp only [exec, execDescriptorFetch, h.main, h.link, h.enabled, hnonempty, h.completion, h.staying, h.room, Bool.not_false,
    decide_true, Bool.and_self, if_true]
  rfl

/-! What a decision takes. -/

/-- The second state is the first after a policer's marking: the counters and the policers may differ. -/
def Marks (s t : State) : Prop :=
  ∃ counts policers, t = { s with dict := { s.dict with counts := counts }, levee := { s.levee with policers := policers } }

theorem policerMark_marks (p c : Nat) (s : State) : Marks s (policerMark p c s).2 := ⟨_, _, rfl⟩

/-- A decision takes tokens, and changes nothing else (04 R119, R134). -/
theorem decide_marks (r : Request) (s : State) : Marks s (decide_ r s).2 := by
  have none_taken : Marks s s := ⟨_, _, rfl⟩
  unfold decide_
  dsimp only
  split
  · exact none_taken
  · split
    · exact none_taken
    · split
      · split
        · exact none_taken
        · split <;> exact policerMark_marks _ _ s
      · split <;> exact policerMark_marks _ _ s

/-! The acceptance. -/

/-- The horizons of the indices that a snapshot reads touch the indices and counters alone (06 R182, R185). -/
theorem fixSnapshot_frame (p : Nat) (is : List Nat) (snap : Nat) (s : State) :
    (fixSnapshot p is snap s).2.levee = s.levee ∧ (fixSnapshot p is snap s).2.mem = s.mem := by
  unfold fixSnapshot
  refine List.foldlRecOn (motive := fun t : State => t.levee = s.levee ∧ t.mem = s.mem) is _ ⟨rfl, rfl⟩ (fun t h i _ => ?_)
  cases hlive : liveIndex t p i with
  | none => exact h
  | some x =>
    dsimp only
    split <;> exact h

/-- The snapshot of a request on a slot, and the state with the horizons it reads. -/
def requestSnapshot (r : Request) (sl : Nat) (s : State) : Nat × State :=
  fixSnapshot r.part (queryIndices r.desc ((slotAt s r.part sl).image.getD {})) (askedSnapshot s r) s

/-- The query that a request becomes on a slot, with D at its stamp plus L_max (04 R121). -/
def acceptedQuery (r : Request) (sl lmax : Nat) (s : State) : Query :=
  let x := slotAt s r.part sl
  { id := s.levee.nextId, part := r.part, slot := sl, service := r.desc.service, port := r.port, sq := r.sq, cq := r.cq, stamp := r.stamp,
    deadline := r.stamp + 1000 * lmax, dFt := r.stampFt + 1000 * lmax, lmax := lmax, snapshot := (requestSnapshot r sl s).1,
    buffer := if r.stamp < x.swapAt then 1 - x.buffer else x.buffer, tSlot := x.tSlot, desc := r.desc, payload := r.payload }

/-- The levee with a query accepted: last, with the next number (04 R121). -/
def Levee.withQuery (l : Levee) (q : Query) : Levee := { l with queries := l.queries ++ [q], nextId := l.nextId + 1 }

theorem acceptQuery_of_running {r : Request} {sl lmax : Nat} {s : State} (h : (slotAt s r.part sl).halted = false) :
    (acceptQuery r sl lmax s).levee = s.levee.withQuery (acceptedQuery r sl lmax s) ∧ (acceptQuery r sl lmax s).mem = s.mem := by
  obtain ⟨hlevee, hmem⟩ := fixSnapshot_frame r.part (queryIndices r.desc ((slotAt s r.part sl).image.getD {})) (askedSnapshot s r) s
  let q := acceptedQuery r sl lmax s
  let u := (requestSnapshot r sl s).2.modLevee (fun l => { l with queries := l.queries ++ [q], nextId := s.levee.nextId + 1 })
  have hcharged : Reports u (charge r.part 0x01 1 (traceAdmit r 0 q.dFt u)) := (trace_reports u _ _ _ _).trans (charge_reports _ _ _ _)
  have hfinal : (acceptQuery r sl lmax s).levee = (charge r.part 0x01 1 (traceAdmit r 0 q.dFt u)).levee ∧
      (acceptQuery r sl lmax s).mem = (charge r.part 0x01 1 (traceAdmit r 0 q.dFt u)).mem := by
    simp only [acceptQuery, h, Bool.false_eq_true, if_false]
    exact ⟨rfl, rfl⟩
  refine ⟨?_, hfinal.2.trans (hcharged.mem.trans hmem)⟩
  rw [hfinal.1, hcharged.levee]
  simp only [u, State.modLevee_levee, requestSnapshot, hlevee]
  rfl

/-- The update that a request becomes, with C at its stamp plus the staleness bound (04 R121, R131). -/
def acceptedUpdate (r : Request) (s : State) : Update :=
  { id := s.levee.nextId, part := r.part, port := r.port, sq := r.sq, cq := r.cq, stamp := r.stamp,
    bound := r.stamp + 1000 * rwVal s (0x3001 + 0x10 * r.part) 0x01 1000000, desc := r.desc, payload := r.payload }

theorem acceptUpdate_reports (r : Request) (s : State) :
    Reports (s.modLevee (fun l => { l with updates := l.updates ++ [acceptedUpdate r s], nextId := l.nextId + 1 })) (acceptUpdate r s) :=
  (trace_reports _ _ _ _ _).trans (charge_reports _ _ _ _)

/-! The decision. -/

/-- The request with the slot and the L_max of its decision, accepted once it has left the waiting requests. -/
def acceptAfterDecision (r : Request) (sl lmax : Nat) (s : State) : State :=
  settle (acceptRequest { r with slot := sl, lmax := lmax } (dropRequest r (decide_ r s).2))

section decision

variable {s : State} {part : Nat} {r : Request} (hfind : s.levee.requests.find? (fun r => r.part = part) = some r) (hmirror : r.mirror = none)
  (hgrant : s.hubs.grant = none)

include hfind hmirror hgrant

theorem exec_leveeDecision_of_refuse {c : Nat} (h : (decide_ r s).1 = .refuse c) :
    exec (.leveeDecision part) s = .next (settle (refuseRequest r c (dropRequest r (decide_ r s).2))) := by
  simp [exec, execLeveeDecision, hfind, hmirror, hgrant, h]

theorem exec_leveeDecision_of_invalid {c : Nat} (h : (decide_ r s).1 = .invalid c) :
    exec (.leveeDecision part) s = .next (settle (invalidRequest r c (dropRequest r (decide_ r s).2))) := by
  simp [exec, execLeveeDecision, hfind, hmirror, hgrant, h]

/-- An acceptance that waits for its mirror write keeps its request, with the write's sequence (02 R63). -/
theorem exec_leveeDecision_of_take_mirrored {sl lmax : Nat} (h : (decide_ r s).1 = .take sl lmax) (hneeds : needsMirror s = true) :
    exec (.leveeDecision part) s = .next ((issueMirror (decide_ r s).2).modLevee (fun l => { l with requests := l.requests.map (fun q =>
      if q = r then { q with mirror := some ((decide_ r s).2.hubs.issued + 1), slot := sl, lmax := lmax } else q) })) := by
  simp only [exec, execLeveeDecision, hfind, hmirror, hgrant, h, hneeds]
  rfl

theorem exec_leveeDecision_of_take_alone {sl lmax : Nat} (h : (decide_ r s).1 = .take sl lmax) (hneeds : needsMirror s = false) :
    exec (.leveeDecision part) s = .next (acceptAfterDecision r sl lmax s) := by
  simp [exec, execLeveeDecision, hfind, hmirror, hgrant, h, hneeds, acceptAfterDecision]

end decision

section acceptance

variable {s : State} {r : Request} {sl lmax : Nat}

/-- What an accepted query changes: D is fixed, its request leaves, and the updates and the memories stay (04 R121). -/
theorem acceptAfterDecision_query (hquery : r.desc.isQuery = true) (hruns : (slotAt s r.part sl).halted = false) :
    let t := acceptAfterDecision r sl lmax s
    let q := acceptedQuery { r with slot := sl, lmax := lmax } sl lmax (dropRequest r (decide_ r s).2)
    t.levee.queries = s.levee.queries ++ [q] ∧ q.id = s.levee.nextId ∧ t.levee.requests = s.levee.requests.erase r ∧
      t.levee.updates = s.levee.updates ∧ t.mem = s.mem := by
  intro t q
  obtain ⟨_, _, hmarks⟩ := decide_marks r s
  obtain ⟨hlevee, hmem⟩ := acceptQuery_of_running (r := { r with slot := sl, lmax := lmax }) (sl := sl) (lmax := lmax)
    (s := dropRequest r (decide_ r s).2) (by rw [hmarks]; exact hruns)
  have haccepts : t = settle (acceptQuery { r with slot := sl, lmax := lmax } sl lmax (dropRequest r (decide_ r s).2)) :=
    congrArg settle (if_pos hquery)
  have hlast : t.levee = (dropRequest r (decide_ r s).2).levee.withQuery q := by rw [haccepts, (settle_reports _).levee, hlevee]
  refine ⟨?_, ?_, ?_, ?_, ?_⟩
  · rw [hlast, hmarks]; rfl
  · rw [show q.id = (decide_ r s).2.levee.nextId from rfl, hmarks]
  · rw [hlast, hmarks]; rfl
  · rw [hlast, hmarks]; rfl
  · rw [haccepts, (settle_reports _).mem, hmem, hmarks]; rfl

/-- What an accepted update changes: C is fixed, its request leaves, and the queries and the memories stay (04 R121, R131). -/
theorem acceptAfterDecision_update (hupdate : r.desc.isQuery = false) :
    let t := acceptAfterDecision r sl lmax s
    let u := acceptedUpdate { r with slot := sl, lmax := lmax } (dropRequest r (decide_ r s).2)
    t.levee.updates = s.levee.updates ++ [u] ∧ u.id = s.levee.nextId ∧
      u.bound = r.stamp + 1000 * rwVal s (0x3001 + 0x10 * r.part) 1 1000000 ∧ u.desc = r.desc ∧
      t.levee.requests = s.levee.requests.erase r ∧ t.levee.queries = s.levee.queries ∧ t.mem = s.mem := by
  intro t u
  obtain ⟨_, _, hmarks⟩ := decide_marks r s
  have haccepts : t = settle (acceptUpdate { r with slot := sl, lmax := lmax } (dropRequest r (decide_ r s).2)) :=
    congrArg settle (if_neg (by simp [hupdate]))
  have hreports := (acceptUpdate_reports { r with slot := sl, lmax := lmax } (dropRequest r (decide_ r s).2)).trans (settle_reports _)
  rw [← haccepts] at hreports
  refine ⟨?_, ?_, ?_, rfl, ?_, ?_, ?_⟩
  · rw [hreports.levee]; simp only [State.modLevee_levee, u, hmarks]; rfl
  · rw [show u.id = (decide_ r s).2.levee.nextId from rfl, hmarks]
  · simp only [u, hmarks]; rfl
  · rw [hreports.levee, hmarks]; rfl
  · rw [hreports.levee, hmarks]; rfl
  · rw [hreports.mem, hmarks]; rfl

end acceptance

theorem exec_mirrorAck {s : State} {sq : Nat} (hmain : mainOn s = true) (hnew : s.hubs.acked < sq) (hissued : sq ≤ s.hubs.issued) :
    exec (.mirrorAck sq) s = .next (settle (takeAcked (resumeCells { s with hubs := { s.hubs with acked := sq } }))) := by
  simp only [exec, execMirrorAck, hmain, hnew, hissued]
  rfl

theorem exec_mirrorWriteTimeout {s : State} {part : Nat} {r : Request}
    (hfind : s.levee.requests.find? (fun r => r.part = part && r.mirror.isSome) = some r) (hlate : r.stamp + 2000 ≤ s.clock.now) :
    exec (.mirrorWriteTimeout part) s = .next (refuseRequest r 1 (dropRequest r s)) := by
  simp [exec, execMirrorWriteTimeout, hfind, hlate]

/-- Settles O22: a fetch is one change of its two rings, and a decision, which takes tokens only, ends in one of four ways; what an
acceptance then does touches neither the queues of the others nor the memories. -/
theorem leveeDecisions : Obligations.LeveeDecisions := by
  refine ⟨fun s port part sq desc payload hmain hlink hon hnonempty hcq hstays hroom => ⟨fun hcode => ?joins, fun hcode => ?invalid⟩,
    fun s part r hfind hmirror hgrant => ⟨fun c => exec_leveeDecision_of_refuse hfind hmirror hgrant,
      fun c => exec_leveeDecision_of_invalid hfind hmirror hgrant, fun sl lmax htake hneeds => ?waits,
      fun sl lmax htake hneeds hquery hruns => ?query, fun sl lmax htake hneeds hupdate => ?update⟩,
    fun s sq => exec_mirrorAck, fun s part r => exec_mirrorWriteTimeout⟩
  case joins =>
    have hexec := (exec_descriptorFetch ⟨hmain, hlink, hon, hnonempty, hcq, hstays, hroom⟩ desc payload).trans (if_pos hcode)
    obtain ⟨hsq, hcq'⟩ := fetched_rings port part sq s
    exact ⟨_, hexec, hsq, hcq', rfl, fun x => mem_insertRequest, rfl, rfl, rfl, rfl⟩
  case invalid =>
    have hexec := (exec_descriptorFetch ⟨hmain, hlink, hon, hnonempty, hcq, hstays, hroom⟩ desc payload).trans (if_neg hcode)
    obtain ⟨hsq, hcq'⟩ := fetched_rings port part sq s
    exact ⟨_, hexec, hsq, hcq', rfl, rfl, rfl⟩
  case waits =>
    obtain ⟨_, _, hmarks⟩ := decide_marks r s
    refine ⟨_, exec_leveeDecision_of_take_mirrored hfind hmirror hgrant htake hneeds, ?_, ?_, ?_⟩ <;> rw [hmarks]
    · rfl
    · rfl
    · exact List.mem_map.mpr ⟨r, List.mem_of_find?_eq_some hfind, if_pos rfl⟩
  all_goals
    have hpart : r.part = part := by simpa using List.find?_some hfind
    subst hpart
    have hexec := exec_leveeDecision_of_take_alone hfind hmirror hgrant htake hneeds
  case query =>
    obtain ⟨hqueries, hid, hrequests, hupdates, hmem⟩ := acceptAfterDecision_query (lmax := lmax) hquery hruns
    exact ⟨_, _, hexec, hqueries, hid, rfl, rfl, rfl, rfl, rfl, rfl, rfl, rfl, hrequests, hupdates, hmem⟩
  case update => exact ⟨_, _, hexec, acceptAfterDecision_update hupdate⟩

end Sys2Proof.Machine

/-! The events and the commands of Levee: update states, the backstop, records of tiles, queue samples, commits and peaks
(04 R126, R130, R134, R135, R138, R140; 05 R158, R159). -/

namespace Sys2Proof.Machine

open Sys2Proof

/-! Update states (04 R130). -/

/-- The update state that a partition's slack gives now. -/
def newUpdState (s : State) (part : Nat) : UpdState :=
  nextUpdState (updStateOf s part) (slackOf s part) (promiseOf s part) (hystOf s part)

/-- A change of update state puts the new state, and what follows are reports. -/
theorem exec_updateStateChange {s : State} {part : Nat} (hmain : mainOn s = true) (hpart : part < 32) :
    ∃ t, exec (.updateStateChange part) s = .next t ∧ ((updStateOf s part = newUpdState s part ∧ t = s) ∨
      Reports (s.modLevee (fun l => { l with updState := KMap.put l.updState part (newUpdState s part) })) t) := by
  simp only [exec, execUpdateStateChange, hmain, Nat.not_le.mpr hpart, Bool.not_true, decide_false, Bool.or_self, Bool.false_eq_true, if_false]
  split
  · next hsame => exact ⟨s, rfl, .inl ⟨hsame, rfl⟩⟩
  · refine ⟨_, rfl, .inr (Reports.trans ?_ (settle_reports _))⟩
    split
    · exact bump_reports _ _ _ _
    · exact .refl _

/-! The record of a query and of an update (04 R126; 05 R158, R159). -/

@[simp] theorem retireDone_levee (p sl : Nat) (s : State) : (retireDone p sl s).levee = s.levee := by
  unfold retireDone
  split <;> rfl

@[simp] theorem drainDone_levee (s : State) : (drainDone s).levee = s.levee := by
  unfold drainDone
  split
  · exact (annal_reports _ _ _ _ _ _).levee
  · rfl

/-- A query that has completed is no longer an accepted one. -/
theorem leaveQuery_levee (q : Query) (s : State) :
    (leaveQuery q s).levee = { s.levee with queries := s.levee.queries.filter (fun v => v.id != q.id) } := by
  simp [leaveQuery, modSlot]

theorem composeQuery_queries (q : Query) (status reason degraded detail : Nat) (result : Bytes) (s : State) :
    (composeQuery q status reason degraded detail result s).levee.queries = s.levee.queries.filter (fun v => v.id != q.id) := by
  have htraced : Reports s (traceRecord q.port q.part q.desc.cid status degraded
      (charge q.part (if status = 0 then 0x03 else if status = 1 then 0x04 else if status = 2 then 0x05 else 0x07) 1 s)) :=
    (charge_reports _ _ _ _).trans (trace_reports _ _ _ _ _)
  unfold composeQuery
  rw [(postRecord_posts _ _ _ _ _ _ _ _).queries, leaveQuery_levee, htraced.levee]

theorem exec_backstopExpiry {s : State} {q : Query} (hfind : s.levee.queries.find? (fun v => v.id = q.id) = some q)
    (hdue : q.deadline ≤ s.clock.now + 2000) : exec (.backstopExpiry q.id) s = .next (settle (composeQuery q 2 0 0 0 [] s)) := by
  simp [exec, execBackstopExpiry, hfind, hdue]

theorem exec_completionRecordWrite_of_query {s : State} {q : Query} {status degraded : Nat} {result : Bytes}
    (hfind : s.levee.queries.find? (fun v => v.id = q.id) = some q)
    (hout : ∃ b ∈ (slotAt s q.part q.slot).batches, b.at_ = .out ∧ q.id ∈ b.queries) :
    let flags := (q.degraded ||| degraded) % 64
    let st := if status = 2 then 2 else if flags = 0 then 0 else 1
    exec (.completionRecordWrite q.id status degraded result) s =
      .next (settle (composeQuery q st 0 flags (if st = 2 then 0 else lookupDetail q.desc result) result s)) := by
  have hany : (slotAt s q.part q.slot).batches.any (fun b => b.at_ = .out && b.queries.contains q.id) = true := by simpa using hout
  simp only [exec, execCompletionRecordWrite, hfind, hany, if_true]

/-- A committed update whose FT has come leaves the committed ones, and its record is posted (05 R158; 06 R184). -/
theorem exec_completionRecordWrite_of_commit {s : State} {c : Commit} {status degraded : Nat} {result : Bytes}
    (hnone : s.levee.queries.find? (fun v => v.id = c.upd.id) = none)
    (hfind : s.levee.committed.find? (fun v => v.upd.id = c.upd.id) = some c) (hdue : c.at_ ≤ s.clock.ft) :
    ∃ t, exec (.completionRecordWrite c.upd.id status degraded result) s = .next t ∧
      Posts (s.modLevee (fun l => { l with committed := l.committed.filter (fun v => v.upd.id != c.upd.id) })) t := by
  simp only [exec, execCompletionRecordWrite, hnone, hfind, hdue, if_true]
  exact ⟨_, rfl, ((trace_reports _ _ _ _ _).posts.trans (postRecord_posts _ _ _ _ _ _ _ _)).trans (settle_reports _).posts⟩

/-! Queue samples (04 R140). -/

/-- The key of the sample of a queue of a partition. -/
def sampleKey (e : Nat × Nat) : Nat := 16 * e.1 + e.2

/-- The queues of every partition, in the order of their sampling. -/
def sampledQueues : List (Nat × Nat) := (List.range 32).flatMap (fun p => (List.range 9).map (fun n => (p, n)))

/-- A sample after a queue was measured at a time: its present depth and delay, and the peaks raised to them. -/
def Sample.measured (x : Sample) (now : Nat) (q : Nat × Option Nat) : Sample :=
  let depth := min q.1 0xFFFF
  let delay := match q.2 with | some a => min ((now - a) / 1000) 0xFFFF | none => 0
  { peakDepth := max x.peakDepth depth, depth := depth, peakDelay := max x.peakDelay delay, delay := delay }

/-- The sample that a state holds under a key. -/
def sampleAt (s : State) (k : Nat) : Sample := KMap.getD s.levee.samples k {}

theorem sampleQueue_eq (p n : Nat) (s : State) :
    sampleQueue p n s = s.modLevee (fun l =>
      { l with samples := KMap.upd l.samples (sampleKey (p, n)) {} (fun x => x.measured s.clock.now (queueNow s p n)) }) := rfl

theorem sampleAt_sampleQueue (p n : Nat) (s : State) (k : Nat) :
    sampleAt (sampleQueue p n s) k =
      if k = sampleKey (p, n) then (sampleAt s k).measured s.clock.now (queueNow s p n) else sampleAt s k := by
  rw [sampleQueue_eq]
  split
  · next hk => simp [sampleAt, hk]
  · next hk => simp [sampleAt, KMap.getD_upd_other _ _ _ _ hk]

/-- A list of queues sampled one after another. -/
def sampleList (l : List (Nat × Nat)) (s : State) : State := l.foldl (fun s e => sampleQueue e.1 e.2 s) s

theorem sampleList_frame (l : List (Nat × Nat)) (s : State) :
    ∃ samples, sampleList l s = { s with levee := { s.levee with samples := samples } } := by
  induction l generalizing s with
  | nil => exact ⟨_, rfl⟩
  | cons e r ih =>
    obtain ⟨samples, h⟩ := ih (sampleQueue e.1 e.2 s)
    exact ⟨samples, h⟩

theorem sampleAt_sampleList_other {l : List (Nat × Nat)} {k : Nat} (s : State) (h : k ∉ l.map sampleKey) :
    sampleAt (sampleList l s) k = sampleAt s k := by
  induction l generalizing s with
  | nil => rfl
  | cons e r ih =>
    obtain ⟨hne, hr⟩ := not_or.mp (fun hc => h (List.mem_cons.mpr hc))
    exact (ih (sampleQueue e.1 e.2 s) hr).trans ((sampleAt_sampleQueue e.1 e.2 s k).trans (if_neg hne))

/-- Each queue of a list without repetition is measured once, whatever was sampled before it: no queue's measure reads a sample. -/
theorem sampleAt_sampleList {l : List (Nat × Nat)} (hl : (l.map sampleKey).Nodup) (s : State) {p n : Nat} (h : (p, n) ∈ l) :
    sampleAt (sampleList l s) (sampleKey (p, n)) = (sampleAt s (sampleKey (p, n))).measured s.clock.now (queueNow s p n) := by
  induction l generalizing s with
  | nil => cases h
  | cons e r ih =>
    obtain ⟨hnew, hr⟩ := List.nodup_cons.mp hl
    rcases List.mem_cons.mp h with rfl | hmem
    · exact (sampleAt_sampleList_other _ hnew).trans ((sampleAt_sampleQueue p n s _).trans (if_pos rfl))
    · have hne : sampleKey (p, n) ≠ sampleKey e := fun heq => hnew (heq ▸ List.mem_map_of_mem hmem)
      have hfirst : sampleAt (sampleQueue e.1 e.2 s) (sampleKey (p, n)) = sampleAt s (sampleKey (p, n)) :=
        (sampleAt_sampleQueue e.1 e.2 s _).trans (if_neg hne)
      exact (ih hr (sampleQueue e.1 e.2 s) hmem).trans (by rw [hfirst]; rfl)

theorem mem_sampledQueues {p n : Nat} (hp : p < 32) (hn : n < 9) : (p, n) ∈ sampledQueues :=
  List.mem_flatMap.mpr ⟨p, List.mem_range.mpr hp, List.mem_map.mpr ⟨n, List.mem_range.mpr hn, rfl⟩⟩

/-- The keys rise along the order of sampling: the nine queues of a partition lie within its sixteen keys. -/
theorem sampledQueues_rise : sampledQueues.Pairwise (fun e f => sampleKey e < sampleKey f) := by
  refine List.pairwise_flatMap.mpr ⟨fun p _ => ?_, List.pairwise_lt_range.imp (fun hlt e he f hf => ?_)⟩
  · exact List.pairwise_map.mpr (List.pairwise_lt_range.imp (fun hlt => Nat.add_lt_add_left hlt (16 * p)))
  · obtain ⟨n, hn, rfl⟩ := List.mem_map.mp he
    obtain ⟨m, -, rfl⟩ := List.mem_map.mp hf
    rw [List.mem_range] at hn
    simp only [sampleKey]
    omega

theorem sampledQueues_nodup : (sampledQueues.map sampleKey).Nodup :=
  List.pairwise_map.mpr (sampledQueues_rise.imp Nat.ne_of_lt)

/-- Every queue of every partition is measured (04 R140). -/
theorem sampleAt_sampledQueues (s : State) (p n : Nat) (hp : p < 32) (hn : n < 9) :
    sampleAt (sampleList sampledQueues s) (16 * p + n) = (sampleAt s (16 * p + n)).measured s.clock.now (queueNow s p n) :=
  sampleAt_sampleList sampledQueues_nodup s (mem_sampledQueues hp hn)

theorem exec_queueSample {s : State} (hmain : mainOn s = true) (hdue : s.levee.lastSample / 1024 < s.clock.now / 1024) :
    exec .queueSample s = .next ((sampleList sampledQueues s).modLevee (fun l => { l with lastSample := s.clock.now })) := by
  have hnested : (List.range 32).foldl (fun s p => (List.range 9).foldl (fun s n => sampleQueue p n s) s) s = sampleList sampledQueues s := by
    simp only [sampleList, sampledQueues, List.foldl_flatMap, List.foldl_map]
  obtain ⟨samples, hframe⟩ := sampleList_frame sampledQueues s
  simp only [exec, execQueueSample, hmain, hdue, hnested, decide_true, Bool.and_self, if_true]
  rw [hframe]

/-! The commits of policers and shapers, and the reset of the peaks (04 R135, R138, R140; 02 R41). -/

theorem onTrue_of_ne {v : Nat} (h : v ≠ 1) (eff : State → Status × State) (s : State) : onTrue v eff s = (.ok, s) := if_neg h

/-- Staged policer parameters that break a limit (04 R135). -/
def PolicerBad (o : Nat) (s : State) : Prop :=
  (stagedVal s o 1 0 = 1 ∧ stagedVal s o 4 0 < stagedVal s o 2 0) ∨ stagedVal s o 4 0 = 0 ∨ stagedVal s o 3 0 = 0 ∨ stagedVal s o 5 0 = 0

section commits

variable {p c : Nat} {s : State}

theorem policerCommit_of_bad (h : PolicerBad (0x3004 + 0x10 * p + c) s) : policerCommit p c s = (.range, s) :=
  if_pos (by simpa [PolicerBad, or_assoc] using h)

theorem policerCommit_of_good (h : ¬PolicerBad (0x3004 + 0x10 * p + c) s) :
    policerCommit p c s = (.ok, loadPolicer p c (commitStaged (0x3004 + 0x10 * p + c) s)) :=
  if_neg (by simpa [PolicerBad, or_assoc] using h)

theorem shaperCommit_of_short (h : stagedVal s (0x3003 + 0x10 * p) 2 65536 < 4096 ∨ stagedVal s (0x3003 + 0x10 * p) 4 65536 < 4096) :
    shaperCommit p s = (.range, s) :=
  if_pos (by simpa using h)

theorem shaperCommit_of_good (hresult : 4096 ≤ stagedVal s (0x3003 + 0x10 * p) 2 65536)
    (hbulk : 4096 ≤ stagedVal s (0x3003 + 0x10 * p) 4 65536) :
    shaperCommit p s = (.ok, loadShaper p (commitStaged (0x3003 + 0x10 * p) s)) :=
  if_neg (by simpa using And.intro hresult hbulk)

end commits

/-- Settles O23: a change of state and a record are one change of Levee and reports after it, the samples are measured queue by queue, and
each commit that is let through and written true is the operation of its object. -/
theorem leveeEvents : Obligations.LeveeEvents := by
  refine ⟨⟨fun s part hmain hpart => ?state, fun s q hfind hdue => ⟨exec_backstopExpiry hfind hdue, composeQuery_queries q 2 0 0 0 [] s⟩,
      fun s q status degraded result => exec_completionRecordWrite_of_query, fun s c status degraded result hnone hfind hdue => ?commit,
      fun s hmain hdue => ?sample⟩,
    fun s pa tag part cls => ⟨fun v ht => ⟨fun hv => commandRow_of_rowTaken ht (onTrue_of_ne hv _ s), ?bad, ?good⟩, ?loaded,
      fun v ht => ⟨fun hv => commandRow_of_rowTaken ht (onTrue_of_ne hv _ s), ?short, ?shaped⟩, fun v ht => ?peaks⟩⟩
  case state =>
    obtain ⟨t, hexec, ⟨hsame, rfl⟩ | hreports⟩ := exec_updateStateChange hmain hpart
    · exact ⟨t, hexec, hsame, fun _ _ => rfl, rfl, rfl, rfl⟩
    · refine ⟨t, hexec, ?_, fun p hp => ?_, ?_, ?_, hreports.mem⟩
      · rw [updStateOf, hreports.levee]
        exact KMap.getD_put_same _ _ _ _
      · rw [updStateOf, hreports.levee]
        exact KMap.getD_put_other _ _ _ hp
      · rw [hreports.levee]; rfl
      · rw [hreports.levee]; rfl
  case commit =>
    obtain ⟨t, hexec, hposts⟩ := exec_completionRecordWrite_of_commit (status := status) (degraded := degraded) (result := result) hnone hfind hdue
    exact ⟨t, hexec, hposts.committed, hposts.queries, hposts.mem⟩
  case sample =>
    have hexec := exec_queueSample hmain hdue
    have hframe := sampleList_frame sampledQueues s
    have hsampled := sampleAt_sampledQueues s
    generalize sampleList sampledQueues s = u at hexec hframe hsampled
    obtain ⟨samples, rfl⟩ := hframe
    exact ⟨_, hexec, rfl, rfl, hsampled⟩
  case bad =>
    rintro rfl hbad
    exact commandRow_of_rowTaken ht (policerCommit_of_bad hbad)
  case good =>
    rintro rfl hgood
    exact commandRow_of_rowTaken ht (policerCommit_of_good hgood)
  case loaded => simp [loadPolicer]
  case short =>
    rintro rfl hshort
    exact commandRow_of_rowTaken ht (shaperCommit_of_short hshort)
  case shaped =>
    rintro rfl hresult hbulk
    exact commandRow_of_rowTaken ht (shaperCommit_of_good hresult hbulk)
  case peaks =>
    refine commandRow_of_rowTaken ht ?_
    unfold onTrue
    split <;> rfl

end Sys2Proof.Machine

/-! The registers of a ring page: doorbells, controls, base and reserve (05 R142, R150 to R152). -/

namespace Sys2Proof.Machine

open Sys2Proof

/-- A port takes enables of its rings: its link runs as R142 asks and a host-ring version is agreed (05 R142, R151). -/
def RingsWork (s : State) (port : Nat) : Prop := ringsOk (linkAt s port) = true ∧ ringVersion s port ≠ 0

/-- The check of VERSION at an enable (05 R151). -/
theorem not_ringsOk_or_eq_true_iff {s : State} {port : Nat} :
    (!ringsOk (linkAt s port) || decide (ringVersion s port = 0)) = true ↔ ¬RingsWork s port := by
  simp only [RingsWork, Bool.or_eq_true, Bool.not_eq_true', decide_eq_true_eq, Decidable.not_and_iff_not_or_not, Bool.not_eq_true,
    ne_eq, Decidable.not_not]

/-! A submission ring. -/

section submission

variable {s : State} {port part ring v : Nat}

theorem exec_sqTailDoorbell_of_on (hon : (sqAt s port part ring).enabled = true) :
    exec (.sqTailDoorbell port part ring v) s =
      if v % 2 ^ 32 < (sqAt s port part ring).depth then
        .next (modSq port part ring (fun _ => { sqAt s port part ring with tail := v % 2 ^ 32 }) s)
      else .next (ringError port part ring 0 1 s) :=
  (if_neg (by simp [hon])).trans ((ite_congr (propext Nat.not_lt.symm) (fun _ => rfl) (fun _ => rfl)).trans (ite_not _ _ _))

theorem exec_sqTailDoorbell_of_off (hoff : (sqAt s port part ring).enabled = false) :
    exec (.sqTailDoorbell port part ring v) s = .next s :=
  if_pos (by rw [hoff]; rfl)

/-- An enable of a disabled submission ring is its three checks in turn (05 R151). -/
theorem exec_sqCtrlWrite_enable (hbit : bit v 0 = true) (hoff : (sqAt s port part ring).enabled = false) :
    exec (.sqCtrlWrite port part ring v) s =
      if (!ringsOk (linkAt s port) || decide (ringVersion s port = 0)) = true then .next (ringError port part ring 0 3 s)
      else if (!pow2In (bits v 31 16) 16 1024) = true then .next (ringError port part ring 0 2 s)
      else .next (modSq port part ring (fun _ =>
        { depth := bits v 31 16, cq := bits v 3 2, enabled := true, head := 0, tail := 0, error := 0 }) s) :=
  (if_pos hbit).trans (if_neg (by simp [hoff]))

theorem exec_sqCtrlWrite_enable_of_barred (hbit : bit v 0 = true) (hoff : (sqAt s port part ring).enabled = false)
    (hbarred : ¬RingsWork s port) : exec (.sqCtrlWrite port part ring v) s = .next (ringError port part ring 0 3 s) := by
  rw [exec_sqCtrlWrite_enable hbit hoff, if_pos (not_ringsOk_or_eq_true_iff.mpr hbarred)]

theorem exec_sqCtrlWrite_enable_of_works (hbit : bit v 0 = true) (hoff : (sqAt s port part ring).enabled = false)
    (hworks : RingsWork s port) :
    exec (.sqCtrlWrite port part ring v) s =
      if (!pow2In (bits v 31 16) 16 1024) = true then .next (ringError port part ring 0 2 s)
      else .next (modSq port part ring (fun _ =>
        { depth := bits v 31 16, cq := bits v 3 2, enabled := true, head := 0, tail := 0, error := 0 }) s) := by
  rw [exec_sqCtrlWrite_enable hbit hoff, if_neg (fun h => not_ringsOk_or_eq_true_iff.mp h hworks)]

theorem exec_sqCtrlWrite_enable_of_on (hbit : bit v 0 = true) (hon : (sqAt s port part ring).enabled = true) :
    exec (.sqCtrlWrite port part ring v) s = .next s :=
  (if_pos hbit).trans (if_pos hon)

/-- A write without the enable bit ends a ring in service with its unfetched entries, and sets the fields of a disabled one (05 R150). -/
theorem exec_sqCtrlWrite_disable (hbit : bit v 0 = false) :
    exec (.sqCtrlWrite port part ring v) s =
      if (sqAt s port part ring).enabled = true then
        .next (modSq port part ring (fun _ => { sqAt s port part ring with enabled := false, tail := (sqAt s port part ring).head }) s)
      else .next (modSq port part ring (fun _ => { sqAt s port part ring with depth := bits v 31 16, cq := bits v 3 2 }) s) :=
  if_neg (by simp [hbit])

end submission

/-! A completion ring. -/

/-- The fields that CQ_CTRL carries besides its enable (05 R150). -/
def CompRing.withCtrl (c : CompRing) (v : Nat) : CompRing :=
  { c with vector := bits v 63 48, depth := bits v 47 32, coalN := bits v 31 24, coalT := bits v 23 8 }

/-- A completion ring that starts empty, in its first pass (05 R150, R152). -/
def CompRing.started (c : CompRing) : CompRing :=
  { c with enabled := true, closing := false, head := 0, tail := 0, held := 0, phase := true, error := 0, since := 0, firstAt := none }

section completion

variable {s : State} {port part ring v : Nat}

/-- A head is taken where it lies in the ring and does not pass the tail (05 R151, R152). -/
theorem exec_cqHeadDoorbell_of_on (hon : (cqAt s port part ring).enabled = true) :
    let c := cqAt s port part ring
    let w := v % 2 ^ 32
    exec (.cqHeadDoorbell port part ring v) s =
      if c.depth ≤ w ∨ (c.tail + c.depth - c.head) % c.depth < (w + c.depth - c.head) % c.depth then .next (ringError port part ring 1 1 s)
      else .next (modCq port part ring (fun _ => { c with head := w }) s) :=
  (if_neg (by simp [hon])).trans (ite_congr (by simp only [Bool.or_eq_true, decide_eq_true_eq]) (fun _ => rfl) (fun _ => rfl))

theorem exec_cqHeadDoorbell_of_off (hoff : (cqAt s port part ring).enabled = false) :
    exec (.cqHeadDoorbell port part ring v) s = .next s :=
  if_pos (by rw [hoff]; rfl)

/-- An enable of a disabled completion ring is its four checks in turn (05 R151). -/
theorem exec_cqCtrlWrite_enable (hbit : bit v 0 = true) (hoff : (cqAt s port part ring).enabled = false) :
    exec (.cqCtrlWrite port part ring v) s =
      if (!ringsOk (linkAt s port) || decide (ringVersion s port = 0)) = true then .next (ringError port part ring 1 3 s)
      else if (!pow2In (bits v 47 32) 16 4096) = true then .next (ringError port part ring 1 2 s)
      else if bits v 47 32 - 1 ≤ (cqAt s port part ring).reserve then .next (ringError port part ring 1 5 s)
      else .next (modCq port part ring (fun _ => ((cqAt s port part ring).withCtrl v).started) s) :=
  (if_pos hbit).trans (if_neg (by simp [hoff]))

theorem exec_cqCtrlWrite_enable_of_barred (hbit : bit v 0 = true) (hoff : (cqAt s port part ring).enabled = false)
    (hbarred : ¬RingsWork s port) : exec (.cqCtrlWrite port part ring v) s = .next (ringError port part ring 1 3 s) := by
  rw [exec_cqCtrlWrite_enable hbit hoff, if_pos (not_ringsOk_or_eq_true_iff.mpr hbarred)]

theorem exec_cqCtrlWrite_enable_of_works (hbit : bit v 0 = true) (hoff : (cqAt s port part ring).enabled = false)
    (hworks : RingsWork s port) :
    exec (.cqCtrlWrite port part ring v) s =
      if (!pow2In (bits v 47 32) 16 4096) = true then .next (ringError port part ring 1 2 s)
      else if bits v 47 32 - 1 ≤ (cqAt s port part ring).reserve then .next (ringError port part ring 1 5 s)
      else .next (modCq port part ring (fun _ => ((cqAt s port part ring).withCtrl v).started) s) := by
  rw [exec_cqCtrlWrite_enable hbit hoff, if_neg (fun h => not_ringsOk_or_eq_true_iff.mp h hworks)]

/-- An enable of a ring in service takes back a disable that waits for its last held record (05, Events that meet). -/
theorem exec_cqCtrlWrite_enable_of_on (hbit : bit v 0 = true) (hon : (cqAt s port part ring).enabled = true) :
    exec (.cqCtrlWrite port part ring v) s = .next (modCq port part ring (fun _ => { cqAt s port part ring with closing := false }) s) :=
  (if_pos hbit).trans (if_pos hon)

/-- A disable ends the ring at once, or with its last held record (05, Events that meet). -/
theorem exec_cqCtrlWrite_disable_of_on (hbit : bit v 0 = false) (hon : (cqAt s port part ring).enabled = true) :
    exec (.cqCtrlWrite port part ring v) s =
      if (cqAt s port part ring).held = 0 then .next (modCq port part ring (fun _ => { cqAt s port part ring with enabled := false }) s)
      else .next (modCq port part ring (fun _ => { cqAt s port part ring with closing := true }) s) := by
  calc exec (.cqCtrlWrite port part ring v) s
      = .next (modCq port part ring (fun _ => if (cqAt s port part ring).held = 0 then { cqAt s port part ring with enabled := false }
          else { cqAt s port part ring with closing := true }) s) := (if_neg (by simp [hbit])).trans (if_pos hon)
    _ = _ := apply_ite (fun c => Host.Outcome.next (modCq port part ring (fun _ => c) s)) _ _ _

theorem exec_cqCtrlWrite_disable_of_off (hbit : bit v 0 = false) (hoff : (cqAt s port part ring).enabled = false) :
    exec (.cqCtrlWrite port part ring v) s = .next (modCq port part ring (fun _ => (cqAt s port part ring).withCtrl v) s) :=
  (if_neg (by simp [hbit])).trans (if_neg (by simp [hoff]))

end completion

/-- Settles O24: each register follows its own rule, an enable judging the link and version, then the depth, then the reserve. The writes
that a disabled ring ignores leave the state, and so do base and reserve of an enabled one. -/
theorem ringRegisters : Obligations.RingRegisters := by
  intro s port part ring v q c sqTo cqTo stops works
  refine ⟨exec_sqTailDoorbell_of_on, exec_sqTailDoorbell_of_off, exec_cqHeadDoorbell_of_on, exec_cqHeadDoorbell_of_off,
    fun hbit hoff hworks hdepth => ?sqStarts, fun hbit hoff hworks hdepth => ?sqDepth, exec_sqCtrlWrite_enable_of_barred,
    exec_sqCtrlWrite_enable_of_on, exec_sqCtrlWrite_disable, fun hbit hoff hworks hdepth hreserve => ?cqStarts,
    fun hbit hoff hworks hdepth hreserve => ?cqReserve, fun hbit hoff hworks hdepth => ?cqDepth, exec_cqCtrlWrite_enable_of_barred,
    exec_cqCtrlWrite_enable_of_on, exec_cqCtrlWrite_disable_of_on, exec_cqCtrlWrite_disable_of_off, ?base, ?reserve⟩
  case sqStarts => rw [exec_sqCtrlWrite_enable_of_works hbit hoff hworks, if_neg (by simp [hdepth])]
  case sqDepth => rw [exec_sqCtrlWrite_enable_of_works hbit hoff hworks, if_pos (by simp [hdepth])]
  case cqStarts =>
    rw [exec_cqCtrlWrite_enable_of_works hbit hoff hworks, if_neg (by simp [hdepth]), if_neg (Nat.not_le.mpr hreserve)]
    rfl
  case cqReserve => rw [exec_cqCtrlWrite_enable_of_works hbit hoff hworks, if_neg (by simp [hdepth]), if_pos hreserve]
  case cqDepth => rw [exec_cqCtrlWrite_enable_of_works hbit hoff hworks, if_pos (by simp [hdepth])]
  case base => rfl
  case reserve => rfl

end Sys2Proof.Machine

/-! The index commands CREATE, SEAL, DESTROY and REINDEX: what each answers and what it leaves of the indices
(06 R176 to R179, R196, R199). -/

namespace Sys2Proof

@[simp] theorem KMap.find_del_same {α : Type} (m : KMap α) (k : Nat) : KMap.find (KMap.del m k) k = none := by
  simp [KMap.del, KMap.find_filter m (fun j => j != k)]

theorem KMap.find_del_other {α : Type} (m : KMap α) {k j : Nat} (h : j ≠ k) : KMap.find (KMap.del m k) j = KMap.find m j := by
  simp [KMap.del, KMap.find_filter m (fun i => i != k), h]

end Sys2Proof

namespace Sys2Proof.Machine

open Sys2Proof

/-! What a command does to memory, regions and the Almanac leaves the indices as they are. -/

/-- What each step of a fold leaves as it was, the whole fold leaves as it was. -/
theorem foldl_frame {α β : Type} (g : State → β) {f : State → α → State} (hf : ∀ s a, g (f s a) = g s) (l : List α)
    (s : State) : g (l.foldl f s) = g s :=
  List.foldlRecOn l f (motive := fun t => g t = g s) rfl (fun t h a _ => (hf t a).trans h)

section frames

variable (s : State)

@[simp] theorem writePc_data (pc l : Nat) (bs : Bytes) : (writePc pc l bs s).data = s.data := rfl

theorem writeParts_data (fuel a : Nat) (bs : Bytes) : (writeParts fuel a bs s).data = s.data := by
  induction fuel generalizing a bs s with
  | zero => rfl
  | succ n ih =>
    unfold writeParts
    split
    · rfl
    · exact (ih _ _ _).trans (writePc_data _ _ _ _)

@[simp] theorem writeI_data (a : Nat) (bs : Bytes) : (writeI a bs s).data = s.data := writeParts_data s _ a bs

@[simp] theorem writeCell_data (x : SearchIndex) (c : Nat) : (writeCell x c s).data = s.data := writeI_data s _ _

@[simp] theorem writeSide_data (k : Nat) (x : SearchIndex) (pos : Nat) (bytes : Bytes) (gen : Nat) :
    (writeSide k x pos bytes gen s).data = s.data := by
  unfold writeSide
  exact (foldl_frame State.data (by intros; rfl) _ _).trans (writeI_data s _ _)

theorem writeCells_data (x : SearchIndex) (cs : List Nat) : (cs.foldl (fun s c => writeCell x c s) s).data = s.data :=
  foldl_frame State.data (fun t c => writeCell_data t x c) cs s

theorem writePcs_data (pc l : Nat → Nat) (bs : Bytes) (gs : List Nat) :
    (gs.foldl (fun s g => writePc (pc g) (l g) bs s) s).data = s.data :=
  foldl_frame State.data (fun t g => writePc_data t (pc g) (l g) bs) gs s

theorem writeSides_data (k : Nat) (x : SearchIndex) (bytes : Bytes) (gen : Nat) (ps : List Nat) :
    (ps.foldl (fun s i => writeSide k x i bytes gen s) s).data = s.data :=
  foldl_frame State.data (fun t i => writeSide_data t k x i bytes gen) ps s

@[simp] theorem blankIndex_data (k : Nat) (x : SearchIndex) : (blankIndex k x s).data = s.data := by
  unfold blankIndex
  dsimp only
  split
  · rw [writeSides_data, writeCells_data, writeI_data, writePcs_data]
  · rw [writeCells_data, writeI_data, writePcs_data]

theorem indexObjects_indices (k : Nat) : (indexObjects k s).data.indices = s.data.indices := by
  refine foldl_frame (fun t => t.data.indices) (fun t r => ?_) _ s
  split <;> rfl

@[simp] theorem zeroRegion_data (r : Region) : (zeroRegion r s).data = s.data := by
  unfold zeroRegion
  split
  · rfl
  · split <;> rfl

@[simp] theorem releaseRegions_data (use : RegionUse) : (releaseRegions use s).data = s.data :=
  foldl_frame State.data (fun t r => zeroRegion_data t r) _ s

@[simp] theorem cancelEntry_data (n : Nat) : (cancelEntry n s).data = s.data := by
  unfold cancelEntry
  split
  · rfl
  · split <;> rfl

end frames

/-- An index is read from the map of indices alone. -/
theorem indexAt_of_indices_eq {s t : State} (h : t.data.indices = s.data.indices) (k : Nat) : indexAt t k = indexAt s k :=
  congrArg (KMap.find · k) h

@[simp] theorem indexAt_putIndex_same (k : Nat) (x : SearchIndex) (s : State) : indexAt (putIndex k x s) k = some x :=
  KMap.find_put_same s.data.indices k x

/-- The code of an index command's result is the one that the object holds (06 R178). -/
theorem countVal_indexResult (k code : Nat) (s : State) :
    countVal (indexResult k code s).2 (indexObj (k / 16) (k % 16)) 0x17 0 = code := by
  simp [countVal, indexResult, setCount]

/-- The result code is an object of the dictionary, so a result leaves the indices. -/
@[simp] theorem indexAt_indexResult (k code j : Nat) (s : State) : indexAt (indexResult k code s).2 j = indexAt s j := rfl

theorem buildState_iff {s : State} : buildState s = true ↔ s.dev.state = .config ∨ s.dev.state = .serving := by
  simp [buildState]

/-! Each command on the index of a key. -/

section operations

variable {k : Nat} {s : State}

theorem indexCommand_create : indexCommand k 1 s = indexCreate k s := by simp [indexCommand]
theorem indexCommand_seal : indexCommand k 2 s = indexSeal k s := by simp [indexCommand]
theorem indexCommand_destroy : indexCommand k 3 s = indexDestroy k s := by simp [indexCommand]
theorem indexCommand_reindex : indexCommand k 4 s = indexReindex k s := by simp [indexCommand]

theorem indexCreate_refused (h : (indexAt s k).isSome = true ∨ ¬buildState s = true) : indexCreate k s = (.state, s) :=
  if_pos (by simpa using h)

/-- An index that is placed is the one drafted, with its regions' places (06 R177). -/
theorem placeIndex_keeps_draft {x y : SearchIndex} {t : State} (h : placeIndex k x s = some (y, t)) :
    y.state = x.state ∧ y.items = x.items ∧ y.dims = x.dims ∧ y.cells = x.cells ∧ y.rows = x.rows := by
  obtain ⟨r, -, hy⟩ := Option.map_eq_some_iff.mp h
  obtain ⟨rfl, -⟩ := Prod.mk.inj hy
  exact ⟨rfl, rfl, rfl, rfl, rfl⟩

theorem indexAt_created (y : SearchIndex) (t : State) : indexAt (indexObjects k (blankIndex k y (putIndex k y t))) k = some y := by
  rw [indexAt_of_indices_eq (indexObjects_indices _ k), indexAt_of_indices_eq (congrArg Data.indices (blankIndex_data _ k y)),
    indexAt_putIndex_same]

/-- A CREATE that passes the checks of R178 in turn writes the placed index and its blank regions. -/
theorem indexCreate_of_placed {p : Nat} {y : SearchIndex} {t : State} (hp : k / 16 = p) (hempty : indexAt s k = none)
    (hdev : buildState s = true) (hgeometry : geometryOk s k (indexDraft s k) = true)
    (htiers : ∀ n, n = 0x0E ∨ n = 0x0F ∨ n = 0x10 ∨ (n = 0x12 ∧ (indexDraft s k).refine = true) → indexTierOk s k n = true)
    (hquota : partCarr s p + (indexDraft s k).regions.foldl (· + ·) 0 ≤ 1048576 * rwVal s (0x3000 + 0x10 * p) 4 0)
    (hcarr : carrCommitted s + (indexDraft s k).regions.foldl (· + ·) 0 ≤ carrAllocatable s)
    (hspace : ∃ n, KMap.find s.mire.spaces (indexDraft s k).space = some n ∧ n.owner = p ∧
      (indexDraft s k).slots * (indexDraft s k).stride + (indexDraft s k).regions.foldl (· + ·) 0 ≤ 16384 * n.size)
    (hplace : placeIndex k (indexDraft s k) s = some (y, t)) :
    ∃ u, indexCreate k s = indexResult k 0 u ∧ indexAt u k = some y := by
  have hrefine : ((indexDraft s k).refine && !indexTierOk s k 0x12) = false := by
    cases hr : (indexDraft s k).refine with
    | false => rfl
    | true => simp [htiers 0x12 (.inr (.inr (.inr ⟨rfl, hr⟩)))]
  obtain ⟨n, hfind, howner, hsize⟩ := hspace
  refine ⟨_, ?_, indexAt_created y
    ([0x09, 0x0A, 0x0B, 0x0F, 0x10, 0x11].foldl (fun t n => setCount (indexStatus p (k % 16)) n 0 t) t)⟩
  simp only [indexCreate, hp, hempty, hdev, hgeometry, hrefine, htiers 0x0E (.inl rfl), htiers 0x0F (.inr (.inl rfl)),
    htiers 0x10 (.inr (.inr (.inl rfl))), Nat.not_lt.mpr hquota, Nat.not_lt.mpr hcarr, hfind, howner, hsize, hplace]
  rfl

theorem indexSeal_refused (h : (∀ x, indexAt s k = some x → x.state ≠ .building) ∨ ¬buildState s = true) :
    indexSeal k s = (.state, s) := by
  unfold indexSeal
  split
  · rfl
  · next x hx => exact if_pos (by simpa using h.imp_left (· x hx))

/-- A SEAL whose live slots all have proper key records makes them the items of the index (06 R179, R196). -/
theorem indexSeal_of_built {x : SearchIndex} {l : KMap Item} (hx : indexAt s k = some x) (hstate : x.state = .building)
    (hdev : buildState s = true) (hbuilt : builtItems x.slots s x s.clock.ft 0 = some l) :
    ∃ u, indexSeal k s = indexResult k 0 u ∧
      indexAt u k = some { x with state := .ready, items := l, saved := l, horizon := s.clock.ft, last := s.clock.ft } := by
  refine ⟨_, by simp only [indexSeal, hx, hstate, hdev, hbuilt]; rfl, ?_⟩
  refine (indexAt_of_indices_eq (congrArg Data.indices ?_) k).trans (indexAt_putIndex_same k _ s)
  split <;> exact writeCells_data _ _ _

theorem indexDestroy_refused (h : indexAt s k = none ∨ ¬(buildState s = true ∨ s.dev.state = .recovery)) :
    indexDestroy k s = (.state, s) :=
  if_pos (by simpa using h)

/-- A DESTROY of an index that no resident image names drops it and no other (06 R176). -/
theorem indexDestroy_of_unused (hx : (indexAt s k).isSome = true) (hdev : buildState s = true ∨ s.dev.state = .recovery)
    (hunused : indexUsed s k = false) :
    ∃ u, indexDestroy k s = indexResult k 0 u ∧ indexAt u k = none ∧ ∀ j, j ≠ k → indexAt u j = indexAt s j := by
  have hopen : ((indexAt s k).isNone || !(buildState s || decide (s.dev.state = .recovery))) = false := by
    simp only [Bool.or_eq_false_iff, Option.isNone_eq_false_iff, Bool.not_eq_false', Bool.or_eq_true, decide_eq_true_eq]
    exact ⟨hx, hdev⟩
  refine ⟨_, by simp only [indexDestroy, hopen, hunused]; rfl, ?_, fun j hj => ?_⟩
  · exact KMap.find_del_same _ k
  · simp [indexAt, modTiers, KMap.find_del_other _ hj]

theorem indexReindex_refused (h : (∀ x, indexAt s k = some x → x.state ≠ .ready) ∨ ¬buildState s = true) :
    indexReindex k s = (.state, s) := by
  unfold indexReindex
  split
  · rfl
  · next x hx => exact if_pos (by simpa using h.imp_left (· x hx))

/-- A REINDEX with the other codebook and full vectors starts at the first cell (06 R199). -/
theorem indexReindex_of_vectors {x : SearchIndex} (hx : indexAt s k = some x) (hstate : x.state = .ready) (hdev : buildState s = true)
    (hbook : indexTierOk s k (0x10 + (1 - x.book)) = true)
    (hrefine : x.refine = true → indexTierOk s k (0x12 + (1 - x.book)) = true) (hvectors : x.vfmt ≠ 0) :
    ∃ u, indexReindex k s = indexResult k 0 u ∧ indexAt u k = some { x with state := .reindexing, progress := 0 } ∧ u.mem = s.mem := by
  have hbooks : (!indexTierOk s k (0x10 + (1 - x.book)) || (x.refine && !indexTierOk s k (0x12 + (1 - x.book)))) = false := by
    cases hr : x.refine with
    | false => simp [hbook]
    | true => simp [hbook, hrefine hr]
  refine ⟨_, by simp only [indexReindex, hx, hstate, hdev, hbooks, hvectors]; rfl, ?_⟩
  split <;> exact ⟨indexAt_putIndex_same k _ s, rfl⟩

end operations

/-! The row of the index commands: each is the write of its code to the index command object. -/

section row

variable {pa : Path} {tag part index code : Nat} {s u : State} {c : Instr}
  (hc : (c, code) ∈ [(Instr.indexCreate pa tag part index, 1), (.indexSeal pa tag part index, 2), (.indexDestroy pa tag part index, 3),
    (.reindex pa tag part index, 4)])
  (ht : RowTaken pa ⟨objIndexCommand, [part, index]⟩ code s)

include hc ht

theorem exec_indexCommand_of_rowTaken {st : Status} (he : indexCommand (16 * part + index) code s = (st, u)) :
    exec c s = RowDone pa tag ⟨objIndexCommand, [part, index]⟩ code st u := by
  simp only [List.mem_cons, List.not_mem_nil, Prod.mk.injEq, or_false] at hc
  obtain ⟨rfl, rfl⟩ | ⟨rfl, rfl⟩ | ⟨rfl, rfl⟩ | ⟨rfl, rfl⟩ := hc <;> exact commandRow_of_rowTaken ht he

/-- A command that ends with the result code 0 is answered OK, and its object holds that code (06 R178). -/
theorem exec_indexCommand_of_result (hindex : index < 16)
    (he : indexCommand (16 * part + index) code s = indexResult (16 * part + index) 0 u) :
    exec c s = RowDone pa tag ⟨objIndexCommand, [part, index]⟩ code .ok (indexResult (16 * part + index) 0 u).2 ∧
      countVal (indexResult (16 * part + index) 0 u).2 (indexObj part index) 0x17 0 = 0 := by
  have hpart : (16 * part + index) / 16 = part := by omega
  have hmod : (16 * part + index) % 16 = index := by omega
  refine ⟨exec_indexCommand_of_rowTaken hc ht he, ?_⟩
  simpa only [hpart, hmod] using countVal_indexResult (16 * part + index) 0 u

end row

/-- Settles O26: each command is refused by its first check, that of the states, and where its checks hold it ends with the result code 0,
after an operation whose writes outside the indices leave the index it put or dropped. -/
theorem indexCommands : Obligations.IndexCommands := by
  intro s pa tag part index hindex r k build done
  have hpart : k / 16 = part := by omega
  refine ⟨fun ht => ⟨fun h => ?createRefused, ?created⟩, fun ht => ⟨fun h => ?sealRefused, fun x l hx hstate hdev hbuilt => ?sealed⟩,
    fun ht => ⟨fun h => ?destroyRefused, fun hx hdev hunused => ?destroyed⟩,
    fun ht => ⟨fun h => ?reindexRefused, fun x hx hstate hdev hbook hrefine hvectors => ?reindexed⟩⟩
  case createRefused =>
    have hrefused := indexCreate_refused (h.imp_right (mt buildState_iff.mp))
    exact exec_indexCommand_of_rowTaken (by simp) ht (indexCommand_create.trans hrefused)
  case created =>
    intro x need hempty hdev hgeometry htiers hquota hcarr hspace hplaced
    obtain ⟨⟨y, t⟩, hplace⟩ := Option.isSome_iff_exists.mp hplaced
    obtain ⟨u, hcreate, hat⟩ :=
      indexCreate_of_placed hpart hempty (buildState_iff.mpr hdev) hgeometry htiers hquota hcarr hspace hplace
    exact ⟨_, y, exec_indexCommand_of_result (by simp) ht hindex (indexCommand_create.trans hcreate),
      (indexAt_indexResult k 0 k u).trans hat, placeIndex_keeps_draft hplace⟩
  case sealRefused =>
    have hrefused := indexSeal_refused (h.imp_right (mt buildState_iff.mp))
    exact exec_indexCommand_of_rowTaken (by simp) ht (indexCommand_seal.trans hrefused)
  case sealed =>
    obtain ⟨u, hseal, hat⟩ := indexSeal_of_built hx hstate (buildState_iff.mpr hdev) hbuilt
    exact ⟨_, exec_indexCommand_of_result (by simp) ht hindex (indexCommand_seal.trans hseal), (indexAt_indexResult k 0 k u).trans hat⟩
  case destroyRefused =>
    have hrefused := indexDestroy_refused (h.imp_right (mt (Or.imp_left buildState_iff.mp)))
    exact exec_indexCommand_of_rowTaken (by simp) ht (indexCommand_destroy.trans hrefused)
  case destroyed =>
    obtain ⟨u, hdestroy, hgone, hothers⟩ := indexDestroy_of_unused hx (hdev.imp_left buildState_iff.mpr) hunused
    exact ⟨_, exec_indexCommand_of_result (by simp) ht hindex (indexCommand_destroy.trans hdestroy),
      (indexAt_indexResult k 0 k u).trans hgone, fun j hj => (indexAt_indexResult k 0 j u).trans (hothers j hj)⟩
  case reindexRefused =>
    have hrefused := indexReindex_refused (h.imp_right (mt buildState_iff.mp))
    exact exec_indexCommand_of_rowTaken (by simp) ht (indexCommand_reindex.trans hrefused)
  case reindexed =>
    obtain ⟨u, hreindex, hat, hmem⟩ := indexReindex_of_vectors hx hstate (buildState_iff.mpr hdev) hbook hrefine hvectors
    exact ⟨_, exec_indexCommand_of_result (by simp) ht hindex (indexCommand_reindex.trans hreindex),
      (indexAt_indexResult k 0 k u).trans hat, hmem⟩

end Sys2Proof.Machine

/-! The work of the tiles' units: the arrays, the engines, the slots and Levee, as what the units read, write, count and signal leave them
(03 R82; 07 R208; 10 R299; 15 R415). -/

namespace Sys2Proof.Machine

open Sys2Proof

/-- The second state holds the work of the first: the arrays and the engines of the tiles, the slots and Levee. -/
structure SameWork (s t : State) : Prop where
  arrays : t.units.arrays = s.units.arrays
  engines : t.units.engines = s.units.engines
  slots : t.slots = s.slots
  levee : t.levee = s.levee

section work

variable {s t u : State}

theorem SameWork.refl (s : State) : SameWork s s := ⟨rfl, rfl, rfl, rfl⟩

theorem SameWork.trans (h : SameWork s t) (g : SameWork t u) : SameWork s u :=
  ⟨g.arrays.trans h.arrays, g.engines.trans h.engines, g.slots.trans h.slots, g.levee.trans h.levee⟩

theorem Reports.sameWork (h : Reports s t) : SameWork s t := by
  obtain ⟨_, _, _, _, _, rfl⟩ := h
  exact ⟨rfl, rfl, rfl, rfl⟩

theorem SameWork.arrayAt (h : SameWork s t) (n : Nat) : arrayAt t n = arrayAt s n := by
  unfold Machine.arrayAt
  rw [h.arrays]

theorem SameWork.engineAt (h : SameWork s t) (n : Nat) : engineAt t n = engineAt s n := by
  unfold Machine.engineAt
  rw [h.engines]

end work

/-! The cells. -/

section cells

variable (s : State)

theorem modCells_sameWork (f : Cells → Cells) : SameWork s (s.modCells f) := ⟨rfl, rfl, rfl, rfl⟩

theorem modCell_sameWork (n : Nat) (f : Cell → Cell) : SameWork s (modCell n f s) := modCells_sameWork s _

theorem drawn_sameWork : SameWork s (drawn s) := ⟨rfl, rfl, rfl, rfl⟩

theorem fireArm_sameWork (n : Nat) : SameWork s (fireArm n s) := by
  unfold fireArm
  extract_lets c
  split
  · exact .refl s
  · extract_lets up
    split
    · exact .refl s
    · refine (modCell_sameWork s n fun c => { c with arm := none }).trans ?_
      split
      · exact (sendVector_reports _ _ _).sameWork
      · exact .refl _

theorem traceSignal_sameWork (n : Nat) : SameWork s (traceSignal n s) := by
  unfold traceSignal
  split
  · exact (trace_reports s _ _ _ _).sameWork.trans (drawn_sameWork _)
  · exact .refl s

theorem applySignal_sameWork (n k : Nat) : SameWork s (applySignal n k s) := by
  unfold applySignal
  extract_lets c g sum lost u v w
  have hlost : SameWork v w := by
    unfold w
    split
    · exact .refl v
    · exact (bump_reports v _ _ _).sameWork
  exact (modCell_sameWork s n _).trans ((modCells_sameWork u _).trans
    (hlost.trans ((traceSignal_sameWork w n).trans (fireArm_sameWork _ n))))

theorem applyTry_sameWork (n : Nat) : SameWork s (applyTry n s).2 := by
  unfold applyTry
  split
  · exact modCell_sameWork s n _
  · exact .refl s

theorem applyCell_sameWork (n : Nat) (a : CellAct) : SameWork s (applyCell n a s) := by
  unfold applyCell
  cases a with
  | signal k => exact applySignal_sameWork s n k
  | tryUnit => exact (applyTry_sameWork s n).trans (emit_reports _ _).sameWork
  | tryHost port part => exact (applyTry_sameWork s n).trans (emit_reports _ _).sameWork
  | tryCore core d => exact (applyTry_sameWork s n).trans ⟨rfl, rfl, rfl, rfl⟩
  | wait chan =>
    dsimp only
    split
    · exact (modCell_sameWork s n _).trans (modCells_sameWork _ _)
    · exact modCell_sameWork s n _
  | cancel chan =>
    dsimp only
    split
    · exact (modCell_sameWork s n _).trans (modCells_sameWork _ _)
    · exact .refl s
  | clear => exact modCell_sameWork s n _
  | arm port vec => exact (modCell_sameWork s n _).trans (fireArm_sameWork _ n)

theorem issueMirror_sameWork : SameWork s (issueMirror s) := ⟨rfl, rfl, rfl, rfl⟩

theorem mirrorHeld_sameWork : SameWork s (mirrorHeld s) := by
  unfold mirrorHeld
  split
  · exact (issueMirror_sameWork s).trans (modCells_sameWork _ _)
  · exact .refl s

theorem flushCells_sameWork (fuel : Nat) : SameWork s (flushCells fuel s) := by
  induction fuel generalizing s with
  | zero => exact .refl s
  | succ k ih =>
    have first_sameWork (o : CellOp) (r : List CellOp) :
        SameWork s (flushCells k (applyCell o.cell o.act (s.modCells fun c => { c with held := r }))) :=
      (modCells_sameWork s _).trans ((applyCell_sameWork _ _ _).trans (ih _))
    unfold flushCells
    split
    · next o r hfuel _ =>
      cases hfuel
      split
      · exact .refl s
      · split
        · exact first_sameWork o r
        · split
          · split
            · exact first_sameWork o r
            · exact .refl s
          · exact .refl s
    · exact .refl s

theorem issueCell_sameWork (n : Nat) (a : CellAct) : SameWork s (issueCell n a s) := by
  unfold issueCell
  split
  · exact applyCell_sameWork s n a
  · exact (modCells_sameWork s _).trans ((mirrorHeld_sameWork _).trans (flushCells_sameWork _ _))

/-- A unit's completion signal leaves the units' work as it is. -/
theorem raiseField_sameWork (part field : Nat) : SameWork s (raiseField part field s) := by
  unfold raiseField
  split
  · exact issueCell_sameWork s _ _
  · exact .refl s

end cells

/-! The accesses of tile SRAM. -/

section accesses

variable (s : State)

theorem firewallHit_reports (p source target : Nat) : Reports s (firewallHit p source target s) :=
  (bump_reports s _ _ _).trans (annal_reports _ _ _ _ _ _)

/-- A read of tile SRAM changes what the firewall reports at most (03 R82). -/
theorem tileGet_reports (own t a n : Nat) : Reports s (tileGet own t a n s).2 := by
  unfold tileGet
  split
  · exact .refl s
  · exact firewallHit_reports s _ _ _

/-- An operand that a unit reads from tile SRAM, or has from elsewhere. -/
theorem operand_reports (p : Prop) [Decidable p] (bs : Bytes) (own t a n : Nat) :
    Reports s (if p then (bs, s) else tileGet own t a n s).2 := by
  split
  · exact .refl s
  · exact tileGet_reports s own t a n

theorem tilePut_sameWork (own t a : Nat) (bs : Bytes) : SameWork s (tilePut own t a bs s) := by
  unfold tilePut
  split
  · exact ⟨rfl, rfl, rfl, rfl⟩
  · exact (firewallHit_reports s _ _ _).sameWork

theorem raiseTo_reports (idx sub v : Nat) : Reports s (raiseTo idx sub v s) := setCount_reports s idx sub _

theorem bump_sameWork (idx sub n : Nat) : SameWork s (bump idx sub n s) := (bump_reports s idx sub n).sameWork

end accesses

end Sys2Proof.Machine

/-! The matrix arrays: the queue, the shadow search, and what a pass leaves of its array (07 R207, R208, R214; 19 R533, R534). -/

namespace Sys2Proof.Machine

open Sys2Proof

/-- A descriptor joins a queue that holds fewer than 8 (07 R207; 10 R298). -/
theorem putQueue_eq (q : List Bytes) (d : Bytes) : putQueue q d = if q.length < 8 then some (q ++ [d]) else none := by
  simp only [putQueue, ← Nat.not_lt, ite_not]

section arrays

variable (s : State) (n : Nat)

@[simp] theorem arrayAt_modArray_same (f : ArrayUnit → ArrayUnit) : arrayAt (modArray n f s) n = f (arrayAt s n) := by
  simp [arrayAt, modArray]

theorem exec_passEnqueue (tile array : Nat) (data : Bytes) :
    exec (.passEnqueue tile array data) s = .next (if (arrayAt s (2 * tile + array % 2)).queue.length < 8
      then modArray (2 * tile + array % 2) (fun a => { a with queue := a.queue ++ [slice data 0 64] }) s else s) := by
  change Host.Outcome.next ((enqueuePass (2 * tile + array % 2) (slice data 0 64) s).getD s) = _
  unfold enqueuePass
  rw [putQueue_eq]
  split <;> rfl

/-! The shadow search. -/

theorem advanceShadows_of_not_started (h : ∀ q, (arrayAt s n).search = some q → q.started = false) : advanceShadows n s = s := by
  unfold advanceShadows
  split
  · rfl
  · next q hq => simp [h q hq]

/-- A second shadow that agreed to its end shows that the first errs: the first has failed, and the search ends (19 R534). -/
theorem advanceShadows_of_agreed {q : Search} {w : Shadow} {f : Nat} (hq : (arrayAt s n).search = some q) (hstarted : q.started = true)
    (hw : q.shadows.find? (fun w => w.ends = 0 && w.second.isSome) = some w) (hf : w.second = some f) :
    advanceShadows n s = failColumn n f (modArray n (fun a => { a with search := none }) s) := by
  simp [advanceShadows, hq, hstarted, hw, hf]

theorem arrayAt_failColumn (phys : Nat) : arrayAt (failColumn n phys s) n =
    { arrayAt s n with bad := if (arrayAt s n).bad.contains phys then (arrayAt s n).bad else (arrayAt s n).bad ++ [phys] } :=
  arrayAt_modArray_same s n _

theorem mem_bad_failColumn (phys : Nat) : phys ∈ (arrayAt (failColumn n phys s) n).bad := by
  rw [arrayAt_failColumn]
  by_cases h : phys ∈ (arrayAt s n).bad <;> simp [h]

end arrays

/-! A pass. -/

/-- The second state has what a pass of some vectors must leave of the first: the queue and the chain of its array, the accumulator entries
outside its vectors, the slots and Levee. -/
structure PassFrame (n : Nat) (p : Pass) (s t : State) : Prop where
  queue : (arrayAt t n).queue = (arrayAt s n).queue
  chain : (arrayAt t n).chain = (arrayAt s n).chain
  acc : ∀ i, i < 128 * p.base ∨ 128 * (p.base + p.m) ≤ i → KMap.find (arrayAt t n).acc i = KMap.find (arrayAt s n).acc i
  slots : t.slots = s.slots
  levee : t.levee = s.levee

section pass

variable {n : Nat} {p : Pass} {s t u : State}

theorem PassFrame.refl (s : State) : PassFrame n p s s := ⟨rfl, rfl, fun _ _ => rfl, rfl, rfl⟩

theorem PassFrame.trans (h : PassFrame n p s t) (g : PassFrame n p t u) : PassFrame n p s u :=
  ⟨g.queue.trans h.queue, g.chain.trans h.chain, fun i hi => (g.acc i hi).trans (h.acc i hi), g.slots.trans h.slots,
    g.levee.trans h.levee⟩

theorem SameWork.passFrame (h : SameWork s t) : PassFrame n p s t :=
  have harray := h.arrayAt n
  ⟨congrArg ArrayUnit.queue harray, congrArg ArrayUnit.chain harray, fun i _ => congrArg (KMap.find ·.acc i) harray, h.slots, h.levee⟩

/-- A change of the array that leaves its queue, its chain and the accumulator entries outside the vectors of the pass. -/
theorem modArray_passFrame {f : ArrayUnit → ArrayUnit} (hqueue : (f (arrayAt s n)).queue = (arrayAt s n).queue)
    (hchain : (f (arrayAt s n)).chain = (arrayAt s n).chain)
    (hacc : ∀ i, i < 128 * p.base ∨ 128 * (p.base + p.m) ≤ i →
      KMap.find (f (arrayAt s n)).acc i = KMap.find (arrayAt s n).acc i) :
    PassFrame n p s (modArray n f s) := by
  rw [← arrayAt_modArray_same s n f] at hqueue hchain hacc
  exact ⟨hqueue, hchain, hacc, rfl, rfl⟩

/-- Entries written into a map leave every key that is not among theirs. -/
theorem find_foldl_put {α β : Type} (key : β → Nat) (val : β → α) {i : Nat} (rs : List β) (hi : ∀ r ∈ rs, i ≠ key r) (m : KMap α) :
    KMap.find (rs.foldl (fun m r => KMap.put m (key r) (val r)) m) i = KMap.find m i :=
  List.foldlRecOn rs _ (motive := fun m' => KMap.find m' i = KMap.find m i) rfl
    fun _ h r hr => (KMap.find_put_other _ _ (hi r hr)).trans h

/-- An entry of a vector of a pass is none of those outside its vectors (07 R214). -/
theorem entry_ne_of_outside {base m v j i : Nat} (hv : v < m) (hj : j < 128) (hi : i < 128 * base ∨ 128 * (base + m) ≤ i) :
    i ≠ 128 * (base + v) + j := by omega

/-- The operands read and the groups summed change no accumulator entry outside the vectors of the pass (07 R214). -/
theorem streamPass_frame (t k n : Nat) (p : Pass) (s : State) : PassFrame n p s (streamPass t k n p s) := by
  unfold streamPass
  extract_lets own a tile w sc ac bi vs start rs un s1 s2
  have hw : Reports s w.2 := operand_reports s _ _ _ _ _ _
  have hsc : Reports w.2 sc.2 := by
    unfold sc
    split
    · exact .refl _
    · exact operand_reports w.2 _ _ _ _ _ _
  have hac : Reports sc.2 ac.2 := tileGet_reports _ _ _ _ _
  have hbi : Reports ac.2 bi.2 := by
    unfold bi
    split
    · exact tileGet_reports _ _ _ _ _
    · exact .refl _
  have hs2 : Reports bi.2 s2 := (bump_reports _ _ _ _).trans ((bump_reports _ _ _ _).trans (bump_reports _ _ _ _))
  have hread : SameWork s s2 := (hw.trans (hsc.trans (hac.trans (hbi.trans hs2)))).sameWork
  have hacc : (arrayAt s2 n).acc = a.acc := congrArg ArrayUnit.acc (hread.arrayAt n)
  refine hread.passFrame.trans (modArray_passFrame rfl rfl fun i hi => ?_)
  refine find_foldl_put _ _ rs (fun r hr => ?_) _
  obtain ⟨v, hv, hr⟩ := List.mem_flatMap.mp hr
  obtain ⟨j, hj, rfl⟩ := List.mem_map.mp hr
  exact entry_ne_of_outside (List.mem_range.mp hv) (List.mem_range.mp hj) hi

theorem retireColumn_frame (col dst : Nat) (s : State) : PassFrame n p s (retireColumn n col dst s) :=
  modArray_passFrame rfl rfl fun _ _ => rfl

theorem disagree_frame (phys : Nat) (s : State) : PassFrame n p s (disagree n phys s) := by
  unfold disagree
  dsimp only
  split
  · exact .refl s
  · split
    · exact .refl s
    · split
      · exact retireColumn_frame _ _ s
      · split
        · exact retireColumn_frame _ _ s
        · exact modArray_passFrame rfl rfl fun _ _ => rfl

theorem disagrees_frame (off : List Nat) (s : State) : PassFrame n p s (off.foldl (fun s c => disagree n c s) s) :=
  List.foldlRecOn off _ (motive := PassFrame n p s) (.refl s) fun _ h c _ => h.trans (disagree_frame c _)

theorem writeOutputs_sameWork (t k n : Nat) (p : Pass) (lost : Bool) (s : State) : SameWork s (writeOutputs t k n p lost s) := by
  unfold writeOutputs
  extract_lets a val rows sum s1
  have hs1 : SameWork s s1 := ((bump_reports _ _ _ _).trans ((bump_reports _ _ _ _).trans (bump_reports _ _ _ _))).sameWork
  split
  · exact hs1.trans ⟨rfl, rfl, rfl, rfl⟩
  · exact hs1.trans (tilePut_sameWork _ _ _ _ _)

/-- The array after a pass has run: its last pass empties the chain, another joins it (07 R208). -/
def ArrayUnit.afterPass (a : ArrayUnit) (last : Bool) (d : Bytes) : ArrayUnit :=
  if last then { a with chain := [], lost := false, retry := false,
                        search := a.search.map (fun q => { q with shadows := q.shadows.map (fun w => { w with ends := w.ends - 1 }) }) }
  else { a with chain := a.chain ++ [d] }

section afterPass

variable (a : ArrayUnit) (last : Bool) (d : Bytes)

theorem ArrayUnit.afterPass_queue : (a.afterPass last d).queue = a.queue := by cases last <;> rfl

theorem ArrayUnit.afterPass_chain : (a.afterPass last d).chain = if last then [] else a.chain ++ [d] := by cases last <;> rfl

theorem ArrayUnit.afterPass_acc : (a.afterPass last d).acc = a.acc := by cases last <;> rfl

end afterPass

/-- A pass that has run writes its outputs and raises its signal, which leave the work; the rest is the change of its array. -/
theorem finishPass_sameWork (t k n : Nat) (d : Bytes) (s : State) :
    ∃ u, SameWork s u ∧ SameWork (modArray n (·.afterPass (passOf d).last d) u) (finishPass t k n d s) := by
  unfold finishPass
  extract_lets p a s1 s2
  have hs1 : SameWork s s1 := by
    unfold s1
    split
    · exact writeOutputs_sameWork _ _ _ _ _ _
    · exact .refl s
  have hs2 : SameWork s1 s2 := by
    unfold s2
    split
    · exact bump_sameWork s1 _ _ _
    · exact .refl s1
  exact ⟨s2, hs1.trans hs2, raiseField_sameWork _ _ _⟩

/-- The array as a pass begins: the pass has left the queue, and the chain is open only where the pass continues it (07 R208). -/
def ArrayUnit.beginPass (a : ArrayUnit) (p : Pass) (r : List Bytes) : ArrayUnit :=
  { a with queue := r, chain := if p.init = 2 then a.chain else [], lost := if p.init = 2 then a.lost else false,
           start := if p.init = 2 then a.start else a.fed }

end pass

section execPass

variable {s : State} {tile array n k x st : Nat} {off : List Nat} {y : Stage} {d : Bytes} {r : List Bytes}
  (hn : 2 * tile + array % 2 = n) (hqueue : (arrayAt s n).queue = d :: r) (hrole : tileRole s tile = some (k, x, st, y))

include hn hqueue hrole

theorem exec_arrayPass_refused (hok : passOk s k (arrayAt s n) d = false) :
    exec (.arrayPass tile array [] off) s = .next (bump (arrayObj n) 8 1 (modArray n (fun a => { a with queue := r }) s)) := by
  subst hn
  change execArrayPass tile array [] off s = _
  simp only [execArrayPass, hqueue, hrole, hok, Bool.not_false, if_true]

theorem exec_arrayPass_of_ok (hok : passOk s k (arrayAt s n) d = true)
    (hexp : (passOf d).exp = true → (arrayAt s n).shadow ≠ []) :
    exec (.arrayPass tile array [] off) s = .next (finishPass tile k n d
      (off.foldl (fun s c => disagree n c s) (streamPass tile k n (passOf d)
        (modArray n (·.beginPass (passOf d) r) s)))) := by
  have hshadow : ((passOf d).exp && (arrayAt s n).shadow.isEmpty) = false := by
    cases he : (passOf d).exp with
    | false => rfl
    | true => simpa using hexp he
  subst hn
  change execArrayPass tile array [] off s = _
  simp only [execArrayPass, hqueue, hrole, hok, hshadow]
  rfl

/-- A pass that runs leaves the queue, ends the chain or joins it, and touches no accumulator entry outside its vectors (07 R207, R208,
R214). -/
theorem exec_arrayPass_result (hok : passOk s k (arrayAt s n) d = true)
    (hexp : (passOf d).exp = true → (arrayAt s n).shadow ≠ []) :
    ∃ t, exec (.arrayPass tile array [] off) s = .next t ∧ (arrayAt t n).queue = r ∧
      (arrayAt t n).chain = (if (passOf d).last then []
        else (if (passOf d).init = 2 then (arrayAt s n).chain else []) ++ [d]) ∧
      (∀ i, i < 128 * (passOf d).base ∨ 128 * ((passOf d).base + (passOf d).m) ≤ i →
        KMap.find (arrayAt t n).acc i = KMap.find (arrayAt s n).acc i) ∧
      t.levee.queries = s.levee.queries ∧ t.slots = s.slots := by
  refine ⟨_, exec_arrayPass_of_ok hn hqueue hrole hok hexp, ?_⟩
  have hrun := (streamPass_frame tile k n (passOf d) (modArray n (·.beginPass (passOf d) r) s)).trans (disagrees_frame off _)
  obtain ⟨u, hbefore, hafter⟩ := finishPass_sameWork tile k n d
    (off.foldl (fun s c => disagree n c s) (streamPass tile k n (passOf d) (modArray n (·.beginPass (passOf d) r) s)))
  obtain ⟨hq, hchain, hacc, hslots, hlevee⟩ := hrun.trans hbefore.passFrame
  rw [arrayAt_modArray_same] at hq hchain hacc
  rw [hafter.arrayAt n, arrayAt_modArray_same, hafter.slots, hafter.levee]
  refine ⟨?_, ?_, fun i hi => ?_, congrArg Levee.queries hlevee, hslots⟩
  · rw [ArrayUnit.afterPass_queue, hq, ArrayUnit.beginPass]
  · rw [ArrayUnit.afterPass_chain, hchain, ArrayUnit.beginPass]
  · rw [ArrayUnit.afterPass_acc, hacc i hi, ArrayUnit.beginPass]

end execPass

end Sys2Proof.Machine

/-! The Mere engines: the queue, the start of a job, and what the end of an item and of a job leave of their engine (10 R296, R298, R299,
R302, R304, R307, R310, R311; 14 R398). -/

namespace Sys2Proof.Machine

open Sys2Proof

section engines

variable (s : State) (n : Nat)

@[simp] theorem engineAt_modEngine_same (f : MereEng → MereEng) : engineAt (modEngine n f s) n = f (engineAt s n) := by
  simp [engineAt, modEngine]

@[simp] theorem engineAt_modJob_same (f : Job → Job) :
    engineAt (modJob n f s) n = { engineAt s n with job := (engineAt s n).job.map f } := engineAt_modEngine_same s n _

theorem exec_mereJobEnqueue (tile engine : Nat) (data : Bytes) :
    exec (.mereJobEnqueue tile engine data) s = .next (if (engineAt s (4 * tile + engine % 4)).queue.length < 8
      then modEngine (4 * tile + engine % 4) (fun e => { e with queue := e.queue ++ [slice data 0 64] }) s else s) := by
  change Host.Outcome.next ((enqueueJob (4 * tile + engine % 4) (slice data 0 64) s).getD s) = _
  unfold enqueueJob
  rw [putQueue_eq]
  split <;> rfl

theorem packMessage_sameWork (own : Nat) (d : Bytes) (recs : List Bytes) : SameWork s (packMessage n own d recs s) := ⟨rfl, rfl, rfl, rfl⟩

/-- The end of a job leaves of its engine all but the job (10 R299). -/
theorem engineAt_endJob (t k : Nat) : engineAt (endJob t n k s) n = { engineAt s n with job := none } := by
  unfold endJob
  split
  · next hjob => rw [← hjob]
  · extract_lets own s1 m w out l tab s2 s3
    have hs1 : SameWork s s1 := by
      unfold s1
      split
      · exact .refl s
      · exact packMessage_sameWork s _ _ _ _
    have hs3 : SameWork s1 s3 := by
      unfold s3
      split
      · split
        · exact tilePut_sameWork _ _ _ _ _
        · exact (tilePut_sameWork _ _ _ _ _).trans ⟨rfl, rfl, rfl, rfl⟩
      · exact .refl s1
    rw [(raiseField_sameWork _ _ _).engineAt, engineAt_modEngine_same, (hs1.trans hs3).engineAt]

theorem settleJob_of_ctxs {j : Job} (t k : Nat) (hj : (engineAt s n).job = some j) (hctxs : j.ctxs ≠ []) : settleJob t n k s = s := by
  simp [settleJob, hj, hctxs]

end engines

/-! The items: what is emitted, set aside or counted as an item ends leaves the plan of its job. -/

/-- A job without what its items have left with it: the records not yet packed and the remote list. -/
def Job.plan (j : Job) : Job := { j with packs := [], remote := [] }

/-- The engine of the second state has the queue of the first and a job of the same plan. -/
structure SamePlan (n : Nat) (s t : State) : Prop where
  queue : (engineAt t n).queue = (engineAt s n).queue
  job : (engineAt t n).job.map Job.plan = (engineAt s n).job.map Job.plan

section items

variable {n : Nat} {s t u : State}

theorem SamePlan.refl (s : State) : SamePlan n s s := ⟨rfl, rfl⟩

theorem SamePlan.trans (h : SamePlan n s t) (g : SamePlan n t u) : SamePlan n s u := ⟨g.queue.trans h.queue, g.job.trans h.job⟩

theorem SameWork.samePlan (h : SameWork s t) : SamePlan n s t :=
  have hengine := h.engineAt n
  ⟨congrArg MereEng.queue hengine, congrArg (·.job.map Job.plan) hengine⟩

theorem SamePlan.foldl {α : Type} {f : State → α → State} (hf : ∀ s a, SamePlan n s (f s a)) (l : List α) (s : State) :
    SamePlan n s (l.foldl f s) :=
  List.foldlRecOn l f (motive := SamePlan n s) (.refl s) fun _ h _ _ => h.trans (hf _ _)

theorem modJob_samePlan {f : Job → Job} (hf : ∀ j, (f j).plan = j.plan) (s : State) : SamePlan n s (modJob n f s) := by
  refine ⟨by rw [engineAt_modJob_same], ?_⟩
  rw [engineAt_modJob_same, Option.map_map]
  exact congrArg (Option.map · (engineAt s n).job) (funext hf)

/-- A record emitted, packed, or dropped for its NaN score (10 R299, R301, R305). -/
theorem emitRecord_samePlan (t own place : Nat) (r : Bytes) (s : State) : SamePlan n s (emitRecord t n own place r s) := by
  unfold emitRecord
  split
  · exact .refl s
  · split
    · exact (bump_sameWork s _ _ _).samePlan
    · split
      · exact (tilePut_sameWork s _ _ _ _).samePlan
      · dsimp only
        split
        · exact (modJob_samePlan (fun _ => by rfl) s).trans (packMessage_sameWork _ _ _ _ _).samePlan
        · exact modJob_samePlan (fun _ => by rfl) s

theorem tileGet_samePlan (own t a m : Nat) (s : State) : SamePlan n s (tileGet own t a m s).2 :=
  (tileGet_reports s _ _ _ _).sameWork.samePlan

theorem distItem_samePlan (t k item : Nat) (lost : Bool) (s : State) : SamePlan n s (distItem t n k item lost s) := by
  unfold distItem
  split
  · exact .refl s
  · extract_lets d own rr r q fl out f dim b v qv
    have hout (sc : Nat) (u : State) : SamePlan n u (out sc u) := emitRecord_samePlan _ _ _ _ u
    have hrr : SamePlan n s rr.2 := tileGet_samePlan _ _ _ _ s
    split
    · exact hrr.trans (hout _ _)
    · split
      · exact hrr.trans (hout _ _)
      · exact hrr.trans ((tileGet_samePlan _ _ _ _ _).trans ((tileGet_samePlan _ _ _ _ _).trans (hout _ _)))

theorem refineItem_samePlan {t k item : Nat} {lost : Bool} (h : refineItem t n k item lost s = some u) : SamePlan n s u := by
  unfold refineItem at h
  split at h
  · cases h
  · extract_lets d rr r q fl b g score out miss at h
    have hout (sc fl : Nat) (v : State) : SamePlan n v (out sc fl v) := emitRecord_samePlan _ _ _ _ v
    have hrr : SamePlan n s rr.2 := tileGet_samePlan _ _ _ _ s
    split at h
    · cases h
      exact hrr.trans (hout _ _ _)
    · split at h
      · cases h
      · cases h
        exact hrr.trans (hout _ _ _)
      · cases h
        exact hrr.trans ((firewallHit_reports _ _ _ _).sameWork.samePlan.trans (hout _ _ _))
      · cases h
        exact hrr.trans ((bump_sameWork _ _ _ _).samePlan.trans (hout _ _ _))

theorem gatherItem_samePlan {t k item : Nat} (h : gatherItem t n k item s = some u) : SamePlan n s u := by
  unfold gatherItem at h
  split at h
  · cases h
  · extract_lets d own w kk key area hd tk row far at h
    have hrow (b : Bytes) (v : State) : SamePlan n v (row b v) := (tilePut_sameWork v _ _ _ _).samePlan
    have hfar (v : State) : SamePlan n v (far v) := modJob_samePlan (fun _ => by rfl) v
    have hkk : SamePlan n s kk.2 := tileGet_samePlan _ _ _ _ s
    split at h
    · cases h
      exact hkk.trans ((hrow _ _).trans (bump_sameWork _ _ _ _).samePlan)
    · split at h
      · cases h
        exact hkk.trans (hrow _ _)
      · split at h
        · cases h
          exact hkk.trans (hrow _ _)
        · split at h
          · cases h
            exact hkk.trans (hrow _ _)
          · split at h
            · split at h
              · cases h
                exact hkk.trans (hfar _)
              · split at h
                · cases h
                · cases h
                  exact hkk.trans (hrow _ _)
                · cases h
                  exact hkk.trans ((firewallHit_reports _ _ _ _).sameWork.samePlan.trans (hrow _ _))
                · cases h
                  exact hkk.trans (hfar _)
            · cases h
              exact hkk.trans (hfar _)

theorem abandonItem_samePlan (t k item : Nat) (s : State) : SamePlan n s (abandonItem t n k item s) := by
  unfold abandonItem
  split
  · exact .refl s
  · dsimp only
    split
    · exact (tileGet_samePlan _ _ _ _ s).trans ((bump_sameWork _ _ _ _).samePlan.trans (emitRecord_samePlan _ _ _ _ _))
    · split
      · exact (tileGet_samePlan _ _ _ _ s).trans ((emitRecord_samePlan _ _ _ _ _).trans (drawn_sameWork _).samePlan)
      · exact (bump_sameWork s _ _ _).samePlan.trans (tilePut_sameWork _ _ _ _ _).samePlan

/-- A context whose item has ended while items are left takes the next one, and the job goes on (10 R296). -/
theorem settleJob_nextItem {j : Job} {ctx : Nat} (t k : Nat) (h : SamePlan n s u) (hj : (engineAt s n).job = some j)
    (hleft : j.next < j.items) :
    ∃ j', (engineAt (settleJob t n k (nextItem n ctx u)) n).job = some j' ∧ j'.next = j.next + 1 ∧
      KMap.find j'.ctxs ctx = some { item := j.next } ∧ j'.desc = j.desc ∧
      (engineAt (settleJob t n k (nextItem n ctx u)) n).queue = (engineAt s n).queue := by
  obtain ⟨hqueue, hplan⟩ := h
  rw [hj] at hplan
  obtain ⟨i, hi, hplan⟩ := Option.map_eq_some_iff.mp hplan
  have hnext : i.next = j.next := show i.plan.next = j.plan.next from congrArg Job.next hplan
  have hitems : i.items = j.items := show i.plan.items = j.plan.items from congrArg Job.items hplan
  have hdesc : i.desc = j.desc := show i.plan.desc = j.plan.desc from congrArg Job.desc hplan
  have htaken : engineAt (nextItem n ctx u) n = { engineAt u n with
      job := some { i with next := i.next + 1, ctxs := KMap.put i.ctxs ctx { item := i.next } } } := by
    rw [nextItem, engineAt_modJob_same, hi, Option.map_some, if_pos (by omega)]
  have hctxs : KMap.put i.ctxs ctx ({ item := i.next } : Ctx) ≠ [] := fun hnil => by
    simpa [hnil, KMap.find] using KMap.find_put_same i.ctxs ctx ({ item := i.next } : Ctx)
  rw [settleJob_of_ctxs _ _ t k (congrArg MereEng.job htaken) hctxs, htaken]
  exact ⟨_, rfl, by rw [hnext], by rw [KMap.find_put_same, hnext], hdesc, hqueue⟩

end items

/-! The start of a job. -/

/-- A job as it starts, with its first items handed to contexts (10 R296). -/
def startedJob (d : Bytes) (win until_ : Nat) (headed : Bool) : Job :=
  { desc := d, items := jobItems d, next := min (leAt d 2 2) (jobItems d), window := win, until_ := until_, headed := headed,
    ctxs := (List.range (min (leAt d 2 2) (jobItems d))).map (fun i => (i, { item := i })) }

theorem startedJob_contexts (d : Bytes) (win until_ : Nat) (headed : Bool) :
    (startedJob d win until_ headed).ctxs.length = min (leAt d 2 2) (jobItems d) := by simp [startedJob]

/-- A job in order asks for a context at least (10 R302). -/
theorem jobOk_asks {s : State} {k lt t m : Nat} {d : Bytes} (h : jobOk s k lt t m d = true) : 1 ≤ leAt d 2 2 := by
  simp only [jobOk, Bool.and_eq_true, decide_eq_true_eq] at h
  obtain ⟨⟨⟨⟨-, hasks⟩, -⟩, -⟩, -⟩ := h
  exact hasks

section start

variable {s : State} {tile engine n k lt st : Nat} {y : Stage} {d : Bytes} {r : List Bytes}
  (hn : 4 * tile + engine % 4 = n) (hqueue : (engineAt s n).queue = d :: r)

include hn hqueue

theorem refuseUnknown_of_known (hop : 1 ≤ leAt d 0 1 ∧ leAt d 0 1 ≤ 4) : refuseUnknown tile engine s = s := by
  have hlow : leAt d 0 1 ≠ 0 := by omega
  have hhigh : ¬4 < leAt d 0 1 := by omega
  subst hn
  simp [refuseUnknown, hqueue, hlow, hhigh]

/-- The command of the operation that heads the queue starts its job; a SIDESCAN inside its stage's SCAN window (10 R304, R307, R310; 14
R398). -/
theorem exec_startJob (hrole : tileRole s tile = some (k, lt, st, y)) {c : Instr} {op : Nat} (hop : leAt d 0 1 = op)
    (hc : c = .refine tile engine ∧ op = 2 ∨ c = .dist tile engine ∧ op = 3 ∨ c = .gather tile engine ∧ op = 4 ∨
      c = .sidescan tile engine ∧ op = 1 ∧ (∃ w ∈ s.carr.windows, w.slot = k ∧ w.stage = st ∧ w.kind = 1)) :
    ∃ win until_, exec c s = .next (startJob op tile engine win until_ s) := by
  have hknown : refuseUnknown tile engine s = s := refuseUnknown_of_known hn hqueue (by omega)
  have hstart (op : Nat) : (.next (startJob op tile engine 0 0 (refuseUnknown tile engine s)) : Host.Outcome State Fault Refusal) =
      .next (startJob op tile engine 0 0 s) := by rw [hknown]
  obtain ⟨rfl, rfl⟩ | ⟨rfl, rfl⟩ | ⟨rfl, rfl⟩ | ⟨rfl, rfl, w, hw, hslot, hstage, hkind⟩ := hc
  · exact ⟨0, 0, hstart 2⟩
  · exact ⟨0, 0, hstart 3⟩
  · exact ⟨0, 0, hstart 4⟩
  · have hopen : (s.carr.windows.find? (fun w => w.slot = k && w.stage = st && w.kind = 1)).isSome = true :=
      List.find?_isSome.mpr ⟨w, hw, by simp [hslot, hstage, hkind]⟩
    obtain ⟨v, hv⟩ := Option.isSome_iff_exists.mp hopen
    refine ⟨v.id, v.opened + v.length, ?_⟩
    change execSidescan tile engine s = _
    simp only [execSidescan, hknown, hrole, hv]

variable (hrole : tileRole s tile = some (k, lt, st, y)) (hidle : (engineAt s n).job = none) (win until_ : Nat)

include hrole hidle

theorem startJob_refused (hok : jobOk s k lt tile (engine % 4) d = false) : startJob (leAt d 0 1) tile engine win until_ s =
    bump (mereObj tile) 9 1 (modEngine n (fun e => { e with queue := r }) s) := by
  subst hn
  simp [startJob, hqueue, hrole, hidle, hok]

/-- A job in order starts after the read of its header, where it has one, and is counted among the contexts at work (10 R296; 14 R398). -/
theorem startJob_eq (hok : jobOk s k lt tile (engine % 4) d = true) :
    ∃ u waiting headed, Reports s u ∧ startJob (leAt d 0 1) tile engine win until_ s =
      settleJob tile n k (raiseTo (mereObj tile) 0x0A waiting
        (modEngine n (fun e => { e with queue := r, job := some (startedJob d win until_ headed) }) u)) := by
  have hheader : Reports s (if leAt d 0 1 = 4 then tileGet (k / 4) tile (leAt d 16 4) 512 s else ([], s)).2 := by
    split
    · exact tileGet_reports s _ _ _ _
    · exact .refl s
  subst hn
  simp only [startJob, hqueue, hrole, hidle, hok, bne_self_eq_false, Option.isSome_none, Bool.or_self, Bool.not_true, Bool.false_eq_true,
    if_false]
  exact ⟨_, _, _, hheader, rfl⟩

/-- A job in order hands its items to as many contexts as it asks and has items for (10 R296). -/
theorem startJob_taken (hok : jobOk s k lt tile (engine % 4) d = true) (hitems : 1 ≤ jobItems d) :
    ∃ j, engineAt (startJob (leAt d 0 1) tile engine win until_ s) n =
        { engineAt s n with queue := r, job := some j } ∧
      j.desc = d ∧ j.items = jobItems d ∧ j.next = min (leAt d 2 2) (jobItems d) ∧ j.ctxs.length = j.next ∧ j.remote = [] ∧ j.packs = [] ∧
      (startJob (leAt d 0 1) tile engine win until_ s).mem = s.mem := by
  obtain ⟨u, waiting, headed, hu, hstart⟩ := startJob_eq hn hqueue hrole hidle win until_ hok
  rw [hstart]
  have hcount := raiseTo_reports (modEngine n (fun e => { e with queue := r, job := some (startedJob d win until_ headed) }) u)
    (mereObj tile) 0x0A waiting
  have hengine := hcount.sameWork.engineAt n
  rw [engineAt_modEngine_same, hu.sameWork.engineAt n] at hengine
  have hlength := startedJob_contexts d win until_ headed
  have hctxs : (startedJob d win until_ headed).ctxs ≠ [] := fun hnil => by
    rw [hnil, List.length_nil] at hlength
    have := jobOk_asks hok
    omega
  rw [settleJob_of_ctxs _ n tile k (congrArg MereEng.job hengine) hctxs]
  exact ⟨_, hengine, rfl, rfl, rfl, hlength, rfl, rfl, hcount.mem.trans hu.mem⟩

end start

/-! The data of a context, and the end of its item. -/

/-- What the end of an item leaves, where the item can end: none while it must wait. -/
def itemEnd (t n k op item : Nat) (s : State) : Option State :=
  if op = 2 then refineItem t n k item false s
  else if op = 3 then some (distItem t n k item false s)
  else gatherItem t n k item s

theorem itemEnd_samePlan {t n k op item : Nat} {s u : State} (h : itemEnd t n k op item s = some u) : SamePlan n s u := by
  unfold itemEnd at h
  split at h
  · exact refineItem_samePlan h
  · split at h
    · cases h
      exact distItem_samePlan _ _ _ _ s
    · exact gatherItem_samePlan h

/-- A DIST item always ends; a REFINE or GATHER item ends where it need not wait (10 R304, R310; 14 R398). -/
theorem itemEnd_isSome {t n k op item : Nat} {s : State}
    (h : op = 3 ∨ op = 2 ∧ (refineItem t n k item false s).isSome = true ∨ op = 4 ∧ (gatherItem t n k item s).isSome = true) :
    (itemEnd t n k op item s).isSome = true := by
  obtain rfl | ⟨rfl, h⟩ | ⟨rfl, h⟩ := h
  · rfl
  · exact h
  · exact h

theorem mereError_nil (t n k st : Nat) (ids : List Nat) (s : State) : mereError t n k st [] ids s = (false, s) := rfl

section data

variable {s : State} {tile engine n k lt st ctx m : Nat} {y : Stage} {j : Job} {x : Ctx}
  (hn : 4 * tile + engine % 4 = n) (hj : (engineAt s n).job = some j) (hrole : tileRole s tile = some (k, lt, st, y))

include hn hj hrole

theorem exec_contextDataReturn (hx : KMap.find j.ctxs ctx = some x) :
    exec (.contextDataReturn tile engine ctx m []) s = .next (
      if leAt j.desc 0 1 = 1 then settleJob tile n k (scanPositions m tile n k ctx false s)
      else ((itemEnd tile n k (leAt j.desc 0 1) x.item s).map (fun u => settleJob tile n k (nextItem n ctx u))).getD s) := by
  subst hn
  change execContextDataReturn tile engine ctx m [] s = _
  simp only [execContextDataReturn, hj, hrole, hx, mereError_nil, ite_self]
  split
  · rfl
  · rw [← itemEnd]
    cases itemEnd tile (4 * tile + engine % 4) k (leAt j.desc 0 1) x.item s <;> rfl

end data

/-! The cutoff of a job. -/

section cutoff

variable {s : State} {n : Nat} {r : Nat × Nat × Nat × Stage}

/-- The end of a job after work that leaves its plan: the engine has the queue it had, and no job. -/
theorem endJob_of_samePlan {u : State} (t k : Nat) (h : SamePlan n s u) :
    (engineAt (endJob t n k u) n).job = none ∧ (engineAt (endJob t n k u) n).queue = (engineAt s n).queue := by
  rw [engineAt_endJob]
  exact ⟨rfl, h.queue⟩

/-- A SIDESCAN that is stopped emits its lists, counts what it skipped, and ends (10 R309). -/
theorem stopScan_ends {j : Job} (hj : (engineAt s n).job = some j) (hrole : tileRole s (n / 4) = some r) :
    (engineAt (stopScan n s) n).job = none ∧ (engineAt (stopScan n s) n).queue = (engineAt s n).queue := by
  obtain ⟨k, lt, st, sg⟩ := r
  unfold stopScan
  split
  · next k _ _ sg _ _ =>
    extract_lets t total sh per size skipped u v
    have hemitted : SamePlan n s u := SamePlan.foldl (fun s c => SamePlan.foldl (fun s i => emitRecord_samePlan _ _ _ _ s) _ s) _ s
    have hcounted : SameWork u v := by
      unfold v
      split
      · exact .refl u
      · exact bump_sameWork u _ _ _
    exact endJob_of_samePlan t k (hemitted.trans hcounted.samePlan)
  · next hnone => exact (hnone _ _ _ _ _ hj hrole).elim

end cutoff

/-- At its cutoff a job ends, with the queue behind it untouched (10 R309, R311). -/
theorem exec_jobCutoff {s : State} {tile engine n : Nat} {j : Job} {r : Nat × Nat × Nat × Stage}
    (hn : 4 * tile + engine % 4 = n) (hj : (engineAt s n).job = some j) (hrole : tileRole s tile = some r) (hcut : leAt j.desc 36 4 ≠ 0) :
    ∃ t, exec (.jobCutoff tile engine) s = .next t ∧ (engineAt t n).job = none ∧
      (engineAt t n).queue = (engineAt s n).queue := by
  have htile : n / 4 = tile := by omega
  subst hn
  change ∃ t, execJobCutoff tile engine s = _ ∧ _
  obtain ⟨k, lt, st, sg⟩ := r
  simp only [execJobCutoff, hj, hrole, if_neg hcut]
  split
  · exact ⟨_, rfl, stopScan_ends hj (htile.symm ▸ hrole)⟩
  · exact ⟨_, rfl, endJob_of_samePlan tile k (SamePlan.foldl (fun u i => abandonItem_samePlan tile k i u) _ s)⟩

/-- Settles O28: what a unit reads, writes, counts and signals leaves the work of the units, so a pass is seen in its array alone; what an
item emits or sets aside leaves the plan of its job, so its end is the step to the next item, and the end of a job drops the job alone. -/
theorem arraysAndMere : Obligations.ArraysAndMere := by
  refine ⟨fun s tile array => ?_, fun s tile engine => ?_⟩
  · intro n a
    refine ⟨exec_passEnqueue s tile array, fun off d r k x st y hqueue hrole => ⟨fun hok => ?_, fun hok hexp => ?_⟩, rfl,
      advanceShadows_of_not_started s n, fun q w f hq hstarted hw hf => ?_⟩
    · exact exec_arrayPass_refused rfl hqueue hrole hok
    · exact exec_arrayPass_result rfl hqueue hrole hok hexp
    · rw [advanceShadows_of_agreed s n hq hstarted hw hf]
      refine ⟨?_, mem_bad_failColumn _ n f⟩
      rw [arrayAt_failColumn, arrayAt_modArray_same]
  · intro n e
    refine ⟨exec_mereJobEnqueue s tile engine, fun k lt st y hrole => ⟨?start, ?data, ?cutoff⟩⟩
    case start =>
      intro d r c op hqueue hidle hop hc
      obtain ⟨win, until_, hexec⟩ := exec_startJob rfl hqueue hrole hop hc
      subst hop
      refine ⟨fun hok => ?_, fun hok hitems => ?_⟩
      · rw [hexec, startJob_refused rfl hqueue hrole hidle win until_ hok]
      · obtain ⟨j, hj⟩ := startJob_taken rfl hqueue hrole hidle win until_ hok hitems
        exact ⟨_, j, hexec, hj⟩
    case data =>
      intro j ctx x m hj hx op
      have hexec := exec_contextDataReturn (m := m) rfl hj hrole hx
      refine ⟨fun hop => ?scan, fun hop hwait => ?refineWaits, fun hop hwait => ?gatherWaits, fun hends hleft => ?ended⟩
      case scan => rw [hexec, if_pos hop]
      case refineWaits =>
        have hend : itemEnd tile n k op x.item s = none := by rw [itemEnd, if_pos hop, hwait]
        rw [hexec, if_neg (by omega), hend]
        rfl
      case gatherWaits =>
        have hend : itemEnd tile n k op x.item s = none := by rw [itemEnd, if_neg (by omega), if_neg (by omega), hwait]
        rw [hexec, if_neg (by omega), hend]
        rfl
      case ended =>
        obtain ⟨u, hend⟩ := Option.isSome_iff_exists.mp (itemEnd_isSome hends)
        rw [hexec, if_neg (by omega), hend]
        obtain ⟨j', hnext⟩ := settleJob_nextItem (ctx := ctx) tile k (itemEnd_samePlan hend) hj hleft
        exact ⟨_, j', rfl, hnext⟩
    case cutoff =>
      exact fun j hj hcut => exec_jobCutoff rfl hj hrole hcut

end Sys2Proof.Machine

/-! What the cells, the counters and the accesses of tile SRAM leave: the units of the tiles, whole (03 R82; 15 R415). -/

namespace Sys2Proof.Machine

open Sys2Proof

section cellsUnits

variable {s t : State}

theorem Reports.units (h : Reports s t) : t.units = s.units := by obtain ⟨_, _, _, _, _, rfl⟩ := h; rfl

variable (s : State)

theorem modCell_units (n : Nat) (f : Cell → Cell) : (modCell n f s).units = s.units := rfl

theorem fireArm_units (n : Nat) : (fireArm n s).units = s.units := by
  unfold fireArm
  extract_lets c
  split
  · rfl
  · extract_lets up
    split
    · rfl
    · split
      · rw [(sendVector_reports _ _ _).units, modCell_units]
      · rw [modCell_units]

theorem traceSignal_units (n : Nat) : (traceSignal n s).units = s.units := by
  unfold traceSignal
  split
  · exact (trace_reports s _ _ _ _).units
  · rfl

theorem applySignal_units (n k : Nat) : (applySignal n k s).units = s.units := by
  unfold applySignal
  extract_lets c g sum lost u v w
  have hu : u.units = s.units := modCell_units s n _
  have hv : v.units = u.units := State.modCells_units u _
  have hw : Reports v w := by
    unfold w
    split
    · exact .refl v
    · exact bump_reports v _ _ _
  rw [fireArm_units, traceSignal_units, hw.units, hv, hu]

theorem applyTry_units (n : Nat) : (applyTry n s).2.units = s.units := by
  unfold applyTry
  split <;> rfl

theorem applyCell_units (n : Nat) (a : CellAct) : (applyCell n a s).units = s.units := by
  unfold applyCell
  cases a with
  | signal k => exact applySignal_units s n k
  | tryUnit => exact applyTry_units s n
  | tryHost port part => exact applyTry_units s n
  | tryCore core d => exact applyTry_units s n
  | wait chan => dsimp only; split <;> rfl
  | cancel chan => dsimp only; split <;> rfl
  | clear => rfl
  | arm port vec => exact fireArm_units _ n

theorem mirrorHeld_units : (mirrorHeld s).units = s.units := by
  unfold mirrorHeld
  split <;> rfl

theorem flushCells_units (fuel : Nat) : (flushCells fuel s).units = s.units := by
  induction fuel generalizing s with
  | zero => rfl
  | succ k ih =>
    have first_units (o : CellOp) (r : List CellOp) :
        (flushCells k (applyCell o.cell o.act (s.modCells fun c => { c with held := r }))).units = s.units := by
      rw [ih, applyCell_units]
      rfl
    unfold flushCells
    split
    · next o r hfuel _ =>
      cases hfuel
      split
      · rfl
      · split
        · exact first_units o r
        · split
          · split
            · exact first_units o r
            · rfl
          · rfl
    · rfl

theorem issueCell_units (n : Nat) (a : CellAct) : (issueCell n a s).units = s.units := by
  unfold issueCell
  split
  · exact applyCell_units s n a
  · unfold resumeCells
    extract_lets u
    rw [flushCells_units, mirrorHeld_units]
    rfl

@[simp] theorem raiseField_units (part field : Nat) : (raiseField part field s).units = s.units := by
  unfold raiseField
  split
  · exact issueCell_units s _ _
  · rfl

@[simp] theorem bump_units (idx sub n : Nat) : (bump idx sub n s).units = s.units := rfl

@[simp] theorem tileGet_units (own t a n : Nat) : (tileGet own t a n s).2.units = s.units := (tileGet_reports s own t a n).units

@[simp] theorem tilePut_units (own t a : Nat) (bs : Bytes) : (tilePut own t a bs s).units = s.units := by
  unfold tilePut
  split
  · rfl
  · exact (firewallHit_reports s _ _ _).units

end cellsUnits

end Sys2Proof.Machine

/-! The Sedge units: the queue, OPEN, the array port, the messages, and the end of a batch (11 R318, R322, R324, R326, R330 to R333). -/

namespace Sys2Proof.Machine

open Sys2Proof

section sedges

variable {s t : State} {n : Nat}

theorem sedgeAt_of_sedges (h : t.units.sedges = s.units.sedges) (n : Nat) : sedgeAt t n = sedgeAt s n := by
  unfold Machine.sedgeAt
  rw [h]

theorem sedgeAt_of_units (h : t.units = s.units) (n : Nat) : sedgeAt t n = sedgeAt s n :=
  sedgeAt_of_sedges (congrArg Units.sedges h) n

@[simp] theorem sedgeAt_modSedge_same (n : Nat) (f : SedgeUnit → SedgeUnit) (s : State) :
    sedgeAt (modSedge n f s) n = f (sedgeAt s n) := by
  simp [sedgeAt, modSedge]

/-- Two changes of a unit are one where they give the same of what it holds. -/
theorem modSedge_congr {f g : SedgeUnit → SedgeUnit} (h : f (sedgeAt s n) = g (sedgeAt s n)) : modSedge n f s = modSedge n g s := by
  unfold Machine.sedgeAt at h
  simp only [modSedge, State.modUnits, KMap.upd, h]

theorem modSedge_modSedge (n : Nat) (f g : SedgeUnit → SedgeUnit) (s : State) :
    modSedge n g (modSedge n f s) = modSedge n (fun u => g (f u)) s := by
  simp only [modSedge, State.modUnits, KMap.upd_upd]

/-- A descriptor joins a queue that holds fewer than 8 (11 R330). -/
theorem exec_sedgeEnqueue (s : State) (tile unit : Nat) (data : Bytes) :
    exec (.sedgeEnqueue tile unit data) s = .next (if (sedgeAt s (2 * tile + unit % 2)).queue.length < 8
      then modSedge (2 * tile + unit % 2) (fun g => { g with queue := g.queue ++ [slice data 0 64] }) s else s) := by
  change Host.Outcome.next ((enqueueSedge (2 * tile + unit % 2) (slice data 0 64) s).getD s) = _
  unfold enqueueSedge
  rw [putQueue_eq]
  split
  · exact congrArg Host.Outcome.next (modSedge_congr rfl)
  · rfl

@[simp] theorem sedgeAt_modOpen_same (n : Nat) (f : OpenBatch → OpenBatch) (s : State) :
    sedgeAt (modOpen n f s) n = { sedgeAt s n with batch := (sedgeAt s n).batch.map f } := sedgeAt_modSedge_same n _ s

/-- The batch of a unit changed where it is known. -/
theorem modOpen_of_batch {b : OpenBatch} (f : OpenBatch → OpenBatch) (h : (sedgeAt s n).batch = some b) :
    modOpen n f s = modSedge n (fun g => { g with batch := some (f b) }) s := by
  refine modSedge_congr ?_
  rw [h, Option.map_some]

end sedges

/-! OPEN. -/

/-- The batch of an OPEN, by the bytes that give each of its queries a sum mode (11 R318, R328). -/
def openedBatch (d modes : Bytes) : OpenBatch :=
  { desc := d, lists := (List.range (leAt d 4 2)).map (fun j => { lse := bit (leAt modes j 1) 0 }) }

theorem openedBatch_lists_length (d modes : Bytes) : (openedBatch d modes).lists.length = leAt d 4 2 := by
  rw [openedBatch, List.length_map, List.length_range]

theorem openedBatch_lists_empty (d modes : Bytes) : ∀ l ∈ (openedBatch d modes).lists, l.ents = [] ∧ l.flags = 0 := by
  intro l hl
  obtain ⟨j, -, rfl⟩ := List.mem_map.mp hl
  exact ⟨rfl, rfl⟩

section opening

variable {s : State} {tile unit n k x st : Nat} {y : Stage} {d : Bytes} {r : List Bytes}
  (hn : 2 * tile + unit % 2 = n) (hqueue : (sedgeAt s n).queue = d :: r)

include hqueue in
/-- A descriptor that is refused leaves the queue it heads, and is counted (11 R331). -/
theorem refuseSedge_of_head : refuseSedge n s = bump (sedgeObj n) 7 1 (modSedge n (fun g => { g with queue := r }) s) := by
  refine congrArg (bump (sedgeObj n) 7 1) (modSedge_congr ?_)
  rw [hqueue, List.drop_one, List.tail_cons]

variable (hrole : tileRole s tile = some (k, x, st, y)) (hopen : leAt d 0 1 ≠ 2) (hbatch : (sedgeAt s n).batch = none)

include hn hqueue hrole hopen hbatch

theorem exec_sedgeOpen_refused (hok : sedgeOk s k d = false) :
    exec (.sedgeOpen tile unit) s = .next (bump (sedgeObj n) 7 1 (modSedge n (fun g => { g with queue := r }) s)) := by
  rw [← refuseSedge_of_head hqueue]
  subst hn
  change execSedgeOpen tile unit s = _
  simp only [execSedgeOpen, hqueue, hrole, hopen, hbatch, hok]
  rfl

/-- An OPEN in order leaves the queue and opens its batch (11 R318, R330). -/
theorem exec_sedgeOpen_opened (hok : sedgeOk s k d = true) :
    exec (.sedgeOpen tile unit) s =
      .next (modSedge n (fun g => { g with queue := r, batch := some (openedBatch d (tileGet (k / 4) tile (leAt d 20 4) (leAt d 4 2) s).1) })
        (tileGet (k / 4) tile (leAt d 20 4) (leAt d 4 2) s).2) := by
  subst hn
  change execSedgeOpen tile unit s = _
  simp only [execSedgeOpen, hqueue, hrole, hopen, hbatch, hok]
  refine congrArg Host.Outcome.next (modSedge_congr ?_)
  rw [sedgeAt_of_units (tileGet_units s _ _ _ _), hqueue]
  rfl

end opening

/-! The array port. What entries change of a unit is the lists of its batch alone. -/

/-- A unit but for the lists of its batch. -/
def SedgeUnit.frame (g : SedgeUnit) : SedgeUnit := { g with batch := g.batch.map (fun b => { b with lists := [] }) }

/-- A unit with the frame of another that has a batch is that other with some lists. -/
theorem SedgeUnit.eq_of_frame_eq {g h : SedgeUnit} {b : OpenBatch} (hframe : h.frame = g.frame) (hb : g.batch = some b) :
    ∃ ls, h = { g with batch := some { b with lists := ls } } := by
  obtain ⟨queue, batch, port⟩ := h
  simp only [frame, hb, SedgeUnit.mk.injEq, Option.map_some] at hframe ⊢
  obtain ⟨rfl, hbatch, rfl⟩ := hframe
  obtain ⟨b', rfl, hb'⟩ := Option.map_eq_some_iff.mp hbatch
  obtain ⟨_, ls, _, _, _, _⟩ := b'
  cases hb'
  exact ⟨ls, rfl, rfl, rfl⟩

section port

variable {s : State} {tile unit n k x st : Nat} {y : Stage}

theorem giveEnt_frame (n k j : Nat) (e : Ent) (s : State) : (sedgeAt (giveEnt n k j e s) n).frame = (sedgeAt s n).frame := by
  unfold giveEnt
  split
  · rfl
  · next b hb =>
    extract_lets r u v
    have hunits : (bump (0x4000 + k) 0x1B r.2.clamp v).units = u.units := rfl
    rw [sedgeAt_of_units hunits, sedgeAt_modOpen_same]
    simp only [SedgeUnit.frame, Option.map_map]
    rfl

theorem captureScore_units (own t q item base score : Nat) (d : Bytes) (s : State) :
    (captureScore own t q item base score d s).units = s.units := by
  unfold captureScore
  extract_lets r i
  split
  · exact tileGet_units s _ _ _ _
  · rw [tilePut_units, tileGet_units]

theorem columnsVector_frame (t n k a v : Nat) (vec : List Nat) (b : OpenBatch) (s : State) :
    (sedgeAt (columnsVector t n k a v vec b s) n).frame = (sedgeAt s n).frame := by
  unfold columnsVector
  extract_lets d base first
  refine List.foldlRecOn (List.range 128) _ (motive := fun u => (sedgeAt u n).frame = (sedgeAt s n).frame) rfl fun u hu j _ => ?_
  extract_lets item sc w
  have hw : w.units = u.units := by
    unfold w
    split
    · exact captureScore_units _ _ _ _ _ _ _ u
    · rfl
  rw [giveEnt_frame, sedgeAt_of_units hw, hu]

theorem candidateVector_frame (t n k c : Nat) (vec : List Nat) (d : Bytes) (s : State) :
    (sedgeAt (candidateVector t n k c vec d s) n).frame = (sedgeAt s n).frame := by
  unfold candidateVector
  extract_lets per r
  rw [giveEnt_frame, sedgeAt_of_units (tileGet_units s _ _ _ _)]

/-- What a vector of the port gives an open batch: the entries of the batch's mode, or a dropped vector (11 R322). -/
def giveVector (t n k a : Nat) (vec : List Nat) (b : OpenBatch) (s : State) : State :=
  let mode := bits (leAt b.desc 1 1) 3 2
  let nq := leAt b.desc 4 2
  let v := nth b.vecs a 0
  let c := v + if a = 1 then leAt b.desc 40 4 else 0
  if mode = 1 then if v < nq then columnsVector t n k a v vec b s else bump (sedgeObj n) 4 1 s
  else if mode = 2 then if c / max 1 (leAt b.desc 38 2) < nq then candidateVector t n k c vec b.desc s else bump (sedgeObj n) 4 1 s
  else bump (sedgeObj n) 4 1 s

theorem giveVector_frame (t n k a : Nat) (vec : List Nat) (b : OpenBatch) (s : State) :
    (sedgeAt (giveVector t n k a vec b s) n).frame = (sedgeAt s n).frame := by
  have hdrop : (sedgeAt (bump (sedgeObj n) 4 1 s) n).frame = (sedgeAt s n).frame := rfl
  unfold giveVector
  extract_lets mode nq v c
  split
  · split
    · exact columnsVector_frame _ _ _ _ _ _ _ s
    · exact hdrop
  · split
    · split
      · exact candidateVector_frame _ _ _ _ _ _ s
      · exact hdrop
    · exact hdrop

/-- A batch with a vector of an array counted on from what the batch held before the vector's entries (11 R322). -/
def OpenBatch.countVector (b' b : OpenBatch) (a : Nat) (last : Bool) : OpenBatch :=
  { b' with vecs := setAt b'.vecs a (if bits (leAt b.desc 1 1) 3 2 = 1 && last then 0 else nth b.vecs a 0 + 1),
            chains := setAt b'.chains a (nth b'.chains a 0 + b2n last) }

variable {a : Nat} {last : Bool} {vec : List Nat} {r : List (Nat × Bool × List Nat)}
  (hn : 2 * tile + unit % 2 = n) (hport : (sedgeAt s n).port = (a, last, vec) :: r) (hrole : tileRole s tile = some (k, x, st, y))

include hn hport hrole

theorem exec_arrayPortVector_dropped (hbatch : (sedgeAt s n).batch = none) :
    exec (.arrayPortVector tile unit) s = .next (bump (sedgeObj n) 4 1 (modSedge n (fun g => { g with port := r }) s)) := by
  subst hn
  change execArrayPortVector tile unit s = _
  simp only [execArrayPortVector, hport, hrole, hbatch]

theorem exec_arrayPortVector_of_batch {b : OpenBatch} (hbatch : (sedgeAt s n).batch = some b) :
    exec (.arrayPortVector tile unit) s =
      .next (modOpen n (·.countVector b a last) (giveVector tile n k a vec b (modSedge n (fun g => { g with port := r }) s))) := by
  subst hn
  change execArrayPortVector tile unit s = _
  simp only [execArrayPortVector, hport, hrole, hbatch]
  rfl

/-- The entries of a vector change lists alone, so its array is counted on from what the batch held (11 R322). -/
theorem exec_arrayPortVector_counted {b : OpenBatch} (hbatch : (sedgeAt s n).batch = some b) :
    ∃ t b', exec (.arrayPortVector tile unit) s = .next t ∧ (sedgeAt t n).port = r ∧ (sedgeAt t n).batch = some b' ∧ b'.desc = b.desc ∧
      b'.vecs = setAt b.vecs a (if bits (leAt b.desc 1 1) 3 2 = 1 && last then 0 else nth b.vecs a 0 + 1) := by
  have hframe := giveVector_frame tile n k a vec b (modSedge n (fun g => { g with port := r }) s)
  rw [sedgeAt_modSedge_same] at hframe
  obtain ⟨ls, hunit⟩ := SedgeUnit.eq_of_frame_eq hframe hbatch
  refine ⟨_, ({ b with lists := ls } : OpenBatch).countVector b a last, exec_arrayPortVector_of_batch hn hport hrole hbatch,
    ?_, ?_, rfl, rfl⟩
  · rw [sedgeAt_modOpen_same, hunit]
  · rw [sedgeAt_modOpen_same, hunit]
    rfl

end port

/-! The messages. -/

section messages

variable {s : State} {tile unit n k x st : Nat} {y : Stage}

/-- A message without an open batch, or malformed for it, is dropped and counted (11 R326). -/
theorem mergeMessage_dropped {slot header : Nat} {data : Bytes}
    (h : (sedgeAt s n).batch = none ∨ ∃ b, (sedgeAt s n).batch = some b ∧ messageOk b slot header data = false) :
    mergeMessage n k slot header data s = bump (sedgeObj n) 4 1 s := by
  obtain hnone | ⟨b, hb, hbad⟩ := h
  · simp only [mergeMessage, hnone]
  · simp only [mergeMessage, hb, hbad]
    rfl

variable (slot header : Nat) (data : Bytes) (hn : 2 * tile + unit % 2 = n) (hrole : tileRole s tile = some (k, x, st, y))

include hn hrole

/-- The first message of a Carr core to the unit leaves its way and is merged (11 R324; 09 R285). -/
theorem exec_collectorMessage_carr {m : CoreMsg} (hfirst : s.carr.msgs.find? (fun m => bits m.target 31 25 = n) = some m)
    (hgen : m.gen = KMap.getD s.carr.gens m.pc 0) (howner : m.owner = k / 4) :
    exec (.collectorMessage tile unit 0 slot header data false) s =
      .next (mergeMessage n k (m.target % 65536) (m.header % 2 ^ 18 + 2 ^ 24 * bits m.header 31 24) m.data (raiseTo (sedgeObj n) 5 1
        (s.modCarr fun c => { c with msgs := dropFirst (fun m => bits m.target 31 25 = n) c.msgs }))) := by
  subst hn
  change execCollectorMessage tile unit 0 slot header data false s = _
  simp [execCollectorMessage, hrole, hfirst, hgen, howner]

/-- The first message of an engine or a unit to the unit leaves its way and is merged (11 R324). -/
theorem exec_collectorMessage_unit {m : SedgeMsg} (hfirst : s.units.msgs.find? (fun m => bits m.target 31 25 = n) = some m)
    (howner : m.owner = k / 4) :
    exec (.collectorMessage tile unit 1 slot header data false) s =
      .next (mergeMessage n k (m.target % 65536) m.header m.data (raiseTo (sedgeObj n) 5 1
        (s.modUnits fun u => { u with msgs := dropFirst (fun m => bits m.target 31 25 = n) u.msgs }))) := by
  subst hn
  change execCollectorMessage tile unit 1 slot header data false s = _
  simp [execCollectorMessage, hrole, hfirst, howner]

theorem exec_collectorMessage_exchange : exec (.collectorMessage tile unit 2 slot header data false) s =
    .next (mergeMessage n k (slot % 65536) header (slice data 0 64) (raiseTo (sedgeObj n) 5 1 s)) := by
  subst hn
  change execCollectorMessage tile unit 2 slot header data false s = _
  simp [execCollectorMessage, hrole]

end messages

/-! The end of a batch. -/

section finish

/-- The outputs of a batch leave the units, and its end leaves of its unit all but the batch (11 R332). -/
theorem sedgeAt_writeLists (tile n k st : Nat) (b : OpenBatch) (fin : Bytes) (s : State) :
    sedgeAt (writeLists tile n k st b fin s) n = { sedgeAt s n with batch := none } := by
  unfold writeLists
  extract_lets d own out kk q0 ids query u
  have hu : u.units.sedges = s.units.sedges := by
    refine List.foldlRecOn (List.range b.lists.length) _ (motive := fun v : State => v.units.sedges = s.units.sedges) rfl
      fun v hv j _ => ?_
    extract_lets l w z es empty r
    have hz : z.units = v.units := by
      unfold z
      split
      · rfl
      · split <;> rfl
    rw [← hv, ← hz]
    split
    · rw [tilePut_units]
    · split
      · rfl
      · rw [bump_units, tilePut_units]
  rw [sedgeAt_of_units (raiseField_units _ _ _), sedgeAt_modSedge_same, sedgeAt_of_sedges hu]

variable {s : State} {tile unit n k x st : Nat} {y : Stage} {b : OpenBatch}
  (hn : 2 * tile + unit % 2 = n) (hrole : tileRole s tile = some (k, x, st, y)) (hbatch : (sedgeAt s n).batch = some b)

include hn hrole hbatch

/-- At the key cutoff a closed batch writes its outputs and ends (11 R333). -/
theorem exec_keyCutoff_closed {c : Nat × Bytes} (hclosed : b.closed = some c) :
    exec (.keyCutoff tile unit) s = .next (writeLists tile n k st b c.2 s) := by
  subst hn
  change execKeyCutoff tile unit s = _
  simp only [execKeyCutoff, hrole, hbatch, hclosed]

variable {d : Bytes} {r : List Bytes} (hopen : b.closed = none) (hqueue : (sedgeAt s n).queue = d :: r) (hfinish : leAt d 0 1 = 2)
  (hok : sedgeOk s k d = true) (hport : (sedgeAt s n).port = [])

include hopen hqueue hfinish hok hport

/-- A FINISH in order with an empty port closes the lists while a key read waits (11 R333). -/
theorem exec_finish_closes (hkeys : keysWait (modSedge n (fun g => { g with queue := r }) s) (k / 4) b = true) :
    exec (.finish tile unit) s =
      .next (modSedge n (fun g => { g with queue := r, batch := some { b with closed := some (s.clock.now, d) } }) s) := by
  subst hn
  have hkept : (sedgeAt (modSedge (2 * tile + unit % 2) (fun g => { g with queue := r }) s) (2 * tile + unit % 2)).batch = some b := by
    rw [sedgeAt_modSedge_same, hbatch]
  change execFinish tile unit s = _
  simp only [execFinish, hrole, hbatch, hopen, hqueue, hfinish, hok, hport, hkeys, modOpen_of_batch _ hkept, modSedge_modSedge]
  rfl

/-- A FINISH in order with an empty port ends the batch where no key read waits (11 R332). -/
theorem exec_finish_ends (hkeys : keysWait (modSedge n (fun g => { g with queue := r }) s) (k / 4) b = false) :
    exec (.finish tile unit) s = .next (writeLists tile n k st b d (modSedge n (fun g => { g with queue := r }) s)) := by
  subst hn
  change execFinish tile unit s = _
  simp only [execFinish, hrole, hbatch, hopen, hqueue, hfinish, hok, hport, hkeys]
  rfl

end finish

/-- Settles O29: what the units read, count, signal and write outside their lists leaves the units, and the entries offered to a batch change
its lists alone; so each command is seen in the queue, the port and the batch that it names. -/
theorem sedgeUnits : Obligations.SedgeUnits := by
  intro s tile unit n g
  refine ⟨exec_sedgeEnqueue s tile unit, fun k x st y hrole => ⟨?opening, ?port, ?messages, ?finish, ?cutoff⟩⟩
  case opening =>
    intro d r hqueue hopen hbatch
    refine ⟨fun hok => ?_, exec_sedgeOpen_refused rfl hqueue hrole hopen hbatch⟩
    refine ⟨_, openedBatch d (tileGet (k / 4) tile (leAt d 20 4) (leAt d 4 2) s).1,
      exec_sedgeOpen_opened rfl hqueue hrole hopen hbatch hok, ?_, rfl, openedBatch_lists_length _ _, openedBatch_lists_empty _ _, rfl,
      (tileGet_reports s _ _ _ _).mem⟩
    rw [sedgeAt_modSedge_same, sedgeAt_of_units (tileGet_units s _ _ _ _)]
  case port =>
    intro a last vec r hport
    exact ⟨exec_arrayPortVector_dropped rfl hport hrole, fun b hbatch => exec_arrayPortVector_counted rfl hport hrole hbatch⟩
  case messages =>
    intro slot header data here
    exact ⟨fun m hfirst => exec_collectorMessage_carr slot header data rfl hrole hfirst,
      fun m hfirst => exec_collectorMessage_unit slot header data rfl hrole hfirst,
      exec_collectorMessage_exchange slot header data rfl hrole, mergeMessage_dropped⟩
  case finish =>
    intro b d r hbatch hopen hqueue hfinish hok hport u
    refine ⟨fun hkeys => ⟨_, exec_finish_ends rfl hrole hbatch hopen hqueue hfinish hok hport hkeys, ?_⟩,
      exec_finish_closes rfl hrole hbatch hopen hqueue hfinish hok hport⟩
    rw [sedgeAt_writeLists, sedgeAt_modSedge_same]
    exact ⟨rfl, rfl⟩
  case cutoff =>
    intro b c hbatch hclosed
    refine ⟨_, exec_keyCutoff_closed rfl hrole hbatch hclosed, ?_⟩
    rw [sedgeAt_writeLists]
    exact ⟨rfl, rfl⟩

end Sys2Proof.Machine

/-! The Sluice channels apart from their instructions: a halt, a park that ends, redirects, disabling and enabling, and the replays
(12 R355; 13 R368, R378 to R380, R382; 15 R422, R423). -/

namespace Sys2Proof.Machine

open Sys2Proof

section channels

variable {s t : State} {c c' : Nat}

theorem chanAt_of_units (h : t.units = s.units) (c : Nat) : chanAt t c = chanAt s c := by
  unfold Machine.chanAt
  rw [h]

theorem arrayAt_of_units (h : t.units = s.units) (n : Nat) : arrayAt t n = arrayAt s n := by
  unfold Machine.arrayAt
  rw [h]

@[simp] theorem chanAt_modChan_same (c : Nat) (f : Chan → Chan) (s : State) : chanAt (modChan c f s) c = f (chanAt s c) := by
  simp [chanAt, modChan]

theorem chanAt_modChan_other (f : Chan → Chan) (s : State) (h : c' ≠ c) : chanAt (modChan c f s) c' = chanAt s c' :=
  KMap.getD_upd_other s.units.chans _ _ f h

/-- The reports that follow a change of a channel leave the channel as changed. -/
theorem chanAt_of_modChan_reports {f : Chan → Chan} (h : Reports (modChan c f s) t) : chanAt t c = f (chanAt s c) := by
  rw [chanAt_of_units h.units, chanAt_modChan_same]

end channels

/-! A halt: whatever work is lost and whatever signals are raised for it, the halted channel is the only unit that changes. -/

section halt

variable (s : State)

/-- A channel halted with an error at a word; BUS and FAILED record the address (13 R378). -/
def Chan.halted (code word addr : Nat) (ch : Chan) : Chan :=
  { ch with state := 3, error := code, word := word, errAddr := if code = 3 || code = 4 then addr else ch.errAddr,
            redirect := none, seg := none, signal := false }

@[simp] theorem lostWork_units (p sl stage cause source : Nat) (ids : List Nat) :
    (lostWork p sl stage cause source ids s).units = s.units :=
  (annal_reports (flagQueries ids (lostFlag (stageKind s p sl stage)) s) _ _ _ _ _).units

theorem signalCells_units (p : Nat) (ns : List Nat) : (ns.foldl (fun s n => signalCell p n s) s).units = s.units :=
  List.foldlRecOn (motive := fun u => u.units = s.units) ns _ rfl (fun u h n _ => (issueCell_units u (cellNo p n) (.signal 1)).trans h)

theorem haltChan_units (c code word addr : Nat) :
    (haltChan c code word addr s).units = (modChan c (Chan.halted code word addr) s).units := by
  unfold haltChan
  extract_lets ch s₁ s₂
  have hcounted : s₂.units = s₁.units := by
    unfold s₂
    split <;> rfl
  split
  · exact ((annal_reports s₂ _ _ _ _ _).units).trans hcounted
  · dsimp only
    split
    · rw [(settle_reports _).units, signalCells_units, lostWork_units, bump_units]
      exact hcounted
    · exact hcounted

@[simp] theorem chanAt_haltChan_same (c code word addr : Nat) :
    chanAt (haltChan c code word addr s) c = (chanAt s c).halted code word addr := by
  rw [chanAt_of_units (haltChan_units s c code word addr), chanAt_modChan_same]

@[simp] theorem arrayAt_haltChan (c code word addr n : Nat) : arrayAt (haltChan c code word addr s) n = arrayAt s n :=
  arrayAt_of_units (haltChan_units s c code word addr) n

@[simp] theorem laneAt_haltChan (c code word addr : Nat) : (haltChan c code word addr s).units.laneAt = s.units.laneAt := by
  rw [haltChan_units]
  rfl

end halt

/-! A parked WAIT (13 R368; 15 R422, R423). -/

section park

variable {s : State} {block chan c : Nat} (hc : 16 * block + chan % 16 = c)

include hc

theorem exec_parkGrant_granted (hparked : (chanAt s c).state = 2) (hgrant : (c, (chanAt s c).cell) ∈ s.cells.granted) :
    exec (.parkGrant block chan) s =
      .next (modChan c (fun ch => { ch.goTo (ch.word + 1) with state := 1 }) (takeGrant c (chanAt s c).cell s)) := by
  subst hc
  change execParkGrant block chan s = _
  simp [execParkGrant, hparked, hgrant]

/-- A wait without a timeout, or granted, does not time out. -/
theorem exec_waitTimeout_idle (h : (chanAt s c).timeout = 0 ∨ (c, (chanAt s c).cell) ∈ s.cells.granted) :
    exec (.waitTimeout block chan) s = .next s := by
  subst hc
  change execWaitTimeout block chan s = _
  obtain hnone | hgrant := h
  · simp [execWaitTimeout, hnone]
  · simp [execWaitTimeout, hgrant]

/-- A timeout whose cancel takes the park halts the channel; the state it halts in differs in the cells and the counters. -/
theorem exec_waitTimeout_cancelled (hparked : (chanAt s c).state = 2) (htime : (chanAt s c).timeout ≠ 0)
    (hgrant : (c, (chanAt s c).cell) ∉ s.cells.granted)
    (hcancel : (c, (chanAt s c).cell) ∈ (issueCell (chanAt s c).cell (.cancel c) s).cells.cancelled) :
    ∃ u, exec (.waitTimeout block chan) s = .next (haltChan c 7 (chanAt s c).word 0 u) := by
  subst hc
  change ∃ u, execWaitTimeout block chan s = _
  simp only [execWaitTimeout, hparked, htime, List.contains_iff_mem, hgrant, hcancel]
  exact ⟨_, rfl⟩

end park

/-! Redirects (13 R380). -/

section redirect

variable {s : State} {c w : Nat}

theorem redirectChan_dropped (h : (chanAt s c).state = 3 ∨ (chanAt s c).state = 4 ∨ chanLength c (chanAt s c) ≤ w) :
    redirectChan c w s = bump (sluiceObj c) 0x22 1 s := by
  simp [redirectChan, or_assoc, h]

theorem redirectChan_idle (hw : w < chanLength c (chanAt s c)) (hidle : (chanAt s c).state = 0) :
    redirectChan c w s = takeRedirect c w s := by
  simp [redirectChan, hidle, Nat.not_le.mpr hw]

/-- A running channel keeps the redirect for its unit boundary; one that waited before is dropped and counted. -/
theorem redirectChan_running (hw : w < chanLength c (chanAt s c)) (hruns : (chanAt s c).state = 1) :
    redirectChan c w s = modChan c (fun ch => { ch with redirect := some w })
      (if (chanAt s c).redirect.isSome then bump (sluiceObj c) 0x22 1 s else s) := by
  simp [redirectChan, hruns, Nat.not_le.mpr hw]

theorem chanAt_takeRedirect_same :
    chanAt (takeRedirect c w s) c = { (chanAt s c).goTo w with loops := [], redirect := none, state := 1 } :=
  chanAt_of_modChan_reports (bump_reports _ _ _ _)

theorem chanAt_redirectChan_running (hw : w < chanLength c (chanAt s c)) (hruns : (chanAt s c).state = 1) :
    chanAt (redirectChan c w s) c = { chanAt s c with redirect := some w } := by
  rw [redirectChan_running hw hruns, chanAt_modChan_same]
  split <;> rfl

end redirect

/-! Disabling and enabling (13 R379). -/

section disable

variable {s : State} {c : Nat}

/-- A channel disabled, with its units-done and retries fields from a free value. (log 90, DESIGN CHOICE.) -/
def Chan.disabled (v : Nat) (ch : Chan) : Chan :=
  { ch with state := 4, flight := [], loops := [], seg := none, redirect := none, signal := false, replay := false,
            issued := 0, done := v % 2 ^ 20, retries := v / 2 ^ 20 }

/-- Once its park is dropped and its writes in flight have landed or not, the channel itself is disabled. -/
theorem disableChan_of_not_disabled (h : (chanAt s c).state ≠ 4) :
    ∃ u, disableChan c s = drawn (modChan c (Chan.disabled (freeVal u 24)) u) := by
  rw [disableChan, if_neg h]
  exact ⟨_, rfl⟩

theorem disableChan_of_disabled (h : (chanAt s c).state = 4) : disableChan c s = s := if_pos h

theorem enableChan_of_disabled (h : (chanAt s c).state = 4) :
    enableChan c s = modChan c (fun ch => { ch with state := 0, error := 0 }) s := if_pos h

theorem enableChan_of_not_disabled (h : (chanAt s c).state ≠ 4) : enableChan c s = s := if_neg h

end disable

/-! The replay of a chain at use (13 R382). -/

section atUse

variable {s t : State} {block chan c a : Nat}

theorem replayTile_of_mem (h : t.mem = s.mem) : replayTile t = replayTile s := by
  funext tile e
  unfold replayTile sramBytes
  rw [h]

/-- The state with the detected error of an array taken up by its channel's lane pair, and the replay counted. -/
def replayTaken (c n : Nat) (s : State) : State := bump (sluiceObj c) 0x23 1 (modArray n (fun u => { u with replay := none }) s)

theorem arrayAt_replayTaken (c n : Nat) (s : State) : arrayAt (replayTaken c n s) n = { arrayAt s n with replay := none } :=
  arrayAt_modArray_same s n _

/-- The tiles sent since the start of the chain, read again (13 R382). -/
def replayedTiles (s : State) (block : Nat) (u : ArrayUnit) : List Bytes :=
  (u.log.drop (u.log.length - (u.sent - u.replay.getD 0))).map (replayTile s block)

theorem exec_atUseReplay (hc : 16 * block + chan % 16 = c) (ok : Bool)
    (hhit : (List.range 2).find? (fun a => (arrayAt s (2 * block + a)).replay.isSome &&
      ((arrayAt s (2 * block + a)).log.getLast?.map (·.chan)) = some c) = some a) :
    exec (.atUseReplay block chan ok) s = .next (if ok
      then modArray (2 * block + a) (fun u => { u with shadow := replayedTiles s block (arrayAt s (2 * block + a)) })
        (replayTaken c (2 * block + a) s)
      else haltChan c 9 (chanAt s c).word 0 (replayTaken c (2 * block + a) s)) := by
  subst hc
  change execAtUseReplay block chan ok s = _
  have hmem : (replayTaken (16 * block + chan % 16) (2 * block + a) s).mem = s.mem := rfl
  simp only [execAtUseReplay, hhit]
  cases ok
  · rfl
  · rw [replayedTiles, ← replayTile_of_mem hmem]
    rfl

end atUse

/-! The replay of a segment at load (12 R355; 13 R382; 19 R532). -/

section atLoad

variable {s : State} {block chan c : Nat}

/-- The state with a lane error of a block dated and counted. -/
def laneErred (block : Nat) (s : State) : State :=
  bump (0xA500 + block) 0x03 1 (s.modUnits (fun u => { u with laneAt := KMap.put u.laneAt block s.clock.now }))

/-- The state with a lane error dated, marked against its stage and slot, and traced. -/
def laneTraced (block k st : Nat) (s : State) : State :=
  let e := markError k st (laneErred block s)
  traceCheck (k / 4) (srcTile block) 2 0 (b2n (!e.1)) e.2

/-- A channel whose segment starts again at unit 0: the units of its present run are dropped (13 R382). -/
def Chan.restarted (ch : Chan) : Chan :=
  { ch with issued := 0, done := 0, inst := ch.inst + 1, flight := ch.flight.filter (fun u => u.inst != ch.inst) }

theorem laneTraced_units (block k st : Nat) (s : State) :
    (laneTraced block k st s).units = (markError k st (laneErred block s)).2.units := (trace_reports _ _ _ _ _).units

theorem chanAt_laneTraced (block k st : Nat) (s : State) (c : Nat) : chanAt (laneTraced block k st s) c = chanAt s c :=
  chanAt_of_units (laneTraced_units block k st s) c

theorem find_laneAt_laneTraced (block k st : Nat) (s : State) :
    KMap.find (laneTraced block k st s).units.laneAt block = some s.clock.now := by
  rw [laneTraced_units]
  exact KMap.find_put_same _ _ _

/-- An error mark of a stage and slot was there before exactly where it was there before the lane error. -/
theorem markError_laneErred (block k st : Nat) (s : State) :
    (markError k st (laneErred block s)).1 = (markError k st (bump (0xA500 + block) 0x03 1 s)).1 := rfl

/-- A lane error of a segment at load, the first of its block within 1 s: the first of the stage and slot restarts the segment, a later
one halts the channel. -/
theorem exec_segmentReplay_at_load (hc : 16 * block + chan % 16 = c) {g : Seg} {k st : Nat} (hseg : (chanAt s c).seg = some g)
    (hmovex : g.movex = true) (hload : (peatW g.fmt && bit g.flags 1) = false) (hslot : chanSlot s c = some (k, st))
    (hlane : ∀ t₀, KMap.find s.units.laneAt block = some t₀ → t₀ + 1000000000 ≤ s.clock.now) :
    exec (.segmentReplay block chan) s = .next (if (markError k st (laneErred block s)).1
      then haltChan c 9 (chanAt s c).word 0 (laneTraced block k st s)
      else bump (sluiceObj c) 0x23 1 (modChan c Chan.restarted (laneTraced block k st s))) := by
  subst hc
  change execSegmentReplay block chan s = _
  unfold execSegmentReplay
  extract_lets c ch now again dated erred judged
  have hagain : again = false := by
    unfold again
    split
    · next t₀ hfind => exact decide_eq_false (Nat.not_lt.mpr (hlane t₀ hfind))
    · rfl
  have herred : chanSlot erred c = some (k, st) := hslot
  simp only [show ch.seg = some g from hseg, hmovex, hload, hagain, judged, herred]
  rfl

end atLoad

/-- Settles O32: a halt changes no unit but its channel, so a timeout and a failed replay are seen in the channel halted; what a redirect, a
disable or an enable does besides leaves the channel as they set it; and a lane error is dated, marked and traced before the channel moves. -/
theorem sluiceEvents : Obligations.SluiceEvents := by
  intro s block chan w c ch
  refine ⟨?grant, ?timeout, exec_waitTimeout_idle rfl, ?dropped, ?idle, ?running, ?disable, ?disabled, ?enable, ?atUse, ?atLoad⟩
  case grant =>
    exact fun hparked hgrant => ⟨_, exec_parkGrant_granted rfl hparked hgrant, chanAt_modChan_same _ _ _, rfl⟩
  case timeout =>
    intro hparked htime hgrant hcancel
    obtain ⟨u, hexec⟩ := exec_waitTimeout_cancelled rfl hparked htime hgrant hcancel
    refine ⟨_, hexec, ?_⟩
    rw [chanAt_haltChan_same]
    exact ⟨rfl, rfl, rfl⟩
  case dropped => exact fun h => congrArg Host.Outcome.next (redirectChan_dropped h)
  case idle =>
    intro hw hidle
    exact ⟨_, congrArg Host.Outcome.next (redirectChan_idle hw hidle), chanAt_takeRedirect_same⟩
  case running => exact fun hw hruns => ⟨_, rfl, chanAt_redirectChan_running hw hruns⟩
  case disable =>
    intro hon
    obtain ⟨u, hdisabled⟩ := disableChan_of_not_disabled hon
    have hchan : chanAt (drawn (modChan c (Chan.disabled (freeVal u 24)) u)) c = (chanAt u c).disabled (freeVal u 24) :=
      chanAt_modChan_same _ _ _
    refine ⟨_, congrArg Host.Outcome.next hdisabled, ?_⟩
    rw [hchan]
    exact ⟨rfl, rfl, rfl, rfl, rfl⟩
  case disabled =>
    intro hoff
    exact ⟨congrArg Host.Outcome.next (disableChan_of_disabled hoff), _, congrArg Host.Outcome.next (enableChan_of_disabled hoff),
      chanAt_modChan_same _ _ _, rfl, fun c' hother => chanAt_modChan_other _ _ hother⟩
  case enable => exact fun hon => congrArg Host.Outcome.next (enableChan_of_not_disabled hon)
  case atUse =>
    intro ok a hhit u
    refine ⟨_, exec_atUseReplay rfl ok hhit, ?_⟩
    cases ok with
    | true =>
      rw [if_pos rfl, arrayAt_modArray_same, arrayAt_replayTaken]
      exact ⟨rfl, fun _ => ⟨rfl, rfl⟩, nofun⟩
    | false =>
      rw [if_neg Bool.false_ne_true, arrayAt_haltChan, chanAt_haltChan_same, arrayAt_replayTaken]
      exact ⟨rfl, nofun, fun _ => ⟨rfl, rfl⟩⟩
  case atLoad =>
    intro g k st hseg hmovex hload hslot hlane
    refine ⟨_, exec_segmentReplay_at_load rfl hseg hmovex hload hslot hlane, ?_⟩
    rw [← markError_laneErred]
    split
    · rw [laneAt_haltChan, chanAt_haltChan_same]
      exact ⟨find_laneAt_laneTraced block k st s, rfl, rfl⟩
    · have hchan : chanAt (bump (sluiceObj c) 0x23 1 (modChan c Chan.restarted (laneTraced block k st s))) c = ch.restarted := by
        rw [chanAt_of_modChan_reports (bump_reports _ _ _ _), chanAt_laneTraced]
      rw [hchan]
      exact ⟨find_laneAt_laneTraced block k st s, rfl, hseg, fun u hu => by simpa using (List.mem_filter.mp hu).2⟩

end Sys2Proof.Machine

/-! The instructions of a Sluice channel: what one step of a running channel takes, and what each control instruction leaves
(13 R366, R368, R369, R378, R380). -/

namespace Sys2Proof.Machine

open Sys2Proof

section step

variable {s : State} {c : Nat} {i : SInstr}

/-- At an instruction with no replay or redirect before it, the step runs the instruction (13 R366). -/
theorem sluiceStep_of_atInstr (h : AtInstr s c i) (hi : i ≠ .bad) (f : Chan → SInstr → State → State) :
    sluiceStep c f s = f (chanAt s c) i s := by
  obtain ⟨hruns, hreplay, hredirect, rfl⟩ := h
  unfold sluiceStep
  simp only [hruns, hreplay, bne_self_eq_false, Bool.or_self, Bool.false_eq_true, if_false]
  split
  · next w hw hsignal => simp [hw, hsignal] at hredirect
  · rfl

/-- A bad word halts the channel, whichever instruction is asked for (13 R366, R378). -/
theorem sluiceStep_of_bad (h : AtInstr s c .bad) (f : Chan → SInstr → State → State) :
    sluiceStep c f s = haltChan c 0xA (chanAt s c).word 0 s := by
  obtain ⟨hruns, hreplay, hredirect, hword⟩ := h
  unfold sluiceStep
  simp only [hruns, hreplay, hword, bne_self_eq_false, Bool.or_self, Bool.false_eq_true, if_false]
  split
  · next w hw hsignal => simp [hw, hsignal] at hredirect
  · rfl

/-- A waiting redirect is taken in place of the word (13 R380). -/
theorem sluiceStep_of_redirect {w : Nat} (hruns : (chanAt s c).state = 1) (hreplay : replayWaits s c = false)
    (hredirect : (chanAt s c).redirect = some w) (hsignal : (chanAt s c).signal = false) (f : Chan → SInstr → State → State) :
    sluiceStep c f s = takeRedirect c w s := by
  simp [sluiceStep, hruns, hreplay, hredirect, hsignal]

/-- Each Sluice instruction is a step of its channel. -/
theorem exec_sluice_eq_step {block chan n : Nat} {j : Instr}
    (hj : j ∈ [Instr.sluiceMove block chan n, .sluiceMovex block chan n, .sluiceLoop block chan, .sluiceEndl block chan,
      .sluiceWait block chan, .sluiceSignal block chan, .sluiceJump block chan, .sluiceNop block chan, .sluiceHalt block chan]) :
    ∃ f, exec j s = .next (sluiceStep (16 * block + chan % 16) f s) := by
  simp only [List.mem_cons, List.not_mem_nil, or_false] at hj
  obtain rfl | rfl | rfl | rfl | rfl | rfl | rfl | rfl | rfl := hj <;> exact ⟨_, rfl⟩

end step

/-! A halt that loses no work. -/

section halts

variable (s : State) (c : Nat)

/-- But for BUS, FAILED and REPLAY, what follows a halt only reports it (13 R378; 19 R537). -/
theorem haltChan_reports {code : Nat} (hcode : code ≠ 3 ∧ code ≠ 4 ∧ code ≠ 9) (word addr : Nat) :
    Reports (modChan c (Chan.halted code word addr) s) (haltChan c code word addr s) := by
  obtain ⟨hbus, hfailed, hreplay⟩ := hcode
  unfold haltChan
  extract_lets ch s₁ s₂
  have hcounted : Reports s₁ s₂ := by
    unfold s₂
    split
    · exact bump_reports s₁ _ _ _
    · exact .refl s₁
  split
  · exact hcounted.trans (annal_reports s₂ _ _ _ _ _)
  · simp only [hbus, hfailed, hreplay, decide_false, Bool.or_self, Bool.false_eq_true, if_false]
    exact hcounted.trans (bump_reports s₂ _ _ _)

theorem haltChan_halted {code : Nat} (hcode : code ≠ 3 ∧ code ≠ 4 ∧ code ≠ 9) (word addr : Nat) :
    Halted s c code word (.next (haltChan c code word addr s)) := by
  have hreports := haltChan_reports s c hcode word addr
  refine ⟨_, rfl, ?_, ?_, ?_, hreports.mem, fun c' hother => ?_⟩
  · rw [chanAt_haltChan_same]; rfl
  · rw [chanAt_haltChan_same]; rfl
  · rw [chanAt_haltChan_same]; rfl
  · rw [chanAt_of_units hreports.units, chanAt_modChan_other _ _ hother]

end halts

/-! The control instructions, one by one (13 R366, R368, R369). -/

/-- A channel after ENDL at its innermost loop: past it at the loop's last turn, else at the loop's body for the next turn (13 R366). -/
def Chan.loopEnded (b r i : Nat) (q : List (Nat × Nat × Nat)) (ch : Chan) : Chan :=
  if r ≤ 1 then { ch.goTo (ch.word + 1) with loops := q } else { ch.goTo b with loops := (b, r - 1, i + 1) :: q }

section control

variable {s : State} {block chan c n : Nat} (hc : 16 * block + chan % 16 = c)

include hc

theorem exec_sluiceLoop (h : AtInstr s c (.loop n)) :
    exec (.sluiceLoop block chan) s = .next (if 4 ≤ (chanAt s c).loops.length then haltChan c 6 (chanAt s c).word 0 s
      else modChan c (fun ch => { ch.goTo (ch.word + 1) with loops := (ch.word + 1, n, 0) :: ch.loops }) s) := by
  subst hc
  exact congrArg Host.Outcome.next (sluiceStep_of_atInstr h nofun _)

theorem exec_sluiceEndl_of_nil (h : AtInstr s c .endl) (hloops : (chanAt s c).loops = []) :
    exec (.sluiceEndl block chan) s = .next (haltChan c 6 (chanAt s c).word 0 s) := by
  subst hc
  refine congrArg Host.Outcome.next ((sluiceStep_of_atInstr h nofun _).trans ?_)
  simp only [hloops]

theorem exec_sluiceEndl_of_cons {b r i : Nat} {q : List (Nat × Nat × Nat)} (h : AtInstr s c .endl)
    (hloops : (chanAt s c).loops = (b, r, i) :: q) :
    exec (.sluiceEndl block chan) s = .next (modChan c (Chan.loopEnded b r i q) s) := by
  subst hc
  refine congrArg Host.Outcome.next ((sluiceStep_of_atInstr h nofun _).trans ?_)
  unfold Chan.loopEnded
  by_cases hlast : r ≤ 1 <;> simp only [hloops, hlast, if_true, if_false]

theorem exec_sluiceJump (h : AtInstr s c (.jump n)) :
    exec (.sluiceJump block chan) s = .next (modChan c (fun ch => ch.goTo n) s) := by
  subst hc
  exact congrArg Host.Outcome.next (sluiceStep_of_atInstr h nofun _)

theorem exec_sluiceNop (h : AtInstr s c .nop) :
    exec (.sluiceNop block chan) s = .next (modChan c (fun ch => ch.goTo (ch.word + 1)) s) := by
  subst hc
  exact congrArg Host.Outcome.next (sluiceStep_of_atInstr h nofun _)

theorem exec_sluiceHalt (h : AtInstr s c .halt) :
    exec (.sluiceHalt block chan) s = .next (modChan c (fun ch => { ch with state := 0, seg := none, loops := [], signal := false }) s) := by
  subst hc
  exact congrArg Host.Outcome.next (sluiceStep_of_atInstr h nofun _)

theorem exec_sluiceWait_foreign {timeout : Nat} (h : AtInstr s c (.wait timeout n)) (hcell : chanCell s c n = none) :
    exec (.sluiceWait block chan) s = .next (haltChan c 8 (chanAt s c).word 0 s) := by
  subst hc
  refine congrArg Host.Outcome.next ((sluiceStep_of_atInstr h nofun _).trans ?_)
  simp only [hcell]

theorem exec_sluiceWait_own {timeout g : Nat} (h : AtInstr s c (.wait timeout n)) (hcell : chanCell s c n = some g) :
    exec (.sluiceWait block chan) s = .next (if (issueCell g (.wait c) s).cells.granted.contains (c, g)
      then modChan c (fun ch => ch.goTo (ch.word + 1)) (takeGrant c g (issueCell g (.wait c) s))
      else modChan c (fun ch => { ch with state := 2, cell := g, timeout := timeout }) (issueCell g (.wait c) s)) := by
  subst hc
  refine congrArg Host.Outcome.next ((sluiceStep_of_atInstr h nofun _).trans ?_)
  simp only [hcell]

theorem exec_sluiceSignal_foreign (h : AtInstr s c (.signal n)) (hcell : chanCell s c n = none) :
    exec (.sluiceSignal block chan) s = .next (haltChan c 8 (chanAt s c).word 0 s) := by
  subst hc
  refine congrArg Host.Outcome.next ((sluiceStep_of_atInstr h nofun _).trans ?_)
  simp only [hcell]

theorem exec_sluiceSignal_own {g : Nat} (h : AtInstr s c (.signal n)) (hcell : chanCell s c n = some g) :
    exec (.sluiceSignal block chan) s = .next (if (chanAt s c).flight.isEmpty
      then issueCell g (.signal 1) (modChan c (fun ch => ch.goTo (ch.word + 1)) s)
      else modChan c (fun ch => { ch with signal := true }) s) := by
  subst hc
  refine congrArg Host.Outcome.next ((sluiceStep_of_atInstr h nofun _).trans ?_)
  simp only [hcell]

end control

/-- The grant of a cell is no part of the channel that takes it up (15 R422). -/
@[simp] theorem chanAt_takeGrant (c n : Nat) (s : State) (c' : Nat) : chanAt (takeGrant c n s) c' = chanAt s c' := rfl

/-- A step that changes its channel alone. -/
theorem exists_next_modChan {o : Answered} {s : State} {c : Nat} {f : Chan → Chan} (h : o = .next (modChan c f s)) :
    ∃ t, o = .next t ∧ chanAt t c = f (chanAt s c) ∧ t.mem = s.mem ∧ ∀ c', c' ≠ c → chanAt t c' = chanAt s c' :=
  ⟨_, h, chanAt_modChan_same c f s, rfl, fun _ hother => chanAt_modChan_other f s hother⟩

/-- Settles O30: the step of a running channel is its word's instruction, a halt or a redirect; each changes the channel alone but for what
it reports and what its cell sets off. -/
theorem sluiceControl : Obligations.SluiceControl := by
  intro s block chan c ch
  refine ⟨fun n h => ⟨fun hroom => ?room, fun hfull => ?full⟩, fun h => ⟨fun hloops => ?unopened, fun b r i q hloops => ?turn⟩,
    fun w h => exists_next_modChan (exec_sluiceJump rfl h), fun h => exists_next_modChan (exec_sluiceNop rfl h), fun h => ?halt,
    fun timeout n h => ⟨fun hcell => ?waitForeign, fun g hcell => ?wait⟩,
    fun n h => ⟨fun hcell => ?signalForeign, fun g hcell hflight => ?signal, fun g hcell hflight => ?signalWaits⟩,
    fun n i hi => ⟨fun h => ?bad, fun w hruns hreplay hredirect hsignal => ?redirect⟩⟩
  case room => exact exists_next_modChan ((exec_sluiceLoop rfl h).trans (congrArg _ (if_neg (Nat.not_le.mpr hroom))))
  case full =>
    rw [exec_sluiceLoop rfl h, if_pos hfull]
    exact haltChan_halted s c (by decide) _ _
  case unopened =>
    rw [exec_sluiceEndl_of_nil rfl h hloops]
    exact haltChan_halted s c (by decide) _ _
  case turn =>
    obtain ⟨t, hexec, hchan, hmem, hframe⟩ := exists_next_modChan (exec_sluiceEndl_of_cons rfl h hloops)
    exact ⟨t, hexec, hmem, hframe, hchan⟩
  case halt =>
    obtain ⟨t, hexec, hchan, hmem, hframe⟩ := exists_next_modChan (exec_sluiceHalt rfl h)
    refine ⟨t, hexec, ?_, ?_, ?_, ?_, hmem, hframe⟩ <;> rw [hchan]
  case waitForeign =>
    rw [exec_sluiceWait_foreign rfl h hcell]
    exact haltChan_halted s c (by decide) _ _
  case wait =>
    have ⟨hruns, _⟩ := h
    have hchan : chanAt (issueCell g (.wait c) s) c = ch := chanAt_of_units (issueCell_units s g _) c
    rw [exec_sluiceWait_own rfl h hcell]
    refine ⟨_, rfl, ?_⟩
    split
    · rw [chanAt_modChan_same, chanAt_takeGrant, hchan]
      exact ⟨rfl, hruns⟩
    · rw [chanAt_modChan_same, hchan]
      exact ⟨rfl, rfl, rfl, rfl⟩
  case signalForeign =>
    rw [exec_sluiceSignal_foreign rfl h hcell]
    exact haltChan_halted s c (by decide) _ _
  case signal => rw [exec_sluiceSignal_own rfl h hcell, if_pos (List.isEmpty_iff.mpr hflight)]
  case signalWaits =>
    rw [exec_sluiceSignal_own rfl h hcell, if_neg (mt List.isEmpty_iff.mp hflight)]
    exact ⟨_, rfl, rfl, chanAt_modChan_same _ _ _⟩
  case bad =>
    obtain ⟨f, hstep⟩ := exec_sluice_eq_step (s := s) hi
    rw [hstep, sluiceStep_of_bad h]
    exact haltChan_halted s c (by decide) _ _
  case redirect =>
    obtain ⟨f, hstep⟩ := exec_sluice_eq_step (s := s) hi
    rw [hstep, sluiceStep_of_redirect hruns hreplay hredirect hsignal]
    refine ⟨_, rfl, ?_⟩
    rw [chanAt_takeRedirect_same]
    exact ⟨rfl, rfl, rfl, rfl, rfl⟩

end Sys2Proof.Machine

/-! The units of a Sluice channel: the start of a MOVE or MOVEX, the reads that return, the writes that are acknowledged, and the answers of
the host and of the fabric (13 R364 to R366, R369, R370, R373, R375, R377; 05 R163; 16 R462, R465). -/

namespace Sys2Proof.Machine

open Sys2Proof

section units

variable {s t : State} {c id : Nat} {u : SUnit}

theorem unitAt_of_units (h : t.units = s.units) (c id : Nat) : unitAt t c id = unitAt s c id := by
  unfold unitAt
  rw [chanAt_of_units h]

theorem id_of_unitAt (h : unitAt s c id = some u) : u.id = id := by
  simpa using List.find?_some h

/-- A change of a channel besides its units in flight. -/
theorem unitAt_modChan_of_flight {f : Chan → Chan} (hf : ∀ ch, (f ch).flight = ch.flight) (c id : Nat) (s : State) :
    unitAt (modChan c f s) c id = unitAt s c id := by
  unfold unitAt
  rw [chanAt_modChan_same, hf]

/-- A unit changed keeps its number, so that it stands where it stood. -/
theorem unitAt_modUnit {f : SUnit → SUnit} (hf : ∀ v, (f v).id = v.id) (c id : Nat) (s : State) :
    unitAt (modUnit c id f s) c id = (unitAt s c id).map f := by
  have hid (v : SUnit) : (if v.id = id then f v else v).id = v.id := by split <;> simp [hf]
  unfold unitAt modUnit
  rw [chanAt_modChan_same, List.find?_map]
  simp only [Function.comp_def, hid]
  exact Option.map_congr fun v hv => if_pos (by simpa using List.find?_some hv)

@[simp] theorem unitAt_endUnit (c : Nat) (u : SUnit) (s : State) : unitAt (endUnit c u s) c u.id = none := by
  unfold unitAt endUnit
  rw [chanAt_modChan_same]
  simp

/-- A unit of a plain MOVE holds what it read, unchanged (13 R369). -/
theorem unitRead_of_plain (h : u.fmt = 0) (c : Nat) (b : Bytes) (s : State) :
    unitRead c u b s = modUnit c u.id (fun u => { u with data := some b }) s := by
  simp [unitRead, unitData, h]

theorem unitAt_unitRead_of_plain (h : unitAt s c id = some u) (hplain : u.fmt = 0) (b : Bytes) :
    unitAt (unitRead c u b s) c id = some { u with data := some b } := by
  obtain rfl := id_of_unitAt h
  rw [unitRead_of_plain hplain, unitAt_modUnit, h]
  · rfl
  · exact fun _ => rfl

end units

/-! The start of a MOVE or MOVEX (13 R364 to R366, R373). -/

section start

variable {s : State} {block chan c n count addr : Nat} {x tile : Bool}

/-- The first address past the memory that a channel reads its descriptors from (13 R366). -/
def descriptorTop (c : Nat) : Nat := if hubChan c then 0x4000000 else tileSram

/-- The 64 bytes of a descriptor, and the state in which the firewall may have counted the read. -/
def readDescriptor (s : State) (c addr : Nat) : Bytes × State :=
  if hubChan c then (Memory.readN s.mem.hub (0x100000000 * (c / 16 - 40) + addr) 64, s) else tileGet (chanOwner s c) (c / 16) addr 64 s

/-- Whether a write in flight of a channel meets its descriptor. -/
def descriptorPending (s : State) (c addr : Nat) : Bool :=
  (chanAt s c).flight.any (fun u => bits u.dst 63 60 = (if hubChan c then 3 else 0) && meets (u.dst % 0x100000000) u.wrote addr 64)

theorem exec_sluiceMoves (hc : 16 * block + chan % 16 = c) (h : AtInstr s c (.move x tile count addr)) :
    exec (if x then .sluiceMovex block chan n else .sluiceMove block chan n) s =
      .next (runMove x n c (chanAt s c) (.move x tile count addr) s) := by
  subst hc
  cases x <;> exact congrArg Host.Outcome.next (sluiceStep_of_atInstr h nofun _)

theorem runMove_of_seg {g : Seg} (hseg : (chanAt s c).seg = some g) :
    runMove x n c (chanAt s c) (.move x tile count addr) s = issueUnits n c s := by
  simp [runMove, hseg]

theorem runMove_of_misaligned (hseg : (chanAt s c).seg = none) (halign : addr % 64 ≠ 0) :
    runMove x n c (chanAt s c) (.move x tile count addr) s = haltChan c 1 (chanAt s c).word addr s := by
  simp [runMove, hseg, halign]

theorem runMove_of_outside (hseg : (chanAt s c).seg = none) (halign : addr % 64 = 0) (htop : descriptorTop c < addr + 64) :
    runMove x n c (chanAt s c) (.move x tile count addr) s = haltChan c 2 (chanAt s c).word addr s := by
  unfold descriptorTop at htop
  simp [runMove, hseg, halign, htop]

/-- With a descriptor that can be read, the segment's checks decide, then the lanes. -/
theorem runMove_of_descriptor (hseg : (chanAt s c).seg = none) (halign : addr % 64 = 0) (htop : addr + 64 ≤ descriptorTop c)
    (hpending : descriptorPending s c addr = false) :
    (∀ e, startSeg s c (chanAt s c) x tile count (readDescriptor s c addr).1 = .error e →
      runMove x n c (chanAt s c) (.move x tile count addr) s = haltChan c e (chanAt s c).word addr (readDescriptor s c addr).2) ∧
    (∀ g, startSeg s c (chanAt s c) x tile count (readDescriptor s c addr).1 = .ok g → lanesFree s c g = true →
      runMove x n c (chanAt s c) (.move x tile count addr) s =
        issueUnits n c (modChan c (fun ch => { ch with seg := some g, issued := 0, done := 0, inst := ch.inst + 1 }) (readDescriptor s c addr).2)) := by
  unfold descriptorTop at htop
  unfold descriptorPending at hpending
  unfold readDescriptor
  constructor
  · intro e hstart
    simp [runMove, hseg, halign, Nat.not_lt.mpr htop, hpending, hstart]
  · intro g hstart hlanes
    simp [runMove, hseg, halign, Nat.not_lt.mpr htop, hpending, hstart, hlanes]

end start

/-! A bus error of a unit that still reads (13 R375). -/

section bus

variable {s : State} {c id : Nat} {u : SUnit}

/-- The retry count in force for a channel: its partition's, or the hubs' (13 R375). -/
def retryLimit (s : State) (c : Nat) : Nat :=
  match chanSlot s c with
  | some (k, _) => rwVal s (0x3000 + 0x10 * (k / 4)) 0x13 3
  | none => rwVal s 0xA62A 0x01 3

/-- A unit reissued: one more try of it, and the channel's retries field follows (13 R375). -/
def reissued (c : Nat) (u : SUnit) (s : State) : State :=
  modChan c (fun ch => { ch with retries := u.tries + 1 }) (bump (sluiceObj c) 0x24 1 (modUnit c u.id (fun u => { u with tries := u.tries + 1 }) s))

/-- Below the limit, a read that is not of host memory is reissued, and the slot counts it. -/
theorem busError_of_retry (hdata : u.data = none) (hhost : ¬(bits u.src 63 60 = 4 ∨ bits u.src 63 60 = 5)) (htries : u.tries < retryLimit s c) :
    Reports (reissued c u s) (busError c u s) := by
  unfold busError
  extract_lets lim a s₁ s₂ s₃
  have hcounted : Reports (reissued c u s) s₃ := by
    unfold s₃
    split
    · exact bump_reports _ _ _ _
    · exact .refl _
  rw [if_pos (show u.tries < lim from htries)]
  simpa [hdata, hhost] using hcounted

theorem unitAt_reissued (h : unitAt s c id = some u) : unitAt (reissued c u s) c id = some { u with tries := u.tries + 1 } := by
  obtain rfl := id_of_unitAt h
  unfold reissued
  rw [unitAt_modChan_of_flight, unitAt_of_units (bump_units _ _ _ _), unitAt_modUnit, h]
  · rfl
  · exact fun _ => rfl
  · exact fun _ => rfl

/-- At the limit, the channel halts with BUS at the unit's word and address. -/
theorem busError_of_limit (hdata : u.data = none) (htries : retryLimit s c ≤ u.tries) :
    ∃ t, busError c u s = haltChan c 3 u.word u.src t := by
  unfold busError
  extract_lets lim a
  have ha : a = u.src := by simp [a, hdata]
  rw [if_neg (Nat.not_lt.mpr (show lim ≤ u.tries from htries)), ha]
  exact ⟨_, rfl⟩

end bus

/-! A unit's read that returns (13 R369, R370, R375, R377). -/

section readReturn

variable {s : State} {block chan c id : Nat} {u : SUnit} {err : Bool}

theorem afterRead_units (drew : Bool) (s : State) : (afterRead drew s).units = s.units := by
  unfold afterRead
  split <;> rfl

/-- The state in which a unit's read of flash is charged to its owner; other reads leave the state (18 R523; 22 R607). -/
def chargedRead (c : Nat) (u : SUnit) (s : State) : State :=
  if bits u.src 63 60 = 7 then charge (chanOwner s c) 0x11 u.len
    (afterRead (unitBytes s (unitOf s (bits u.src 55 48) (bits u.src 47 0)) (bits u.src 47 0 % 16384) u.len).2.2 s) else s

theorem chargedRead_units (c : Nat) (u : SUnit) (s : State) : (chargedRead c u s).units = s.units := by
  unfold chargedRead
  split
  · exact (charge_reports _ _ _ _).units.trans (afterRead_units _ s)
  · rfl

variable (hc : 16 * block + chan % 16 = c) (hunit : unitAt s c id = some u) (hdata : u.data = none)
  (hhost : ¬(bits u.src 63 60 = 4 ∨ bits u.src 63 60 = 5)) (hbehind : behindWrite s c u u.src u.len = false)

include hc hunit hdata hhost hbehind

theorem exec_unitReadReturn_bus (h : err = true ∨ unitSource s c u = .bus) :
    exec (.unitReadReturn block chan id err) s = .next (busError c u s) := by
  subst hc
  change execUnitReadReturn block chan id err s = _
  obtain rfl | hbus := h
  · simp [execUnitReadReturn, hunit, hdata, hhost, hbehind]
  · simp [execUnitReadReturn, hunit, hdata, hhost, hbehind, hbus]

theorem exec_unitReadReturn_failed (h : unitSource s c u = .failed) :
    exec (.unitReadReturn block chan id false) s = .next (haltChan c 4 u.word u.src (endUnit c u s)) := by
  subst hc
  change execUnitReadReturn block chan id false s = _
  simp [execUnitReadReturn, hunit, hdata, hhost, hbehind, h]

theorem exec_unitReadReturn_data {b : Bytes} (h : unitSource s c u = .data b) :
    exec (.unitReadReturn block chan id false) s = .next (unitRead c u b (chargedRead c u s)) := by
  subst hc
  change execUnitReadReturn block chan id false s = _
  simp [execUnitReadReturn, hunit, hdata, hhost, hbehind, h, chargedRead]

end readReturn

/-! A unit's write that is acknowledged (13 R369, R375, R377). -/

/-- What a unit becomes when its destination has answered its write. -/
def writeAnswered (c : Nat) (u : SUnit) (d : Bytes) (s : State) : Put → State
  | .wait => s
  | .bus => busError c u s
  | .failed => haltChan c 4 u.word u.dst (endUnit c u s)
  | .part n t => modUnit c u.id (fun u => { u with data := some (d.drop n), dst := u.dst + n }) t
  | .done t => endUnit c u t

theorem exec_unitWriteAck {s : State} {block chan c id : Nat} {u : SUnit} {d : Bytes} (hc : 16 * block + chan % 16 = c)
    (hunit : unitAt s c id = some u) (hdata : u.data = some d) (hflash : u.flash = false) (hbehind : behindWrite s c u u.dst d.length = false)
    (hdst : ¬(4 ≤ bits u.dst 63 60 ∧ bits u.dst 63 60 ≤ 6)) :
    exec (.unitWriteAck block chan id false) s = .next (writeAnswered c u d s (unitWrite c u d s)) := by
  subst hc
  change execUnitWriteAck block chan id false s = _
  have hfabric : bits u.dst 63 60 ≠ 6 := by omega
  have hport : ¬(bits u.dst 63 60 = 4 ∨ bits u.dst 63 60 = 5) := by omega
  simp only [execUnitWriteAck, hunit, hdata, hflash, hbehind, hfabric, hport, Bool.false_eq_true, if_false, Bool.or_eq_true, decide_eq_true_eq]
  cases unitWrite (16 * block + chan % 16) u d s <;> rfl

/-! The answers of the host and of the fabric (05 R163; 16 R462, R465). -/

section answers

variable {s : State} {port tag : Nat} {u : SUnit}

/-- The state with a device read of the host answered (05 R163). -/
def hostAnswered (tag : Nat) (s : State) : State := s.modHost (fun h => { h with reads := h.reads.filter (fun x => x.tag != tag) })

theorem exec_hostReadCompletion {r : HostRead} (hread : s.host.reads.find? (fun r => r.tag = tag && r.port = port) = some r)
    (hunit : unitAt s r.chan r.unit = some u) (hdata : u.data = none) (htag : u.tag = tag) (ok : Bool) (data : Bytes) :
    exec (.hostReadCompletion port tag ok data) s = .next (if ok
      then unitRead r.chan u (slice data 0 u.len) (hostAnswered tag s) else busError r.chan u (hostAnswered tag s)) := by
  change execHostReadCompletion port tag ok data s = _
  have hunit' : unitAt (hostAnswered tag s) r.chan r.unit = some u := hunit
  unfold hostAnswered at hunit' ⊢
  cases ok <;> simp [execHostReadCompletion, hread, hunit', hdata, htag]

theorem exec_completionTimeout {r : HostRead} (hread : s.host.reads.find? (fun r => r.tag = tag && r.port = port) = some r)
    (hunit : unitAt s r.chan r.unit = some u) (hdata : u.data = none) (htag : u.tag = tag) :
    exec (.completionTimeout port tag) s = .next (busError r.chan u (hostAnswered tag s)) := by
  change execCompletionTimeout port tag s = _
  have hunit' : unitAt (hostAnswered tag s) r.chan r.unit = some u := hunit
  unfold hostAnswered at hunit' ⊢
  simp [execCompletionTimeout, hread, hunit', hdata, htag]

/-- Whether a unit awaits responses to its exchange write under a tag. -/
def SUnit.awaits (tag : Nat) (u : SUnit) : Bool := bits u.dst 63 60 = 6 && 0 < u.acks && u.tag = tag

/-- A response acknowledges one flit of the unit that awaits it; the last one ends the unit. -/
theorem exec_writeRsp {f : Flit} {s' : State} {k : Nat} {ch : Chan} (hrsp : takeInbox 3 s = some (f, s'))
    (hchan : s'.units.chans.find? (fun e => e.2.flight.any (SUnit.awaits f.tag)) = some (k, ch))
    (hunit : ch.flight.find? (SUnit.awaits f.tag) = some u) :
    exec .writeRsp s = .next (if 1 < u.acks then modUnit k u.id (fun u => { u with acks := u.acks - 1 }) s'
      else endUnit k u (s'.modFab (fun g => { g with rounds := g.rounds.map (fun r => { r with writes := r.writes.filter (· != f.tag) }) }))) := by
  change execWriteRsp s = _
  unfold SUnit.awaits at hchan hunit
  simp only [execWriteRsp, hrsp, hchan, hunit]
  split <;> rfl

end answers

/-- Settles O31: a MOVE starts when its checks hold; a unit's read hands it its data, is reissued, or halts its channel; what a write's
destination answers decides the unit; and a completion or a response goes to the unit that awaits it. -/
theorem sluiceUnits : Obligations.SluiceUnits := by
  intro s block chan c ch
  refine ⟨?moves, ?reads, ?writes, ?completions, ?responses⟩
  case moves =>
    intro x y tile count addr n h i top r
    have hexec : exec i s = .next (runMove x n c ch (.move x tile count addr) s) := exec_sluiceMoves rfl h
    refine ⟨fun g hseg => hexec.trans (congrArg _ (runMove_of_seg hseg)), ?misplaced, fun hseg halign htop hpending => ?descriptor⟩
    case misplaced =>
      rintro (⟨rfl, halign⟩ | ⟨rfl, halign, htop⟩) hseg
      · rw [hexec, runMove_of_misaligned hseg halign]
        exact haltChan_halted s c (by decide) _ _
      · rw [hexec, runMove_of_outside hseg halign htop]
        exact haltChan_halted s c (by decide) _ _
    case descriptor =>
      obtain ⟨hrefused, hstarted⟩ := runMove_of_descriptor (x := x) (tile := tile) (count := count) (n := n) hseg halign htop hpending
      refine ⟨fun e hstart => ⟨_, hexec.trans (congrArg _ (hrefused e hstart)), ?_⟩,
        fun g hstart hlanes => hexec.trans (congrArg _ (hstarted g hstart hlanes))⟩
      rw [chanAt_haltChan_same]
      exact ⟨rfl, rfl⟩
  case reads =>
    intro u id err hunit hdata hhost hbehind lim
    have hbusError := exec_unitReadReturn_bus (err := err) rfl hunit hdata hhost hbehind
    refine ⟨fun b hok hsource hplain => ?data, fun hbus htries => ?retry, fun hbus htries => ?limit, fun hok hfailed => ?failed⟩
    case data =>
      subst hok
      exact ⟨_, exec_unitReadReturn_data rfl hunit hdata hhost hbehind hsource,
        unitAt_unitRead_of_plain ((unitAt_of_units (chargedRead_units c u s) c id).trans hunit) hplain b⟩
    case retry =>
      have hreports := busError_of_retry hdata hhost htries
      exact ⟨_, hbusError hbus, (unitAt_of_units hreports.units c id).trans (unitAt_reissued hunit), hreports.mem⟩
    case limit =>
      obtain ⟨t, hhalt⟩ := busError_of_limit hdata htries
      refine ⟨_, (hbusError hbus).trans (congrArg _ hhalt), ?_⟩
      rw [chanAt_haltChan_same]
      exact ⟨rfl, rfl, rfl, rfl⟩
    case failed =>
      subst hok
      refine ⟨_, exec_unitReadReturn_failed rfl hunit hdata hhost hbehind hfailed, ?_⟩
      rw [chanAt_haltChan_same]
      exact ⟨rfl, rfl⟩
  case writes =>
    intro u d id hunit hdata hflash hbehind hdst
    have hexec : exec (.unitWriteAck block chan id false) s = .next (writeAnswered c u d s (unitWrite c u d s)) :=
      exec_unitWriteAck rfl hunit hdata hflash hbehind hdst
    refine ⟨fun t hdone => ⟨?_, ?_⟩, fun n t hpart => ?_, fun hwait => ?_⟩
    · rw [hexec, hdone, writeAnswered]
    · rw [← id_of_unitAt hunit, unitAt_endUnit]
    · rw [hexec, hpart, writeAnswered]
    · rw [hexec, hwait, writeAnswered]
  case completions =>
    intro r u port tag ok data hread hunit hdata htag s'
    refine ⟨exec_hostReadCompletion hread hunit hdata htag ok data, exec_completionTimeout hread hunit hdata htag, fun hplain => ?_⟩
    have hasked : unitAt s' r.chan u.id = some u := by rwa [id_of_unitAt hunit]
    exact unitAt_unitRead_of_plain hasked hplain _
  case responses =>
    intro f s' k kh u hrsp hit hchan hunit
    have hexec := exec_writeRsp hrsp hchan hunit
    exact ⟨fun hmore => hexec.trans (congrArg _ (if_pos hmore)),
      fun hlast => ⟨_, hexec.trans (congrArg _ (if_neg (by omega))), unitAt_endUnit _ _ _⟩⟩

end Sys2Proof.Machine

/-! Little-endian byte strings: how long they are, and that reading one gives back the number written (00 R7). -/

namespace Sys2Proof

@[simp] theorem length_toLE (n v : Nat) : (toLE n v).length = n := by
  induction n generalizing v with
  | zero => rfl
  | succ n ih => simp [toLE, ih]

@[simp] theorem length_slice (bs : Bytes) (off n : Nat) : (slice bs off n).length = n := by
  simp only [slice, List.length_append, List.length_take, List.length_drop, List.length_replicate]
  omega

@[simp] theorem length_padTo (n : Nat) (bs : Bytes) : (padTo n bs).length = max n bs.length := by
  simp only [padTo, List.length_append, List.length_replicate]
  omega

theorem leNat_toLE (n v : Nat) : leNat (toLE n v) = v % 256 ^ n := by
  induction n generalizing v with
  | zero => simp [toLE, leNat, Nat.mod_one]
  | succ n ih => simp [toLE, leNat, ih, Nat.pow_succ', Nat.mod_mul]

/-- A slice that lies within the string is that part of it. -/
theorem slice_of_le {bs : Bytes} {off n : Nat} (h : off + n ≤ bs.length) : slice bs off n = (bs.drop off).take n := by
  have hfull : n - ((bs.drop off).take n).length = 0 := by
    simp only [List.length_take, List.length_drop]
    omega
  rw [slice, hfull, List.replicate_zero, List.append_nil]

/-- A number stored after some bytes is read at their length. -/
theorem leAt_append_toLE (pre post : Bytes) (n v : Nat) : leAt (pre ++ (toLE n v ++ post)) pre.length n = v % 256 ^ n := by
  have hwithin : pre.length + n ≤ (pre ++ (toLE n v ++ post)).length := by simp
  have htake : (toLE n v ++ post).take n = toLE n v := by simp
  rw [leAt, slice_of_le hwithin, List.drop_left, htake, leNat_toLE]

/-- A byte of a slice that lies within the string. -/
theorem nth_slice {bs : Bytes} {off n i : Nat} (h : off + n ≤ bs.length) (hi : i < n) : nth (slice bs off n) i 0 = nth bs (off + i) 0 := by
  simp [slice_of_le h, nth, List.getD_eq_getElem?_getD, List.getElem?_take_of_lt hi]

/-- Padding and cutting at a byte past the one read leave that byte. -/
theorem nth_take_padTo {bs : Bytes} {n m i : Nat} (hi : i < n) : nth ((padTo m bs).take n) i 0 = nth bs i 0 := by
  simp only [nth, List.getD_eq_getElem?_getD, List.getElem?_take_of_lt hi, padTo]
  by_cases h : i < bs.length
  · rw [List.getElem?_append_left h]
  · rw [List.getElem?_append_right (by omega), List.getElem?_eq_none (l := bs) (by omega), List.getElem?_replicate]
    split <;> rfl

/-- Bytes written to a memory read back as given, and every byte outside them as before. -/
theorem Memory.read_writeN_slice (m : Memory) {bs : Bytes} {a off n : Nat} (h : off + n ≤ bs.length) :
    (∀ i, i < n → Memory.read (Memory.writeN m a (slice bs off n)) (a + i) = nth bs (off + i) 0) ∧
    (∀ b, b < a ∨ a + n ≤ b → Memory.read (Memory.writeN m a (slice bs off n)) b = Memory.read m b) := by
  refine ⟨fun i hi => ?_, fun b hb => Memory.read_writeN_other m a b _ (by simpa using hb)⟩
  rw [Memory.read_writeN_in m a _ i (by simpa using hi)]
  exact nth_slice h hi

end Sys2Proof

/-! The stores: tile and hub SRAM, Carr DRAM and flash, and what else an access to them changes (08 R255; 14 R389; 18 R509 to R511). -/

namespace Sys2Proof.Machine

open Sys2Proof

/-- The second state is the first after writes to flash: the content of flash, Mire's records of it, accounting and free values may differ. -/
def FlashWrites (s t : State) : Prop :=
  ∃ flash mire tele free, t = { s with mem := { s.mem with flash := flash }, mire := mire, tele := tele, free := free }

/-- The second state is the first after accesses to the stores: the addressed memories, the poison of Carr DRAM, Mire's records, accounting
and free values may differ. -/
def Stores (s t : State) : Prop :=
  ∃ mem carr mire tele free, t = { s with mem := mem, carr := carr, mire := mire, tele := tele, free := free }

section stores

variable {s t u : State}

theorem FlashWrites.refl (s : State) : FlashWrites s s := ⟨_, _, _, _, rfl⟩

theorem FlashWrites.trans (h : FlashWrites s t) (g : FlashWrites t u) : FlashWrites s u := by
  obtain ⟨_, _, _, _, rfl⟩ := h
  obtain ⟨_, _, _, _, rfl⟩ := g
  exact ⟨_, _, _, _, rfl⟩

theorem FlashWrites.foldl {α : Type} {f : State → α → State} (hf : ∀ s a, FlashWrites s (f s a)) (l : List α) (s : State) :
    FlashWrites s (l.foldl f s) :=
  List.foldlRecOn l f (.refl s) (fun t h a _ => h.trans (hf t a))

theorem FlashWrites.mem (h : FlashWrites s t) : t.mem = { s.mem with flash := t.mem.flash } := by obtain ⟨_, _, _, _, rfl⟩ := h; rfl

theorem FlashWrites.stores (h : FlashWrites s t) : Stores s t := by
  obtain ⟨_, _, _, _, rfl⟩ := h
  exact ⟨_, _, _, _, _, rfl⟩

theorem Stores.refl (s : State) : Stores s s := ⟨_, _, _, _, _, rfl⟩

theorem Stores.trans (h : Stores s t) (g : Stores t u) : Stores s u := by
  obtain ⟨_, _, _, _, _, rfl⟩ := h
  obtain ⟨_, _, _, _, _, rfl⟩ := g
  exact ⟨_, _, _, _, _, rfl⟩

theorem Stores.foldl {α : Type} {f : State → α → State} (hf : ∀ s a, Stores s (f s a)) (l : List α) (s : State) : Stores s (l.foldl f s) :=
  List.foldlRecOn l f (.refl s) (fun t h a _ => h.trans (hf t a))

theorem Stores.data (h : Stores s t) : t.data = s.data := by obtain ⟨_, _, _, _, _, rfl⟩ := h; rfl
theorem Stores.dict (h : Stores s t) : t.dict = s.dict := by obtain ⟨_, _, _, _, _, rfl⟩ := h; rfl
theorem Stores.slots (h : Stores s t) : t.slots = s.slots := by obtain ⟨_, _, _, _, _, rfl⟩ := h; rfl
theorem Stores.alm (h : Stores s t) : t.alm = s.alm := by obtain ⟨_, _, _, _, _, rfl⟩ := h; rfl
theorem Stores.levee (h : Stores s t) : t.levee = s.levee := by obtain ⟨_, _, _, _, _, rfl⟩ := h; rfl

end stores

section accesses

variable (s : State)

theorem drawn_stores : Stores s (drawn s) := ⟨_, _, _, _, _, rfl⟩

theorem drawn_flashWrites : FlashWrites s (drawn s) := ⟨_, _, _, _, rfl⟩

theorem modMire_flashWrites (f : Mire → Mire) : FlashWrites s (s.modMire f) := ⟨_, _, _, _, rfl⟩

theorem modDie_flashWrites (d : Nat) (f : Die → Die) : FlashWrites s (modDie d f s) := modMire_flashWrites s _

theorem modFlash_flashWrites (f : Memory → Memory) : FlashWrites s (s.modMem (fun m => { m with flash := f m.flash })) := ⟨_, _, _, _, rfl⟩

theorem commitUnit_flashWrites (unit phys off : Nat) (bs : Bytes) (patch : Bool) : FlashWrites s (commitUnit unit phys off bs patch s) := by
  unfold commitUnit
  extract_lets e r s₁ s₂ put
  have hjournal : FlashWrites s s₂ := (modDie_flashWrites s _ _).trans (modMire_flashWrites s₁ _)
  have hput (e : Nat) (t : State) : FlashWrites t (put e t) :=
    (modMire_flashWrites t _).trans (modFlash_flashWrites _ fun m => Memory.writeN m (16384 * unit + off) bs)
  refine hjournal.trans ?_
  clear_value e put
  split
  · exact hput _ _
  · cases e with
    | none => exact (modFlash_flashWrites s₂ fun m => Memory.zero m (16384 * unit) 16384).trans (hput _ _)
    | some x =>
      dsimp only
      split
      · exact ((modFlash_flashWrites s₂ fun m => Memory.writeN m (16384 * unit) (toLE 16384 (freeVal s₂ 131072))).trans
          (drawn_flashWrites _)).trans (hput _ _)
      · exact hput _ _

theorem charge_flashWrites (p sub n : Nat) : FlashWrites s (charge p sub n s) := by
  unfold charge
  split
  · exact ⟨_, _, _, _, rfl⟩
  · exact .refl s

theorem patchSpace_flashWrites (fuel ns off : Nat) (bs : Bytes) : FlashWrites s (patchSpace fuel ns off bs s) := by
  induction fuel generalizing off bs s with
  | zero => exact .refl s
  | succ n ih =>
    unfold patchSpace
    split
    · exact .refl s
    · exact ((commitUnit_flashWrites s _ _ _ _ _).trans (charge_flashWrites _ _ _ _)).trans (ih _ _ _)

theorem writeSpace_flashWrites (fuel ns off : Nat) (bs : Bytes) : FlashWrites s (writeSpace fuel ns off bs s) := by
  induction fuel generalizing off bs s with
  | zero => exact .refl s
  | succ n ih =>
    unfold writeSpace
    split
    · exact .refl s
    · exact (commitUnit_flashWrites s _ _ _ _ _).trans (ih _ _ _)

theorem writeParts_stores (fuel a : Nat) (bs : Bytes) : Stores s (writeParts fuel a bs s) := by
  induction fuel generalizing a bs s with
  | zero => exact .refl s
  | succ n ih =>
    unfold writeParts
    split
    · exact .refl s
    · exact .trans ⟨_, _, _, _, _, rfl⟩ (ih _ _ _)

theorem writeI_stores (a : Nat) (bs : Bytes) : Stores s (writeI a bs s) := writeParts_stores s _ a bs

theorem afterRead_stores (drew : Bool) : Stores s (afterRead drew s) := by
  unfold afterRead
  split
  · exact drawn_stores s
  · exact .refl s

theorem spaceBytes_stores (fuel ns off len : Nat) : Stores s (spaceBytes fuel s ns off len).2 := by
  induction fuel generalizing off len s with
  | zero => exact .refl s
  | succ n ih =>
    unfold spaceBytes
    split
    · exact .refl s
    · exact (afterRead_stores s _).trans (ih _ _ _)

/-! The content of a tier object, by its tier. -/

theorem readObj_stores (o : TierObj) (off n : Nat) : Stores s (readObj o off n s).2 := by
  unfold readObj
  split
  · exact .refl s
  · split
    · exact .refl s
    · split
      · exact spaceBytes_stores s _ _ _ _
      · exact .refl s

theorem writeObj_stores (o : TierObj) (off : Nat) (bs : Bytes) : Stores s (writeObj o off bs s) := by
  unfold writeObj
  split
  · exact ⟨_, _, _, _, _, rfl⟩
  · split
    · exact ⟨_, _, _, _, _, rfl⟩
    · split
      · exact (writeSpace_flashWrites s _ _ _ _).stores
      · exact writeI_stores s _ _

theorem zeroObj_stores (o : TierObj) : Stores s (zeroObj o s) := by
  unfold zeroObj
  split
  · exact ⟨_, _, _, _, _, rfl⟩
  · split
    · exact ⟨_, _, _, _, _, rfl⟩
    · split <;> exact ⟨_, _, _, _, _, rfl⟩

theorem writeObj_of_hub {o : TierObj} (h : o.tier = 2) (off : Nat) (bs : Bytes) :
    writeObj o off bs s = s.modMem (fun m => { m with hub := Memory.writeN m.hub (o.base + off) bs }) := by
  simp [writeObj, h]

end accesses

end Sys2Proof.Machine

/-! The cells, as what an operation on a cell leaves of everything else (15 R415 to R420). -/

namespace Sys2Proof.Machine

open Sys2Proof

/-- The second state is the first after operations on cells: the cells, the cores that tried one, the mirror writes, reports and free values may
differ. -/
def Signals (s t : State) : Prop :=
  ∃ cells carr hubs free, Reports { s with cells := cells, carr := carr, hubs := hubs, free := free } t

section signals

variable {s t u : State}

theorem Signals.refl (s : State) : Signals s s := ⟨_, _, _, _, .refl _⟩

theorem Signals.trans (h : Signals s t) (g : Signals t u) : Signals s u := by
  obtain ⟨_, _, _, _, _, _, _, _, hcqs, rfl⟩ := h
  obtain ⟨cells, carr, hubs, free, _, _, _, _, gcqs, rfl⟩ := g
  exact ⟨cells, carr, hubs, free, _, _, _, _, hcqs.trans gcqs, rfl⟩

theorem Reports.signals (h : Reports s t) : Signals s t := ⟨_, _, _, _, h⟩

theorem Signals.data (h : Signals s t) : t.data = s.data := by obtain ⟨_, _, _, _, _, _, _, _, _, rfl⟩ := h; rfl
theorem Signals.mem (h : Signals s t) : t.mem = s.mem := by obtain ⟨_, _, _, _, _, _, _, _, _, rfl⟩ := h; rfl

variable (s)

theorem modCells_signals (f : Cells → Cells) : Signals s (s.modCells f) := ⟨_, _, _, _, .refl _⟩
theorem modCell_signals (n : Nat) (f : Cell → Cell) : Signals s (modCell n f s) := modCells_signals s _
theorem modCarr_signals (f : Carr → Carr) : Signals s (s.modCarr f) := ⟨_, _, _, _, .refl _⟩
theorem drawn_signals : Signals s (drawn s) := ⟨_, _, _, _, .refl _⟩

theorem fireArm_signals (n : Nat) : Signals s (fireArm n s) := by
  unfold fireArm
  extract_lets c
  split
  · exact .refl s
  · extract_lets up
    split
    · exact .refl s
    · refine (modCell_signals s n fun c => { c with arm := none }).trans ?_
      split
      · exact (sendVector_reports _ _ _).signals
      · exact .refl _

theorem traceSignal_signals (n : Nat) : Signals s (traceSignal n s) := by
  unfold traceSignal
  split
  · exact (trace_reports s _ _ _ _).signals.trans (drawn_signals _)
  · exact .refl s

theorem applySignal_signals (n k : Nat) : Signals s (applySignal n k s) := by
  unfold applySignal
  extract_lets c g sum lost u v w
  have hlost : Signals v w := by
    unfold w
    split
    · exact .refl v
    · exact (bump_reports v _ _ _).signals
  exact (modCell_signals s n _).trans ((modCells_signals u _).trans
    (hlost.trans ((traceSignal_signals w n).trans (fireArm_signals _ n))))

theorem applyTry_signals (n : Nat) : Signals s (applyTry n s).2 := by
  unfold applyTry
  split
  · exact modCell_signals s n _
  · exact .refl s

theorem applyCell_signals (n : Nat) (a : CellAct) : Signals s (applyCell n a s) := by
  unfold applyCell
  cases a with
  | signal k => exact applySignal_signals s n k
  | tryUnit => exact (applyTry_signals s n).trans (emit_reports _ _).signals
  | tryHost port part => exact (applyTry_signals s n).trans (emit_reports _ _).signals
  | tryCore core d => exact (applyTry_signals s n).trans ((modCarr_signals _ _).trans (modCarr_signals _ _))
  | wait chan =>
    dsimp only
    split
    · exact (modCell_signals s n _).trans (modCells_signals _ _)
    · exact modCell_signals s n _
  | cancel chan =>
    dsimp only
    split
    · exact (modCell_signals s n _).trans (modCells_signals _ _)
    · exact .refl s
  | clear => exact modCell_signals s n _
  | arm port vec => exact (modCell_signals s n _).trans (fireArm_signals _ n)

theorem issueMirror_signals : Signals s (issueMirror s) := .trans ⟨_, _, _, _, .refl _⟩ (emit_reports _ _).signals

theorem mirrorHeld_signals : Signals s (mirrorHeld s) := by
  unfold mirrorHeld
  split
  · exact (issueMirror_signals s).trans (modCells_signals _ _)
  · exact .refl s

theorem flushCells_signals (fuel : Nat) : Signals s (flushCells fuel s) := by
  induction fuel generalizing s with
  | zero => exact .refl s
  | succ k ih =>
    have hfirst (o : CellOp) (r : List CellOp) :
        Signals s (flushCells k (applyCell o.cell o.act (s.modCells fun c => { c with held := r }))) :=
      (modCells_signals s _).trans ((applyCell_signals _ _ _).trans (ih _))
    unfold flushCells
    split
    · next o r hfuel _ =>
      cases hfuel
      split
      · exact .refl s
      · split
        · exact hfirst o r
        · split
          · split
            · exact hfirst o r
            · exact .refl s
          · exact .refl s
    · exact .refl s

theorem issueCell_signals (n : Nat) (a : CellAct) : Signals s (issueCell n a s) := by
  unfold issueCell
  split
  · exact applyCell_signals s n a
  · exact (modCells_signals s _).trans ((mirrorHeld_signals _).trans (flushCells_signals _ _))

theorem signalCell_signals (p c : Nat) : Signals s (signalCell p c s) := issueCell_signals s _ _

end signals

end Sys2Proof.Machine

/-! The counts of the dictionary, and the rows that write them (02 R39, R45). -/

namespace Sys2Proof.Machine

open Sys2Proof

@[simp] theorem countVal_setCount_same (idx sub v d : Nat) (s : State) : countVal (setCount idx sub v s) idx sub d = v := by
  simp [countVal, setCount]

/-- A count under another subindex is another count, whichever objects the two are of. -/
theorem countVal_setCount_of_sub_ne {idx sub idx' sub' : Nat} (v d : Nat) (s : State) (hne : sub ≠ sub') (hsub : sub < 256) (hsub' : sub' < 256) :
    countVal (setCount idx' sub' v s) idx sub d = countVal s idx sub d := by
  have hkey : okey idx sub ≠ okey idx' sub' := by
    unfold okey
    omega
  exact KMap.getD_put_other _ v d hkey

@[simp] theorem countVal_bump_same (idx sub n : Nat) (s : State) : countVal (bump idx sub n s) idx sub 0 = countVal s idx sub 0 + n :=
  countVal_setCount_same _ _ _ _ _

theorem countVal_bump_of_sub_ne {idx sub idx' sub' : Nat} (n d : Nat) (s : State) (hne : sub ≠ sub') (hsub : sub < 256) (hsub' : sub' < 256) :
    countVal (bump idx' sub' n s) idx sub d = countVal s idx sub d :=
  countVal_setCount_of_sub_ne _ d s hne hsub hsub'

theorem countVal_of_dict {s t : State} (h : t.dict = s.dict) (idx sub d : Nat) : countVal t idx sub d = countVal s idx sub d := by
  unfold countVal
  rw [h]

theorem rwVal_of_dict {s t : State} (h : t.dict = s.dict) (idx sub d : Nat) : rwVal t idx sub d = rwVal s idx sub d := by
  unfold rwVal
  rw [h]

/-- A whole DOMAIN that is let through answers with what its effect gives, in the state its effect leaves. -/
theorem domainRow_of_domainTaken {pa : Path} {tag : Nat} {r : ObjRef} {data : Bytes} {eff : State → Status × State} {s u : State} {st : Status}
    (h : DomainTaken pa r data.length s) (he : eff (dropTransfer pa s) = (st, u)) :
    .next (domainRow pa tag r data eff s) = DomainDone pa tag r data st u := by
  obtain ⟨hreach, hwaits, hbar⟩ := h
  have hroute : reach pa (domainMsg tag r data).req.idx r.obj.recovery true s = .go := hreach
  have hgo : recoveryWaits (domainMsg tag r data).req.idx s = false := hwaits
  simp [domainRow, route, hroute, hgo, execute, domainWrite, hbar, he, DomainDone]

end Sys2Proof.Machine

/-! The tier commands and the end of a MOVE (14 R386 to R390). -/

namespace Sys2Proof

theorem KMap.modify_of_find {α : Type} {m : KMap α} {k : Nat} {v : α} (f : α → α) (h : KMap.find m k = some v) :
    KMap.modify m k f = KMap.put m k (f v) := by
  simp [KMap.modify, h]

end Sys2Proof

namespace Sys2Proof.Machine

open Sys2Proof

/-! The row of the tier commands. -/

section row

variable {pa : Path} {tag part : Nat} {s u : State}

/-- A tier command that is let through answers the status of its result code, and the result object holds that code (14 R390). -/
theorem exec_tierCommand {c : Instr} {v code : Nat}
    (hc : (c, v) ∈ [(Instr.tierCreate pa tag part, 1), (.tierDestroy pa tag part, 2), (.tierMove pa tag part, 3)])
    (ht : RowTaken pa ⟨objTierCommand, [part]⟩ v s) (he : tierCommand part v s = tierResult part code u) :
    exec c s = RowDone pa tag ⟨objTierCommand, [part]⟩ v (tierStatus code) (tierResult part code u).2 ∧
      countVal (tierResult part code u).2 (0x6010 + part) 0x0D 0 = code := by
  refine ⟨?_, countVal_setCount_same _ _ _ _ _⟩
  simp only [List.mem_cons, List.not_mem_nil, Prod.mk.injEq, or_false] at hc
  obtain ⟨rfl, rfl⟩ | ⟨rfl, rfl⟩ | ⟨rfl, rfl⟩ := hc <;> exact commandRow_of_rowTaken ht he

/-- A result leaves everything but the result object (14 R390). -/
theorem tierResult_frame (p code : Nat) (s : State) :
    (tierResult p code s).2.data = s.data ∧ (tierResult p code s).2.claims = s.claims ∧ (tierResult p code s).2.mem = s.mem :=
  ⟨rfl, rfl, rfl⟩

end row

/-! CREATE. -/

section create

variable {p n : Nat} {x : TierObj} {s : State}

/-- The number that a CREATE gives its object: the one asked for where it is free, or the lowest free one (14 R386). -/
def tierNumber (s : State) (p : Nat) : Option Nat :=
  let want := rwVal s (0x6010 + p) 2 0
  if want = 0 then freeNumber s p
  else if want ≤ 1024 && (KMap.find s.data.tiers.objs (tierId p want)).isNone then some want else none

/-- The state with an object put under its number; a HOT area joins its table (14 R387, R397). -/
def placeTier (p n : Nat) (x : TierObj) (s : State) : State :=
  if x.role = 1 then startHotArea p (tierId p n) x (putObject p n x s) else putObject p n x s

theorem tierCreate_of_error {e : Nat} (h : tierPlan s p = .error e) : tierCreate p s = tierResult p e s := by
  simp [tierCreate, h]

theorem tierCreate_of_no_number (h : tierPlan s p = .ok x) (hn : tierNumber s p = none) : tierCreate p s = tierResult p 5 s := by
  unfold tierNumber at hn
  simp only [tierCreate, h, hn]

theorem tierCreate_of_number (h : tierPlan s p = .ok x) (hn : tierNumber s p = some n) :
    tierCreate p s = tierResult p 0 (setCount (0x6010 + p) 0x0E (tierId p n) (placeTier p n x s)) := by
  unfold tierNumber at hn
  simp only [tierCreate, h, hn]
  rfl

theorem tierNumber_eq_none (h : if rwVal s (0x6010 + p) 2 0 = 0 then freeNumber s p = none
      else 1024 < rwVal s (0x6010 + p) 2 0 ∨ (KMap.find s.data.tiers.objs (tierId p (rwVal s (0x6010 + p) 2 0))).isSome) :
    tierNumber s p = none := by
  unfold tierNumber
  extract_lets want
  by_cases hw : want = 0
  · simpa only [want, hw, if_true] using h
  · have htaken : 1024 < want ∨ (KMap.find s.data.tiers.objs (tierId p want)).isSome := by simpa only [want, hw, if_false] using h
    rw [if_neg hw, if_neg]
    rcases htaken with hbig | hsome
    · simp [Nat.not_le.mpr hbig]
    · simp [Option.isNone_eq_false_iff.mpr hsome]

theorem tierNumber_eq_some (h : if rwVal s (0x6010 + p) 2 0 = 0 then freeNumber s p = some n
      else n = rwVal s (0x6010 + p) 2 0 ∧ rwVal s (0x6010 + p) 2 0 ≤ 1024 ∧
        KMap.find s.data.tiers.objs (tierId p (rwVal s (0x6010 + p) 2 0)) = none) :
    tierNumber s p = some n := by
  unfold tierNumber
  extract_lets want
  by_cases hw : want = 0
  · simpa only [want, hw, if_true] using h
  · obtain ⟨rfl, hsmall, hfree⟩ : n = want ∧ want ≤ 1024 ∧ KMap.find s.data.tiers.objs (tierId p want) = none := by
      simpa only [want, hw, if_false] using h
    simp [hw, hsmall, hfree]

theorem startHotArea_tiers (p id : Nat) (x : TierObj) (s : State) : (startHotArea p id x s).data.tiers = s.data.tiers := by
  unfold startHotArea
  extract_lets tab
  split
  · rfl
  · next t _ =>
    have hdata := (writeObj_stores s x 0 (hotHeader s p tab t false 0 ++ (List.replicate (4 * hotBuckets t) emptyBucket).flatten)).data
    exact congrArg (fun d => d.tiers) hdata

theorem putObject_objs (p n : Nat) (x : TierObj) (s : State) :
    (putObject p n x s).data.tiers.objs = KMap.put s.data.tiers.objs (tierId p n) x := by
  unfold putObject
  extract_lets id s₁
  have hclaim : s₁.data = s.data := by
    unfold s₁
    split <;> rfl
  rw [(zeroObj_stores _ x).data]
  exact congrArg (fun d => KMap.put d.tiers.objs id x) hclaim

/-- The object joins the objects under its id, and no other object changes. -/
theorem placeTier_objs (p n : Nat) (x : TierObj) (s : State) :
    (placeTier p n x s).data.tiers.objs = KMap.put s.data.tiers.objs (tierId p n) x := by
  unfold placeTier
  split
  · rw [startHotArea_tiers, putObject_objs]
  · exact putObject_objs p n x s

end create

/-! DESTROY and MOVE. -/

section destroy

variable {p : Nat} {x : TierObj} {s : State}

theorem tierOf_find {id : Nat} (h : tierOf s p id = some x) : KMap.find s.data.tiers.objs id = some x := by
  unfold tierOf at h
  split at h
  · exact h
  · cases h

/-- An object removed is gone, and no other object changes. -/
theorem dropObject_objs {id : Nat} (h : KMap.find s.data.tiers.objs id = some x) :
    (dropObject id s).data.tiers.objs = KMap.del s.data.tiers.objs id := by
  have hzero : (zeroObj x s).data = s.data := (zeroObj_stores s x).data
  unfold dropObject
  simp only [h]
  split <;> simp [modTiers, hzero]

theorem tierDestroy_of_absent (hx : tierOf s p (tierId p (rwVal s (0x6010 + p) 2 0)) = none) : tierDestroy p s = tierResult p 5 s := by
  simp only [tierDestroy, hx]

variable (hx : tierOf s p (tierId p (rwVal s (0x6010 + p) 2 0)) = some x)

include hx

theorem tierDestroy_of_locked (hlock : lockCount s (tierId p (rwVal s (0x6010 + p) 2 0)) ≠ 0) : tierDestroy p s = tierResult p 7 s := by
  simp [tierDestroy, hx, hlock]

variable (hlock : lockCount s (tierId p (rwVal s (0x6010 + p) 2 0)) = 0)

include hlock

theorem tierDestroy_of_used (huse : tierInUse s (tierId p (rwVal s (0x6010 + p) 2 0)) = true ∨ 2 ≤ x.role) :
    tierDestroy p s = tierResult p 6 s := by
  simp [tierDestroy, hx, hlock, huse]

variable (huse : tierInUse s (tierId p (rwVal s (0x6010 + p) 2 0)) = false) (hrole : x.role < 2)

include huse hrole

theorem tierDestroy_of_writing (hwriting : x.writing = true) : tierDestroy p s = tierResult p 0xA s := by
  simp [tierDestroy, hx, hlock, huse, Nat.not_le.mpr hrole, hwriting]

theorem tierDestroy_of_free (hwriting : x.writing = false) :
    tierDestroy p s = tierResult p 0 (dropObject (tierId p (rwVal s (0x6010 + p) 2 0)) s) := by
  simp [tierDestroy, hx, hlock, huse, Nat.not_le.mpr hrole, hwriting]

end destroy

section move

variable {p : Nat} {x : TierObj} {s : State}

/-- The MOVE that a partition's registers describe (14 R389). -/
def tierAskedMove (s : State) (p : Nat) : Move :=
  ⟨tierId p (rwVal s (0x6010 + p) 2 0), rwVal s (0x6010 + p) 0xA 0, rwVal s (0x6010 + p) 7 0, rwVal s (0x6010 + p) 8 0,
    rwVal s (0x6010 + p) 9 0, rwVal s (0x6010 + p) 0xB 1, rwVal s (0x6010 + p) 0xC 0⟩

/-- The state with a MOVE behind those of its partition and its destination marked as being written. -/
def queueMove (p : Nat) (m : Move) (s : State) : State :=
  modTiers (fun t => { t with objs := KMap.modify t.objs m.dst (fun o => { o with writing := true }), moves := KMap.upd t.moves p [] (· ++ [m]) }) s

theorem tierMove_of_refused (h : moveCode s p (tierAskedMove s p) ≠ 0) : tierMove p s = tierResult p (moveCode s p (tierAskedMove s p)) s :=
  if_neg h

theorem tierMove_of_taken (h : moveCode s p (tierAskedMove s p) = 0) : tierMove p s = tierResult p 0 (queueMove p (tierAskedMove s p) s) :=
  if_pos h

theorem queueMove_moves (m : Move) : KMap.getD (queueMove p m s).data.tiers.moves p [] = KMap.getD s.data.tiers.moves p [] ++ [m] :=
  KMap.getD_upd_same s.data.tiers.moves p [] (· ++ [m])

theorem queueMove_find {m : Move} (h : KMap.find s.data.tiers.objs m.dst = some x) :
    KMap.find (queueMove p m s).data.tiers.objs m.dst = some { x with writing := true } := by
  simp [queueMove, modTiers, KMap.modify_of_find _ h]

/-- A MOVE that is taken has a destination that the partition may name. -/
theorem tierOf_of_moveCode_zero {m : Move} (h : moveCode s p m = 0) : ∃ x, tierOf s p m.dst = some x := by
  cases hx : tierOf s p m.dst with
  | some x => exact ⟨x, rfl⟩
  | none => simp [moveCode, hx] at h

end move

/-! The end of a MOVE. -/

section complete

variable {part landed : Nat} {data : Bytes} {s : State} {m : Move} {d : TierObj}

/-- The bytes that a MOVE takes, n tiles of them, and the state after they are read (14 R389). -/
def moveSource (m : Move) (n : Nat) (data : Bytes) (s : State) : Bytes × State :=
  if m.src = 0 then (padTo (16384 * n) data, s) else match KMap.find s.data.tiers.objs m.src with
    | some o => readObj o m.srcOff (16384 * n) s
    | none => (List.replicate (16384 * n) 0, s)

/-- The destination range after a MOVE of which n tiles landed: their bytes, and free values in the rest (log 100). -/
def landMove (m : Move) (d : TierObj) (n : Nat) (data : Bytes) (s : State) : State :=
  let u := writeObj d m.dstOff ((moveSource m n data s).1.take (16384 * n)) (moveSource m n data s).2
  let rest := 16384 * (m.tiles - n)
  if rest = 0 then u else drawn (writeObj d (m.dstOff + 16384 * n) (toLE rest (freeVal u (8 * rest))) u)

/-- The queue and the destination after the first MOVE has ended. -/
def endMove (part : Nat) (m : Move) (last : Nat) (r : List Move) (s : State) : State :=
  modTiers (fun t => { t with objs := KMap.modify t.objs m.dst (fun o => { o with writing := false, last := last }),
                              moves := KMap.put t.moves part r }) s

/-- The status of a MOVE of which so many tiles landed (14 R389). -/
def moveLast (m : Move) (landed : Nat) : Nat := if m.tiles ≤ landed then 0 else 3

theorem endMove_moves (last : Nat) (r : List Move) (s : State) : KMap.getD (endMove part m last r s).data.tiers.moves part [] = r :=
  KMap.getD_put_same s.data.tiers.moves part r []

theorem endMove_find (last : Nat) (r : List Move) (h : KMap.find s.data.tiers.objs m.dst = some d) :
    KMap.find (endMove part m last r s).data.tiers.objs m.dst = some { d with writing := false, last := last } := by
  simp [endMove, modTiers, KMap.modify_of_find _ h]

theorem exec_moveComplete_of_queued {r : List Move} (hq : KMap.getD s.data.tiers.moves part [] = m :: r)
    (hd : KMap.find s.data.tiers.objs m.dst = some d) :
    ∃ t, exec (.moveComplete part landed data) s = .next t ∧
      Signals (endMove part m (moveLast m landed) r (landMove m d (min landed m.tiles) data s)) t := by
  have hrest : 16384 * (m.tiles - min landed m.tiles) = 0 ↔ m.tiles ≤ landed := by omega
  have hexec : exec (.moveComplete part landed data) s = .next
      (if 16384 * (m.tiles - min landed m.tiles) = 0 && bit m.signal 15
        then signalCell part (m.signal % 2048) (endMove part m (moveLast m landed) r (landMove m d (min landed m.tiles) data s))
        else endMove part m (moveLast m landed) r (landMove m d (min landed m.tiles) data s)) := by
    change execMoveComplete part landed data s = _
    simp only [execMoveComplete, hq, hd, moveLast, ← hrest]
    rfl
  refine ⟨_, hexec, ?_⟩
  split
  · exact signalCell_signals _ _ _
  · exact .refl _

theorem moveSource_stores (m : Move) (n : Nat) (data : Bytes) (s : State) : Stores s (moveSource m n data s).2 := by
  unfold moveSource
  split
  · exact .refl s
  · split
    · exact readObj_stores s _ _ _
    · exact .refl s

theorem landMove_stores (m : Move) (d : TierObj) (n : Nat) (data : Bytes) (s : State) : Stores s (landMove m d n data s) := by
  unfold landMove
  extract_lets u rest
  have hu : Stores s u := (moveSource_stores m n data s).trans (writeObj_stores _ d _ _)
  split
  · exact hu
  · exact hu.trans ((writeObj_stores u d _ _).trans (drawn_stores _))

/-- The bytes that a MOVE writes to a range: those that landed, then free values. -/
theorem landMove_of_hub (htier : d.tier = 2) (hsrc : m.src = 0) (n : Nat) (data : Bytes) (s : State) :
    ∃ free v, landMove m d n data s = { s with free := free, mem := { s.mem with
      hub := Memory.writeN (Memory.writeN s.mem.hub (d.base + m.dstOff) ((padTo (16384 * n) data).take (16384 * n)))
        (d.base + m.dstOff + 16384 * n) (toLE (16384 * (m.tiles - n)) v) } } := by
  unfold landMove moveSource
  simp only [hsrc, if_true, writeObj_of_hub _ htier]
  split
  · next hrest =>
    rw [hrest]
    exact ⟨_, 0, rfl⟩
  · exact ⟨_, _, by rw [Nat.add_assoc d.base]; rfl⟩

/-- A MOVE from the host into hub SRAM: the landed bytes are the source's, and no byte outside the destination range changes. -/
theorem landMove_hub_bytes (htier : d.tier = 2) (hsrc : m.src = 0) {n : Nat} (hn : n ≤ m.tiles) (data : Bytes) (s : State) :
    (∀ i, i < 16384 * n → Memory.read (landMove m d n data s).mem.hub (d.base + m.dstOff + i) = nth data i 0) ∧
    (∀ a, a < d.base + m.dstOff ∨ d.base + m.dstOff + 16384 * m.tiles ≤ a →
      Memory.read (landMove m d n data s).mem.hub a = Memory.read s.mem.hub a) ∧
    (landMove m d n data s).mem = { s.mem with hub := (landMove m d n data s).mem.hub } := by
  obtain ⟨free, v, hland⟩ := landMove_of_hub htier hsrc n data s
  have hlen : ((padTo (16384 * n) data).take (16384 * n)).length = 16384 * n := by
    rw [List.length_take, length_padTo]
    omega
  rw [hland]
  refine ⟨fun i hi => ?_, fun a ha => ?_, rfl⟩
  · rw [Memory.read_writeN_other _ _ _ _ (.inl (by omega)), Memory.read_writeN_in _ _ _ i (by omega)]
    exact nth_take_padTo hi
  · rw [Memory.read_writeN_other _ _ _ _ (by rw [length_toLE]; omega), Memory.read_writeN_other _ _ _ _ (by omega)]

end complete

/-- Settles O33: each command answers the code of its refusal or carries out its operation, whose writes to the stores leave the objects; the
end of a MOVE sets its object free, and from the host into hub SRAM it writes the landed bytes in place. -/
theorem tierObjects : Obligations.TierObjects := by
  intro s pa tag part r o want id said refused
  have hrefused {v code : Nat} {c : Instr} (hc : (c, v) ∈ [(Instr.tierCreate pa tag part, 1), (.tierDestroy pa tag part, 2), (.tierMove pa tag part, 3)])
      (ht : RowTaken pa r v s) (he : tierCommand part v s = tierResult part code s) : refused v code c :=
    ⟨_, exec_tierCommand hc ht he, tierResult_frame part code s⟩
  refine ⟨fun code => by simp [tierStatus, or_assoc], fun ht => ⟨fun e hplan => ?unplanned, fun x hplan hn => ?unnumbered, fun x n hplan hn => ?created⟩,
    fun ht => ⟨fun hx => ?absent, fun x hx => ?destroy⟩, fun ht => ⟨fun hcode => ?moveRefused, fun hcode => ?moved⟩,
    fun m q d landed data hq hd => ?ended⟩
  case unplanned => exact hrefused (by simp) ht (tierCreate_of_error hplan)
  case unnumbered => exact hrefused (by simp) ht (tierCreate_of_no_number hplan (tierNumber_eq_none hn))
  case created =>
    refine ⟨_, exec_tierCommand (by simp) ht (tierCreate_of_number hplan (tierNumber_eq_some hn)), ?_, ?_, fun j hj => ?_⟩
    · exact (countVal_setCount_of_sub_ne _ _ _ (by decide) (by decide) (by decide)).trans (countVal_setCount_same _ _ _ _ _)
    · exact (congrArg (KMap.find · _) (placeTier_objs part n x s)).trans (KMap.find_put_same _ _ _)
    · exact (congrArg (KMap.find · j) (placeTier_objs part n x s)).trans (KMap.find_put_other _ _ hj)
  case absent => exact hrefused (by simp) ht (tierDestroy_of_absent hx)
  case destroy =>
    refine ⟨fun hlock => hrefused (by simp) ht (tierDestroy_of_locked hx hlock),
      fun hlock huse => hrefused (by simp) ht (tierDestroy_of_used hx hlock huse),
      fun hlock huse hrole hwriting => hrefused (by simp) ht (tierDestroy_of_writing hx hlock huse hrole hwriting),
      fun hlock huse hrole hwriting => ⟨_, exec_tierCommand (by simp) ht (tierDestroy_of_free hx hlock huse hrole hwriting), ?_, fun j hj => ?_⟩⟩
    · exact (congrArg (KMap.find · id) (dropObject_objs (tierOf_find hx))).trans (KMap.find_del_same _ _)
    · exact (congrArg (KMap.find · j) (dropObject_objs (tierOf_find hx))).trans (KMap.find_del_other _ hj)
  case moveRefused => exact hrefused (by simp) ht (tierMove_of_refused hcode)
  case moved =>
    obtain ⟨x, hx⟩ := tierOf_of_moveCode_zero hcode
    exact ⟨_, x, exec_tierCommand (by simp) ht (tierMove_of_taken hcode), tierOf_find hx, queueMove_find (tierOf_find hx),
      queueMove_moves _, rfl⟩
  case ended =>
    obtain ⟨t, hexec, hsignals⟩ := exec_moveComplete_of_queued (landed := landed) (data := data) hq hd
    have hdata := (landMove_stores m d (min landed m.tiles) data s).data
    refine ⟨t, hexec, ?_, ?_, fun htier hsrc => ?_⟩
    · rw [hsignals.data]
      exact endMove_moves _ _ _
    · rw [hsignals.data]
      exact endMove_find _ _ (hdata ▸ hd)
    · rw [hsignals.mem]
      exact landMove_hub_bytes htier hsrc (Nat.min_le_right _ _) data s

end Sys2Proof.Machine

/-! The embedding tables: their commands and the row that carries them (14 R392 to R395, R403). -/

namespace Sys2Proof.Machine

open Sys2Proof

/-! A table in the map of tables. -/

section tables

variable {k : Nat} {s t : State}

/-- A table is read from the map of tables alone. -/
theorem tableAt_of_tables (h : t.data.tables = s.data.tables) (k : Nat) : tableAt t k = tableAt s k := congrArg (KMap.find · k) h

theorem tableAt_of_data (h : t.data = s.data) (k : Nat) : tableAt t k = tableAt s k := tableAt_of_tables (congrArg Data.tables h) k

@[simp] theorem tableAt_putTable_same (k : Nat) (x : Table) (s : State) : tableAt (putTable k x s) k = some x :=
  KMap.find_put_same s.data.tables k x

theorem tableAt_putTable_other {j : Nat} (x : Table) (s : State) (h : j ≠ k) : tableAt (putTable k x s) j = tableAt s j :=
  KMap.find_put_other s.data.tables x h

/-- The object of the key of a table of a partition (14, Objects of this chapter). -/
theorem tabObj_key {table : Nat} (h : table < 64) (part : Nat) : tabObj (64 * part + table) = tableObj part table := by
  have hpart : (64 * part + table) / 64 = part := by omega
  have htable : (64 * part + table) % 64 = table := by omega
  rw [tabObj, hpart, htable]

/-- The result code is an object of the dictionary, so a result leaves the data and the memories (14 OD b .1E). -/
theorem tableResult_frame (k code : Nat) (s : State) : (tableResult k code s).2.data = s.data ∧ (tableResult k code s).2.mem = s.mem := ⟨rfl, rfl⟩

end tables

/-! The row of the table commands. -/

section row

variable {pa : Path} {tag part table v : Nat} {s u : State} {c : Instr}
  (hc : (c, v) ∈ [(Instr.tableCreate pa tag part table, 1), (.tableSeal pa tag part table, 2), (.tableDestroy pa tag part table, 3)])
  (ht : RowTaken pa ⟨objTableCommand, [part, table]⟩ v s)

include hc ht

theorem exec_tableCommand_of_rowTaken {st : Status} (he : tableCommand (64 * part + table) v s = (st, u)) :
    exec c s = RowDone pa tag ⟨objTableCommand, [part, table]⟩ v st u := by
  simp only [List.mem_cons, List.not_mem_nil, Prod.mk.injEq, or_false] at hc
  obtain ⟨rfl, rfl⟩ | ⟨rfl, rfl⟩ | ⟨rfl, rfl⟩ := hc <;> exact commandRow_of_rowTaken ht he

/-- A command that ends with a result code answers that code's status, and its object holds the code. -/
theorem exec_tableCommand_of_result {code : Nat} {st : Status} (htable : table < 64) (hst : (tableResult (64 * part + table) code u).1 = st)
    (he : tableCommand (64 * part + table) v s = tableResult (64 * part + table) code u) :
    exec c s = RowDone pa tag ⟨objTableCommand, [part, table]⟩ v st (tableResult (64 * part + table) code u).2 ∧
      countVal (tableResult (64 * part + table) code u).2 (tableObj part table) 0x1E 0 = code := by
  refine ⟨exec_tableCommand_of_rowTaken hc ht (he.trans (Prod.ext hst rfl)), ?_⟩
  rw [← tabObj_key htable part]
  exact countVal_setCount_same _ _ _ _ _

end row

/-! CREATE. -/

section create

variable {k p : Nat} {s : State} {cs : List WidthClass}

/-- A class but for the RECORDS object that the device gives it (14 R394). -/
def WidthClass.shape (c : WidthClass) : Nat × Nat × Bool := (c.first, c.log2, c.replicated)

/-- The second table and state are the first after RECORDS objects were placed: of the table only the ids of its classes' records may differ, and
no table in the state. -/
structure Placed (x z : Table × State) : Prop where
  table : z.1 = { x.1 with classes := z.1.classes }
  classes : z.1.classes.map WidthClass.shape = x.1.classes.map WidthClass.shape
  tables : z.2.data.tables = x.2.data.tables

theorem Placed.refl (x : Table × State) : Placed x x := ⟨rfl, rfl, rfl⟩

theorem Placed.trans {x y z : Table × State} (h : Placed x y) (g : Placed y z) : Placed x z :=
  ⟨by rw [g.table, h.table], g.classes.trans h.classes, g.tables.trans h.tables⟩

theorem placeRecord_placed {n : Nat} {x z : Table × State} (h : placeRecord k n x = some z) : Placed x z := by
  unfold placeRecord at h
  obtain ⟨m, -, hplace⟩ := Option.bind_eq_some_iff.mp h
  obtain ⟨a, -, rfl⟩ := Option.map_eq_some_iff.mp hplace
  refine ⟨rfl, List.ext_getElem? fun i => ?_, ?_⟩
  · simp only [List.getElem?_map, List.getElem?_modify]
    cases x.1.classes[i]? with
    | none => rfl
    | some c => by_cases hi : n = i <;> simp [hi, WidthClass.shape]
  · dsimp only
    rw [(zeroObj_stores _ _).data]
    rfl

theorem placeRecords_placed {x : Table} {todo : List Nat} {z : Table × State} (h : placeRecords k x todo s = some z) : Placed (x, s) z := by
  refine List.foldlRecOn todo (fun r n => r.bind (placeRecord k n)) (motive := fun r => ∀ z, r = some z → Placed (x, s) z)
    (fun z hz => ?_) (fun r hr n _ z hz => ?_) z h
  · cases hz
    exact .refl _
  · obtain ⟨y, hy, hz⟩ := Option.bind_eq_some_iff.mp hz
    exact (hr y hy).trans (placeRecord_placed hz)

theorem tableCreate_of_exists (h : (tableAt s k).isSome = true) : tableCreate k s = (.state, s) := if_pos h

theorem tableCreate_of_bad_classes (hempty : tableAt s k = none)
    (h : parseClasses (rwDom s (tabObj k) 9 []) (rwVal s (tabObj k) 0x0D 0) (rwVal s (tabObj k) 3 1 = 2) = none) :
    tableCreate k s = tableResult k 1 s := by
  simp [tableCreate, hempty, h]

/-- A CREATE that passes the checks of R392 to R395 in turn writes the drafted table with its RECORDS objects placed. -/
theorem tableCreate_of_placed {y : Table} {v : State} (hp : k / 64 = p) (hempty : tableAt s k = none)
    (hclasses : parseClasses (rwDom s (tabObj k) 9 []) (rwVal s (tabObj k) 0x0D 0) (rwVal s (tabObj k) 3 1 = 2) = some cs)
    (hshards : 1 ≤ (tableDraft s k cs).shards ∧ (tableDraft s k cs).shards ≤ 4096)
    (howned : (tableDraft s k cs).firstOwned ≤ (tableDraft s k cs).lastOwned ∧ (tableDraft s k cs).lastOwned < (tableDraft s k cs).shards)
    (hpartner : (tableDraft s k cs).lastPart = 0xFFFF ∨
      (tableDraft s k cs).firstPart ≤ (tableDraft s k cs).lastPart ∧ (tableDraft s k cs).lastPart < (tableDraft s k cs).shards)
    (hmap : ∃ m, tierOf s p (tableDraft s k cs).shardMap = some m ∧ 8 * (tableDraft s k cs).shards ≤ m.size)
    (hquota : partCarr s p + (tableDraft s k cs).flashBase cs.length ≤ 1048576 * rwVal s (0x3000 + 0x10 * p) 4 0)
    (hcarr : carrCommitted s + (tableDraft s k cs).flashBase cs.length ≤ carrAllocatable s)
    (hspace : ∃ n, KMap.find s.mire.spaces (rwVal s (tabObj k) 0x13 0) = some n ∧ n.owner = p ∧
      (tableDraft s k cs).flashBase cs.length ≤ 16384 * n.size)
    (hnodes : shardsOk s k (tableDraft s k cs) = true)
    (hplace : placeRecords k (tableDraft s k cs) (List.range cs.length) s = some (y, v)) :
    tableCreate k s = tableResult k 0 (setDom (tabObj k) 0x09 (classBytes (rwDom s (tabObj k) 9 []) y)
      (putTable k { y with claimed := (tableDraft s k cs).flashBase cs.length } v)) := by
  obtain ⟨m, hm, hsize⟩ := hmap
  obtain ⟨n, hn, hnowner, hnsize⟩ := hspace
  have hrange : ((decide ((tableDraft s k cs).firstOwned ≤ (tableDraft s k cs).lastOwned) &&
      decide ((tableDraft s k cs).lastOwned < (tableDraft s k cs).shards)) &&
      (decide ((tableDraft s k cs).lastPart = 0xFFFF) || (decide ((tableDraft s k cs).firstPart ≤ (tableDraft s k cs).lastPart) &&
        decide ((tableDraft s k cs).lastPart < (tableDraft s k cs).shards)))) = true := by
    simpa [howned] using hpartner
  have hsome : ((decide ((tableDraft s k cs).shards = 0) || decide (4096 < (tableDraft s k cs).shards)) = false) := by
    simp only [Bool.or_eq_false_iff, decide_eq_false_iff_not]
    omega
  simp only [tableCreate, hp, hempty, hclasses, hrange, hsome, hm, hsize, Nat.not_lt.mpr hquota, Nat.not_lt.mpr hcarr, hn, hnowner, hnsize, hnodes,
    hplace]
  rfl

end create

/-! SEAL and DESTROY. -/

section commands

variable {k : Nat} {s : State} {x : Table}

theorem tableSeal_refused (h : ∀ x, tableAt s k = some x → x.ready = true) : tableSeal k s = (.state, s) := by
  unfold tableSeal
  split
  · rfl
  · next x hx => exact if_pos (h x hx)

/-- The records of a table written through to its namespace, class by class (14 R392, R411). -/
def copyRecords (x : Table) (ns : Nat) (s : State) : State :=
  (List.range x.classes.length).foldl (fun s n => patchSpace (x.recordsSize n / 16384 + 1) ns (x.flashBase n)
    (readI s (recordsBase s (nth x.classes n ⟨0, 0, false, 0⟩)) (x.recordsSize n)) s) s

theorem copyRecords_flashWrites (x : Table) (ns : Nat) (s : State) : FlashWrites s (copyRecords x ns s) :=
  .foldl (fun t _ => patchSpace_flashWrites t _ _ _ _) _ s

/-- SEAL makes the table READY, writes its records through to flash and starts its refresh chain (14 R392, R403). -/
theorem tableSeal_of_building (hx : tableAt s k = some x) (hbuilding : x.ready = false) :
    ∃ u, tableSeal k s = tableResult k 0 u ∧ u.data = (putTable k { x with ready := true } s).data ∧ u.mem = { s.mem with flash := u.mem.flash } := by
  have hcopy := copyRecords_flashWrites x (rwVal (putTable k { x with ready := true } s) (tabObj k) 0x13 0) (putTable k { x with ready := true } s)
  refine ⟨_, by simp only [tableSeal, hx, hbuilding]; rfl, ?_⟩
  split
  · exact ⟨hcopy.stores.data, hcopy.mem⟩
  · exact ⟨hcopy.stores.data, hcopy.mem⟩

theorem tableDestroy_of_absent (h : tableAt s k = none) : tableDestroy k s = (.state, s) := by
  simp only [tableDestroy, h]

theorem tableDestroy_of_areas (hx : tableAt s k = some x) (hareas : x.areas ≠ []) : tableDestroy k s = tableResult k 6 s := by
  simp [tableDestroy, hx, hareas]

/-- Objects dropped one after another are gone. -/
theorem find_foldl_del {m : KMap TierObj} {cs : List WidthClass} {c : WidthClass} (h : c ∈ cs ∨ KMap.find m c.records = none) :
    KMap.find (cs.foldl (fun o c => KMap.del o c.records) m) c.records = none := by
  induction cs generalizing m with
  | nil => exact h.resolve_left List.not_mem_nil
  | cons a r ih =>
    refine ih ?_
    by_cases hrec : c.records = a.records
    · exact .inr (by rw [hrec, KMap.find_del_same])
    · rw [KMap.find_del_other m hrec]
      exact h.imp_left fun hmem => (List.mem_cons.mp hmem).resolve_left fun hca => hrec (congrArg _ hca)

/-- DESTROY of a table without HOT areas leaves neither the table nor its RECORDS objects (14 R392). -/
theorem tableDestroy_of_no_areas (hx : tableAt s k = some x) (hareas : x.areas = []) :
    ∃ u, tableDestroy k s = tableResult k 0 u ∧ tableAt u k = none ∧ (∀ c ∈ x.classes, KMap.find u.data.tiers.objs c.records = none) ∧
      (∀ j, j ≠ k → tableAt u j = tableAt s j) := by
  refine ⟨_, by simp only [tableDestroy, hx, hareas]; rfl, ?_, fun c hc => ?_, fun j hj => ?_⟩
  · exact KMap.find_del_same _ k
  · exact find_foldl_del (.inl hc)
  · simp [tableAt, modTiers, KMap.find_del_other _ hj]

end commands

/-! The hot set (14 R403). -/

theorem exec_hotSetWrite {pa : Path} {tag part table : Nat} {data : Bytes} {s : State} (htable : table < 64)
    (ht : DomainTaken pa ⟨objHotSet, [part, table]⟩ data.length s) :
    exec (.hotSetWrite pa tag part table data) s =
      if 8 * rwVal (dropTransfer pa s) (tableObj part table) 0x14 0 < data.length
      then DomainDone pa tag ⟨objHotSet, [part, table]⟩ data .length (dropTransfer pa s)
      else DomainDone pa tag ⟨objHotSet, [part, table]⟩ data .ok (setDom (tableObj part table) 0x0E data (dropTransfer pa s)) := by
  rw [← tabObj_key htable part]
  split
  · next hlong => exact domainRow_of_domainTaken ht (if_pos hlong)
  · next hlong => exact domainRow_of_domainTaken ht (if_neg hlong)

end Sys2Proof.Machine

/-! The hot copies: the refresh step, and the expiry of a copy (14 R397, R403 to R405). -/

namespace Sys2Proof

@[simp] theorem KMap.find_modify_same {α : Type} (m : KMap α) (k : Nat) (f : α → α) :
    KMap.find (KMap.modify m k f) k = (KMap.find m k).map f := by
  unfold KMap.modify
  split
  · next v hv => rw [KMap.find_put_same, hv, Option.map_some]
  · next hv => rw [hv, Option.map_none]

end Sys2Proof

namespace Sys2Proof.Machine

open Sys2Proof

theorem Reports.data {s t : State} (h : Reports s t) : t.data = s.data := by obtain ⟨_, _, _, _, _, rfl⟩ := h; rfl
theorem Reports.alm {s t : State} (h : Reports s t) : t.alm = s.alm := by obtain ⟨_, _, _, _, _, rfl⟩ := h; rfl

/-! What a refresh leaves. -/

/-- The second state is the first after work on the hot copies of a table: its hot set, the slots and the Almanac are as they were. -/
structure HotWork (k : Nat) (s t : State) : Prop where
  hotSet : (tableAt t k).map (·.hotSet) = (tableAt s k).map (·.hotSet)
  slots : t.slots = s.slots
  alm : t.alm = s.alm

section hot

variable {k : Nat} {s t u : State}

theorem HotWork.refl (k : Nat) (s : State) : HotWork k s s := ⟨rfl, rfl, rfl⟩

theorem HotWork.trans (h : HotWork k s t) (g : HotWork k t u) : HotWork k s u :=
  ⟨g.hotSet.trans h.hotSet, g.slots.trans h.slots, g.alm.trans h.alm⟩

theorem HotWork.foldl {α : Type} {f : State → α → State} (hf : ∀ s a, HotWork k s (f s a)) (l : List α) (s : State) :
    HotWork k s (l.foldl f s) :=
  List.foldlRecOn l f (.refl k s) (fun t h a _ => h.trans (hf t a))

theorem Stores.hotWork (h : Stores s t) : HotWork k s t := ⟨congrArg _ (tableAt_of_data h.data k), h.slots, h.alm⟩

theorem Reports.hotWork (h : Reports s t) : HotWork k s t := ⟨congrArg _ (tableAt_of_data h.data k), h.slots, h.alm⟩

variable (k s)

theorem tableAt_putArea (a : HotArea) :
    tableAt (putArea k a s) k = (tableAt s k).map (fun t => { t with areas := t.areas.map (fun b => if b.obj = a.obj then a else b) }) :=
  KMap.find_modify_same s.data.tables k _

theorem putArea_hotWork (a : HotArea) : HotWork k s (putArea k a s) :=
  ⟨by rw [tableAt_putArea, Option.map_map]; rfl, rfl, rfl⟩

/-- The bucket entry of a copy cleared in its area, where it has one (14 R405). -/
def clearBucket (t : Table) (o : TierObj) (key : Nat) (s : State) : State :=
  match bucketEntry s o t key true with
  | some i => writeBucket o t key i emptyBucket s
  | none => s

/-- An area without a copy, whose slot retires (14 R403, R405). -/
def HotArea.without (a : HotArea) (h : HotCopy) : HotArea := { a with copies := a.copies.erase h, retired := a.retired ++ [h.slot] }

theorem dropCopy_eq (t : Table) (o : TierObj) (h : HotCopy) (a : HotArea) :
    dropCopy k t o h a s = (a.without h, putArea k (a.without h) (clearBucket t o h.key s)) := rfl

theorem clearBucket_stores (t : Table) (o : TierObj) (key : Nat) : Stores s (clearBucket t o key s) := by
  unfold clearBucket
  split
  · exact writeObj_stores s _ _ _
  · exact .refl s

theorem dropCopy_hotWork (t : Table) (o : TierObj) (h : HotCopy) (a : HotArea) : HotWork k s (dropCopy k t o h a s).2 := by
  rw [dropCopy_eq]
  exact (clearBucket_stores s t o h.key).hotWork.trans (putArea_hotWork k _ _)

theorem dropCopies_hotWork (t : Table) (o : TierObj) (gone : List HotCopy) (a : HotArea) :
    HotWork k s (gone.foldl (fun (x : HotArea × State) h => dropCopy k t o h x.1 x.2) (a, s)).2 :=
  List.foldlRecOn gone (fun (x : HotArea × State) h => dropCopy k t o h x.1 x.2) (motive := fun x => HotWork k s x.2) (.refl k s)
    (fun x hx h _ => hx.trans (dropCopy_hotWork k x.2 t o h x.1))

theorem installKey_hotWork (t : Table) (o : TierObj) (key : Nat) : HotWork k s (installKey k t o key s) := by
  unfold installKey
  split
  · extract_lets old
    split
    · exact (bump_reports s _ _ _).hotWork
    · split
      · exact .refl k s
      · exact ((writeObj_stores s _ _ _).trans (writeObj_stores _ _ _ _)).hotWork.trans (putArea_hotWork k _ _)
  · exact (bump_reports s _ _ _).hotWork

theorem refreshArea_hotWork (t : Table) (a : HotArea) : HotWork k s (refreshArea k t a s) := by
  unfold refreshArea
  split
  · exact .refl k s
  · next o _ =>
    extract_lets gone s₁ due held keys s₂
    have hinstall (u : State) (e : Nat × Nat) :
        HotWork k u (if held e.1 then installKey k t o e.1 u else bump (tabObj k) 0x1F 1 u) := by
      split
      · exact installKey_hotWork k u _ _ _
      · exact (bump_reports u _ _ _).hotWork
    have hdrop : HotWork k s s₁ := dropCopies_hotWork k s t o gone a
    have hkeys : HotWork k s₁ s₂ := .foldl hinstall keys s₁
    exact (hdrop.trans hkeys).trans (writeObj_stores s₂ o _ _).hotWork

end hot

/-! The refresh step. -/

section refresh

variable {part table : Nat} {s : State}

theorem exec_refreshStep_of_no_firing (h : firingOf s (refreshNo part table) = none) : exec (.refreshStep part table) s = .next s := by
  change execRefreshStep part table s = _
  simp only [execRefreshStep, h]

/-- A firing that has acted is no longer one that has not (17 R493). -/
theorem firingOf_actedFiring (n : Nat) (s : State) : firingOf (actedFiring n s) n = none := by
  simp only [firingOf, actedFiring, State.modAlm_alm, List.find?_eq_none, List.mem_map, forall_exists_index, and_imp, forall_apply_eq_imp_iff₂]
  intro f _
  by_cases h : f.entry = n <;> simp [h]

/-- The hot set written to a table, as the keys of its bytes (14 R403). -/
def writtenHotSet (s : State) (k : Nat) : List Nat :=
  (List.range ((rwDom s (tabObj k) 0x0E []).length / 8)).map (fun i => leAt (rwDom s (tabObj k) 0x0E []) (8 * i) 8)

/-- A REFRESH firing of a READY table takes the hot set written, then works on the hot copies alone (14 R403, R408). -/
theorem exec_refreshStep_of_firing {f : Firing} {x : Table} (hf : firingOf s (refreshNo part table) = some f)
    (hx : tableAt s (64 * part + table) = some x) (hready : x.ready = true) :
    ∃ t, exec (.refreshStep part table) s = .next t ∧ HotWork (64 * part + table)
      (putTable (64 * part + table) { x with hotSet := writtenHotSet s (64 * part + table) } (actedFiring (refreshNo part table) s)) t := by
  have hacted : (tableAt (actedFiring (refreshNo part table) s) (64 * part + table)).filter (·.ready) = some x :=
    (congrArg (Option.filter (·.ready)) hx).trans (by simp [hready])
  refine ⟨_, (show execRefreshStep part table s = _ by simp only [execRefreshStep, hf, hacted]; rfl), ?_⟩
  have hareas := HotWork.foldl (fun t a => refreshArea_hotWork (64 * part + table) t { x with hotSet := writtenHotSet s (64 * part + table) } a) x.areas
    (putTable (64 * part + table) { x with hotSet := writtenHotSet s (64 * part + table) } (actedFiring (refreshNo part table) s))
  exact (hareas.trans (.foldl (fun t _ => (emit_reports t _).hotWork) _ _)).trans (settle_reports _).hotWork

end refresh

/-! The expiry of a hot copy. -/

section expiry

variable {part table area key : Nat} {s : State} {x : Table} {a : HotArea} {o : TierObj} {c : HotCopy}

/-- Whether a copy would reach the bound on its lag before the next refresh (14 R405). -/
def HotCopy.late (c : HotCopy) (s : State) (k : Nat) : Prop :=
  ∃ f, c.stale = some f ∧ f + 1000 * rwVal s (tabObj k) 0x10 5000 ≤ s.clock.ft + 1024 * rwVal s (tabObj k) 0x0F 1024

variable (hx : tableAt s (64 * part + table) = some x) (hready : x.ready = true) (ha : x.areas.find? (fun a => a.obj = area) = some a)
  (ho : KMap.find s.data.tiers.objs area = some o) (hc : a.copies.find? (fun c => c.key = key) = some c)

include hx hready ha ho hc

theorem exec_hotCopyExpiry :
    (c.late s (64 * part + table) → exec (.hotCopyExpiry part table area key) s =
      .next (bump (tabObj (64 * part + table)) 0x18 1 (dropCopy (64 * part + table) x o c a s).2)) ∧
    (¬c.late s (64 * part + table) → exec (.hotCopyExpiry part table area key) s = .next s) := by
  have hfilter : (tableAt s (64 * part + table)).filter (·.ready) = some x := by simp [hx, hready]
  change (_ → execHotCopyExpiry part table area key s = _) ∧ (_ → execHotCopyExpiry part table area key s = _)
  simp only [execHotCopyExpiry, hfilter, ha, ho, hc, HotCopy.late]
  cases hstale : c.stale with
  | none => simp
  | some f =>
    by_cases hle : f + 1000 * rwVal s (tabObj (64 * part + table)) 0x10 5000 ≤ s.clock.ft + 1024 * rwVal s (tabObj (64 * part + table)) 0x0F 1024
    · simp [hle]
    · simp [hle]

end expiry

/-- The area of a copy that expires is found without it, in the table it belongs to. -/
theorem tableAt_dropCopy {k m : Nat} {s : State} {x : Table} {a : HotArea} (hx : tableAt s k = some x)
    (ha : x.areas.find? (fun a => a.obj = m) = some a) (o : TierObj) (c : HotCopy) :
    ∃ y, tableAt (dropCopy k x o c a s).2 k = some y ∧ y.areas.find? (fun a => a.obj = m) = some (a.without c) := by
  have hobj : a.obj = m := by simpa using List.find?_some ha
  rw [dropCopy_eq, tableAt_putArea, tableAt_of_data (clearBucket_stores s x o c.key).data, hx]
  refine ⟨_, rfl, ?_⟩
  have hkeeps : (fun b : HotArea => decide (b.obj = m)) ∘ (fun b => if b.obj = a.obj then a.without c else b) = fun b => decide (b.obj = m) := by
    funext b
    by_cases hb : b.obj = a.obj
    · simp [hb, HotArea.without]
    · simp [hb]
  dsimp only
  rw [List.find?_map, show (a.without c).obj = a.obj from rfl, hkeeps, ha, Option.map_some, if_pos rfl]

/-- Settles O34: each command is answered by its first check or carries out its operation, whose writes leave the tables; a refresh and an
expiry change the hot copies alone. -/
theorem embeddingTables : Obligations.EmbeddingTables := by
  intro s pa tag part table htable r h k o said
  have hpart : k / 64 = part := by omega
  have ho : tabObj k = o := tabObj_key htable part
  refine ⟨fun ht => ⟨fun hsome => ?exists_, fun hempty => ⟨fun hbad => ?badClasses, ?created⟩⟩,
    fun ht => ⟨fun hx => ?sealRefused, fun x hx hbuilding => ?sealed⟩,
    fun ht => ⟨fun hnone => ?absent, fun x hx => ⟨fun hareas => ?inUse, fun hareas => ?destroyed⟩⟩,
    fun data ht => exec_hotSetWrite htable ht, exec_refreshStep_of_no_firing, fun f x hf hx hready => ?refreshed,
    fun x a m c key hx hready ha hobj hc => ?expiry⟩
  case exists_ => exact exec_tableCommand_of_rowTaken (by simp) ht (tableCreate_of_exists hsome)
  case badClasses =>
    rw [← ho] at hbad
    exact ⟨_, exec_tableCommand_of_result (by simp) ht htable rfl (tableCreate_of_bad_classes hempty hbad), tableResult_frame k 1 s⟩
  case created =>
    intro cs hclasses x need hone hmany howned hlast hpartner hmap hquota hcarr hspace hnodes hplaced
    rw [← ho] at hclasses hspace
    obtain ⟨⟨y, v⟩, hplace⟩ := Option.isSome_iff_exists.mp hplaced
    have hcreate := tableCreate_of_placed hpart hempty hclasses ⟨hone, hmany⟩ ⟨howned, hlast⟩ hpartner hmap hquota hcarr hspace hnodes hplace
    obtain ⟨hdraft, hshapes, htables⟩ := placeRecords_placed hplace
    have hrows := congrArg Table.rows hdraft
    have hshards := congrArg Table.shards hdraft
    exact ⟨_, { y with claimed := need }, exec_tableCommand_of_result (by simp) ht htable rfl hcreate, tableAt_putTable_same _ _ _,
      congrArg Table.ready hdraft, hrows, hshards, hshapes, congrArg Table.areas hdraft,
      fun j hj => (tableAt_putTable_other _ v hj).trans (tableAt_of_tables htables j)⟩
  case sealRefused => exact exec_tableCommand_of_rowTaken (by simp) ht (tableSeal_refused hx)
  case sealed =>
    obtain ⟨u, hseal, hdata, hmem⟩ := tableSeal_of_building hx hbuilding
    refine ⟨_, exec_tableCommand_of_result (by simp) ht htable rfl hseal, ?_, fun j hj => ?_, hmem⟩
    · exact (tableAt_of_data hdata k).trans (tableAt_putTable_same _ _ _)
    · exact (tableAt_of_data hdata j).trans (tableAt_putTable_other _ _ hj)
  case absent => exact exec_tableCommand_of_rowTaken (by simp) ht (tableDestroy_of_absent hnone)
  case inUse =>
    exact ⟨_, exec_tableCommand_of_result (by simp) ht htable rfl (tableDestroy_of_areas hx hareas), tableResult_frame k 6 s⟩
  case destroyed =>
    obtain ⟨u, hdestroy, hgone, hrecords, hothers⟩ := tableDestroy_of_no_areas hx hareas
    exact ⟨_, exec_tableCommand_of_result (by simp) ht htable rfl hdestroy, hgone, hrecords, hothers⟩
  case refreshed =>
    obtain ⟨t, hexec, hwork⟩ := exec_refreshStep_of_firing hf hx hready
    have hfiring : firingOf t (refreshNo part table) = firingOf (actedFiring (refreshNo part table) s) (refreshNo part table) := by
      unfold firingOf
      rw [hwork.alm]
      rfl
    refine ⟨t, hexec, hfiring.trans (firingOf_actedFiring _ _), ?_, hwork.slots⟩
    rw [hwork.hotSet, tableAt_putTable_same, writtenHotSet, ho]
    rfl
  case expiry =>
    obtain ⟨b, hb⟩ := Option.isSome_iff_exists.mp hobj
    obtain ⟨hlate, hfresh⟩ := exec_hotCopyExpiry hx hready ha hb hc
    rw [HotCopy.late, ho] at hlate hfresh
    refine ⟨fun h => ?_, hfresh⟩
    obtain ⟨y, hy, hfind⟩ := tableAt_dropCopy hx ha b c
    refine ⟨_, y, hlate h, ?_, hy, hfind⟩
    rw [countVal_bump_same, dropCopy_eq]
    exact congrArg (· + 1) (countVal_of_dict (clearBucket_stores s x b c.key).dict _ _ _)

end Sys2Proof.Machine

/-! The counters that reports leave: a trace counts what it drops, an event what it loses (22 R605, R614, R618). -/

namespace Sys2Proof.Machine

open Sys2Proof

section counts

variable {sub : Nat} (hsub : sub < 256) (idx d : Nat) (s : State)

include hsub

theorem countVal_annal (hlost : sub ≠ 5) (code severity owner source : Nat) (data : Bytes) :
    countVal (annal code severity owner source data s) idx sub d = countVal s idx sub d := by
  unfold annal
  split
  · rfl
  · dsimp only
    split
    · rfl
    · exact countVal_bump_of_sub_ne 1 d _ hlost hsub (by decide)

theorem countVal_traceTo (hdropped : sub ≠ 0x0E) (h : Nat) (r : TraceRecord) : countVal (traceTo h r s) idx sub d = countVal s idx sub d := by
  unfold traceTo
  dsimp only
  split
  · rfl
  · split
    · exact countVal_bump_of_sub_ne 1 d _ hdropped hsub (by decide)
    · rfl

theorem countVal_trace (hdropped : sub ≠ 0x0E) (code owner source : Nat) (data : Bytes) :
    countVal (trace code owner source data s) idx sub d = countVal s idx sub d :=
  (countVal_traceTo hsub idx d _ hdropped 1 _).trans (countVal_traceTo hsub idx d s hdropped 0 _)

omit hsub in
theorem alarmVectors_dict (s : State) : (alarmVectors s).dict = s.dict := by
  have sendVector_dict (b : Bool) (port vec : Nat) (u : State) : (if b then sendVector port vec u else u).dict = u.dict := by
    unfold sendVector
    split
    · split <;> rfl
    · rfl
  exact (sendVector_dict _ 1 _ _).trans (sendVector_dict _ 0 _ s)

/-- The alarms judged at the end of a command raise no count but that of dropped traces (22 R618). -/
theorem countVal_settle (hdropped : sub ≠ 0x0E) : countVal (settle s) idx sub d = countVal s idx sub d := by
  unfold settle
  split
  · dsimp only
    split
    · exact (countVal_of_dict (alarmVectors_dict _) idx sub d).trans (countVal_trace hsub idx d _ hdropped _ _ _ _)
    · rfl
  · rfl

/-- A commit without write-through raises its own count and records the first such commit (19 R542). -/
theorem countVal_countThrough (hthrough : sub ≠ 4) (hlost : sub ≠ 5) : countVal (countThrough s) idx sub d = countVal s idx sub d := by
  unfold countThrough
  split
  · rfl
  · extract_lets die v
    have hv : countVal v idx sub d = countVal s idx sub d := by
      unfold v
      split
      · exact countVal_annal hsub idx d s hlost _ _ _ _ _
      · rfl
    exact (countVal_bump_of_sub_ne 1 d v hthrough hsub (by decide)).trans hv

end counts

theorem countThrough_reports (s : State) : Reports s (countThrough s) := by
  unfold countThrough
  split
  · exact .refl s
  · extract_lets die v
    have hv : Reports s v := by
      unfold v
      split
      · exact annal_reports s _ _ _ _ _
      · exact .refl s
    exact hv.trans (bump_reports v _ _ _)

/-! The flits that a command takes from the inbox (16 R461, R462). -/

/-- The second state is the first without some of the flits delivered to it. -/
def TakesFlits (s t : State) : Prop := ∃ inbox, t = { s with fab := { s.fab with inbox := inbox } }

section inbox

variable {type : Nat} {s t : State} {f : Flit} {b : Bytes}

theorem takeInbox_takes (h : takeInbox type s = some (f, t)) : TakesFlits s t := by
  unfold takeInbox at h
  split at h
  · cases h
  · cases h
    exact ⟨_, rfl⟩

theorem takeWhole_takes (h : takeWhole type s = some (f, b, t)) : TakesFlits s t := by
  unfold takeWhole at h
  extract_lets same off len parts first done at h
  split at h
  · cases h
  · cases h
    exact ⟨_, rfl⟩

theorem TakesFlits.data (h : TakesFlits s t) : t.data = s.data := by obtain ⟨_, rfl⟩ := h; rfl
theorem TakesFlits.dict (h : TakesFlits s t) : t.dict = s.dict := by obtain ⟨_, rfl⟩ := h; rfl
theorem TakesFlits.levee (h : TakesFlits s t) : t.levee = s.levee := by obtain ⟨_, rfl⟩ := h; rfl
theorem TakesFlits.slots (h : TakesFlits s t) : t.slots = s.slots := by obtain ⟨_, rfl⟩ := h; rfl
theorem TakesFlits.claims (h : TakesFlits s t) : t.claims = s.claims := by obtain ⟨_, rfl⟩ := h; rfl
theorem TakesFlits.mem (h : TakesFlits s t) : t.mem = s.mem := by obtain ⟨_, rfl⟩ := h; rfl
theorem TakesFlits.rounds (h : TakesFlits s t) : t.fab.rounds = s.fab.rounds := by obtain ⟨_, rfl⟩ := h; rfl
theorem TakesFlits.ended (h : TakesFlits s t) : t.fab.ended = s.fab.ended := by obtain ⟨_, rfl⟩ := h; rfl

end inbox

end Sys2Proof.Machine

/-! Updates of embedding rows: at the owner, at a holder, and the whole records (14 R406 to R411). -/

namespace Sys2Proof.Machine

open Sys2Proof

/-! A row updated at its owner. -/

section owner

variable {s : State} {part k : Nat} {v : Update} {x : Table}

/-- The commit FT that an update of a row takes (14 R409). -/
def embedCommit (v : Update) (k : Nat) (s : State) : Nat := max (s.clock.ft + landNs s v.part) (countVal s (tabObj k) 0x1B 0 + 1)

/-- An update without effect, counted with its cause (14 R409). -/
def missUpdate (k cause : Nat) (s : State) : State := setCount (tabObj k) 0x17 cause (bump (tabObj k) 0x16 1 s)

/-- The row update that an EMBED_UPDATE asks for, committed at c (14 R409, R410). -/
def askedRow (v : Update) (k : Nat) (x : Table) (c : Nat) (s : State) : RowUpdate :=
  ⟨v.desc.w48, bits v.desc.w40 31 0, bits v.desc.w34 15 8, x.optimiser, bits v.desc.w34 7 0, c,
    [rwVal s (tabObj k) 4 0x3C23D70A, rwVal s (tabObj k) 5 0x322BCC77, rwVal s (tabObj k) 6 0x3F666666, rwVal s (tabObj k) 7 0x3F7FBE77], v.payload⟩

/-- The state after a row update was computed: counted, or its cause recorded (14 R409). -/
def computeRow (k : Nat) (x : Table) (u : RowUpdate) (s : State) : State :=
  if (applyRow k x u s).1 = 0 then bump (tabObj k) 0x15 1 (applyRow k x u s).2 else missUpdate k (applyRow k x u s).1 (applyRow k x u s).2

theorem exec_embedUpdateApply (hmain : mainOn s = true) (hold : oldestUpdate s part = some v) (hop : v.desc.opcode = 0x12) :
    exec (.embedUpdateApply part) s = .next (settle (embedUpdate v s)) := by
  change execEmbedUpdateApply part s = _
  simp [execEmbedUpdateApply, hold, hop, hmain]

variable (hk : 64 * v.part + v.desc.w32 = k)

include hk

theorem embedUpdate_of_not_ready (h : ∀ x, tableAt s k = some x → x.ready = false) :
    embedUpdate v s = takeUpdate v (embedCommit v k s) 0 (missUpdate k 2 (setCount (tabObj k) 0x1B (embedCommit v k s) s)) := by
  have hnone : (tableAt s k).filter (·.ready) = none := by
    rw [Option.filter_eq_none_iff]
    exact fun x hx => by simp [h x hx]
  subst hk
  simp only [embedUpdate, hnone]
  rfl

variable (hx : tableAt s k = some x) (hready : x.ready = true)

include hx hready

theorem embedUpdate_of_absent (hrow : locateRow x v.desc.w48 = none) :
    embedUpdate v s = takeUpdate v (embedCommit v k s) 0 (missUpdate k 2 (setCount (tabObj k) 0x1B (embedCommit v k s) s)) := by
  have hfilter : (tableAt s k).filter (·.ready) = some x := by simp [hx, hready]
  subst hk
  simp only [embedUpdate, hfilter, hrow]
  rfl

variable {n sh row : Nat} {w : WidthClass} (hrow : locateRow x v.desc.w48 = some (n, w, sh, row))

include hrow

theorem embedUpdate_of_foreign (howns : x.owns sh = false) :
    embedUpdate v s = takeUpdate v (embedCommit v k s) 0 (missUpdate k 1 (setCount (tabObj k) 0x1B (embedCommit v k s) s)) := by
  have hfilter : (tableAt s k).filter (·.ready) = some x := by simp [hx, hready]
  subst hk
  simp only [embedUpdate, hfilter, hrow, howns]
  rfl

variable {a : Nat} {w' : WidthClass} (howns : x.owns sh = true) (haddr : recordAddr s x v.desc.w48 = some (a, w'))

include howns haddr

theorem embedUpdate_of_pnm (hpnm : (pcAt s (localOf a).1).mode = .pnm) : embedUpdate v s = s := by
  have hfilter : (tableAt s k).filter (·.ready) = some x := by simp [hx, hready]
  subst hk
  simp only [embedUpdate, hfilter, hrow, howns, haddr, hpnm]
  rfl

theorem embedUpdate_of_row (hpnm : (pcAt s (localOf a).1).mode ≠ .pnm) :
    embedUpdate v s = takeUpdate v (embedCommit v k s) 0 (forwardRow k x (askedRow v k x (embedCommit v k s) s) (leNat (readI s a 8))
      (setCount (tabObj k) 0x1B (embedCommit v k s) (computeRow k x (askedRow v k x (embedCommit v k s) s) s))) := by
  have hfilter : (tableAt s k).filter (·.ready) = some x := by simp [hx, hready]
  subst hk
  simp only [embedUpdate, hfilter, hrow, howns, haddr, hpnm]
  rfl

end owner

/-- An update without effect commits: it is counted with its cause, leaves the queue, and changes no memory (14 R409). -/
theorem settle_missUpdate (v : Update) (k c cause : Nat) (s : State) :
    let t := settle (takeUpdate v c 0 (missUpdate k cause (setCount (tabObj k) 0x1B c s)))
    countVal t (tabObj k) 0x16 0 = countVal s (tabObj k) 0x16 0 + 1 ∧ countVal t (tabObj k) 0x17 0 = cause ∧
      t.levee.updates = s.levee.updates.filter (fun w => w.id != v.id) ∧ t.levee.committed = s.levee.committed ++ [⟨v, c, 0⟩] ∧ t.mem = s.mem := by
  intro t
  have hreports : Reports (takeUpdate v c 0 (missUpdate k cause (setCount (tabObj k) 0x1B c s))) t := settle_reports _
  refine ⟨?_, ?_, by rw [hreports.levee]; rfl, by rw [hreports.levee]; rfl, hreports.mem⟩
  · calc countVal t (tabObj k) 0x16 0
        = countVal (bump (tabObj k) 0x16 1 (setCount (tabObj k) 0x1B c s)) (tabObj k) 0x16 0 :=
          (countVal_settle (by decide) _ _ _ (by decide)).trans (countVal_setCount_of_sub_ne _ _ _ (by decide) (by decide) (by decide))
      _ = countVal s (tabObj k) 0x16 0 + 1 := by
          rw [countVal_bump_same, countVal_setCount_of_sub_ne _ _ _ (by decide) (by decide) (by decide)]
  · exact (countVal_settle (by decide) _ _ _ (by decide)).trans (countVal_setCount_same _ _ _ _ _)

/-- A new record begins with its commit FT and its step (14 R395, R410). -/
theorem newRecord_header {s : State} {p d : Nat} {u : RowUpdate} {old rec : Bytes} {g : List Nat} (h : newRecord s p u old d g = some rec) :
    leAt rec 0 8 = u.commit % 2 ^ 64 ∧ leAt rec 8 4 = u.step % 2 ^ 32 := by
  obtain ⟨tail, rfl⟩ : ∃ tail, rec = toLE 8 u.commit ++ (toLE 4 u.step ++ tail) := by
    unfold newRecord at h
    extract_lets r seed row st at h
    split at h
    · cases h
      exact ⟨_, by simp only [List.append_assoc]; rfl⟩
    · cases h
  exact ⟨leAt_append_toLE [] _ 8 u.commit, leAt_append_toLE (toLE 8 u.commit) tail 4 u.step⟩

/-! A row at a holder. -/

section holder

variable {s : State} {k key : Nat} {x : Table}

/-- Where a record stands is read from the data alone. -/
theorem recordAddr_of_data {s t : State} (h : t.data = s.data) (x : Table) (key : Nat) : recordAddr t x key = recordAddr s x key := by
  unfold recordAddr recordsBase
  rw [h]

theorem tableAt_needResync (k key : Nat) (s : State) : tableAt (needResync k key s) k =
    (tableAt s k).map (fun t => if t.resync.contains key then t else { t with resync := t.resync ++ [key] }) :=
  KMap.find_modify_same s.data.tables k _

theorem tableAt_staleCopies (k key c : Nat) (s : State) : ∃ f : Table → List HotArea, tableAt (staleCopies k key c s) k =
    (tableAt s k).map (fun t => { t with areas := f t }) := ⟨_, KMap.find_modify_same s.data.tables k _⟩

theorem mem_resync_of_needResync (hx : tableAt s k = some x) :
    ∃ y, tableAt (needResync k key s) k = some y ∧ key ∈ y.resync := by
  rw [tableAt_needResync, hx]
  refine ⟨_, rfl, ?_⟩
  dsimp only
  split
  · next hmem => exact List.contains_iff_mem.mp hmem
  · simp

/-- The current flag written to the header of one HOT area (14 R397, R407). -/
def flagArea (current : Bool) (s : State) (a : HotArea) : State :=
  match KMap.find s.data.tiers.objs a.obj with
  | some o => writeObj o 6 (toLE 1 (b2n current)) s
  | none => s

theorem flagArea_stores (current : Bool) (s : State) (a : HotArea) : Stores s (flagArea current s a) := by
  unfold flagArea
  split
  · exact writeObj_stores s _ _ _
  · exact .refl s

/-- The current flag of a table is written to its HOT areas: nothing else of the table changes, nor of the state but the stores (14 R407). -/
theorem updateCurrent_of_table (hx : tableAt s k = some x) :
    ∃ u areas, Stores s u ∧ updateCurrent k s = putTable k { x with areas := areas } u := by
  have hflags : Stores s (x.areas.foldl (flagArea (replicasCurrent s k x)) s) := .foldl (flagArea_stores _) x.areas s
  refine ⟨_, x.areas.map (fun a => { a with current := replicasCurrent s k x }), hflags, ?_⟩
  simp only [updateCurrent, hx]
  rfl

theorem writeRecord14_data (k : Nat) (x : Table) (key : Nat) (rec : Bytes) (s : State) : (writeRecord14 k x key rec s).data = s.data := by
  unfold writeRecord14
  split
  · rfl
  · extract_lets u ns
    have hu : u.data = s.data := writeI_data s _ _
    split
    · exact (patchSpace_flashWrites u _ _ _ _).stores.data.trans hu
    · exact (countThrough_reports u).data.trans hu

theorem countVal_writeRecord14 {sub : Nat} (hsub : sub < 256) (hthrough : sub ≠ 4) (hlost : sub ≠ 5) (k : Nat) (x : Table) (key : Nat) (rec : Bytes)
    (idx d : Nat) (s : State) : countVal (writeRecord14 k x key rec s) idx sub d = countVal s idx sub d := by
  unfold writeRecord14
  split
  · rfl
  · extract_lets u ns
    have hu : countVal u idx sub d = countVal s idx sub d := countVal_of_dict (writeI_stores s _ _).dict idx sub d
    split
    · exact (countVal_of_dict (patchSpace_flashWrites u _ _ _ _).stores.dict idx sub d).trans hu
    · exact (countVal_countThrough hsub idx d u hthrough hlost).trans hu

end holder

/-! A forward. -/

section forward

variable {s s' : State} {f : Flit} {b : Bytes} {k : Nat}

/-- The update that a forward carries (14 R406; 16 R462). -/
def forwardedRow (b : Bytes) : RowUpdate :=
  ⟨leAt b 0 8, leAt b 8 4, leAt b 12 1, leAt b 13 1, leAt b 14 1, leAt b 16 8, (List.range 4).map (fun i => leAt b (32 + 4 * i) 4), b.drop 64⟩

variable (htake : takeWhole 7 s = some (f, b, s'))

include htake

/-- A device in role TEST drops a forward (19 R553). -/
theorem exec_forward_of_test (hrole : rwVal s 0x2001 1 3 = 4) : exec .forward s = .next s' := by
  have hrole' : rwVal s' 0x2001 1 3 = 4 := (rwVal_of_dict (takeWhole_takes htake).dict _ _ _).trans hrole
  change execForward s = _
  simp only [execForward, htake, hrole', if_true]

variable {x : Table} {a : Nat} {w : WidthClass} (hk : 64 * f.owner + leAt f.data 0 4 % 64 = k) (hrole : rwVal s 0x2001 1 3 ≠ 4)
  (hx : tableAt s k = some x) (hready : x.ready = true) (haddr : recordAddr s x (leAt b 0 8) = some (a, w))

include hk hrole hx hready haddr

/-- What a holder does with a forward of a row it holds: the commits and the list decide (14 R406, R408). -/
theorem exec_forward_of_record : exec .forward s = .next (
    if leNat (readI s' a 8) != leAt b 24 8 || x.resync.contains (leAt b 0 8) then updateCurrent k (needResync k (leAt b 0 8) s')
    else if (applyRow k x (forwardedRow b) s').1 = 0 then
      settle (bump (tabObj k) 0x1D 1 (bump (tabObj k) 0x15 1 (applyRow k x (forwardedRow b) s').2))
    else (applyRow k x (forwardedRow b) s').2) := by
  have htakes := takeWhole_takes htake
  have hrole' : rwVal s' 0x2001 1 3 ≠ 4 := fun h => hrole ((rwVal_of_dict htakes.dict _ _ _).symm.trans h)
  have hfilter : (tableAt s' k).filter (·.ready) = some x := by simp [tableAt_of_data htakes.data, hx, hready]
  have haddr' : recordAddr s' x (leAt b 0 8) = some (a, w) := (recordAddr_of_data htakes.data x _).trans haddr
  subst hk
  change execForward s = _
  simp only [execForward, htake, hrole', if_false, hfilter, haddr', ← apply_ite Host.Outcome.next]
  rfl

end forward

/-! A whole record. -/

section record

variable {s s' : State} {f : Flit} {b : Bytes} {k key a : Nat} {x : Table} {w : WidthClass}

/-- A whole record written to its row, which waits no longer (14 R408). -/
def takeRecord (k key : Nat) (x : Table) (b : Bytes) (s : State) : State :=
  staleCopies k key (leAt b 0 8) (writeRecord14 k x key b (putTable k { x with resync := x.resync.erase key } (bump (tabObj k) 0x19 1 s)))

theorem exec_resyncRecord (htake : takeWhole 8 s = some (f, b, s')) (hk : 64 * f.owner + leAt f.data 0 4 % 64 = k) (hx : tableAt s k = some x)
    (hready : x.ready = true) (haddr : recordAddr s x key = some (a, w)) :
    exec (.resyncRecord key) s = .next (
      if x.resync.contains key && b.length = x.stride w then settle (updateCurrent k (takeRecord k key x b s')) else s') := by
  have htakes := takeWhole_takes htake
  have hfilter : (tableAt s' k).filter (·.ready) = some x := by simp [tableAt_of_data htakes.data, hx, hready]
  have haddr' : recordAddr s' x key = some (a, w) := (recordAddr_of_data htakes.data x _).trans haddr
  subst hk
  change execResyncRecord key s = _
  simp only [execResyncRecord, htake, hfilter, haddr', ← apply_ite Host.Outcome.next]
  rfl

/-- A record taken takes its row off the list of those that wait, and is counted. -/
theorem takeRecord_table (k key : Nat) (x : Table) (b : Bytes) (s : State) :
    ∃ y, tableAt (takeRecord k key x b s) k = some y ∧ y.resync = x.resync.erase key := by
  obtain ⟨g, hstale⟩ := tableAt_staleCopies k key (leAt b 0 8)
    (writeRecord14 k x key b (putTable k { x with resync := x.resync.erase key } (bump (tabObj k) 0x19 1 s)))
  rw [takeRecord, hstale, tableAt_of_data (writeRecord14_data k x key b _), tableAt_putTable_same]
  exact ⟨_, rfl, rfl⟩

theorem countVal_takeRecord (k key : Nat) (x : Table) (b : Bytes) (s : State) :
    countVal (takeRecord k key x b s) (tabObj k) 0x19 0 = countVal s (tabObj k) 0x19 0 + 1 :=
  (countVal_writeRecord14 (by decide) (by decide) (by decide) k x key b _ _ _).trans (countVal_bump_same _ _ _ s)

end record

/-- Settles O35: an update ends at the first of its causes or is computed, forwarded and committed; a holder applies a forward in order or
puts its row on the list; a whole record takes its row off it. -/
theorem embeddingUpdates : Obligations.EmbeddingUpdates := by
  refine ⟨fun s part v hmain hold hop htable => ?owner, fun s p u old rec d g h => newRecord_header h, fun s s' f b htake => ?forward,
    fun s s' f b key x a w htake => ?record⟩
  case owner =>
    intro k o c dead
    have ho : tabObj k = o := tabObj_key htable v.part
    have hexec := exec_embedUpdateApply hmain hold hop
    have hc : embedCommit v k s = c := by rw [embedCommit, ho]
    have hdead {cause : Nat} (h : embedUpdate v s = takeUpdate v (embedCommit v k s) 0 (missUpdate k cause (setCount (tabObj k) 0x1B (embedCommit v k s) s))) :
        dead cause := by
      have hmiss := settle_missUpdate v k c cause s
      rw [ho] at hmiss
      rw [h, hc, ho] at hexec
      exact ⟨_, hexec, hmiss⟩
    refine ⟨fun hx => hdead (embedUpdate_of_not_ready rfl hx), fun x hx hready => ⟨fun hrow => hdead (embedUpdate_of_absent rfl hx hready hrow),
      fun n w sh row hrow => ⟨fun howns => hdead (embedUpdate_of_foreign rfl hx hready hrow howns), fun a w' howns haddr => ⟨fun hpnm => ?_, fun hpnm => ?_⟩⟩⟩⟩
    · rw [hexec, embedUpdate_of_pnm rfl hx hready hrow howns haddr hpnm]
    · intro rates u y z
      rw [hexec, embedUpdate_of_row rfl hx hready hrow howns haddr hpnm, hc, askedRow, computeRow, missUpdate, ho]
  case forward =>
    intro k
    refine ⟨exec_forward_of_test htake, fun x a w hrole hx hready haddr => ?_⟩
    intro u
    have htakes := takeWhole_takes htake
    have hexec := exec_forward_of_record htake rfl hrole hx hready haddr
    refine ⟨fun hlate => ?_, fun hprev hlist happly => ?_, fun hprev hlist happly => ?_⟩
    · obtain ⟨y, hy, hmem⟩ := mem_resync_of_needResync (key := u.key) ((tableAt_of_data htakes.data k).trans hx)
      obtain ⟨v, areas, hv, hcurrent⟩ := updateCurrent_of_table hy
      rw [if_pos (by simpa using hlate), hcurrent] at hexec
      exact ⟨_, _, hexec, tableAt_putTable_same _ _ _, hmem, hv.levee.trans htakes.levee⟩
    · rw [hexec, if_neg (by simpa using ⟨hprev, hlist⟩)]
      exact congrArg _ (if_pos happly)
    · rw [hexec, if_neg (by simpa using ⟨hprev, hlist⟩)]
      exact congrArg _ (if_neg happly)
  case record =>
    intro k hx hready haddr
    have htakes := takeWhole_takes htake
    have hexec := exec_resyncRecord htake rfl hx hready haddr
    refine ⟨fun hlist hlen => ?_, fun hlist => ?_⟩
    · obtain ⟨y, hy, herase⟩ := takeRecord_table k key x b s'
      obtain ⟨v, areas, hv, hcurrent⟩ := updateCurrent_of_table hy
      rw [if_pos (by simpa using ⟨hlist, hlen⟩), hcurrent] at hexec
      refine ⟨_, _, hexec, (tableAt_of_data (settle_reports _).data k).trans (tableAt_putTable_same _ _ _), herase, ?_⟩
      calc countVal (settle (putTable k { y with areas := areas } v)) (tabObj k) 0x19 0
          = countVal (takeRecord k key x b s') (tabObj k) 0x19 0 :=
            (countVal_settle (by decide) _ _ _ (by decide)).trans (countVal_of_dict hv.dict _ _ _)
        _ = countVal s (tabObj k) 0x19 0 + 1 := by rw [countVal_takeRecord, countVal_of_dict htakes.dict]
    · rw [hexec, if_neg (by simp [hlist])]

end Sys2Proof.Machine

/-! Watermarks of replicated rows, and lookups of remote rows (14 R399, R407; 16 R462). -/

namespace Sys2Proof.Machine

open Sys2Proof

/-! Watermarks. -/

section marks

variable {part table src : Nat} {s : State} {x : Table} (hx : tableAt s (64 * part + table) = some x) (hready : x.ready = true)

/-- A watermark sent to one node after another leaves to all of them, newest first, and changes nothing else. -/
theorem foldl_sendWatermark (part table : Nat) (ns : List Nat) (s : State) :
    ns.foldl (fun s n => emit (.watermark n part table s.clock.ft) s) s =
      { s with outs := (ns.map (fun n => Out.watermark n part table s.clock.ft)).reverse ++ s.outs } := by
  induction ns generalizing s with
  | nil => rfl
  | cons n r ih =>
    rw [List.foldl_cons, ih]
    simp [emit, State.modOuts]

/-- The mark that a watermark leaves: current where no row of its owner waits for its record (14 R407, R408). -/
def takenMark (s : State) (k : Nat) (x : Table) (src mark : Nat) : OwnerMark :=
  ⟨mark, mark, x.resync.all (fun key => ownerNode s k x (bits key 63 48) != src)⟩

include hx hready

theorem exec_watermarkSend : exec (.watermarkSend part table) s = .next { s with
    outs := ((holderNodes s (64 * part + table) x).map (fun n => Out.watermark n part table s.clock.ft)).reverse ++ s.outs } := by
  have hfilter : (tableAt s (64 * part + table)).filter (·.ready) = some x := by simp [hx, hready]
  change execWatermarkSend part table s = _
  simp only [execWatermarkSend, hfilter, foldl_sendWatermark]

/-- The mark of one owner replaced in a table, and the current flag of its HOT areas with it (14 R407). -/
theorem exec_watermarkReceive (mark : Nat) : exec (.watermarkReceive part table src mark) s =
    .next (updateCurrent (64 * part + table) (putTable (64 * part + table)
      { x with marks := KMap.put x.marks src (takenMark s (64 * part + table) x src mark) } s)) := by
  have hfilter : (tableAt s (64 * part + table)).filter (·.ready) = some x := by simp [hx, hready]
  change execWatermarkReceive part table src mark s = _
  simp only [execWatermarkReceive, hfilter, takenMark]

theorem exec_replicaStale {m : OwnerMark} (hm : KMap.find x.marks src = some m) : exec (.replicaStale part table src) s = .next (
    if m.at_ + 1000 * rwVal s (tabObj (64 * part + table)) 0x11 50000 < s.clock.ft then
      updateCurrent (64 * part + table) (putTable (64 * part + table) { x with marks := KMap.put x.marks src { m with current := false } } s)
    else s) := by
  have hfilter : (tableAt s (64 * part + table)).filter (·.ready) = some x := by simp [hx, hready]
  change execReplicaStale part table src s = _
  simp only [execReplicaStale, hfilter, hm, apply_ite Host.Outcome.next]

end marks

/-- A table put with its current flag written is that table but for its areas' flags. -/
theorem tableAt_updateCurrent_putTable (k : Nat) (x : Table) (s : State) :
    ∃ areas, tableAt (updateCurrent k (putTable k x s)) k = some { x with areas := areas } := by
  obtain ⟨u, areas, -, hcurrent⟩ := updateCurrent_of_table (tableAt_putTable_same k x s)
  exact ⟨areas, by rw [hcurrent, tableAt_putTable_same]⟩

/-! Lookups. -/

/-- A lookup request is answered key by key, in order (14 R399; 16 R462). -/
theorem exec_lookupReq {s s' : State} {f : Flit} (htake : takeInbox 4 s = some (f, s')) :
    exec .lookupReq s = .next ((List.range (leAt f.data 12 2 / 16)).foldl
      (fun s i => answerKey f (64 * f.owner + leAt f.data 15 1 % 64) i s) s') := by
  have htab : (64 * f.owner + leAt f.data 15 1 % 64) % 64 = leAt f.data 15 1 % 64 := by omega
  change execLookupReq s = _
  simp only [execLookupReq, htake, answerKey, htab] <;> rfl

/-- Bytes written to tile SRAM stand at their place, and no other byte of any memory changes (03 R82). -/
theorem writeTile_slice {data : Bytes} {off n : Nat} (h : off + n ≤ data.length) (tile a : Nat) (s : State) :
    (writeTile tile a (slice data off n) s).mem = { s.mem with tile := (writeTile tile a (slice data off n) s).mem.tile } ∧
    (∀ i, i < n → Memory.read (writeTile tile a (slice data off n) s).mem.tile (0x100000000 * tile + a + i) = nth data (off + i) 0) ∧
    (∀ b, b < 0x100000000 * tile + a ∨ 0x100000000 * tile + a + n ≤ b →
      Memory.read (writeTile tile a (slice data off n) s).mem.tile b = Memory.read s.mem.tile b) :=
  ⟨rfl, Memory.read_writeN_slice s.mem.tile h⟩

/-- Whether an ask of a round is the one that a returned row answers (14 R399). -/
def answersAsk (s : State) (f : Flit) (r : ExRound) (a : Ask) : Bool :=
  r.slot / 4 = f.owner && rwVal s (0x7200 + r.slot) 1 0 = leAt f.data 0 4 && r.batch = leAt f.data 4 4 && a.tag = f.tag
    && a.width != 0 && a.item = leAt f.data 8 4 / a.width && a.table = leAt f.data 15 1 % 64 && !a.done

/-- The rounds with one ask of one round replaced. -/
def replaceAsk (rounds : List ExRound) (r : ExRound) (a b : Ask) : List ExRound :=
  rounds.map (fun x => if x = r then { x with asks := x.asks.map (fun c => if c = a then b else c) } else x)

theorem exec_lookupRsp {s s' : State} {f : Flit} {r : ExRound} {a : Ask} (htake : takeInbox 5 s = some (f, s'))
    (hask : s.fab.rounds.findSome? (fun r => (r.asks.find? (answersAsk s f r)).map (fun a => (r, a))) = some (r, a)) :
    (leAt f.data 14 1 = 0 → exec .lookupRsp s = .next (writeTile a.tile (a.dest + leAt f.data 8 4 % a.width)
      (slice f.data 16 (min (leAt f.data 12 2) (a.width - leAt f.data 8 4 % a.width)))
      (s'.modFab (fun c => { c with rounds := replaceAsk c.rounds r a { a with got := a.got + leAt f.data 12 2, done := f.last } })))) ∧
    (leAt f.data 14 1 ≠ 0 → exec .lookupRsp s =
      .next (s'.modFab (fun c => { c with rounds := replaceAsk c.rounds r a { a with dead := true } }))) := by
  have htakes := takeInbox_takes htake
  have hask' : s'.fab.rounds.findSome? (fun r => (r.asks.find? (answersAsk s' f r)).map (fun a => (r, a))) = some (r, a) := by
    have hsame : answersAsk s' f = answersAsk s f := by
      funext r a
      rw [answersAsk, rwVal_of_dict htakes.dict, answersAsk]
    rw [htakes.rounds, hsame, hask]
  unfold answersAsk at hask'
  change (_ → execLookupRsp s = _) ∧ (_ → execLookupRsp s = _)
  refine ⟨fun hok => ?_, fun hfail => ?_⟩
  · simp only [execLookupRsp, htake, hask', hok]
    rfl
  · simp only [execLookupRsp, htake, hask', hfail]
    rfl

/-- Settles O36: a watermark reaches every holder, and a mark that comes or ages changes its owner's entry alone; a lookup is answered key by
key; a returned row is written at its place. -/
theorem embeddingFabric : Obligations.EmbeddingFabric := by
  refine ⟨fun s part table src mark x htable hx hready => ?marks, fun s s' f htake => exec_lookupReq htake, fun s s' f r a htake => ?rows⟩
  case marks =>
    intro k
    have ho : tabObj k = tableObj part table := tabObj_key htable part
    refine ⟨exec_watermarkSend hx hready, ?_, fun m hm => ?_⟩
    · obtain ⟨areas, hy⟩ := tableAt_updateCurrent_putTable k { x with marks := KMap.put x.marks src (takenMark s k x src mark) } s
      exact ⟨_, _, exec_watermarkReceive hx hready mark, hy, KMap.find_put_same _ _ _, fun n hn => KMap.find_put_other _ _ hn, rfl⟩
    · have hexec := exec_replicaStale hx hready hm
      rw [show tabObj (64 * part + table) = _ from ho] at hexec
      refine ⟨fun hold => ?_, fun hyoung => by rw [hexec, if_neg (Nat.not_lt.mpr hyoung)]⟩
      rw [if_pos hold] at hexec
      obtain ⟨areas, hy⟩ := tableAt_updateCurrent_putTable k { x with marks := KMap.put x.marks src { m with current := false } } s
      exact ⟨_, _, hexec, hy, KMap.find_put_same _ _ _⟩
  case rows =>
    intro off fits marked hask n base
    have htakes := takeInbox_takes htake
    obtain ⟨hok, hfail⟩ := exec_lookupRsp htake hask
    refine ⟨fun hst hlen => ⟨_, hok hst, ?_⟩, fun hst => ⟨_, hfail hst, htakes.mem, ?_⟩⟩
    · obtain ⟨hmem, hin, hout⟩ := writeTile_slice hlen a.tile (a.dest + off % a.width)
        (s'.modFab (fun c => { c with rounds := replaceAsk c.rounds r a { a with got := a.got + leAt f.data 12 2, done := f.last } }))
      rw [State.modFab_mem, htakes.mem] at hmem hout
      rw [← Nat.add_assoc] at hin hout
      exact ⟨hmem, congrArg (replaceAsk · r a _) htakes.rounds, hin, hout⟩
    · exact congrArg (replaceAsk · r a _) htakes.rounds

end Sys2Proof.Machine

/-! Exchange writes, fabric management frames and the end of an exchange round (14 R400; 16 R459, R462 to R466). -/

namespace Sys2Proof.Machine

open Sys2Proof

/-! A received WRITE. -/

section write

variable {s s' : State} {f : Flit} (htake : takeInbox 2 s = some (f, s'))

/-- The slot that a WRITE names: one that holds resources, of the flit's partition, under its exchange id (16 R462, R463). -/
def writeSlot (s : State) (f : Flit) : Option (Nat × Slot) :=
  s.slots.find? (fun e => e.1 / 4 = f.owner && e.2.state.holds && rwVal s (0x7200 + e.1) 1 0 = leAt f.data 0 4)

/-- The response to a WRITE (16 R465). -/
def writeAnswer (f : Flit) (st : Nat) (s : State) : State :=
  sendFlit 3 1 f.src f.owner f.tag true (f.data.take 12 ++ toLE 2 0 ++ toLE 1 st ++ toLE 1 0) s

/-- The tile that holds the exchange window of a slot, and the address that a WRITE reaches in it (16 R463). -/
def writeTarget (s : State) (f : Flit) (k : Nat) (sl : Slot) : Nat × Nat :=
  (nth sl.tileMap (bits (rwVal s (0x7200 + k) 2 0) 31 26) 0,
    bits (rwVal s (0x7200 + k) 2 0) 25 0 + leAt f.data 4 4 % exchangeAreas s k * rwVal s (0x7200 + k) 3 0 + leAt f.data 8 4)

theorem TakesFlits.exchangeAreas {s s' : State} (h : TakesFlits s s') (k : Nat) : exchangeAreas s' k = exchangeAreas s k := by
  obtain ⟨_, rfl⟩ := h
  rfl

include htake

theorem exec_exchangeWrite_of_no_slot (hslot : writeSlot s f = none) : exec .exchangeWrite s = .next (writeAnswer f 2 s') := by
  have htakes := takeInbox_takes htake
  unfold writeSlot at hslot
  change execExchangeWrite s = _
  simp only [execExchangeWrite, htake, htakes.slots, rwVal_of_dict htakes.dict, hslot]
  rfl

/-- A WRITE for a slot: past the area, of a batch that has ended, of another owner's bytes, or taken (16 R463, R465). -/
theorem exec_exchangeWrite_of_slot {k : Nat} {sl : Slot} (hslot : writeSlot s f = some (k, sl)) :
    exec .exchangeWrite s = .next (
      if rwVal s (0x7200 + k) 3 0 < leAt f.data 8 4 + leAt f.data 12 2 then writeAnswer f 3 (bump (0x7200 + k) 6 1 s')
      else if leAt f.data 4 4 < KMap.getD s.fab.ended k 0 then writeAnswer f 1 (bump (0x7200 + k) 5 1 s')
      else if ownerOf s 0 (writeTarget s f k sl).1 (writeTarget s f k sl).2 != f.owner ||
          ownerOf s 0 (writeTarget s f k sl).1 ((writeTarget s f k sl).2 + leAt f.data 12 2 - 1) != f.owner then
        writeAnswer f 4 (bump (0x7200 + k) 6 1 (firewallHit f.owner (srcTile (writeTarget s f k sl).1) (writeTarget s f k sl).2 s'))
      else writeAnswer f 0 (writeTile (writeTarget s f k sl).1 (writeTarget s f k sl).2 (slice f.data 16 (leAt f.data 12 2)) s')) := by
  have htakes := takeInbox_takes htake
  have howner (tile a : Nat) : ownerOf s' 0 tile a = ownerOf s 0 tile a := by rw [ownerOf, htakes.claims, ownerOf]
  unfold writeSlot at hslot
  change execExchangeWrite s = _
  simp only [execExchangeWrite, htake, htakes.slots, rwVal_of_dict htakes.dict, hslot, htakes.ended, htakes.exchangeAreas, howner,
    apply_ite Host.Outcome.next]
  rfl

end write

/-! Fabric management frames. -/

/-- A received FM_RSP joins the ring while it has room (16 OD 0x7002.02). -/
theorem exec_fmRsp {s s' : State} {f : Flit} (htake : takeInbox 0xA s = some (f, s'))
    (hroom : (KMap.getD s.dict.blobs (okey 0x7002 2) []).length < 16 * 244) :
    exec .fmRsp s = .next (setBlob 0x7002 2 (KMap.getD s.dict.blobs (okey 0x7002 2) [] ++ toLE 4 f.src ++ padTo 240 f.data) s') := by
  have htakes := takeInbox_takes htake
  change execFmRsp s = _
  simp only [execFmRsp, htake, htakes.dict, Nat.not_le.mpr hroom, if_false]

section frameOut

variable {s : State} {data : Bytes}

theorem fmFrameOut_of_no_origin (h : rwVal s 0x7000 3 0 = 0) : fmFrameOut data s = (.state, s) := if_pos h

theorem fmFrameOut_of_length (h : rwVal s 0x7000 3 0 ≠ 0) (hlen : data.length < 20 ∨ 244 < data.length) : fmFrameOut data s = (.length, s) := by
  simp [fmFrameOut, h, hlen]

theorem fmFrameOut_of_frame (h : rwVal s 0x7000 3 0 ≠ 0) (hmin : 20 ≤ data.length) (hmax : data.length ≤ 244) :
    fmFrameOut data s = (.ok, sendFlit 9 0 (leAt data 0 4 % 2 ^ 17) ownSystem 0 true (data.drop 4) s) := by
  simp [fmFrameOut, h, Nat.not_lt.mpr hmin, Nat.not_lt.mpr hmax]

end frameOut

/-! The end of a round. -/

section rounds

/-- What the end of a round does to the fabric besides the round itself: nothing (16 R465; 14 R400). -/
theorem endWrites_fab (k : Nat) (tags : List Nat) (s : State) : (endWrites k tags s).fab = s.fab := by
  refine foldl_frame State.fab (fun s t => ?_) tags s
  dsimp only
  split
  · rfl
  · split <;> rfl

theorem tilePut_fab (own tile a : Nat) (bs : Bytes) (s : State) : (tilePut own tile a bs s).fab = s.fab := by
  unfold tilePut
  split
  · rfl
  · obtain ⟨_, _, _, _, _, heq⟩ := firewallHit_reports s own (srcTile tile) a
    rw [heq]

theorem replaceRow_fab (k : Nat) (a : Ask) (s : State) : (replaceRow k a s).fab = s.fab := tilePut_fab _ _ _ _ s

variable {part slot stage k : Nat} {missed : List Nat} {s : State} {r : ExRound}

/-- Whether what a round misses is asked of partners (14 R400): the image allows it, the batch has not done so, and something is missing. -/
def roundAsks (s : State) (k : Nat) (missed : List Nat) (r : ExRound) : Prop :=
  r.extra = false ∧ bit (((KMap.getD s.slots k {}).image.getD {}).flags) 0 = true ∧ (r.asks.filter (fun a => !a.done) ≠ [] ∨ missed ≠ []) ∧
    ∀ c ∈ (KMap.getD s.slots k {}).batches, c.id % 2 ^ 32 = r.batch → c.extra = false

/-- The model's test of what a round misses is `roundAsks`. -/
theorem roundAsks_iff : roundAsks s k missed r ↔
    (!r.extra && !(KMap.getD s.slots k {}).batches.any (fun c => c.id % 2 ^ 32 = r.batch && c.extra) &&
      bit (((KMap.getD s.slots k {}).image.getD {}).flags) 0 &&
      (!(r.asks.filter (fun a => !a.done)).isEmpty || !missed.isEmpty)) = true := by
  simp only [roundAsks, Bool.and_eq_true, Bool.or_eq_true, Bool.not_eq_true', List.any_eq_false, List.isEmpty_eq_false_iff, decide_eq_true_eq,
    not_and, Bool.not_eq_true]
  constructor
  · rintro ⟨hextra, hflag, hmiss, hbatches⟩
    exact ⟨⟨⟨hextra, hbatches⟩, hflag⟩, hmiss⟩
  · rintro ⟨⟨⟨hextra, hbatches⟩, hflag⟩, hmiss⟩
    exact ⟨hextra, hflag, hmiss, hbatches⟩

/-- A round without what it missed: rows replaced, queries flagged (14 R400; 04 R125). -/
def settleMissed (k : Nat) (missed : List Nat) (embed : Bool) (r : ExRound) (s : State) : State :=
  let s := flagQueries missed (if embed then 8 else 16) ((r.asks.filter (fun a => !a.done)).foldl (fun s a => replaceRow k a s) (endWrites k r.writes s))
  if r.extra then flagQueries (r.ids.filter (fun i => !missed.contains i)) 2 s else s

theorem settleMissed_fab (k : Nat) (missed : List Nat) (embed : Bool) (r : ExRound) (s : State) : (settleMissed k missed embed r s).fab = s.fab := by
  have hrows : ((r.asks.filter (fun a => !a.done)).foldl (fun s a => replaceRow k a s) (endWrites k r.writes s)).fab = s.fab :=
    (foldl_frame State.fab (fun s a => replaceRow_fab k a s) _ _).trans (endWrites_fab k r.writes s)
  unfold settleMissed
  cases r.extra with
  | true => exact hrows
  | false => exact hrows

/-- A round closed: it is gone, and its batch counts as ended unless its stage is an EMBED stage (16 R465, R466). -/
def closeRound (k stage batch : Nat) (embed : Bool) (s : State) : State :=
  s.modFab (fun f => { f with rounds := f.rounds.filter (fun x => !isRound k stage batch x),
                              ended := if embed then f.ended else KMap.upd f.ended k 0 (fun e => max e (batch + 1)) })

theorem closeRound_rounds (k stage batch : Nat) (embed : Bool) (s : State) :
    ∀ x ∈ (closeRound k stage batch embed s).fab.rounds, isRound k stage batch x = false := fun x hx => by
  simpa using (List.mem_filter.mp hx).2

theorem closeRound_ended (k stage batch : Nat) (embed : Bool) (s : State) : KMap.getD (closeRound k stage batch embed s).fab.ended k 0 =
    if embed then KMap.getD s.fab.ended k 0 else max (KMap.getD s.fab.ended k 0) (batch + 1) := by
  cases embed with
  | true => rfl
  | false => exact KMap.getD_upd_same s.fab.ended k 0 (fun e => max e (batch + 1))

variable (hk : 4 * part + slot = k) (hround : s.fab.rounds.find? (fun r => r.slot = k && r.stage = stage && r.open_) = some r)

include hk hround

theorem exec_exchangeRoundEnd_early (hearly : s.clock.now < r.issued + 1000 * rwVal s 0x7000 0xA 90) :
    exec (.exchangeRoundEnd part slot stage missed) s = .next s := by
  subst hk
  change execExchangeRoundEnd part slot stage missed s = _
  simp only [execExchangeRoundEnd, hround, hearly, if_true]

variable (hdue : r.issued + 1000 * rwVal s 0x7000 0xA 90 ≤ s.clock.now)

include hdue

theorem exec_exchangeRoundEnd_asks (hasks : roundAsks s k missed r) : exec (.exchangeRoundEnd part slot stage missed) s =
    .next (startExtra k stage r.batch missed (r.asks.filter (fun a => !a.done)) (endWrites k r.writes s)) := by
  subst hk
  change execExchangeRoundEnd part slot stage missed s = _
  simp only [execExchangeRoundEnd, hround, Nat.not_lt.mpr hdue, if_false]
  exact if_pos (roundAsks_iff.mp hasks)

theorem exec_exchangeRoundEnd_ends (hasks : ¬roundAsks s k missed r) : exec (.exchangeRoundEnd part slot stage missed) s =
    .next (closeRound k stage r.batch ((nth ((KMap.getD s.slots k {}).image.getD {}).stages stage {}).kind = 1)
      (settleMissed k missed ((nth ((KMap.getD s.slots k {}).image.getD {}).stages stage {}).kind = 1) r s)) := by
  subst hk
  change execExchangeRoundEnd part slot stage missed s = _
  simp only [execExchangeRoundEnd, hround, Nat.not_lt.mpr hdue, if_false]
  exact if_neg (fun h => hasks (roundAsks_iff.mpr h))

end rounds

/-- Settles O40: the received WRITE by its four answers (16 R463, R465), the FM frames received and sent, and the end of a round by the test
`roundAsks`: the extra round where it holds, else a closed round, whose fabric only `closeRound` has changed. -/
theorem exchangeRounds : Obligations.ExchangeRounds := by
  refine ⟨fun s s' f htake => ?write, fun s s' f htake hroom => ?response, fun s pa tag data ht => ?frame, fun s part slot stage missed r => ?round⟩
  case write =>
    intro hit off n answered
    refine ⟨exec_exchangeWrite_of_no_slot htake, fun k sl hslot => ?_⟩
    intro area w tile a
    have hexec := exec_exchangeWrite_of_slot htake hslot
    have htakes := takeInbox_takes htake
    refine ⟨fun hpast => hexec.trans (congrArg _ (if_pos hpast)), fun hin hended => ?_, fun hin hopen hfirst hlast hlen => ?_⟩
    · exact hexec.trans (congrArg _ ((if_neg (Nat.not_lt.mpr hin)).trans (if_pos hended)))
    · have howned : ¬(ownerOf s 0 tile a != f.owner || ownerOf s 0 tile (a + n - 1) != f.owner) = true := by simp [hfirst, hlast]
      obtain ⟨hmem, hbytes, hout⟩ := writeTile_slice hlen tile a s'
      rw [htakes.mem] at hmem hout
      exact ⟨_, hexec.trans (congrArg _ ((if_neg (Nat.not_lt.mpr hin)).trans ((if_neg (Nat.not_lt.mpr hopen)).trans (if_neg howned)))),
        hmem, hbytes, hout⟩
  case response => exact ⟨_, exec_fmRsp htake hroom, KMap.getD_put_same _ _ _ _, (takeInbox_takes htake).mem⟩
  case frame =>
    intro s'
    exact ⟨fun h => domainRow_of_domainTaken ht (fmFrameOut_of_no_origin h), fun h hlen => domainRow_of_domainTaken ht (fmFrameOut_of_length h hlen),
      fun h hmin hmax => domainRow_of_domainTaken ht (fmFrameOut_of_frame h hmin hmax)⟩
  case round =>
    intro k hround im miss asks
    refine ⟨exec_exchangeRoundEnd_early rfl hround, fun hdue => ⟨exec_exchangeRoundEnd_asks rfl hround hdue, fun hasks =>
      ⟨_, exec_exchangeRoundEnd_ends rfl hround hdue hasks, closeRound_rounds k stage r.batch _ _, ?_⟩⟩⟩
    rw [closeRound_ended, settleMissed_fab]
    simp only [decide_eq_true_eq]
    rfl

end Sys2Proof.Machine
